-- ==== Sys2Proof/Word.lean ====
section
/-! DEFINITION. The words of the EB9144: 64-bit words of images, programs and registers (R6), bytes, and the unit
numbers of Table 0-1 and Table 2-8. -/

namespace Sys2Proof

/-- A 64-bit word: an instruction word, an image word, a rod (R6, R39). -/
abbrev Word := BitVec 64

/-- A byte of coordination memory (R195). -/
abbrev Byte := BitVec 8

/-- A port, 0–143 (Table 0-1, R10). -/
abbrev PortId := Fin 144

/-- A host view, 0–95 (Table 2-8). -/
abbrev ViewId := Fin 96

/-- A lane as tile × 76 + lane, 0–607: within a tile 0–71 are LN0–LN71 and 72–75 are SL0–SL3 (Table 2-8, R388). -/
abbrev LaneId := Fin 608

/-- A slot-power channel, 0–63 (Table 0-1). -/
abbrev SlotId := Fin 64

/-- A gate slot, 0–16,383 (Table 0-1). -/
abbrev GateSlot := Fin 16384

/-- A tenant, 0–8,191 (Table 2-8). -/
abbrev TenantId := Fin 8192

/-- A buffer bank, 0–1,279 (R114). -/
abbrev BankId := Fin 1280

/-- A cell of the buffer: bank × 2,048 plus its place in the bank (R93). -/
abbrev CellIdx := Fin 2621440

/-- A queue pair, 0–1,048,575 (Table 2-8). -/
abbrev QpId := Fin 1048576

end Sys2Proof
end

