-- ==== Sys2Proof/Syntax.lean ====
section
/-! DEFINITION. The commands of the EB9144: one constructor of `Instr` for each row of spec/opcode_table.json, with the
operands the rules name. A command that is one instruction of a Tally program names the program; the instruction's own
fields (R39) are read from the program's words. -/

namespace Sys2Proof

/-- A Tally queue (R30): the administrator queue or the fabric-manager queue of a view, or the management port's. -/
inductive QueueId where
  | admin (v : ViewId)
  | fm (v : ViewId)
  | mgmt
  deriving DecidableEq, Repr

/-- A TALLY_FWD fragment as the target receives it (R277, Table 10-8). `index` 0 carries the header. -/
structure FwdFragment where
  srcDev : Nat
  fwdId : Nat
  index : Nat
  count : Nat
  level : Nat
  view : Nat
  words : List Word
  deriving DecidableEq, Repr

/-- Kind of a packet (R94, Table 4-2). -/
inductive PktKind where
  | posted | nonPosted | completion | unordered
  deriving DecidableEq, Repr

/-- Type of a request or response as the gate and the responses of Table 5-10 tell them apart (R94, R188, Table 7-8). -/
inductive ReqType where
  | memRead | memWrite | atomicOp | config | idMessage | io | cxlReq | cxlRwD | cpl | cxlNdr | cxlDrs
  | lighterData | lighterResp | lighterAck | mgmtMsg | broadcast
  deriving DecidableEq, Repr

/-- What a packet is addressed to (R186): a virtual port of the view; the host of the sender's binding; a peer virtual port; on
a fabric port, where the header names the port, the function or logical device below it, the host, or the internal agent. -/
inductive Target where
  | vport (k bar offset len : Nat)
  | host
  | peer (k bar offset len : Nat)
  | fn (slot ld bar offset len : Nat)
  | agent
  deriving DecidableEq, Repr

/-- The fabric header of Table 5-1 (R120). -/
structure FabHdr where
  dstDev : Nat
  dstPort : Nat
  srcDev : Nat
  srcPort : Nat
  seq : Nat
  birth : Nat
  gen : Nat
  cls : Nat
  hop : Nat
  resend : Bool
  birthValid : Bool
  tenant : Nat
  deriving DecidableEq, Repr

/-- Status of a completion (R3, R147, R151, R191, R317). -/
inductive CplStatus where
  | success | completerAbort | unsupportedRequest | cxlPoison | cxlCmp
  deriving DecidableEq, Repr

/-- A packet as a link delivers it (R92): its kind, type, bytes in wire order, traffic class, target, requester and tag; a
completion's status; the sender's slot and logical device on a device port, and on a fabric port the requesting function's
slot (16,384 none) and the requesting view (0x7F none); the ECRC digest's check, EP and an IDE prefix if it has them; the
fabric header on a fabric port; the cells written so far (R109); and the further egress ports of a broadcast (R98). -/
structure PacketIn where
  kind : PktKind
  req : ReqType
  image : List Byte
  status : CplStatus
  tc : Nat
  target : Target
  requester : Nat
  tag : Nat
  slot : Nat
  ld : Nat
  view : Nat
  ecrcBad : Bool
  poison : Bool
  ide : Bool
  hdr : Option FabHdr
  written : Nat
  dests : List PortId
  deriving DecidableEq, Repr

/-- What the buffer read met in the packet (R111): nothing, a single-bit error that SECDED corrects, or a word that it cannot correct: in the
data of a cell, in its tag, or in the packet's descriptor. `word` is the word's place in its cell and `syn` the SECDED syndrome. -/
inductive CellError where
  | none
  | corrected (cell column : Nat)
  | data (cell word : Nat) (syn : BitVec 8)
  | tag (cell : Nat) (syn : BitVec 8)
  | descriptor (syn : BitVec 8)
  deriving DecidableEq, Repr

/-- What an egress meets as it begins a packet: the outcome of the buffer read (R111) and, on a host or device port, the kinds for which its link
has no credits now (R108, R157). -/
structure EgressTry where
  err : CellError
  starved : List PktKind
  deriving DecidableEq, Repr

/-- An egress: port 0–143, or 144 for the internal agent (R100). -/
abbrev EgressId := Fin 145

/-- A flow: ordered traffic of one source, destination and class (R132, R133). -/
structure FlowKey where
  srcDev : Nat
  srcPort : Nat
  dstDev : Nat
  dstPort : Nat
  cls : Nat
  deriving DecidableEq, Repr

/-- Body of TEARDOWN and of DELIVERY's first word (Table 10-8). -/
structure TeardownMsg where
  srcPort : Nat
  dstPort : Nat
  cls : Nat
  gen : Nat
  deriving DecidableEq, Repr

/-- One entry of a WITHDRAW message (Table 10-8). -/
structure WithdrawEntry where
  dev : Nat
  level : Nat
  restore : Bool
  deriving DecidableEq, Repr

/-- A completion that a port's link brings (R94, R148): a completion, an NDR or a DRS, the tag it answers, its status, its bytes in wire order,
EP, the cells written so far, and the cells that it takes. -/
structure CompletionIn where
  req : ReqType
  tag : Nat
  status : CplStatus
  image : List Byte
  poison : Bool
  written : Nat
  cells : List CellIdx
  deriving DecidableEq, Repr

/-- What a presence message of R149 says changed. -/
inductive PresenceKind where
  | presence (on : Bool)
  | dll (on : Bool)
  | attention
  | intx (on : Bool)
  deriving DecidableEq, Repr

/-- A presence, attention or INTx message for virtual port `k` of a view (R149). -/
structure PresenceMsg where
  view : ViewId
  k : Nat
  kind : PresenceKind
  deriving DecidableEq, Repr

/-- BIND_NOTICE (Table 10-8, R184). -/
structure BindNotice where
  slot : GateSlot
  ld : Nat
  viewDev : Nat
  hostView : Nat
  vport : Nat
  tenant : Nat
  hostPort : Nat
  deriving DecidableEq, Repr

/-- BIND_CONFIRM (Table 10-8, R184). -/
structure BindConfirm where
  slot : GateSlot
  ld : Nat
  port : Nat
  fnState : Nat
  deriving DecidableEq, Repr

/-- BIND_RESET (Table 10-8, R314). -/
structure BindResetMsg where
  slot : GateSlot
  ld : Nat
  hostView : Nat
  viewDev : Nat
  deriving DecidableEq, Repr

/-- What enumeration found at a slot (R192), with the sizes of its BARs in bytes, 0 for none. -/
structure FnIdent where
  vendor : Nat
  device : Nat
  mld : Bool
  bars : List Nat
  deriving DecidableEq, Repr

/-- An agent of coordination memory (R199): a view of this device, or a view of another device, with the port its requests
come from and the tenant they are attributed to (R120). -/
inductive Agent where
  | here (v : ViewId)
  | far (dev view port tenant : Nat)
  deriving DecidableEq, Repr

/-- The AtomicOps of R210. -/
inductive AtomicKind where
  | fetchAdd | swap | cas
  deriving DecidableEq, Repr

/-- A Lighter function with a DOORBELL (R216): the physical function of a view or the virtual function of a tenant. -/
inductive LighterFn where
  | pf (v : ViewId)
  | vf (t : TenantId)
  deriving DecidableEq, Repr

/-- A context of the Lighter engine (R245): a queue pair, a region entry or a completion queue. -/
inductive LtCtx where
  | qp (q : QpId)
  | region (i : Fin 4194304)
  | cq (c : Fin 262144)
  deriving DecidableEq, Repr

/-- A Lighter packet (Table 9-10) with its `E2eCheck`, and whether it came poisoned (R237 check 1). -/
structure LighterPkt where
  srcDev : Nat
  typ : Nat
  first : Bool
  last : Bool
  retransmit : Bool
  dstGen : Nat
  dstQp : QpId
  psn : Nat
  srcQp : Nat
  srcGen : Nat
  remoteKey : Nat
  offset : Nat
  aux : Nat
  immediate : Nat
  recvSeq : Nat
  payload : List Byte
  sack : BitVec 256
  e2e : Nat
  poisoned : Bool
  deriving DecidableEq, Repr

/-- What the responder's host answered: its receive-ring entry when one was fetched (R218), and the data and success of a
read or AtomicOp (R237 checks 9 to 11). -/
structure HostReply where
  entry : Option (List Word)
  success : Bool
  data : List Byte
  deriving DecidableEq, Repr

/-- A PAM4 level on a lane: −3, −1, +1 or +3 (R281). -/
inductive PamLevel where
  | m3 | m1 | p1 | p3
  deriving DecidableEq, Repr

/-- An INIT flit's payload (Table 10-5), with its validity under R258. -/
structure InitMsg where
  valid : Bool
  rate : Nat
  width : Nat
  port : Nat
  fabricId : Nat
  resume : Bool
  heard : Bool
  nextSeq : Nat
  ackSeq : Nat
  nonce : Nat
  deriving DecidableEq, Repr

/-- An alignment marker (Table 11-2), with whether its `MarkCrc` holds. -/
structure MarkerIn where
  crcOk : Bool
  markLane : Nat
  rxOk : Bool
  markCount : Nat
  steerTag : Nat
  steerCmd : Nat
  replacement : Bool
  steerSpare : Nat
  steerLane : Nat
  deriving DecidableEq, Repr

/-- The EB9144's own functions in a view (Table 12-3). -/
inductive ViewFn where
  | upstream
  | management
  | lighterPf
  | lighterVf (t : TenantId)
  deriving DecidableEq, Repr

/-- What a configuration request addresses (R307, R310): a routing ID of the view's own functions, counted from N:0; a device and
function of the secondary bus; or the function bound behind virtual port `k`. -/
inductive CfgTarget where
  | routing (off : Nat)
  | secondary (dev fn : Nat)
  | bound (k : Nat)
  deriving DecidableEq, Repr

/-- A configuration request of a view's host. -/
structure CfgReq where
  target : CfgTarget
  write : Bool
  reg : Nat
  value : BitVec 32
  tag : Nat
  deriving DecidableEq, Repr

/-- The requests of R317 that nothing in a view serves. -/
inductive UrKind where
  | memoryNoBar | ioRequest | vdmType0 | vdmType1 | translationRequest | atomicElsewhere
  deriving DecidableEq, Repr

/-- A request that R317 answers. -/
structure UrReq where
  kind : UrKind
  nonPosted : Bool
  tag : Nat
  deriving DecidableEq, Repr

/-- An MCTP message (R30, R318): the view whose host sent it over PCI Express or none for SMBus, its message type and vendor
ID, and the descriptor and program that a Tally message carries. -/
structure MctpIn where
  viaView : Option ViewId
  msgType : Nat
  vendor : Nat
  control : Bool
  desc : List Word
  code : List Word
  deriving DecidableEq, Repr

/-- The pins sampled when PWR_OK rises (R408, R409, R425). -/
structure Straps where
  slew : BitVec 2
  smbAddr : BitVec 2
  devRstHigh : Bool
  deriving DecidableEq, Repr

/-- What a lane under test has received since its last report (R299). -/
structure PrbsIn where
  lane : LaneId
  symbols : List PamLevel
  deriving DecidableEq, Repr

/-- The image slots of the boot flash as start-up reads them (R344). -/
structure BootFlash where
  slotA : List Byte
  slotB : List Byte
  deriving DecidableEq, Repr

/-- What the wear rings and the sensors of one die measure (R423): the frequency drop of the stressed ring in ppm, and the hottest sensor
in units of 0.125 °C. -/
structure DieReading where
  ppm : Nat
  temp : Int
  deriving DecidableEq, Repr

/-- What start-up steps 2 to 5 found (Table 13-9): the fuse check, the banks that failed step 4a, the SDRAM channels that
trained, and the lanes that the seed copy in use lists as replaced, with the seeds' IgnoreSeeds flag already applied. -/
structure StartResult where
  fuseOk : Bool
  badBanks : List BankId
  trained : List (Fin 12)
  ignoreSeeds : Bool
  dies : List DieReading
  deriving DecidableEq, Repr

/-- An event that a checker reports (R348, R351): its grade, checker ID, object and syndrome, and the Action code of what
the reporting block did itself (Table 14-4). -/
structure FaultIn where
  grade : Nat
  checker : Nat
  cls : Nat
  sel : Nat
  syn0 : Nat
  syn1 : Nat
  action : Nat
  deriving DecidableEq, Repr

/-- One conversion of a slot channel (R382). -/
structure SlotSample where
  slot : SlotId
  milliAmps : Nat
  outMv : Nat
  inMv : Nat
  deriving DecidableEq, Repr

/-- One conversion of a feed (R382). -/
structure FeedSample where
  feed : Fin 2
  tenMilliAmps : Nat
  inMv : Nat
  busMv : Nat
  deriving DecidableEq, Repr

/-- The commands: one constructor for each row of spec/opcode_table.json, in the table's order. -/
inductive Instr where
  /-- `TQ_TAIL_DOORBELL` (R34). A write of TQ_TAIL advances the ring tail and rings the doorbell, or is ignored with
  FetchError set if the value is not below the ring size. -/
  | tqTailDoorbell (q : QueueId) (value : BitVec 32)
  /-- `TQ_SIZE_WRITE` (R34). A write of TQ_SIZE sets Enable and Log2Entries, or is ignored with FetchError set while
  the queue is enabled or has programs in flight; clearing Enable stops further fetches. -/
  | tqSizeWrite (q : QueueId) (value : BitVec 32)
  /-- `TQ_BASE_WRITE` (R34). A write of TQ_BASE sets the ring base only while Enable and InFlight are both 0, and
  otherwise is ignored with FetchError set. -/
  | tqBaseWrite (q : QueueId) (value : Word)
  /-- `TQ_ABORT_GO` (R63). Writing Go in TQ_ABORT requests an abort of the program in the named descriptor; the
  outcome is ABORTED, ALREADY_COMMITTED or NOOBJ. -/
  | tqAbortGo (q : QueueId) (value : BitVec 32)
  /-- `REGISTER_WRITE` (R8). A write of a register field that has no row of its own acts according to the field's
  access code. -/
  | registerWrite (v : ViewId) (offset : Nat) (value : Word)
  /-- `PROGRAM_FETCH_COMPLETE` (R38). The Tallyman has read a descriptor and its program by DMA and makes the
  acceptance checks in order. -/
  | programFetchComplete (q : QueueId) (desc : Option (List Word)) (code : Option (List Word))
  /-- `PROGRAM_START` (R35). An accepted program takes a free execution slot, in order of arrival, and begins to
  run. -/
  | programStart (prog : Nat)
  /-- `INSTRUCTION_LIMIT_TIMEOUT` (R55). A program that has executed 1,048,576 instructions without ending ends with
  TIMEOUT. -/
  | instructionLimitTimeout (prog : Nat)
  /-- `NOP` (R54). The NOP instruction has no effect. -/
  | nop (prog : Nat)
  /-- `HALT` (R54). The HALT instruction ends the program with OK. -/
  | halt (prog : Nat)
  /-- `BEGIN` (R46). The BEGIN instruction opens the transaction, after which object instructions are staged. -/
  | beginTx (prog : Nat)
  /-- `COMMIT` (R47). The COMMIT instruction checks the recorded versions, then writes the logbook entry and applies
  every staged change in one core clock, or ends with CONFLICT. -/
  | commit (prog : Nat)
  /-- `ABORT` (R54). The ABORT instruction discards the staged changes and ends the program with ABORTED. -/
  | abort (prog : Nat)
  /-- `AT` (R49). The AT instruction parks the program until tide reaches an absolute instant, or ends it with LATE
  or NOTIDE. -/
  | atTide (prog : Nat)
  /-- `WAITTIDE` (R49). The WAITTIDE instruction parks the program for a number of tide ticks. -/
  | waitTide (prog : Nat)
  /-- `PARKED_PROGRAM_DUE` (R35). The instant of a parked program arrives, and the program takes the next free slot,
  or goes straight to its commit point. -/
  | parkedProgramDue (prog : Nat)
  /-- `JMP` (R54). The JMP instruction continues execution at word Imm. -/
  | jmp (prog : Nat)
  /-- `BZ` (R54). The BZ instruction branches to word Imm if Src is zero. -/
  | bz (prog : Nat)
  /-- `BNZ` (R54). The BNZ instruction branches to word Imm if Src is not zero. -/
  | bnz (prog : Nat)
  /-- `BLT` (R54). The BLT instruction branches to word Imm if Src, read as signed, is negative. -/
  | blt (prog : Nat)
  /-- `LDI` (R54). The LDI instruction loads Imm into Dst, or into its upper half when HI is set. -/
  | ldi (prog : Nat)
  /-- `MOV` (R54). The MOV instruction copies Src into Dst. -/
  | mov (prog : Nat)
  /-- `ADD` (R54). The ADD instruction adds the operand to Dst, modulo 2^64. -/
  | add (prog : Nat)
  /-- `SUB` (R54). The SUB instruction subtracts the operand from Dst, modulo 2^64. -/
  | sub (prog : Nat)
  /-- `AND` (R54). The AND instruction takes the bitwise AND of Dst and the operand. -/
  | andOp (prog : Nat)
  /-- `OR` (R54). The OR instruction takes the bitwise OR of Dst and the operand. -/
  | orOp (prog : Nat)
  /-- `XOR` (R54). The XOR instruction takes the bitwise exclusive OR of Dst and the operand. -/
  | xorOp (prog : Nat)
  /-- `SHL` (R54). The SHL instruction shifts Dst left by operand bits [5:0]. -/
  | shl (prog : Nat)
  /-- `SHR` (R54). The SHR instruction shifts Dst right logically by operand bits [5:0]. -/
  | shr (prog : Nat)
  /-- `CMP` (R54). The CMP instruction sets Dst to −1, 0 or 1 by a signed comparison of Dst with the operand. -/
  | cmp (prog : Nat)
  /-- `SYNC_COMMITS` (R55). SYNC with Sub 0 waits until every commit so far has taken effect in every block. -/
  | syncCommits (prog : Nat)
  /-- `SYNC_QUEUE` (R55). SYNC with Sub 1 waits until every earlier program of its queue has ended. -/
  | syncQueue (prog : Nat)
  /-- `SYNC_COMPLETE` (R55). The condition that a SYNC waits for is met, and its program continues. -/
  | syncComplete (prog : Nat)
  /-- `LOGNOTE` (R65). The LOGNOTE instruction writes a Note entry into the logbook. -/
  | logNote (prog : Nat)
  /-- `OREAD` (R57). The OREAD instruction reads one word of an object image, or the object's version, into Dst. -/
  | oread (prog : Nat)
  /-- `OWRITE` (R57). The OWRITE instruction writes the masked bits of one word of an object image, where the word
  has no row of its own. -/
  | owrite (prog : Nat)
  /-- `OCAS` (R57). The OCAS instruction compares one object word with an expected value and swaps in a new value if
  they are equal. -/
  | ocas (prog : Nat)
  /-- `PORTCFG` (R12). The PORTCFG instruction sets a port's role, width, rate, clocking, CXL and spill in word 0 of
  every port of the link. -/
  | portCfg (prog : Nat)
  /-- `PORTSTATE_ENABLE` (R426). PORTSTATE action 0 starts link bring-up on a disabled port. -/
  | portStateEnable (prog : Nat)
  /-- `PORTSTATE_DISABLE` (R426). PORTSTATE action 1 takes the link down and keeps it down, draining a fabric port
  first. -/
  | portStateDisable (prog : Nat)
  /-- `PORTSTATE_RETRAIN` (R426). PORTSTATE action 2 retrains a host or device link, or starts a fast retrain on a
  fabric link. -/
  | portStateRetrain (prog : Nat)
  /-- `PORTSTATE_HOT_RESET` (R426). PORTSTATE action 3 hot-resets a device port's link and every function below it.
  -/
  | portStateHotReset (prog : Nat)
  /-- `PORTSTATE_OUT_OF_SERVICE` (R426). PORTSTATE action 4 takes a port out of service and withdraws its routes. -/
  | portStateOutOfService (prog : Nat)
  /-- `PORTSTATE_BACK_IN_SERVICE` (R426). PORTSTATE action 5 returns a port to service and reinstates its paths. -/
  | portStateBackInService (prog : Nat)
  /-- `ROUTE` (R123). The ROUTE instruction sets a route's Valid bit and path group. -/
  | route (prog : Nat)
  /-- `PATHGRP` (R125). The PATHGRP instruction sets a path group's member list and starts its equal-weight period.
  -/
  | pathGrp (prog : Nat)
  /-- `WITHDRAW` (R140). WITHDRAW with Restore 0 withdraws a fabric port's paths, and the link drains. -/
  | withdraw (prog : Nat)
  /-- `WITHDRAW_RESTORE` (R145). WITHDRAW with Restore 1 reinstates a port's paths at once. -/
  | withdrawRestore (prog : Nat)
  /-- `TENANT_CREATE` (R174). TENANT action 0 creates a tenant with its HomeView and Lighter virtual function. -/
  | tenantCreate (prog : Nat)
  /-- `TENANT_DELETE` (R174). TENANT action 1 deletes a tenant whose every Use is 0. -/
  | tenantDelete (prog : Nat)
  /-- `TENANT_SUSPEND` (R189). TENANT action 2 suspends a tenant so that its requests and the requests to its
  functions are refused. -/
  | tenantSuspend (prog : Nat)
  /-- `TENANT_RESUME` (R174). TENANT action 3 resumes a suspended tenant. -/
  | tenantResume (prog : Nat)
  /-- `TENANT_RESET` (R190). TENANT action 4 resets the tenant's functions and queue pairs, and discards its
  buffered coordination-memory stores. -/
  | tenantReset (prog : Nat)
  /-- `TENANT_RESET_END` (R190). Every step of a tenant reset has completed, or timed out, and the TENANT
  instruction ends. -/
  | tenantResetEnd (t : TenantId)
  /-- `BIND` (R183). The BIND instruction writes a binding word of a function on the home side, the view side or
  both. -/
  | bindFn (prog : Nat)
  /-- `UNBIND` (R185). The UNBIND instruction drains the record's outstanding requests, then closes its entries and
  clears its bindings, at once with FORCE. -/
  | unbindFn (prog : Nat)
  /-- `UNBIND_DRAIN_DONE` (R62). The drain that an UNBIND waits for ends, and the UNBIND completes its closing
  steps. -/
  | unbindDrainDone (prog : Nat)
  /-- `UNBIND_DRAIN_TIMEOUT` (R62). The 10 ms drain wait of an UNBIND without FORCE runs out, and the instruction
  ends with TIMEOUT having changed nothing. -/
  | unbindDrainTimeout (prog : Nat)
  /-- `GATESET` (R187). The GATESET instruction writes one gate entry of a function or coordination-memory window.
  -/
  | gateSet (prog : Nat)
  /-- `RESIZE` (R175). The RESIZE instruction sets a tenant's quota for one resource, reclaiming objects when FORCE
  is set. -/
  | resizeQuota (prog : Nat)
  /-- `METER` (R169). The METER instruction writes a meter's mode, rates and bucket sizes. -/
  | meter (prog : Nat)
  /-- `SCHED` (R161). The SCHED instruction writes an egress queue's weight, burst and shaper. -/
  | sched (prog : Nat)
  /-- `QPCTL_CREATE` (R228). QPCTL action 0 creates a queue pair in Init, or in Ready if its peer is given. -/
  | qpCreate (prog : Nat)
  /-- `QPCTL_MODIFY` (R228). QPCTL action 1 modifies a queue pair's context, moving it as Table 9-8 allows. -/
  | qpModify (prog : Nat)
  /-- `QPCTL_FLUSH` (R228). QPCTL action 2 flushes a queue pair into Error. -/
  | qpFlush (prog : Nat)
  /-- `QPCTL_DESTROY` (R228). QPCTL action 3 destroys a queue pair. -/
  | qpDestroy (prog : Nat)
  /-- `REGION` (R229). The REGION instruction registers a region and returns its key. -/
  | region (prog : Nat)
  /-- `REVOKE` (R230). The REVOKE instruction bumps a region's generation and starts its revocation. -/
  | revoke (prog : Nat)
  /-- `REVOKE_COMPLETE` (R230). A revocation completes within 10 µs, flushing the region's translations and
  deregistering the region. -/
  | revokeComplete (r : Fin 4194304)
  /-- `CQCTL_CREATE` (R224). CQCTL action 0 creates a completion queue. -/
  | cqCreate (prog : Nat)
  /-- `CQCTL_DESTROY` (R224). CQCTL action 1 destroys a completion queue. -/
  | cqDestroy (prog : Nat)
  /-- `CQCTL_RESIZE` (R224). CQCTL action 2 replaces a completion queue's ring while it is empty. -/
  | cqResize (prog : Nat)
  /-- `SLOTPWR_OFF` (R379). SLOTPWR action 0 switches a slot off. -/
  | slotPwrOff (prog : Nat)
  /-- `SLOTPWR_ON` (R379). SLOTPWR action 1 records a power-on request for a slot. -/
  | slotPwrOn (prog : Nat)
  /-- `SLOTPWR_POWER_CYCLE` (R379). SLOTPWR action 2 switches a slot off and leaves a power-on request pending. -/
  | slotPwrCycle (prog : Nat)
  /-- `SLOTPWR_SET_LIMITS` (R379). SLOTPWR action 3 writes a slot's limits image. -/
  | slotPwrLimits (prog : Nat)
  /-- `BUDGET` (R384). The BUDGET instruction sets the lane grant rate, the slot ramp limit and the board budget. -/
  | budget (prog : Nat)
  /-- `OVERLAY_STORE` (R84). OVERLAY action 0 checks an overlay image, evaluates it and stores its shadow image. -/
  | overlayStore (prog : Nat) (image : Option (List Word))
  /-- `OVERLAY_APPLY` (R85). OVERLAY action 1 puts the named overlay into effect in place of the active one. -/
  | overlayApply (prog : Nat)
  /-- `OVERLAY_REMOVE` (R85). OVERLAY action 2 takes the active overlay out of effect. -/
  | overlayRemove (prog : Nat)
  /-- `OVERLAY_DELETE` (R85). OVERLAY action 3 frees an inactive overlay index. -/
  | overlayDelete (prog : Nat)
  /-- `SNAP` (R393). The SNAP instruction arms a snapshot set for capture at a tide instant. -/
  | snap (prog : Nat)
  /-- `QUERY` (R59). The QUERY instruction writes records and images of objects from the selector onward to host
  memory. -/
  | query (prog : Nat)
  /-- `INJECT` (R361). The INJECT instruction arms a checker to corrupt the check bits of its next Count writes. -/
  | inject (prog : Nat)
  /-- `FAULTACK` (R354). The FAULTACK instruction marks a fault record Acked, and with Release lifts the containment
  it caused. -/
  | faultAck (prog : Nat)
  /-- `DEVICE_FABRIC_ID_WRITE` (R61). An OWRITE of Device.FabricId sets the device's fabric ID while no fabric link
  is up. -/
  | deviceFabricIdWrite (prog : Nat)
  /-- `DEVICE_RESET_REQUEST` (R341). An OWRITE of Device word 12 with Action 1 schedules a device reset with cause
  2. -/
  | deviceResetRequest (prog : Nat)
  /-- `ORDERLY_POWER_DOWN` (R345). An OWRITE of Device word 12 with Action 2 stops fetches, drains held stores,
  writes seed records and lowers DEV_READY. -/
  | orderlyPowerDown (prog : Nat)
  /-- `INJECT_ARM_WRITE` (R60). An OWRITE of InjectArmUntil arms injection until a tide instant at most 60 s ahead.
  -/
  | injectArmWrite (prog : Nat)
  /-- `BANK_TARGET_STATE` (R115). An OWRITE of a buffer bank's TargetState moves the bank toward in service or out
  of service. -/
  | bankTargetState (prog : Nat)
  /-- `BANK_TEST` (R115). An OWRITE of Test on an out-of-service bank starts its march test. -/
  | bankTest (prog : Nat)
  /-- `BANK_TEST_END` (R115). A bank's march test ends, setting TestResult and clearing Test. -/
  | bankTestEnd (b : BankId) (pass : Bool)
  /-- `BANK_DRAINED` (R115). The last cell of a draining bank is freed, and the bank leaves the pool as out of
  service or retired. -/
  | bankDrained (b : BankId)
  /-- `LANE_TARGET_STATE` (R298). An OWRITE of a lane's TargetState moves its streams onto spares, takes its port
  out of service, or reverses that. -/
  | laneTargetState (prog : Nat)
  /-- `LANE_TEST_CONFIG` (R299). An OWRITE of Loop, GenPattern or CheckPattern on an out-of-service lane starts a
  loopback or PRBS test. -/
  | laneTestConfig (prog : Nat)
  /-- `LANE_CLEAR_CHECK` (R297). Writing ClearCheck zeroes a lane's checked and error bit counts. -/
  | laneClearCheck (prog : Nat)
  /-- `PRBS_CHECK_LOCK` (R299). The PRBS checker makes 64 consecutive correct predictions, sets CheckLock and starts
  counting. -/
  | prbsCheckLock (x : PrbsIn)
  /-- `MARGIN_GO` (R300). Writing MarginGo starts an eye measurement on the lane's second slicer. -/
  | marginGo (prog : Nat)
  /-- `MARGIN_DONE` (R300). An eye measurement ends, and the margins and MarginDone are set. -/
  | marginDone (l : LaneId) (left right : BitVec 16) (up down : BitVec 8)
  /-- `LANE_TAP_WRITE` (R288). An OWRITE of a fabric lane's transmit taps takes effect at its next marker boundary.
  -/
  | laneTapWrite (prog : Nat)
  /-- `SLOT_TEST` (R378). Writing Test on an out-of-service slot starts its self-test. -/
  | slotTest (prog : Nat)
  /-- `SLOT_TEST_END` (R378). A slot self-test ends and sets TestResult. -/
  | slotTestEnd (n : SlotId) (pass : Bool)
  /-- `SLOT_TARGET_STATE` (R370). An OWRITE of a slot's TargetState takes it out of service as an off, or returns it
  to Dwell. -/
  | slotTargetState (prog : Nat)
  /-- `SLOT_AUTO_ON_SET` (R369). A commit that sets AutoOn on a present, idle slot creates a power-on request. -/
  | slotAutoOnSet (prog : Nat)
  /-- `SLOT_CLEAR_ENERGY` (R378). Writing ClearEnergy sets a slot's EnergyUj to 0. -/
  | slotClearEnergy (prog : Nat)
  /-- `SLOT_PEAK_CLEAR` (R378). Writing PeakMa clears a slot's peak current. -/
  | slotPeakClear (prog : Nat)
  /-- `FEED_TARGET_STATE` (R381). An OWRITE of a feed's TargetState takes it out of service while the other feed
  conducts, or returns it. -/
  | feedTargetState (prog : Nat)
  /-- `METER_CLEAR_COUNTS` (R168). Writing ClearCounts sets a meter's four counters to 0. -/
  | meterClearCounts (prog : Nat)
  /-- `SCHEDQ_MAX_CLEAR` (R160). Writing MaxDepthCells or MaxHeadDelay clears that peak value. -/
  | schedqMaxClear (prog : Nat)
  /-- `TEMP_PEAK_RESET` (R423). Writing TempPeak sets it to TempNow. -/
  | tempPeakReset (prog : Nat)
  /-- `TIDE_SOURCE_SET` (R331). An OWRITE of the TideUnit Source or SourcePort starts, changes or stops tide
  discipline. -/
  | tideSourceSet (prog : Nat)
  /-- `SDRAM_CHANNEL_OUT_OF_SERVICE` (R26). Taking an SDRAM channel out of service first migrates its contents to
  the remaining channels, then releases it. -/
  | sdramOutOfService (prog : Nat)
  /-- `SDRAM_MIGRATION_DONE` (R26). A channel's migration ends, the channel is released, and the spill limit is
  recomputed. -/
  | sdramMigrationDone (ch : Fin 12)
  /-- `HOST_VIEW_WRITE` (R179). An OWRITE of a host view's Port, OwnerTenant or FmQueue changes the view under the
  conditions of its field map. -/
  | hostViewWrite (prog : Nat)
  /-- `SLOT_RANGE_WRITE` (R181). An OWRITE of Port word 38 sets the port's gate slot range. -/
  | slotRangeWrite (prog : Nat)
  /-- `SNAPSHOT_SET_WRITE` (R392). An OWRITE of an idle snapshot set defines its counter ranges. -/
  | snapshotSetWrite (prog : Nat)
  /-- `TELEMETRY_RING_WRITE` (R397). An OWRITE of a telemetry ring descriptor configures, enables or disables the
  ring. -/
  | telemetryRingWrite (prog : Nat)
  /-- `RX_POOL_WRITE` (R267). An OWRITE of RxPoolUnits sets aside buffer cells for a fabric port's credit pool. -/
  | rxPoolWrite (prog : Nat)
  /-- `TALLY_FWD_RECEIVED` (R277). The target receives a TALLY_FWD fragment and, once the program is whole, makes
  checks 5 and 6. -/
  | tallyFwdReceived (m : FwdFragment)
  /-- `TALLY_FRAGMENT_TIMEOUT` (R277). A target that misses a fragment for 1 ms discards the fragments it holds. -/
  | tallyFragmentTimeout (srcDev fwdId : Nat)
  /-- `TALLY_ACCEPT_RECEIVED` (R52). The issuing device receives the acceptance of a forwarded program and then
  waits for its final status. -/
  | tallyAcceptReceived (fwdId : Nat)
  /-- `TALLY_RESULT_RECEIVED` (R52). The issuing device receives the final result of a forwarded program and
  completes its descriptor. -/
  | tallyResultReceived (fwdId : Nat) (result logSeq : Word) (rods : List Word)
  /-- `FORWARD_ACCEPT_TIMEOUT` (R52). No acceptance arrives within the forward acceptance time, and the descriptor
  completes with TIMEOUT. -/
  | forwardAcceptTimeout (fwdId : Nat)
  /-- `LB_MIRROR_CTRL_WRITE` (R75). A write of LB_MIRROR_CTRL is taken whole or ignored whole, starting, changing or
  stopping the mirror. -/
  | lbMirrorCtrlWrite (v : ViewId) (value : BitVec 32)
  /-- `LB_MIRROR_BASE_WRITE` (R75). A write of LB_MIRROR_BASE sets the mirror ring base only while Mode is 0, and
  otherwise sets Error. -/
  | lbMirrorBaseWrite (v : ViewId) (value : Word)
  /-- `LOGBOOK_SDRAM_COPY` (R71). The SDRAM copy of an on-die logbook entry is written within 10 µs. -/
  | logbookSdramCopy
  /-- `MIRROR_WRITE` (R75). A mirrored logbook entry is delivered to the host ring, or is dropped and counted in
  Skipped if the mirror lag runs out. -/
  | mirrorWrite (v : ViewId) (delivered : Bool)
  /-- `LB_EXPORT_GO` (R76). Writing Go in LB_EXPORT_CTRL starts an export of the permitted logbook entries. -/
  | lbExportGo (v : ViewId) (value : BitVec 32)
  /-- `EXPORT_END` (R76). An export ends at its count, at the head, at an overrun or at an undeliverable write, and
  clears Busy and sends MSI-X vector 3. -/
  | exportEnd (v : ViewId) (covered : Nat) (undeliverable : Bool)
  /-- `BASE_CONFIGURATION` (R79). After a reset, the device reinitialises every object, runs the base-configuration
  programs in order and writes BaseDone. -/
  | baseConfiguration (flash : BootFlash)
  /-- `BASE_DONE` (R79). The base configuration ends, the BaseDone entry is written and DEV_READY is asserted. -/
  | baseDone
  /-- `PACKET_RECEIVED` (R92). A packet is received whole on a port, cut into cells and looked up. -/
  | packetReceived (p : PortId) (pk : PacketIn) (cells : List CellIdx)
  /-- `HELD_PACKET_REEVALUATE` (R102). A held packet is evaluated again in a later core clock and is admitted once a
  source can take it. -/
  | heldPacketReevaluate (pkt : Nat) (cells : List CellIdx)
  /-- `EGRESS_PACKET_BEGIN` (R157). A free egress port chooses an eligible queue and an ingress port and begins
  sending a packet's cells. -/
  | egressPacketBegin (p : EgressId) (x : EgressTry)
  /-- `CROSSBAR_CRC_SECOND_READ` (R112). A cell fails its crossbar CRC-16 and is read once more from the buffer. -/
  | crossbarSecondRead (p : EgressId) (cell : Nat) (ok : Bool)
  /-- `CUT_THROUGH_PAUSE` (R110). The ingress link stalls inside a cut-through packet, and the egress pauses that
  packet. -/
  | cutThroughPause (p : EgressId)
  /-- `CUT_THROUGH_RESUME` (R110). A paused cut-through packet's cells arrive, and its egress resumes. -/
  | cutThroughResume (p : EgressId) (cells : Nat)
  /-- `PACKET_CELLS_FREED` (R100). The last egress read of a packet completes, and its cells return to the pool that
  supplied them. -/
  | packetCellsFreed (p : EgressId)
  /-- `FREE_LIST_AUDIT_PASS` (R113). An audit pass returns to the free list the cells that have stayed unreached for
  two passes. -/
  | freeListAuditPass
  /-- `CONGESTION_UPDATE` (R129). Every 1 µs each path-group member receives a new congestion level and weight. -/
  | congestionUpdate
  /-- `EQUAL_WEIGHT_PERIOD_END` (R131). 100 µs after a group becomes active, its members take their computed weights
  and ColdStart clears. -/
  | equalWeightPeriodEnd (g : Fin 16384)
  /-- `SEND_RECORD_SILENCE_CLOSE` (R132). A send record with no packet for 5 ms closes. -/
  | sendRecordSilenceClose (flow : FlowKey)
  /-- `REORDER_PACKET_ARRIVAL` (R133). An ordered packet reaches its destination edge and is handled by the receive
  record: created, delivered, held or discarded. -/
  | reorderPacketArrival (pkt : Nat)
  /-- `GAP_TIMER_EXPIRY` (R137). A flow's gap timer reaches GapLimitUs, and the destination edge tears the flow
  down. -/
  | gapTimerExpiry (flow : FlowKey)
  /-- `RECEIVE_RECORD_SILENCE_FREE` (R133). An open receive record with no packet for 10 ms is freed. -/
  | receiveRecordSilenceFree (flow : FlowKey)
  /-- `TEARDOWN_RECEIVED` (R138). The source edge receives a teardown notice, closes the send record, aborts the
  flow's requests and contains the pair. -/
  | teardownReceived (dstDev : Nat) (m : TeardownMsg)
  /-- `FABRIC_PORT_FAILURE` (R139). A fabric port is treated as failed, its MemberLive bits are cleared, queued
  packets are re-steered and withdrawals are sent. -/
  | fabricPortFailure (p : PortId)
  /-- `WITHDRAW_MESSAGE_RECEIVED` (R140). A WITHDRAW message sets or clears exclusions, which the device checks and
  passes on. -/
  | withdrawMessageReceived (p : PortId) (entries : List WithdrawEntry)
  /-- `REPLAY_RESEND` (R141). A failed port's unacknowledged packets are re-sent with Resend set over the remaining
  members. -/
  | replayResend (p : PortId)
  /-- `SPILLED_RESEND` (R141). Replay entries that were spilled to SDRAM are read back and re-sent after the on-die
  contents. -/
  | spilledResend (p : PortId)
  /-- `AUTO_RESTORE_EXPIRY` (R145). A returned link has run for AutoRestoreMs, its MemberLive bits are set and
  restores are sent. -/
  | autoRestoreExpiry (p : PortId)
  /-- `COMPLETION_RECEIVED` (R148). A completion is matched to its outstanding-request entry and returned to the
  original requester, or is discarded and counted. -/
  | completionReceived (p : PortId) (c : CompletionIn)
  /-- `EDGE_LINK_DOWN_CLOSE` (R3). A single-attached edge link goes down, and every entry on it is closed with
  Completer Abort within 5 µs. -/
  | edgeLinkDownClose (p : PortId)
  /-- `REMOTE_CM_READ_TIMEOUT` (R150). A remote coordination-memory read is unanswered for 50 µs, and the host
  receives Completer Abort. -/
  | remoteCmReadTimeout (entry : Nat)
  /-- `PRESENCE_MESSAGE_RECEIVED` (R149). A presence, attention or INTx message from a device port reaches the host
  port's device and is applied to the virtual downstream port. -/
  | presenceMessageReceived (m : PresenceMsg)
  /-- `BIND_NOTICE_RECEIVED` (R184). The home device receives a binding notice and sets Matched and confirms it, or
  counts a mismatch. -/
  | bindNoticeReceived (m : BindNotice)
  /-- `BIND_CONFIRM_RECEIVED` (R184). The view device receives a binding confirmation and sets Matched and Port in
  its view-side record. -/
  | bindConfirmReceived (homeDev : Nat) (m : BindConfirm)
  /-- `BIND_RESET_RECEIVED` (R314). The home device receives a BIND_RESET, resets the function, closes its entries
  and bumps the generation. -/
  | bindResetReceived (m : BindResetMsg)
  /-- `DELIVERY_RECEIVED` (R204). A delivery notice makes tracked writes visible for barrier accounting. -/
  | deliveryReceived (dstDev : Nat) (m : TeardownMsg) (latestSeq : Nat)
  /-- `METER_EPOCH_END` (R164). At each tide multiple of 1,024, every meter and shaper bucket is refilled. -/
  | meterEpochEnd
  /-- `SAMPLE_INSTANT` (R170). At a sampling epoch, each queue records its depth and head delay and telemetry
  records are produced. -/
  | sampleInstant
  /-- `TELEMETRY_HOST_WRITE` (R398). A staged telemetry record is written to the host ring. -/
  | telemetryHostWrite (r : Fin 8)
  /-- `FLR_COMPLETION_POLL` (R190). A bound function's reset is found complete when a Vendor ID read returns a
  successful completion. -/
  | flrCompletionPoll (g : GateSlot) (success : Bool)
  /-- `FLR_TIMEOUT` (R190). A function's reset has not completed 1,000 ms after its issue, and the function is
  contained at Grade 1. -/
  | flrTimeout (g : GateSlot) (ld : Nat)
  /-- `DEVICE_PORT_PRESENCE_LOSS` (R192). A device port loses presence, and its functions are contained, their
  entries closed and their generations bumped. -/
  | devicePortPresenceLoss (p : PortId)
  /-- `FUNCTION_ENUMERATED` (R192). A new insertion is enumerated, and each function's state and containment are set
  by its identifiers. -/
  | functionEnumerated (p : PortId) (bus devfn : Nat) (found : Option FnIdent)
  /-- `CM_POSTED_WRITE` (R201). A posted write from a host enters the view's write buffer as a held or tracked
  entry, or waits while the buffer is full. -/
  | cmPostedWrite (a : Agent) (offset : Nat) (data : List Byte) (cells : List CellIdx)
  /-- `HELD_STORE_APPLIED` (R202). A held store is applied to coordination memory at one instant in the common
  order. -/
  | heldStoreApplied (v : ViewId) (line : Nat)
  /-- `CM_READ` (R203). A read of coordination memory returns bytes merged with the agent's own held stores. -/
  | cmRead (a : Agent) (offset len tag : Nat) (cells : List CellIdx)
  /-- `RESERVED_LOAD` (R207). A read in the alias applies the agent's held stores to the line, reads it and sets the
  agent's reservation. -/
  | reservedLoad (v : ViewId) (offset len tag : Nat)
  /-- `CONDITIONAL_STORE_APPLIED` (R208). A conditional store succeeds or fails by the reservation, and the
  conditional-store status advances. -/
  | conditionalStoreApplied (v : ViewId) (line : Nat)
  /-- `RESERVATION_EXPIRY` (R209). A reservation reaches its 100 µs lifetime and ends. -/
  | reservationExpiry (a : Agent)
  /-- `CM_ATOMIC_OP` (R210). An AtomicOp is performed at one instant on a coordination-memory line, and the old
  value is returned. -/
  | cmAtomicOp (a : Agent) (op : AtomicKind) (offset size : Nat) (operand1 operand2 : Nat) (tag : Nat) (cells : List CellIdx)
  /-- `TRACKED_WRITE_VISIBLE` (R204). A tracked write becomes visible when its link partner acknowledges it. -/
  | trackedWriteVisible (v : ViewId) (id : Nat)
  /-- `CM_BARRIER` (R205). A write of CM_BARRIER closes a barrier epoch, or waits while eight barriers are pending.
  -/
  | cmBarrier (v : ViewId) (value : BitVec 32)
  /-- `BARRIER_COMPLETE` (R205). Every write of a barrier's epoch has become visible or been discarded, and the
  barrier completes. -/
  | barrierComplete (v : ViewId)
  /-- `CM_BARRIER_STATUS_READ` (R206). A read of CM_BARRIER_STATUS is held while barriers are pending, up to the
  hold limit. -/
  | cmBarrierStatusRead (v : ViewId) (tag : Nat)
  /-- `BARRIER_STATUS_HOLD_EXPIRY` (R206). A held CM_BARRIER_STATUS read reaches its hold limit and returns the
  current value. -/
  | barrierStatusHoldExpiry (v : ViewId)
  /-- `CM_SC_STATUS_READ` (R208). A read of CM_SC_STATUS is answered once every earlier conditional store of the
  view has been resolved. -/
  | cmScStatusRead (v : ViewId) (tag : Nat)
  /-- `TIDE_NOW_READ` (R311). A read of TIDE_NOW returns the tide count, latching the upper half on a 4-byte read.
  -/
  | tideNowRead (v : ViewId) (upper : Bool) (size tag : Nat)
  /-- `DOORBELL_SEND_QUEUE` (R217). A doorbell of kind 0 replaces a send queue's producer index, or is discarded and
  counted. -/
  | doorbellSend (f : LighterFn) (whole : Bool) (value : Word)
  /-- `DOORBELL_RECEIVE_QUEUE` (R217). A doorbell of kind 1 replaces a receive queue's producer index. -/
  | doorbellRecv (f : LighterFn) (whole : Bool) (value : Word)
  /-- `DOORBELL_CQ_ARM` (R226). A doorbell of kind 2 records the consumer index and arms the completion queue's
  interrupt. -/
  | doorbellCqArm (f : LighterFn) (whole : Bool) (value : Word)
  /-- `DOORBELL_CQ_CONSUMER` (R226). A doorbell of kind 3 records a completion queue's consumer index. -/
  | doorbellCqConsumer (f : LighterFn) (whole : Bool) (value : Word)
  /-- `WORK_REQUEST_START` (R219). The engine fetches and checks a work request and starts it, or completes it with
  an error. -/
  | workRequestStart (q : QpId) (wr : Option (List Word))
  /-- `CONTEXT_MISS_FILL` (R245). A missing context arrives from SDRAM, and the waiting queue pair or packet goes
  on. -/
  | contextMissFill (c : LtCtx)
  /-- `LIGHTER_PACKET_SEND` (R235). The requester sends the next sequence number of a queue pair within its window.
  -/
  | lighterPacketSend (q : QpId) (payload : Option (List Byte))
  /-- `LIGHTER_REQUEST_RECEIVED` (R237). The responder checks a request packet in order, then places it, answers it,
  treats it as a duplicate or refuses it with a NAK. -/
  | lighterRequestReceived (pk : LighterPkt) (host : HostReply)
  /-- `TRANSLATION_COMPLETE` (R232). An ATS translation returns, and the packet that waited for it goes on; `dst` is the translated 4 KiB page
  that the page of 2^log2Size bytes begins at (none: the translation failed). -/
  | translationComplete (v : ViewId) (pasid : Option Nat) (page : Nat) (log2Size : Nat) (dst : Option Nat)
  /-- `ACK_SEND` (R239). The responder sends an ACK at the first trigger event, including 1 µs after an unreported
  placement. -/
  | ackSend (q : QpId)
  /-- `ACK_RECEIVED` (R240). The requester checks an ACK, marks its sequence numbers done and advances BasePsn. -/
  | ackReceived (pk : LighterPkt)
  /-- `LIGHTER_RESPONSE_RECEIVED` (R240). The requester places a READ_RESP, ATOMIC_RESP or FENCE_RESP and marks its
  sequence number done. -/
  | lighterResponseReceived (pk : LighterPkt)
  /-- `NAK_RECEIVED` (R243). A NAK either counts as a retry for NO_RECV, or completes the work request with an error
  and moves the queue pair to Error. -/
  | nakReceived (pk : LighterPkt)
  /-- `RETRANSMISSION_TIMER_EXPIRY` (R242). A queue pair's timer expires, and it re-sends the missing sequence
  numbers or fails with RETRY_EXCEEDED. -/
  | retransmissionTimerExpiry (q : QpId)
  /-- `WORK_REQUEST_COMMIT` (R222). A work request reaches its commit point, and its completion entry is written. -/
  | workRequestCommit (q : QpId) (recv : Bool) (entry : Option (List Word))
  /-- `FENCE_RESPONSE_READY` (R244). The responder's FENCE_REQ writes have all become visible or been discarded, and
  it sends FENCE_RESP. -/
  | fenceResponseReady (q : QpId)
  /-- `INVALIDATE_REQUEST` (R232). An ATS Invalidate Request removes matching entries and is answered once the
  accesses in flight complete. -/
  | invalidateRequest (v : ViewId) (pasid : Option Nat) (page pages : Nat)
  /-- `FLIT_RECEIVED` (R260). A receiver decodes a flit and accepts it, discards it, or opens a replay request, and
  acts on its link control. -/
  | flitReceived (p : PortId) (lanes : List (List PamLevel))
  /-- `REPLAY_REQUEST_RECEIVED` (R261). A transmitter sees a new ReplayEpoch and replays from AckSeq + 1, or starts
  a fast retrain at the eighth replay. -/
  | replayRequestReceived (p : PortId) (epoch : Bool) (ackSeq : Nat)
  /-- `INIT_RECEIVED` (R259). An INIT flit is received, and the end checks it for a mismatch, a self-loop or a
  duplicate ID, and enters Active when R258 is met. -/
  | initReceived (p : PortId) (lanes : List (List PamLevel))
  /-- `CREDIT_TIMEOUT` (R268). A channel's credit timer reaches CreditTimeoutUs, and the link goes down to Held. -/
  | creditTimeout (p : PortId) (vc : Fin 13)
  /-- `ERROR_WINDOW_END` (R269). An error-monitor window ends, setting or clearing Degraded, or taking the link down
  after three windows over the threshold. -/
  | errorWindowEnd (p : PortId)
  /-- `FAST_RETRAIN_START` (R270). A retrain event stops new DATA flits, and the lanes retrain and exchange INIT
  with Resume set. -/
  | fastRetrainStart (p : PortId)
  /-- `RETRAIN_TIMEOUT` (R272). 10 µs pass in Retrain, and the link retrains again or goes to Held. -/
  | retrainTimeout (p : PortId)
  /-- `INIT_TIMEOUT` (R272). 1 ms passes in Init without Active, and the lane bring-up restarts. -/
  | initTimeout (p : PortId)
  /-- `HELD_TIMER_EXPIRY` (R272). 10 ms pass in Held on an enabled port, and the lane bring-up starts again. -/
  | heldTimerExpiry (p : PortId)
  /-- `RESIZE_REQ_RECEIVED` (R271). A RESIZE_REQ is answered with RESIZE_ACK or RESIZE_NAK. -/
  | resizeReqReceived (p : PortId) (arg : BitVec 8)
  /-- `RESIZE_ACK_RECEIVED` (R271). After RESIZE_ACK, both ends stop DATA flits and retrain at the new settings. -/
  | resizeAckReceived (p : PortId) (arg : BitVec 8)
  /-- `RESIZE_NAK_RECEIVED` (R271). RESIZE_NAK leaves the link at its old settings, with ResizeResult 2 and a Grade
  0 record. -/
  | resizeNakReceived (p : PortId)
  /-- `RESIZE_PAUSE_TIMEOUT` (R271). The 8 µs resize pause runs out, and the link retrains at its old settings. -/
  | resizePauseTimeout (p : PortId)
  /-- `LINK_DRAIN_END` (R272). A disabled or out-of-service fabric link has drained or run 1 ms, and goes Down, re-
  sending what is unacknowledged. -/
  | linkDrainEnd (p : PortId)
  /-- `REPLAY_SPILL` (R264). With the on-die replay entries full and spill granted, the oldest entries are written
  to SDRAM in groups of 16, or the port throttles. -/
  | replaySpill (p : PortId)
  /-- `TIDE_SYNC_SEND` (R276). A tide server sends TIDE_SYNC and TIDE_FOLLOW as its count crosses a multiple of
  2^20. -/
  | tideSyncSend
  /-- `TIDE_SYNC_RECEIVED` (R276). A follower timestamps a received TIDE_SYNC as t2. -/
  | tideSyncReceived (p : PortId) (msgId : Nat)
  /-- `TIDE_FOLLOW_RECEIVED` (R276). A follower receives TIDE_FOLLOW and answers it with TIDE_DREQ. -/
  | tideFollowReceived (p : PortId) (msgId : Nat) (t1 : Word) (lockedBit holdoverBit : Bool)
  /-- `TIDE_DREQ_RECEIVED` (R276). A server receives TIDE_DREQ and answers it with TIDE_DRESP. -/
  | tideDreqReceived (p : PortId) (msgId : Nat)
  /-- `TIDE_DRESP_RECEIVED` (R328). A follower receives TIDE_DRESP and computes its offset and the link delay from
  t1 to t4. -/
  | tideDrespReceived (p : PortId) (msgId : Nat) (t4 : Word)
  /-- `TIDE_MEASUREMENT` (R331). A PPS edge, PTM dialogue or valid exchange yields a measurement, and the tide unit
  slews, steps or changes state. -/
  | tideMeasurement (source : Nat) (reference : Word)
  /-- `TIDE_SOURCE_LOSS` (R331). The tide source is lost, and the unit enters Holdover. -/
  | tideSourceLoss
  /-- `SCHEDULED_EVENT_FIRE` (R332). A scheduled event fires at the first tick at or beyond its instant. -/
  | scheduledEventFire
  /-- `MARKER_RECEIVED` (R284). An alignment marker is received; it serves alignment, and its steering fields are
  acted on once per interval. -/
  | markerReceived (l : LaneId) (symbols : List PamLevel)
  /-- `LANE_LOSS_OF_LOCK` (R293). An active fabric lane loses lock, and the receiver requests a spare as a
  replacement or starts a fast retrain. -/
  | laneLossOfLock (l : LaneId)
  /-- `STEER_LIMIT_EXPIRY` (R293). The steer limit passes before the stream reaches the spare, and a fast retrain
  follows. -/
  | steerLimitExpiry (p : PortId)
  /-- `BRING_UP_ATTEMPT_FAIL` (R285). A lane bring-up step misses the attempt limit, and a new attempt begins,
  setting NoPartner after eight failures. -/
  | bringUpAttemptFail (p : PortId)
  /-- `LANES_ALIGNED` (R286). The good set stays unchanged for two marker intervals, the width is fixed and the link
  enters Init. -/
  | lanesAligned (p : PortId) (good : BitVec 16)
  /-- `LANE_GRANT` (R22). The power-admission unit grants a lane wake-up within LanesPer2us. -/
  | laneGrant
  /-- `CALIBRATION_PASS_DUE` (R294). A tile's rolling calibration pass falls due and sends REQ_MOVE for the next
  stream. -/
  | calibrationPassDue (p : PortId) (k : Fin 4)
  /-- `CALIBRATION_REQUEST_TIMEOUT` (R294). A calibration REQ_MOVE has no answer within 4 marker intervals, and the
  pass is postponed. -/
  | calibrationRequestTimeout (p : PortId) (k : Fin 4)
  /-- `CALIBRATION_END` (R294). A lane's calibration ends, and the stream is returned, or kept on the spare if the
  margins are low. -/
  | calibrationEnd (p : PortId) (k : Fin 4) (horizontal vertical : Nat)
  /-- `CALIBRATION_WINDOW` (R295). A port's tide-scheduled calibration window opens and recalibrates its lanes, or
  is skipped. -/
  | calibrationWindow (p : PortId)
  /-- `PERST_N_CHANGE` (R306). PERST_N rises, letting host ports train, or falls, acting as a link down on every
  host port. -/
  | perstNChange (level : Bool)
  /-- `HOST_PORT_DETECT` (R306). A named host port enters Detect within 20 ms of PERST_N high and DEV_READY. -/
  | hostPortDetect (p : PortId)
  /-- `CONFIG_REQUEST` (R307). A configuration request in a view is answered by a view function, forwarded to a
  bound function, or refused. -/
  | configRequest (v : ViewId) (c : CfgReq)
  /-- `UNSUPPORTED_REQUEST` (R317). A request that nothing in the view serves is answered with Unsupported Request
  and no fault record. -/
  | unsupportedRequest (v : ViewId) (r : UrReq)
  /-- `HOST_LINK_DOWN_VIEW_RESET` (R314). A hot reset or link down of a host port resets the view and its bindings.
  -/
  | hostLinkDownViewReset (p : PortId)
  /-- `FUNCTION_LEVEL_RESET` (R313). A function-level reset of an EB9144 function silences its DMA and resets it as
  Table 12-7 sets out. -/
  | functionLevelReset (v : ViewId) (f : ViewFn)
  /-- `FLR_END` (R313). A function-level reset of an EB9144 function ends within 2 ms. -/
  | flrEnd (v : ViewId) (f : ViewFn)
  /-- `SECONDARY_BUS_RESET` (R314). A Secondary Bus Reset on a virtual port resets only the function bound behind
  it. -/
  | secondaryBusReset (v : ViewId) (k : Fin 256)
  /-- `DPC_TRIGGER` (R316). DPC triggers on a virtual port, containing the bound function and closing its entries.
  -/
  | dpcTrigger (v : ViewId) (k : Fin 256) (useUr : Bool)
  /-- `DPC_RELEASE` (R316). The host clears DPC Trigger Status, and the function is reset and its DPC containment
  lifted. -/
  | dpcRelease (v : ViewId) (k : Fin 256)
  /-- `COMPLETION_TIMEOUT` (R319). An entry's CplTimeoutMs timer expires, and the entry is closed with Completer
  Abort and a Grade 1 fault. -/
  | completionTimeout (p : PortId) (tag : Nat)
  /-- `TLP_NULLIFY` (R321). A paused TLP is nullified and is re-sent whole once its last cell is written. -/
  | tlpNullify (p : PortId)
  /-- `PME_TURN_OFF` (R324). On PME_Turn_Off, the management function drains its held stores and returns PME_TO_Ack.
  -/
  | pmeTurnOff (v : ViewId)
  /-- `L1_EXIT` (R323). A link leaves L1, and each lane takes a lane grant before its transmitter starts. -/
  | l1Exit (p : PortId)
  /-- `L0P_WIDTH_CHANGE` (R323). A device port's autonomous L0p halves or doubles its width by its utilisation over
  16 µs. -/
  | l0pWidthChange (p : PortId) (utilPercent : Nat)
  /-- `MCTP_MESSAGE` (R318). An MCTP message over SMBus or PCI Express carries a Tally descriptor into the
  management-port queue, or is discarded. -/
  | mctpMessage (m : MctpIn)
  /-- `CLOCK_INPUT_LOSS` (R335). A clock monitor detects a lost input, taking tile ports down, losing the tide
  source, or halting at Grade 4. -/
  | clockInputLoss (input : Fin 11)
  /-- `REFCLK_RETURN` (R335). A REFCLK has been present for 1 ms, and its tile's ports begin bring-up again. -/
  | refclkReturn (t : Fin 8)
  /-- `COLD_RESET` (R343). PWR_OK rises with DEV_RST_N high, and the start-up sequence runs. -/
  | coldReset (straps : Straps)
  /-- `MANAGEMENT_PATH_READY` (R343). The start-up steps complete and the management port accepts Tally programs. -/
  | managementPathReady (r : StartResult)
  /-- `DEVICE_RESET` (R342). DEV_RST_N low, a requested reset or a restart after a halt drops DEV_READY and runs the
  device reset sequence. -/
  | deviceReset
  /-- `DEV_RST_N_RISE` (R342). DEV_RST_N rises, and start-up resumes from step 2. -/
  | devRstNRise
  /-- `PWR_OK_FALL` (R406). PWR_OK falls, beginning power-down. -/
  | pwrOkFall
  /-- `FAULT_EVENT` (R351). A checker reports an event, which the collector grades, acts on, merges or records, and
  counts toward its leaky limit. -/
  | faultEvent (e : FaultIn)
  /-- `MERGE_QUIET_CLOSE` (R351). A record that caused no containment closes after MergeQuietMs without a merge. -/
  | mergeQuietClose (rec : Nat)
  /-- `LEAK_DECREMENT` (R352). A source's leak timer ends an interval, and its leaky count falls by 1. -/
  | leakDecrement (checker : Nat)
  /-- `FAULT_LOG_WRITE` (R350). An on-die fault record is written to the fault log in SDRAM. -/
  | faultLogWrite
  /-- `HALT_RESTART_TIMEOUT` (R355). 10 ms after a halt, a device reset with cause 3 starts, unless HaltHold is set.
  -/
  | haltRestartTimeout
  /-- `LOCKSTEP_MISMATCH` (R357). The Tallyman's cores disagree, which is Grade 4, or Grade 5 if an earlier mismatch
  lies within 24 h. -/
  | lockstepMismatch
  /-- `INJECTION_EXPIRY` (R361). InjectArmUntil passes, and the unused injections are cancelled. -/
  | injectionExpiry
  /-- `THERMAL_TRIP` (R414). A sensor reaches 115 °C, and the device latches with cause 1 and drives THERM_TRIP_N
  low. -/
  | thermalTrip (die : Fin 10) (sensor : Fin 16)
  /-- `OVER_TEMPERATURE` (R414). A sensor above 100 °C writes a Grade 0 record. -/
  | overTemperature (die : Fin 10) (sensor : Fin 16) (temp : Nat)
  /-- `RAIL_OUT_OF_RANGE` (R402). A rail outside its operating range for 10 µs writes a Grade 0 record, or beyond a
  latch limit for 1 µs latches at Grade 5. -/
  | railOutOfRange (rail : Fin 21) (latch : Bool) (milliVolts : Nat)
  /-- `WEAR_GAUGE_COMPARISON` (R423). Every 60 s the wear rings of each die are compared and the wear fields
  updated, with records when WearLow or WearOut is first set. -/
  | wearGaugeComparison (dies : List DieReading)
  /-- `PRESENCE_DEBOUNCED` (R369). SPn_PRSNT_N has stayed low for 100 ms, and Present becomes 1. -/
  | presenceDebounced (n : SlotId)
  /-- `PRESENCE_LOST` (R370). SPn_PRSNT_N rises, and the slot switches off and enters Dwell. -/
  | presenceLost (n : SlotId)
  /-- `DWELL_ELAPSED` (R370). A slot's dwell elapses, and it goes to Waiting or Off. -/
  | dwellElapsed (n : SlotId)
  /-- `SLOT_GRANT` (R383). The slot at the head of the admission queue is granted and begins its ramp. -/
  | slotGrant
  /-- `POWER_GOOD` (R371). A ramping slot reaches power-good and starts its PerstDelayMs. -/
  | powerGood (n : SlotId)
  /-- `PERST_DELAY_END` (R370). PerstDelayMs after power-good, SPn_PERST_N is released and the slot is On. -/
  | perstDelayEnd (n : SlotId)
  /-- `RAMP_LIMIT_TIMEOUT` (R370). RampLimitMs passes without power-good, and the slot trips. -/
  | rampLimitTimeout (n : SlotId)
  /-- `CURRENT_LIMIT_ENTER` (R372). The current reaches LimitMa, the gate regulates and the fault timer runs. -/
  | currentLimitEnter (n : SlotId) (milliAmps : Nat)
  /-- `FAULT_TIMER_EXPIRY` (R372). The slot's fault timer reaches FaultTimerUs, and the slot trips. -/
  | faultTimerExpiry (n : SlotId)
  /-- `BREAKER_FIRE` (R373). The current reaches the breaker threshold, and the gate is discharged and the slot
  trips. -/
  | breakerFire (n : SlotId) (milliAmps : Nat)
  /-- `INPUT_UNDERVOLTAGE` (R374). The slot input stays below the undervoltage limit for 10 µs, and the slot
  switches off without spending a retry. -/
  | inputUndervoltage (n : SlotId)
  /-- `RETRY_COUNT_RESET` (R373). A slot that has been On for 10 s without a trip has its RetryCount returned to 0.
  -/
  | retryCountReset (n : SlotId)
  /-- `ORDERLY_OFF_GATE` (R370). 100 µs after SPn_PERST_N falls on an orderly off of an On slot, the gate switches
  off. -/
  | orderlyOffGate (n : SlotId)
  /-- `ATTENTION_REQUEST` (R377). A falling edge on SPn_ATTN after 10 ms high is sent to the hosts as Attention
  Button Pressed. -/
  | attentionRequest (n : SlotId)
  /-- `FEED_REVERSE_BLOCK` (R380). The bus exceeds a feed's input by 10 mV, and the feed turns off and counts a
  reverse block. -/
  | feedReverseBlock (f : Fin 2) (inputMv busMv : Nat)
  /-- `FEED_INPUT_OUT_OF_RANGE` (R380). A feed's input is out of range for 10 µs, and the feed blocks. -/
  | feedInputOutOfRange (f : Fin 2) (inputMv : Nat)
  /-- `MEASUREMENT_PUBLISH` (R382). Every 1 ms the means of the last 100 samples are published as the slot and feed
  readings. -/
  | measurementPublish
  /-- `MEASUREMENT_SAMPLE` (R382). Every 10 µs each channel converts its current and voltages, updating PeakMa and
  EnergyUj. -/
  | measurementSample (slots : List SlotSample) (feeds : List FeedSample)
  /-- `SNAPSHOT_CAPTURE` (R394). At the armed instant, a set's counters, or its next capture unit, are frozen at one
  tick. -/
  | snapshotCapture (set : Fin 256)
  /-- `SNAPSHOT_BUFFER_WRITTEN` (R396). The snapshot buffer is written, and Done is written last. -/
  | snapshotBufferWritten (set : Fin 256) (delivered : Bool)
  /-- `COUNTER_UNCORRECTABLE` (R390). A counter word proves uncorrectable, and the counter restarts at 0 with
  Invalid set and a Grade 1 record. -/
  | counterUncorrectable (id : Nat)
  /-- `CURRENT_LIMIT_EXIT` (R372). The slot current stays below 95% of LimitMa for 10 consecutive ticks, so the
  fault timer stops and clears, InLimit clears and power-good may return. -/
  | currentLimitExit (n : SlotId) (milliAmps : Nat)
  /-- `FEED_CONDUCTION_START` (R380). A feed whose input comes back within UvMv–OvMv and above the bus starts to
  conduct again. -/
  | feedConductionStart (f : Fin 2) (inputMv busMv : Nat)
  /-- `PTM_DIALOGUE_START` (R327). With Source 2, the tide unit starts a PTM dialogue on SourcePort every 2^20 ns.
  -/
  | ptmDialogueStart
  /-- `LOGICAL_DEVICE_RESET_COMPLETE` (R190). A CXL logical device reports that its reset is complete, ending that
  part of a tenant reset or view reset. -/
  | logicalDeviceResetComplete (g : GateSlot) (ld : Fin 16)
  /-- `LINK_UP_L0` (R315). A host or device port link finishes training or Recovery and reaches L0 with its data
  link layer active, setting DllActive and LinkUp and signalling Data Link Layer State Changed. -/
  | linkUpL0 (p : PortId) (rate width : Nat) (flit cxlMem : Bool)
  /-- `TX_MARKER_BOUNDARY` (R290). At each of its own marker boundaries, a transmitter sends the markers and places
  streams on spares, releases or returns lanes, and answers steering commands with ACK or NAK. -/
  | txMarkerBoundary (p : PortId)
  deriving DecidableEq, Repr

end Sys2Proof
end

