-- ==== Sys2Proof/Decode.lean ====
section
/-! DEFINITION. The words that spell commands. No row of spec/opcode_table.json gives bits: the commands of the EB9144 arrive on links, pins and
queues, and the words of a Tally program are decoded where they execute (Machine/Operands.lean). -/

namespace Sys2Proof

/-- The command that a word of the table's bits spells: none, since no row has bits. -/
def decodeTableWord (_nbits _w : Nat) : Option Instr := none

end Sys2Proof
end

