-- ==== Sys2Proof/Config.lean ====
section
/-! DEFINITION. What the manual leaves open: free values, drawn in order by a counter of State. Nothing is known of
them, so a claim about one holds whatever the device produces. -/

namespace Sys2Proof.Config

/-- Free value number n: what the device produces where the manual states no value (the entropy draws of R66 and R258,
configuration registers that no table lays out, R307, and the like). DESIGN CHOICE, safe: log entry 1. -/
opaque freeWord : Nat → BitVec 64

/-- Register numbers of the capabilities in configuration space, which no table lays out (R308): 0 the ACS Control register, 1
the DPC Control register, 2 Device Control, 3 Slot Control, 4 the AER status register, 5 PM Control/Status; of the upstream port 6 Link Control, 7 the control register of L0p, 8 the control register of the L1 substates; 9 Slot Capabilities, 10 Link Control and Status of a virtual port, 11 to 13 TotalVFs, First VF Offset and
VF Device ID of SR-IOV, 14 MSI-X Message Control, 15 Link Capabilities;
16 + g Device Control of the function below gate slot g. DESIGN CHOICE, safe: log entry 12. -/
opaque capReg : Nat → Nat

/-- What a configuration register that no table lays out reads before it is written, by its key (R307, R308). DESIGN CHOICE, safe:
log entry 12. -/
opaque cfgReset : Nat → BitVec 32

/-- What such a register reads after a host wrote a value to it: its read-only bits are not laid out (R307, R308). DESIGN CHOICE, safe:
log entry 12. -/
opaque cfgSeen : Nat → BitVec 32 → BitVec 32

/-- SECDED check bits of a 64-bit word: the manual gives no code (R93). DESIGN CHOICE, safe: log entry 1. -/
opaque secded : BitVec 64 → BitVec 8

/-- Byte i of the header of a TLP or CXL message that the EB9144 builds itself, by the free value drawn for it: the formats are those of PCI
Express and CXL, which the manual does not lay out (Table 0-2). DESIGN CHOICE, safe: log entry 1. -/
opaque tlpHead : BitVec 64 → Nat → BitVec 8

/-- Bytes of a packet whose error-and-poison mark is set: its place in a TLP or CXL message is that of PCI Express and CXL, which the manual
does not lay out (R111). DESIGN CHOICE, safe: log entry 1. -/
opaque marked : List (BitVec 8) → List (BitVec 8)

/-- SHA-384 of a message (R344): a standard that the manual names and does not lay out. DESIGN CHOICE, safe: log entry 107. -/
opaque sha384 : List (BitVec 8) → List (BitVec 8)

/-- An ECDSA P-384 signature with SHA-384 verifies: public key, signature, message (R344). DESIGN CHOICE, safe: log entry 107. -/
opaque ecdsaP384 : List (BitVec 8) → List (BitVec 8) → List (BitVec 8) → Bool

/-- The key hash fused on die (R344), which the manual gives no value. DESIGN CHOICE, safe: log entry 107. -/
opaque keyHash : List (BitVec 8)

/-- Whether the idle link of a port enters L1 in a nanosecond: PCI Express settles it between the link partners (Table 12-1). DESIGN CHOICE,
safe: log entry 82. -/
opaque l1Entry : Nat → Nat → Bool

end Sys2Proof.Config
end

