-- ==== Sys2Proof/Machine/State.lean ====
section
/-! DEFINITION. The state of the EB9144 as plain data: object images, versions, registers, memories, the blocks' own
state, and the queue of commands that wait. -/

namespace Sys2Proof.Machine

/-- Why a step stops with a fault: for no reason. The manual stops the device at no command, and an event that cannot occur changes nothing (log
entry 4), so there is no constructor. -/
inductive Fault where
  deriving DecidableEq, Repr

/-- A command without a meaning. -/
inductive Refusal where
  /-- The host interface asks for this constructor; raised by a refused arm of Dispatch.lean only. Safe. -/
  | notModelled (mnemonic : String)
  deriving DecidableEq, Repr

/-- A management-class message (Table 10-8) as this device sends it. -/
inductive FabricMsg where
  | withdraw (entries : List WithdrawEntry)
  | tideSync (msgId : Nat)
  | tideFollow (msgId : Nat) (t1 : Word) (lockedBit holdoverBit : Bool) (source : Nat)
  | tideDreq (msgId : Nat)
  | tideDresp (msgId : Nat) (t4 : Word)
  | tallyFwd (fwdId index count level view : Nat) (words : List Word)
  | tallyAccept (fwdId : Nat)
  | tallyResult (fwdId : Nat) (result logSeq : Word) (rods : List Word)
  | teardown (m : TeardownMsg)
  | delivery (m : TeardownMsg) (latestSeq : Nat)
  | bindNotice (m : BindNotice)
  | bindConfirm (m : BindConfirm)
  | bindReset (m : BindResetMsg)
  deriving DecidableEq, Repr

/-- What a packet means beyond its bytes: a completion's status, a management message, a presence message (R149), a Lighter packet, or a posted write or
an MSI-X message of a Lighter function (R223, R226) or of a management function (R59, R75, R312) into host memory. -/
inductive Body where
  | plain
  | cpl (st : CplStatus)
  | msg (m : FabricMsg)
  | presence (m : PresenceMsg)
  | lighter (pk : LighterPkt)
  | ltWrite (v t addr : Nat) (data : List Byte)
  | ltMsix (v t vec : Nat)
  | hostWrite (v addr : Nat) (words : List Word)
  | mgmtMsix (v vec : Nat)
  deriving DecidableEq, Repr

/-- An output pin (R369, R377, R406, R409). -/
inductive OutPin where
  | devReady
  | thermTripN
  | perst (n : SlotId)
  | gate (n : SlotId)
  | attn (n : SlotId)
  deriving DecidableEq, Repr

/-- An error reported through AER of a function of a view (R151, R188, R360). -/
inductive AerError where
  | unsupportedRequest | completerAbort | uncorrectableInternal | surpriseDown | poisoned | ecrc | completionTimeout
  | correctedInternal
  deriving DecidableEq, Repr

/-- What a packet is addressed to once resolved (R186): function `slot`, logical device `ld` (0xFF none), with BAR, offset and
length; the host behind a host port; or the internal agent. -/
inductive Dest where
  | fn (slot ld bar offset len : Nat)
  | host
  | agent
  deriving DecidableEq, Repr

/-- Where a packet stands in the core (R96, R102, R133). -/
inductive Loc where
  /-- Held in its ingress tile, or by the internal agent, or not yet admitted. -/
  | ingress
  /-- In the buffer, not linked: waits for the reorder unit, for a record or for a slot (R135). -/
  | reorderIn
  /-- The same, and the wait of R135 has been counted. -/
  | reorderWait
  /-- Held in a receive record (R133). -/
  | reorderHeld
  /-- In its virtual output queue list (R96). -/
  | linked
  /-- Its egress has begun (R97). -/
  | leaving
  deriving DecidableEq, Repr

/-- A packet the core holds (R92, R93, R100, R120). Ports are 0–143 and 255 for the internal agent; `arr` is the arrival
level L plus one (R127); `pool` is 0 reserve, 1 shared, 2 floor, 3 not admitted (Table 4-2); `idxs` are its cells in chain order; `written` cells
were written at the time `writtenAt`, and later ones follow at the ingress link's rate (R109); `yellow` is the meters' mark (R167); `cm` marks a
remote coordination-memory read of a host (R150). -/
structure Packet where
  id : Nat
  ingress : Nat
  group : Nat
  kind : PktKind
  req : ReqType
  body : Body
  image : List Byte
  tc : Nat
  flowClass : Nat
  egress : Nat
  queue : Nat
  acctQueue : Nat
  arr : Nat
  outLevel : Nat
  tenant : Nat
  hdr : Option FabHdr
  dest : Dest
  view : Nat
  viewDev : Nat
  srcSlot : Nat
  srcLd : Nat
  requester : Nat
  tag : Nat
  pool : Nat
  idxs : List CellIdx
  poison : Bool
  cutThrough : Bool
  written : Nat
  writtenAt : Nat
  yellow : Bool
  cm : Bool
  /-- Re-sent out of a replay buffer here (R141). -/
  resent : Bool
  ecrcBad : Bool
  ide : Bool
  loc : Loc
  linkedAt : Nat
  redBy : List Nat
  redNow : List Nat
  /-- Cells that a bad tag or descriptor keeps its egress from reaching (R111, R113). -/
  unreached : Nat
  dests : List PortId
  deriving DecidableEq, Repr

/-- Something the device does that the outside sees. `State.out` lists them, newest first. -/
inductive Output where
  /-- A posted write of a view's management function into its host's memory: 64-bit words from `addr` (R32, R59, R75, R76, R396). -/
  | hostWrite (v addr : Nat) (words : List Word)
  /-- A posted write of a Lighter function into host memory, with the requester ID of tenant t's function (R215, R220, R226). -/
  | lighterWrite (v t addr : Nat) (data : List Byte)
  /-- A read and an AtomicOp of a Lighter function in host memory (R215, R218, R238). -/
  | lighterRead (v t addr len : Nat)
  | lighterAtomic (v t addr : Nat) (operands : List Word)
  /-- An MSI-X message of the management function (R312). -/
  | msix (v vec : Nat)
  /-- An MSI-X message of a Lighter function (R226). -/
  | msixLighter (v t vec : Nat)
  /-- A reply of the management-port queue: the completed descriptor (R30, R318). -/
  | mctpReply (viaView : Option ViewId) (words : List Word)
  /-- A packet sent whole on a port, with EP as `ep` says. -/
  | sent (port : Nat) (pk : Packet) (ep : Bool)
  /-- A packet delivered to the internal agent. -/
  | toAgent (pk : Packet)
  /-- An error report through AER of virtual port `k` (0: the upstream port) of view `v` (R360). -/
  | aer (v k : Nat) (e : AerError)
  /-- The same toward another device: for the upstream port of view `v` there (0x7F none), or for the virtual port of its function `slot`, logical
  device `ld` (16384 none). The manual names no message that carries it (log entry 93). -/
  | aerFar (dev v slot ld : Nat) (e : AerError)
  /-- A hot-plug or presence signal applied to virtual port `k` of view `v` (R149, R315). -/
  | hotplug (v k : Nat) (kind : PresenceKind)
  /-- A change of an output pin. -/
  | pin (p : OutPin) (level : Bool)
  /-- Credits returned to a link partner for cells of a credit group (R106). -/
  | credits (port group cells : Nat)
  /-- A flit sent on a fabric link (R248). -/
  | flit (port : Nat) (bytes : List Byte)
  /-- Levels sent on a lane (R281, R282). -/
  | symbols (lane : Nat) (levels : List PamLevel)
  /-- A request sent below a device port by the EB9144 itself: a function-level reset, a Vendor ID read, a hot reset (R190, R313,
  R314). -/
  | flr (slot ld : Nat)
  | hotReset (port : Nat)
  /-- An MCTP control response (R318, R356). -/
  | mctpControl (viaView : Option ViewId) (version : BitVec 32)
  /-- An ATS translation request or an invalidation completion (R231, R232). -/
  | atsRequest (v t : Nat) (pasid : Option Nat) (page : Nat)
  | atsInvalidated (v : Nat)
  /-- PTM dialogue request (R327). -/
  | ptmRequest (v : Nat)
  /-- A PME_TO_Ack (R324). -/
  | pmeToAck (v : Nat)
  deriving DecidableEq, Repr

/-- Status codes of a program (Table 2-6, R54). -/
inductive Status where
  | ok | late | denied | noobj | conflict | nores | aborted | alreadyCommitted | badop | timeout | faulted | notide
  deriving DecidableEq, Repr

/-- Where a program came from: a Tally queue (R30), another device (R52), or the boot image (R78). -/
inductive ProgSrc where
  | queue (q : QueueId)
  | forwarded (dev fwdId : Nat)
  | base
  deriving DecidableEq, Repr

/-- Where a program stands between acceptance and end (R35, R49, R55, R62). -/
inductive Phase where
  /-- Accepted, not started. -/
  | waiting
  /-- Executes: in its slot, or directly toward its commit point without one (R35). -/
  | running
  /-- Parked until tide reaches `due`; `order` counts parkings. -/
  | parked (due order : Nat)
  /-- Past its commit point without a slot, or at an object instruction: it waits for the next free slot (R35). -/
  | resuming
  /-- In SYNC 0: every block has taken the commits at this time (R55). -/
  | syncCommits (due : Nat)
  /-- In SYNC 1: waits for the earlier programs of its queue (R55). -/
  | syncQueue
  /-- UNBIND without FORCE waits for the entries of its record, until this time (R62). -/
  | draining (deadline : Nat)
  /-- TENANT reset waits for its end (R190). -/
  | tenantWait
  deriving DecidableEq, Repr

/-- An object instruction as it executes: its word's fields and its block after the Src substitution (R39, R42), with the
level, view, source and number of its program (R43, R68), and for `OVERLAY` store the image as host memory gave it. -/
structure ObjReq where
  index : Nat
  op : Nat
  iflags : Nat
  dst : Nat
  sub : Nat
  blk : List Word
  level : Nat
  view : Nat
  issuerDev : Nat
  source : Nat
  prog : Nat
  image : Option (List Word)
  /-- Staged while its object was not contained (R63). -/
  clear : Bool
  deriving DecidableEq, Repr

/-- A program in the Tallyman (R35, R40, R46, R47). -/
structure Prog where
  id : Nat
  src : ProgSrc
  /-- The first two words of its descriptor, and the view that carried a management-port message. -/
  desc : List Word
  via : Option ViewId
  descIndex : Nat
  irq : Bool
  level : Nat
  view : Nat
  issuerDev : Nat
  words : List Word
  phase : Phase
  /-- Holds one of the eight execution slots. -/
  slot : Bool
  /-- Asked to abort while its logbook entry had to wait (R63, R70). -/
  aborting : Bool
  /-- Struck by a fault of the Tallyman: it ends with FAULTED where it would end with ABORTED (Table 2-6). -/
  faulting : Bool
  pc : Nat
  /-- Rods A1 to A15. -/
  rods : List Word
  executed : Nat
  begun : Bool
  committed : Bool
  staged : List ObjReq
  /-- Versions recorded (R47), keyed by object. -/
  recorded : List (Nat × Nat)
  /-- `Seq` of its Program entry, 0 before it has one. -/
  logSeq : Nat
  /-- Its queue was reset: the descriptor is not written (Table 12-7). -/
  silent : Bool
  deriving DecidableEq, Repr

/-- A program forwarded by this device and not yet ended (R16, R52). -/
structure FwdOut where
  fwdId : Nat
  q : QueueId
  desc : List Word
  via : Option ViewId
  descIndex : Nat
  irq : Bool
  target : Nat
  /-- Its place among the programs accepted here. -/
  order : Nat
  accepted : Bool
  due : Nat
  silent : Bool
  deriving DecidableEq, Repr

/-- A program arriving in TALLY_FWD fragments (R277). -/
structure FwdIn where
  srcDev : Nat
  fwdId : Nat
  count : Nat
  level : Nat
  view : Nat
  got : List (Nat × List Word)
  due : Nat
  deriving DecidableEq, Repr

/-- A message of the management-port queue: its descriptor and program, and the view it came through, if any (R30, R318). -/
structure MgmtMsg where
  viaView : Option ViewId
  desc : List Word
  code : List Word
  deriving DecidableEq, Repr

/-- The Tallyman. -/
structure Tally where
  progs : List Prog
  nextId : Nat
  parkings : Nat
  /-- Time at which the last commit so far has reached every block (R55, Table 2-11). -/
  settledAt : Nat
  fwdOut : List FwdOut
  nextFwdId : Nat
  fwdIn : List FwdIn
  mgmtQ : List MgmtMsg
  /-- Base-configuration programs not yet accepted (R79), and the status that ended the base configuration (R81). -/
  base : List (List Word)
  baseOverlays : List Word
  baseStatus : Status
  deriving DecidableEq, Repr

/-- A logbook entry (Table 3-1); `words` holds its 16 words, CRC included. -/
structure LogEntry where
  seq : Nat
  words : List Word
  deriving DecidableEq, Repr

/-- A running export (R76). -/
structure ExportJob where
  view : ViewId
  /-- First sequence number to cover, and the end: `FirstSeq` + `Count`, or one past LOGBOOK_HEAD as read at `Go`. -/
  start : Nat
  stop : Nat
  /-- Next number to cover, entries written so far, and when the next is copied. -/
  next : Nat
  written : Nat
  due : Nat
  deriving DecidableEq, Repr

/-- The logbook: the ring (newest first), the newest `Seq`, the epoch, the entries whose SDRAM copy is pending (R71), the
entries each mirror has still to write (R75), running exports (R76), and when the next entry may be written (R70). -/
structure Logbook where
  entries : List LogEntry
  head : Nat
  epoch : Word
  pendingCopy : List Nat
  mirrorQ : List (ViewId × Nat)
  exportJobs : List ExportJob
  nextAt : Nat
  deriving DecidableEq, Repr

/-- One shadowed image word: the object's word key, the bits the overlay writes, and their values (R84, R86). -/
structure Shadow where
  key : Nat
  mask : Word
  value : Word
  deriving DecidableEq, Repr

/-- A stored overlay (R83, R84): its label, scope list, shadow image, and the slots that it switches at each apply with `Action` 0 or 1. -/
structure Overlay where
  index : Nat
  label : Word
  scope : List Nat
  shadow : List Shadow
  acts : List (Nat × Nat)
  deriving DecidableEq, Repr

/-- A packet an egress port is sending: paused mid-packet or not (R97, R110). -/
structure Egress where
  port : Nat
  pkt : Nat
  paused : Bool
  deriving DecidableEq, Repr

/-- The switch core and the scheduler (R92 to R113, R157, R158). -/
structure Core where
  /-- Packets held, in order of entry into their present list. -/
  pkts : List Packet
  nextPkt : Nat
  egress : List Egress
  /-- Last ingress port served, plus one, per egress port × 16 + queue (R97). -/
  lastIngress : List (Nat × Nat)
  /-- Round pointer of each port's weighted group (R158). -/
  pointer : List (Nat × Nat)
  /-- Ports whose pointer stands in the middle of a visit (R158). -/
  midVisit : List Nat
  /-- Cells that no packet reaches, with the audit passes they have stayed so (R113). -/
  orphans : List (Nat × Nat)
  /-- Last epoch whose end has been credited (R164) and last epoch sampled (R170). -/
  epoch : Nat
  sampledEpoch : Nat
  /-- What the buckets of meters (2 × meter + bucket) and shapers hold and carry beside their whole bytes, in units of 1/1,024 byte and of a
  millionth of that (R164): units × 1,000,000 + millionths. -/
  meterFrac : List (Nat × Nat)
  shaperFrac : List (Nat × Nat)
  /-- Meters that have given a held packet red in this epoch (R168). -/
  redSeen : List Nat
  /-- An epoch end, and a sample, that wait for what else the same clock brings (Table 6-4). -/
  epochWaits : Bool
  sampleWaits : Bool
  deriving DecidableEq, Repr

/-- A send record (R132). -/
structure SendRec where
  flow : FlowKey
  gen : Nat
  nextSeq : Nat
  lastAt : Nat
  deriving DecidableEq, Repr

/-- A receive record (R133). -/
structure RecvRec where
  flow : FlowKey
  gen : Nat
  expected : Nat
  lastBirth : Option Nat
  held : List (Nat × Nat)
  gapDue : Option Nat
  lastAt : Nat
  deriving DecidableEq, Repr

/-- An outstanding-request entry (R146). `inbound`: the port's own requests, admitted from its link; otherwise requests sent
onto the link. `slot` and `ld` name the function concerned (16384: none), `far` the selector of the function that a host's request goes to (0: none), `cm` a
remote coordination-memory read (R150). -/
structure ReqEntry where
  id : Nat
  port : Nat
  inbound : Bool
  tag : Nat
  requester : Nat
  origTag : Nat
  origDev : Nat
  origPort : Nat
  req : ReqType
  flow : FlowKey
  view : Nat
  slot : Nat
  ld : Nat
  gen : Nat
  due : Nat
  cm : Bool
  far : Nat
  /-- An error completion or the device's own answer is on its way to the requester: no other completion is taken (R148). -/
  closed : Bool
  deriving DecidableEq, Repr

/-- Fabric forwarding (R122 to R150). -/
structure Fabric where
  send : List SendRec
  recv : List RecvRec
  /-- Spray counters, keyed group × 64 + member (R130). -/
  spray : List (Nat × Int)
  /-- End of a group's equal-weight period (R131). -/
  coldUntil : List (Nat × Nat)
  /-- Congestion levels last computed (R129), keyed group × 64 + member. -/
  congestion : List (Nat × Nat)
  /-- Congestion levels the neighbours advertised, keyed port × 4 + hop level (R129). -/
  remoteLevel : List (Nat × Nat)
  /-- Exclusions (port, device, level) (R140). -/
  exclusions : List (Nat × Nat × Nat)
  /-- Withdrawals this device has outstanding: device and arrival level plus one (R140, R145). -/
  withdrawn : List (Nat × Nat)
  /-- Ports whose paths are withdrawn (R140), and those that run toward reinstatement, with the time they rejoin (R145). -/
  failed : List Nat
  restoring : List (Nat × Nat)
  reqs : List ReqEntry
  nextReq : Nat
  deriving DecidableEq, Repr

/-- A function-level reset of a bound function, or the CXL reset of a logical device, in progress (R190). -/
structure FlrWait where
  slot : GateSlot
  ld : Nat
  tenant : Nat
  readAt : Nat
  deadline : Nat
  deriving DecidableEq, Repr

/-- A tenant reset in progress: the state it returns to, the program that waits for it, and whether a function failed (R190). -/
structure TenReset where
  tenant : TenantId
  prev : Nat
  prog : Nat
  failed : Bool
  deriving DecidableEq, Repr

/-- Tenancy (R173 to R192). -/
structure Tenancy where
  flrs : List FlrWait
  resets : List TenReset
  /-- Host port a binding notice carried, keyed gate slot × 32 + word (R184). -/
  bindPort : List (Nat × Nat)
  /-- Identifiers found at a slot whose function differs: slot, vendor, device (R192). -/
  newIds : List (Nat × Nat × Nat)
  /-- Objects of tenants in order of creation, newest first: resource, tenant, object (R178). -/
  born : List (Nat × Nat × Nat)
  /-- Extents of BARs that enumeration found, keyed gate slot × 8 + BAR (R188). -/
  bars : List (Nat × Nat)
  deriving DecidableEq, Repr

/-- A fault record (Table 14-2). Its `Crc32` is computed. -/
structure FaultRec where
  id : Nat
  grade : Nat
  isOpen : Bool
  acked : Bool
  lasting : Bool
  injected : Bool
  locked : Bool
  checker : Nat
  action : Nat
  leaky : Nat
  cls : Nat
  sel : Nat
  first : Nat
  last : Nat
  merges : Nat
  related : Nat
  syn0 : Nat
  syn1 : Nat
  /-- Time of the last event, for the quiet close (R351). -/
  quietFrom : Nat
  /-- In the fault log in SDRAM, beside the on-die store (R350). -/
  logged : Bool
  deriving DecidableEq, Repr

/-- What a record contains (R352, R353). -/
inductive ContTarget where
  | obj (cls sel : Nat)
  | logical (slot ld : Nat)
  | port (p : Nat)
  | pair (srcDev srcPort dstDev dstPort : Nat)
  /-- A retired resource, by the checker that watches it (Table 14-5). -/
  | resource (checker : Nat)
  deriving DecidableEq, Repr

/-- A leaky count and the time of its next decrement (R352). -/
structure Leak where
  source : Nat
  count : Nat
  due : Nat
  deriving DecidableEq, Repr

/-- An injection with its checks still to corrupt, and whether its first event is still to come (R361). -/
structure Injection where
  checker : Nat
  mode : Nat
  count : Nat
  fresh : Bool
  deriving DecidableEq, Repr

/-- The fault collector (R348 to R361). -/
structure Faults where
  /-- Records of the fault log, newest first (R350). -/
  recs : List FaultRec
  nextId : Nat
  /-- Containments in force, each with the record that caused it (R354). -/
  contained : List (Nat × ContTarget)
  leaks : List Leak
  injections : List Injection
  /-- FAULT_SUMMARY as each view last saw it, for MSI-X vector 0 (R359). -/
  summaries : List (Nat × Nat)
  deriving DecidableEq, Repr

/-- A store held in a view's write buffer, one line part (R201). `cond`: a conditional store (R208), and `fails` the `Reason` of Table 8-4 that its
arrival has settled (0: none), for one that waits behind an earlier conditional store of its view. -/
structure HeldStore where
  view : Nat
  addr : Nat
  data : List Byte
  cond : Bool
  epoch : Nat
  fails : Nat
  deriving DecidableEq, Repr

/-- A posted write that the buffer of a view only counts (R201, R204): its packet, the function and logical device it goes to (16384: none), and
its flow with its sequence number once it is admitted. -/
structure Tracked where
  view : Nat
  id : Nat
  epoch : Nat
  slot : Nat
  ld : Nat
  flow : FlowKey
  seq : Option Nat
  deriving DecidableEq, Repr

/-- A reservation (R207, R209): `lost` is 0 while it is held, else the `Reason` of Table 8-4 that its loss gives. -/
structure Resv where
  agent : Agent
  line : Nat
  due : Nat
  lost : Nat
  deriving DecidableEq, Repr

/-- The barrier epochs of a view (R205): the epoch open now, the barriers not complete (epoch and tag, oldest first), and the
writes of each epoch discarded so far. -/
structure CmView where
  view : Nat
  epoch : Nat
  barriers : List (Nat × Nat)
  discards : List (Nat × Nat)
  deriving DecidableEq, Repr

/-- A posted write of a view that waits at ingress, and every later one of its host port's posted group behind it (R102, R201, R205): a store to
BAR2, or a write of CM_BARRIER with its value. `mark` is the number of the next packet at its arrival. -/
structure CmWait where
  view : Nat
  mark : Nat
  barrier : Option Nat
  offset : Nat
  data : List Byte
  deriving DecidableEq, Repr

/-- An access that covers several lines, performed line by line (R200): the address and bytes still to come. A read holds what it has read; a store is
one of another device's view, in a flow. -/
structure CmPart where
  agent : Agent
  addr : Nat
  tag : Nat
  left : Nat
  got : List Byte
  data : List Byte
  deriving DecidableEq, Repr

/-- Delivery notices to send, at most one per flow in 1 µs (R204): the device, the flow's identity, the newest sequence number visible, and when the
notice goes. -/
structure Notice where
  dev : Nat
  msg : TeardownMsg
  seq : Nat
  due : Nat
  deriving DecidableEq, Repr

/-- Coordination memory beside its bytes (R195 to R210). -/
structure CmState where
  held : List HeldStore
  tracked : List Tracked
  resvs : List Resv
  views : List CmView
  /-- Reads of CM_BARRIER_STATUS held: view, tag, limit (R206). -/
  statusReads : List (Nat × Nat × Nat)
  /-- Reads of CM_SC_STATUS waiting: view and tag (R208). -/
  scReads : List (Nat × Nat)
  waits : List CmWait
  reads : List CmPart
  stores : List CmPart
  notices : List Notice
  /-- Writes of other devices' hosts that left on a device port and that its link partner has not acknowledged: packet and header (R204). -/
  far : List (Nat × FabHdr)
  deriving DecidableEq, Repr

/-- A work request fetched and not yet at its commit point (R222): its ring index, its words, the sequence numbers it takes, the
status that awaits it (Table 9-5), the `Discarded` of a fence's response, and the bytes transferred when a status stopped it. -/
structure WorkReq where
  index : Nat
  words : List Word
  first : Nat
  count : Nat
  status : Nat
  discarded : Nat
  bytes : Nat
  deriving DecidableEq, Repr

/-- A sequence number outstanding at the requester: its packet, when it was first sent, whether it was re-sent, whether it is done
(R240, R241). -/
structure SentPkt where
  psn : Nat
  pk : LighterPkt
  at0 : Nat
  again : Bool
  isDone : Bool
  deriving DecidableEq, Repr

/-- A message that consumes a receive entry (R222, R237): its `RecvSeq`, the entry, its opcode, `Immediate`, length and last
sequence number, and the status of a failure. -/
structure RecvMsg where
  seq : Nat
  entry : List Word
  op : Nat
  imm : Nat
  len : Nat
  lastPsn : Option Nat
  status : Nat
  deriving DecidableEq, Repr

/-- A posted write placed for a queue pair and not yet visible: its packet, the view it goes to, and its bytes (R244). -/
structure Placement where
  id : Nat
  view : Nat
  bytes : Nat
  deriving DecidableEq, Repr

/-- What the engine keeps of a queue pair beside its image (R215, R235 to R244). -/
structure QpRun where
  qp : Nat
  sqProducer : Nat
  rqProducer : Nat
  wrs : List WorkReq
  sent : List SentPkt
  /-- Sequence numbers whose `Sack` bit the latest ACK set (R242). -/
  sack : List Nat
  /-- Lowest sequence number that a NAK NO_RECV named since the last expiry (R243). -/
  noRecv : Option Nat
  timer : Option Nat
  /-- `RecvSeq` of the next message sent that consumes a receive entry. -/
  sendSeq : Nat
  /-- Responder: `Sack` bits as sequence numbers, those among them that carry `Last`, messages, placements since the last ACK, its
  time limit, and whether a trigger of R239 has occurred. -/
  rsack : List Nat
  lasts : List Nat
  msgs : List RecvMsg
  unreported : Nat
  ackDue : Option Nat
  ackNow : Bool
  /-- Results of AtomicOps, newest first (R238). -/
  atomics : List (Nat × List Byte)
  /-- FENCE_REQs not answered (R244), placements not visible, and bytes discarded since the previous FENCE_REQ. -/
  fences : List Nat
  placed : List Placement
  lost : Nat
  deriving DecidableEq, Repr

/-- A 4 KiB page to translate (R232): its view, PASID and number. -/
structure PageRef where
  view : Nat
  pasid : Option Nat
  page : Nat
  deriving DecidableEq, Repr

/-- One page in the translation cache (R232): view, PASID, first 4 KiB page, log2 of its bytes, and the translated 4 KiB page it begins at. -/
structure Xlate where
  view : Nat
  pasid : Option Nat
  page : Nat
  log2 : Nat
  dst : Nat
  deriving DecidableEq, Repr

/-- What a queue pair or a packet of the engine waits for: a context (R245), by class and object, or a translation (R232). -/
inductive LtNeed where
  | ctx (key : Nat)
  | page (p : PageRef)
  deriving DecidableEq, Repr

/-- A Lighter packet that waits for a context or a translation (R232, R245); `keyOk` after it passed its key check (R230). -/
structure LtWait where
  pk : LighterPkt
  host : HostReply
  keyOk : Bool
  need : LtNeed
  deriving DecidableEq, Repr

/-- The Lighter engine (R215 to R246). -/
structure Lighter where
  runs : List QpRun
  /-- Times a completion queue's producer index has wrapped (R220). -/
  wraps : List (Nat × Nat)
  /-- Contexts in the cache, most recent first: class and object (R245). -/
  cached : List Nat
  /-- Contexts that are on their way from SDRAM. -/
  missing : List Nat
  /-- Translations, most recent first (R232). -/
  xlates : List Xlate
  waiting : List LtWait
  /-- Queue pairs whose next packet waits for a translation of its local region (R232). -/
  sendWaits : List (Nat × PageRef)
  /-- Regions being revoked, with the latest time of their completion (R230). -/
  revoking : List (Nat × Nat)
  deriving DecidableEq, Repr

/-- A packet in a replay buffer: its first sequence number, its flits, and the packet with its arrival level (R141, R262). A packet
starts a flit of its own, which R255 permits (DESIGN CHOICE, log entry 22). -/
structure ReplayEntry where
  first : Nat
  flits : Nat
  pk : Packet
  deriving DecidableEq, Repr

/-- The Quayline end of a link, by its lane-0 port (R254 to R272). -/
structure QlPort where
  port : Nat
  /-- Transmitter: next sequence number, the partner's AckSeq, the last ReplayEpoch acted on, where the last replay began and how many
  began there in a row, the replay buffer oldest first, and how many of its flits are in SDRAM. -/
  nextSeq : Nat
  acked : Nat
  actedEpoch : Bool
  replayFrom : Nat
  replayRuns : Nat
  replay : List ReplayEntry
  spilled : Nat
  throttled : Bool
  /-- When the entries in SDRAM began to stand there: who spills first keeps its grant (R20, R23). -/
  spillFrom : Option Nat
  /-- DATA flits that wait to be sent or sent again, by sequence number; flits sent, which give `CreditVc` and `CongHop` (R257); bytes of each lane
  since its last marker (R250, R283); and the answer to a resize request that the next flit carries (R271). -/
  sendQ : List Nat
  rot : Nat
  laneBytes : Nat
  answer : Option (Nat × Nat)
  /-- Receiver: `Expected`, whether a replay request is open, its epoch, and the channel of an open packet with its bytes still to come (R255). -/
  expected : Nat
  reqOpen : Bool
  epoch : Bool
  rxOpen : Option (Nat × Nat)
  /-- Receiver: the units of its pool, and by channel the limit granted, the units freed, and those returned in the last microsecond with their time
  (R266, R267); the descrambler's state of each stream (R282). -/
  rxPool : Nat
  rxLimit : List (Nat × Nat)
  rxFreed : List (Nat × Nat)
  rxReturned : List (Nat × Nat × Nat)
  rxS : List (Nat × Nat)
  /-- Credits by channel: the partner's limit, units consumed, and the time of the last advertisement (R265, R268). -/
  limits : List (Nat × Nat)
  consumed : List (Nat × Nat)
  advertised : List (Nat × Nat)
  /-- Times outside Active or in a steer, when credit timers stand still (R268, R293), and the start of the present one. -/
  pauses : List (Nat × Nat)
  frozenFrom : Option Nat
  /-- Error monitor (R269): CRC-failed flits per sub-window, newest first; flits in the newest; flits since the declaration; windows in a
  row above the threshold; and what each end declares. -/
  errSubs : List Nat
  subFlits : Nat
  declFlits : Nat
  overRuns : Nat
  ownDegraded : Bool
  partnerDegraded : Bool
  /-- Bring-up (R258): own nonce, `Resume`, when a valid INIT was first received, whether one with `Heard` was, the partner's `AckSeq`, and
  the INIT flits sent with `Heard` 1. -/
  aligned : Bool
  /-- First stream of the block that carries the link (R286). -/
  block : Nat
  nonce : Nat
  resume : Bool
  heardAt : Option Nat
  partnerHeard : Bool
  partnerAck : Nat
  initsSent : Nat
  initDue : Option Nat
  retrainDue : Option Nat
  failedAt : Option Nat
  heldDue : Option Nat
  resizeDue : Option Nat
  drainDue : Option Nat
  steerDue : Option Nat
  /-- A RESIZE_REQ under way: rate and width codes, and whether a calibration window asked (R271, R295). -/
  wanted : Option (Nat × Nat)
  byWindow : Bool
  /-- Settings of the resize under way (R271). -/
  target : Option (Nat × Nat)
  /-- Width code of the ports that carry the link while it narrows, 0 when those of its configured width do (R12). -/
  carry : Nat
  /-- Handling of a failure (R139 to R141): 0 none, 1 detected, 2 paths withdrawn, 3 on-die contents re-sent, 4 all re-sent. -/
  failure : Nat
  deriving DecidableEq, Repr

/-- Attached SDRAM (R21, R26, R355): the channels that trained, those out of service, those whose contents still migrate, and whether it
stands in self-refresh. -/
structure Sdram where
  trained : List Nat
  outOfService : List Nat
  migrating : List Nat
  selfRefresh : Bool
  /-- Spill had the last turn that it and the Lighter classes share (R21). -/
  spillTurn : Bool
  deriving DecidableEq, Repr

/-- A physical lane beside its image (R22, R284, R300). -/
structure LaneRun where
  lane : Nat
  granted : Bool
  /-- Patterns found one interval apart, and when the last was found. -/
  found : Nat
  lastMark : Nat
  /-- Its `MarkCount`, against which the streams are deskewed (R285). -/
  lastCount : Nat
  /-- The transmitter's scrambler (R282); the PRBS generator's and the checker's bits, newest first, and the correct predictions in a row (R299). -/
  txS : BitVec 31
  genBits : List Bool
  checkBits : List Bool
  checkRun : Nat
  /-- The stream its last valid marker shows, 0x1E released, 0x1F idle spare; and the partner's `RxOk` for it. -/
  shows : Nat
  partnerOk : Bool
  measuring : Bool
  /-- `TargetState` 2 moves its streams to spares: transmit and receive still under way (R298). -/
  leavingTx : Bool
  leavingRx : Bool
  deriving DecidableEq, Repr

/-- A steering command that a receiver repeats until it is answered (R291): 1 REQ_MOVE, 2 REQ_BACK. -/
structure SteerReq where
  cmd : Nat
  tag : Nat
  lane : Nat
  spare : Nat
  replacement : Bool
  deriving DecidableEq, Repr

/-- Where a stream that a transmitter moved to a spare stands (R290): 0 asked and not yet begun, 1 on both lanes for the intervals left,
2 on the spare alone, 3 return asked, 4 back on its own lane with the copy kept for the intervals left, 5 driven off the spare by a replacement. -/
structure TxMove where
  lane : Nat
  spare : Nat
  replacement : Bool
  stage : Nat
  left : Nat
  deriving DecidableEq, Repr

/-- State of a calibration pass (Table 11-3). -/
inductive CalStage where
  | requested | copying | calibrating | returning
  deriving DecidableEq, Repr

/-- A calibration pass of a link's receiver on one link spare (R294). -/
structure CalPass where
  spare : Nat
  lane : Nat
  stage : CalStage
  tag : Nat
  due : Nat
  deriving DecidableEq, Repr

/-- Steering and bring-up of a fabric link, by its lane-0 port (R285 to R294). -/
structure SteerPort where
  port : Nat
  /-- A bring-up is in progress. -/
  training : Bool
  markCount : Nat
  nextTag : Nat
  req : Option SteerReq
  /-- Commands to be sent once that one is answered. -/
  backlog : List SteerReq
  /-- The answer the next markers carry: tag and ACK. -/
  answer : Option (Nat × Bool)
  /-- The partner's last tag acted on. -/
  acted : Option Nat
  moves : List TxMove
  passes : List CalPass
  /-- End of the last pass on each link spare, and the stream that the next pass takes. -/
  lastPass : List (Nat × Nat)
  nextStream : Nat
  /-- Streams whose received copy stands on a spare: stream and link spare. -/
  rxOnSpare : List (Nat × Nat)
  deriving DecidableEq, Repr

/-- Ports of any role (R306, R426): disabled, out of service, whether each is draining toward that. -/
structure Lanes where
  runs : List LaneRun
  steers : List SteerPort
  disabled : List Nat
  outOfService : List Nat
  /-- Lanes waiting for a grant, oldest first; grants of the last 2 µs by time (R22). -/
  waiting : List Nat
  grants : List Nat
  /-- Ports whose calibration window has opened, by lane-0 port and the period index last taken (R295). -/
  windows : List (Nat × Nat)
  deriving DecidableEq, Repr

/-- A reset of one of the EB9144's own functions in progress: its view, function, and the time by which it ends (R313). -/
structure FnReset where
  view : Nat
  fn : ViewFn
  due : Nat
  deriving DecidableEq, Repr

/-- A DPC that holds a virtual port: its record and the function contained (R316). -/
structure Dpc where
  view : Nat
  k : Nat
  recId : Nat
  sel : Nat
  word : Nat
  deriving DecidableEq, Repr

/-- The slot that a virtual downstream port shows (R315): Presence Detect State, Data Link Layer Link Active, and the changes and the attention that its
host has not cleared. -/
structure VSlot where
  present : Bool
  active : Bool
  presenceChanged : Bool
  activeChanged : Bool
  attention : Bool
  deriving DecidableEq, Repr

/-- An empty slot. -/
def VSlot.empty : VSlot := ⟨false, false, false, false, false⟩

/-- Host and device ports and the functions of views (R303 to R324). -/
structure Pcie where
  /-- Upper half of `TIDE_NOW` latched by a view (R311). -/
  tideLatch : List (Nat × Nat)
  resets : List FnReset
  dpcs : List Dpc
  /-- Packets to send again whole before any other of their port (R321). -/
  nullified : List (Nat × Nat)
  /-- Views whose host link is in L2 (R324). -/
  inL2 : List Nat
  /-- Virtual ports that their host has named in a hot-plug event (R307). -/
  named : List (Nat × Nat)
  /-- Slots of virtual downstream ports, by view and port, 256 to a view; one that is not listed is empty (R315). -/
  vslots : List (Nat × VSlot)
  /-- MCTP messages discarded in views without a granted queue (R318). -/
  mctpDropped : Nat
  /-- Width code that a link trained at, by port: L0p widens up to it (R323). -/
  trainedWidth : List (Nat × Nat)
  deriving DecidableEq, Repr

/-- Where the device stands between power and DEV_READY (R341 to R345, R355, R356). -/
inductive PowerPhase where
  /-- Without PWR_OK. -/
  | off
  /-- Start-up steps before the management path is ready (Table 13-9). -/
  | starting
  /-- Management path ready; the base configuration has not ended. -/
  | managed
  /-- DEV_READY asserted. -/
  | ready
  /-- Grade 4 (R355). -/
  | halted
  /-- Grade 5 (R356). -/
  | latched
  /-- DEV_RST_N is low (R342). -/
  | held
  /-- Orderly power-down done (R345). -/
  | down
  deriving DecidableEq, Repr

/-- A seed record of a lane in the boot flash (R288, R345). -/
structure Seed where
  lane : Nat
  rate : Nat
  pre : Nat
  post : Nat
  ctle : Nat
  dfe : Nat
  replaced : Bool
  deriving DecidableEq, Repr

/-- Power, start-up, resets, clocks and pins (R333 to R345, R355, R356, R406 to R409). -/
structure Power where
  phase : PowerPhase
  /-- Image slot used (R344), and whether BaseDone carried a status other than OK (R80, R81). -/
  baseSlot : Nat
  baseFailed : Bool
  /-- The base configuration has begun (R79), and the boot image has `IgnoreSeeds` set (R345). -/
  baseBegun : Bool
  ignoreSeeds : Bool
  /-- The boot image has `CoreSpread` set: the core, Tallyman and SDRAM PLLs spread down by 0.5% (R334). -/
  coreSpread : Bool
  /-- The start-up under way follows a device reset, and its cause for the Reset entry (R340, R342, Table 3-2). -/
  warm : Bool
  cause : Nat
  /-- Grade 5 cause and rail or sensor (R356). -/
  latchCause : Nat
  latchSensor : Nat
  /-- When a halt restarts the device (R355). -/
  haltDue : Option Nat
  /-- `Action` 1 (R341): its latest time, and the program that wrote it. -/
  resetDue : Option Nat
  resetProg : Option Nat
  /-- An orderly power-down is under way (R345). -/
  downAsked : Bool
  /-- Levels of PERST_N, DEV_RST_N and PWR_OK. -/
  perstN : Bool
  devRstN : Bool
  pwrOk : Bool
  straps : Straps
  /-- Fused floor of `SecurityVersion`, and the version to raise it to at BaseDone (R344). -/
  secFloor : Nat
  secCommit : Option Nat
  /-- Seed records of the valid copy with the higher sequence number (R345). -/
  seeds : List Seed
  /-- Clock inputs lost (R335), numbered as checker block 0x12 numbers them. -/
  lost : List Nat
  deriving DecidableEq, Repr

/-- The tide unit beside its image (R328 to R331). -/
structure TideRun where
  /-- Measurements in a row above the threshold that agree within 100 ns, newest first. -/
  above : List Int
  /-- Measurements in a row within 20 ns. -/
  near : Nat
  /-- Offset still to be slewed. -/
  slew : Int
  /-- The exchange under way: message ID of TIDE_SYNC with t2, of TIDE_FOLLOW with t1, of TIDE_DREQ with t3. -/
  sync : Option (Nat × Nat)
  follow : Option (Nat × Nat)
  dreq : Option (Nat × Nat)
  /-- The first TIDE_PPS edge after the commit of `Source` 1 is still to come (R327). -/
  firstEdge : Bool
  /-- Multiples of 2^20 of tide served and asked for by PTM, and the next message ID. -/
  served : Nat
  asked : Nat
  nextMsg : Nat
  deriving DecidableEq, Repr

/-- A slot channel beside its image (R367 to R377). -/
structure SlotRun where
  slot : Nat
  /-- Later of the last gate-off and the last loss of presence (R369). -/
  offAt : Nat
  request : Bool
  /-- Ends of the ramp limit, of `PerstDelayMs`, of the fault timer, and of the 100 µs before an orderly off's gate (R370 to R372). -/
  rampDue : Option Nat
  perstDue : Option Nat
  faultDue : Option Nat
  gateDue : Option Nat
  /-- Since when the slot is On (R373). -/
  onAt : Nat
  /-- Words 0 and 1 that stay in force over a device reset, until new limits or the next off (R385). -/
  held : Option (Word × Word)
  /-- Stayed powered over a device reset whose base configuration is not done yet (R385). -/
  kept : Bool
  /-- Record of the trip that latched it. -/
  latchRec : Option Nat
  /-- The last 100 samples, newest first: current, output and input (R382). -/
  taken : List (Int × Nat × Nat)
  /-- Energy below 1 µJ, in 10 pJ (R382). -/
  frac : Int
  deriving DecidableEq, Repr

/-- A feed's last 100 samples, newest first: current in 10 mA, input and bus (R382). -/
structure FeedRun where
  feed : Nat
  taken : List (Nat × Nat × Nat)
  deriving DecidableEq, Repr

/-- The slot-power die (R367 to R386). -/
structure SlotPower where
  runs : List SlotRun
  /-- Slots in Waiting, in order of arrival (R383). -/
  queue : List Nat
  feeds : List FeedRun
  deriving DecidableEq, Repr
/-- A snapshot under way: its set, buffer, instant, issuing view and device, whether the instant had passed, and
whether tide was locked at the capture (R393 to R396). -/
structure SnapJob where
  set : Fin 256
  addr : Nat
  instant : Nat
  view : Nat
  issuerDev : Nat
  wasLate : Bool
  locked : Bool
  frozen : Bool
  /-- Counters captured so far: ID, word with its flags; and the units taken: tide, first position, count. -/
  values : List Word
  units : List (Nat × Nat × Nat)
  deriving DecidableEq, Repr

/-- A telemetry record staged in SDRAM (R398). -/
structure Staged where
  ring : Nat
  seq : Nat
  words : List Word
  deriving DecidableEq, Repr

/-- Counters and telemetry (R388 to R398). -/
structure Counters where
  /-- Counter values by counter ID (R388). -/
  vals : List (Nat × Nat)
  /-- Counters with their sticky `Invalid` flag set (R390), and those that restarted at 0 with `Saturated` set. -/
  invalid : List Nat
  saturated : List Nat
  jobs : List SnapJob
  staged : List Staged
  /-- Next record sequence of each ring, and rings whose next record carries `Overflow` (R398). -/
  ringSeq : List (Nat × Nat)
  ringOverflow : List Nat
  deriving DecidableEq, Repr

/-- The state of the EB9144, all of it plain data. -/
structure State where
  /-- Commands that wait, first in, first out. -/
  pending : List Instr
  /-- Nanoseconds of the model's own clock (log entry 2). -/
  now : Nat
  /-- The tide count (R331). -/
  tide : Nat
  /-- The tide source last reported its own holdover (R330). -/
  sourceHoldover : Bool
  /-- Free values drawn so far (log entry 1). -/
  free : Nat
  out : List Output
  power : Power
  /-- Words of object images that differ from their cold-reset value, keyed class, selector, word. -/
  objs : List (Nat × Word)
  /-- Object versions other than 0 (R44), keyed class, selector. -/
  vers : List (Nat × Nat)
  /-- BAR0 registers that differ from their cold-reset value, keyed view and offset (R33, R73, R359). -/
  regs : List (Nat × Word)
  /-- Configuration registers that a host has written, keyed view, function and register (R307). -/
  cfg : List (Nat × Option Nat)
  tally : Tally
  log : Logbook
  overlays : List Overlay
  activeOverlay : Option Nat
  /-- Contained scope objects for which an apply or removal has not taken effect, with the overlay still in effect (R88). -/
  overlayHeld : List (Nat × Option Nat)
  core : Core
  fabric : Fabric
  tenancy : Tenancy
  faults : Faults
  counters : Counters
  /-- Bytes of coordination memory that are not zero (R195). -/
  cm : List Host.Cell
  cms : CmState
  lighter : Lighter
  quay : List QlPort
  sdram : Sdram
  lanes : Lanes
  pcie : Pcie
  slots : SlotPower
  clock : TideRun
  deriving DecidableEq, Repr

/-- The machine right after a cold reset: PWR_OK has risen with DEV_RST_N high, every image and register holds its cold value,
memories are zero, and the start-up steps of Table 13-9 run. -/
def State.reset : State :=
  { pending := []
    now := 0
    tide := 0
    sourceHoldover := false
    free := 0
    out := []
    power :=
      { phase := .starting, baseSlot := 3, baseFailed := false, baseBegun := false, ignoreSeeds := false, coreSpread := false, warm := false, cause := 0, latchCause := 0, latchSensor := 0,
        haltDue := none, resetDue := none, resetProg := none, downAsked := false, perstN := false, devRstN := true, pwrOk := true,
        straps := ⟨0, 0, true⟩, secFloor := 0, secCommit := none, seeds := [], lost := [] }
    objs := []
    vers := []
    regs := []
    cfg := []
    tally :=
      { progs := [], nextId := 0, parkings := 0, settledAt := 0, fwdOut := [], nextFwdId := 0, fwdIn := [], mgmtQ := [],
        base := [], baseOverlays := [], baseStatus := .ok }
    log := { entries := [], head := 0, epoch := 0, pendingCopy := [], mirrorQ := [], exportJobs := [], nextAt := 0 }
    overlays := []
    activeOverlay := none
    overlayHeld := []
    core :=
      { pkts := [], nextPkt := 0, egress := [], lastIngress := [], pointer := [], midVisit := [], orphans := [], epoch := 0,
        sampledEpoch := 0, meterFrac := [], shaperFrac := [], redSeen := [], epochWaits := false, sampleWaits := false }
    fabric :=
      { send := [], recv := [], spray := [], coldUntil := [], congestion := [], remoteLevel := [], exclusions := [],
        withdrawn := [], failed := [], restoring := [], reqs := [], nextReq := 0 }
    tenancy := { flrs := [], resets := [], bindPort := [], newIds := [], born := [], bars := [] }
    faults := { recs := [], nextId := 1, contained := [], leaks := [], injections := [], summaries := [] }
    counters := { vals := [], invalid := [], saturated := [], jobs := [], staged := [], ringSeq := [], ringOverflow := [] }
    cm := []
    cms := { held := [], tracked := [], resvs := [], views := [], statusReads := [], scReads := [], waits := [], reads := [], stores := [], notices := [], far := [] }
    lighter :=
      { runs := [], wraps := [], cached := [], missing := [], xlates := [], waiting := [], sendWaits := [], revoking := [] }
    quay := []
    sdram := { trained := [], outOfService := [], migrating := [], selfRefresh := false, spillTurn := false }
    lanes := { runs := [], steers := [], disabled := [], outOfService := [], waiting := [], grants := [], windows := [] }
    pcie := { tideLatch := [], resets := [], dpcs := [], nullified := [], inL2 := [], named := [], vslots := [], mctpDropped := 0, trainedWidth := [] }
    slots := { runs := [], queue := [], feeds := [] }
    clock :=
      { above := [], near := 0, slew := 0, sync := none, follow := none, dreq := none, firstEdge := false, served := 0,
        asked := 0, nextMsg := 0 } }

end Sys2Proof.Machine
end

