-- ==== Sys2Proof/Machine/Fields.lean ====
section
/-! DEFINITION. The fields of the object images, one row of the spec's field maps each (R8): class, word, lowest bit and
width; and the value every image word has after a cold reset. -/

namespace Sys2Proof.Machine

/-- A field of an image: class (Table 2-8), word, lowest bit and width. -/
structure Fld where
  cls : Nat
  word : Nat
  lo : Nat
  width : Nat
  deriving DecidableEq, Repr

/-- The same field `n` words further on, where a map repeats it per word. -/
def Fld.up (f : Fld) (n : Nat) : Fld := { f with word := f.word + n }

/-- The same field `n` bits further up, where a map repeats it within a word. -/
def Fld.at (f : Fld) (n : Nat) : Fld := { f with lo := f.lo + n }

/-- PartNumber of Device, word 0 bits 63:48 (Table 2-12, R61). Access RO. -/
def devPartNumber : Fld := ⟨0x1, 0, 48, 16⟩
/-- Variant of Device, word 0 bits 47:40 (Table 2-12, R61). Access RO. -/
def devVariant : Fld := ⟨0x1, 0, 40, 8⟩
/-- Stepping of Device, word 0 bits 39:32 (Table 2-12, R61). Access RO. -/
def devStepping : Fld := ⟨0x1, 0, 32, 8⟩
/-- FabricId of Device, word 0 bits 11:0 (Table 2-12, R61). Access RW. -/
def devFabricId : Fld := ⟨0x1, 0, 0, 12⟩
/-- ImageVersion of Device, word 1 bits 63:0 (Table 2-12, R61). Access RO. -/
def devImageVersion : Fld := ⟨0x1, 1, 0, 64⟩
/-- MaxCells of Port, word 16 bits 53:32 (Table 4-4, R104). Access RW. -/
def portMaxCells : Fld := ⟨0x2, 16, 32, 22⟩
/-- Alpha of Port, word 16 bits 26:24 (Table 4-4, R104). Access RW. -/
def portAlpha : Fld := ⟨0x2, 16, 24, 3⟩
/-- ReserveCells of Port, word 16 bits 21:0 (Table 4-4, R104). Access RW. -/
def portReserveCells : Fld := ⟨0x2, 16, 0, 22⟩
/-- StoreForward of Port, word 32 bits 0:0 (Table 4-4, R104). Access RW. -/
def portStoreForward : Fld := ⟨0x2, 32, 0, 1⟩
/-- TestResult of BufferBank, word 0 bits 39:38 (Table 4-6, R114). Access RO. -/
def bankTestResult : Fld := ⟨0x16, 0, 38, 2⟩
/-- State of BufferBank, word 0 bits 37:35 (Table 4-6, R114). Access RO. -/
def bankState : Fld := ⟨0x16, 0, 35, 3⟩
/-- Retiring of BufferBank, word 0 bits 34:34 (Table 4-6, R114). Access RO. -/
def bankRetiring : Fld := ⟨0x16, 0, 34, 1⟩
/-- CellsInUse of BufferBank, word 0 bits 11:0 (Table 4-6, R114). Access RO. -/
def bankCellsInUse : Fld := ⟨0x16, 0, 0, 12⟩
/-- Test of BufferBank, word 1 bits 2:2 (Table 4-6, R114). Access RW. -/
def bankTest : Fld := ⟨0x16, 1, 2, 1⟩
/-- TargetState of BufferBank, word 1 bits 1:0 (Table 4-6, R114). Access RW. -/
def bankTargetState : Fld := ⟨0x16, 1, 0, 2⟩
/-- Corrected of BufferBank, word 2 bits 63:32 (Table 4-6, R114). Access RO. -/
def bankCorrected : Fld := ⟨0x16, 2, 32, 32⟩
/-- Uncorrectable of BufferBank, word 2 bits 31:0 (Table 4-6, R114). Access RO. -/
def bankUncorrectable : Fld := ⟨0x16, 2, 0, 32⟩
/-- Valid of Route, word 0 bits 16:16 (Table 5-3, R123). Access RW. -/
def routeValid : Fld := ⟨0x4, 0, 16, 1⟩
/-- PathGroup of Route, word 0 bits 15:0 (Table 5-3, R123). Access RW. -/
def routePathGroup : Fld := ⟨0x4, 0, 0, 16⟩
/-- NoPathPackets of Route, word 1 bits 31:0 (Table 5-3, R123). Access RO. -/
def routeNoPathPackets : Fld := ⟨0x4, 1, 0, 32⟩
/-- ColdStart of PathGroup, word 0 bits 7:7 (Table 5-4, R124). Access RO. -/
def grpColdStart : Fld := ⟨0x5, 0, 7, 1⟩
/-- MemberCount of PathGroup, word 0 bits 6:0 (Table 5-4, R124). Access RW. -/
def grpMemberCount : Fld := ⟨0x5, 0, 0, 7⟩
/-- Backup of PathGroup, word 1 bits 10:10, member 0; later members follow (Table 5-4, R124). Access RW. -/
def grpBackup : Fld := ⟨0x5, 1, 10, 1⟩
/-- HopLevel of PathGroup, word 1 bits 9:8, member 0; later members follow (Table 5-4, R124). Access RW. -/
def grpHopLevel : Fld := ⟨0x5, 1, 8, 2⟩
/-- EgressPort of PathGroup, word 1 bits 7:0, member 0; later members follow (Table 5-4, R124). Access RW. -/
def grpEgressPort : Fld := ⟨0x5, 1, 0, 8⟩
/-- MemberLive of PathGroup, word 17 bits 63:0 (Table 5-4, R124). Access RO. -/
def grpMemberLive : Fld := ⟨0x5, 17, 0, 64⟩
/-- CongestionLevel of PathGroup, word 18 bits 3:0, member 0; later members follow (Table 5-4, R124). Access RO. -/
def grpCongestionLevel : Fld := ⟨0x5, 18, 0, 4⟩
/-- AutoRestoreMs of Device, word 8 bits 31:16 (Table 5-7, R136). Access RW. -/
def devAutoRestoreMs : Fld := ⟨0x1, 8, 16, 16⟩
/-- GapLimitUs of Device, word 8 bits 15:0 (Table 5-7, R136). Access RW. -/
def devGapLimitUs : Fld := ⟨0x1, 8, 0, 16⟩
/-- SendFlows of Device, word 9 bits 50:32 (Table 5-7, R136). Access RO. -/
def devSendFlows : Fld := ⟨0x1, 9, 32, 19⟩
/-- RecvFlows of Device, word 9 bits 18:0 (Table 5-7, R136). Access RO. -/
def devRecvFlows : Fld := ⟨0x1, 9, 0, 19⟩
/-- SharedMeter of Port, word 33 bits 46:32 (Table 6-1, R156). Access RW. -/
def portSharedMeter : Fld := ⟨0x2, 33, 32, 15⟩
/-- SampleLog2 of Port, word 33 bits 12:8 (Table 6-1, R156). Access RW. -/
def portSampleLog2 : Fld := ⟨0x2, 33, 8, 5⟩
/-- FabricSet of Port, word 33 bits 3:2 (Table 6-1, R156). Access RW. -/
def portFabricSet : Fld := ⟨0x2, 33, 2, 2⟩
/-- QueueSet of Port, word 33 bits 1:0 (Table 6-1, R156). Access RW. -/
def portQueueSet : Fld := ⟨0x2, 33, 0, 2⟩
/-- QueueMap of Port, word 34 bits 3:0, class c at bit 4c (Table 6-1, R156). Access RW. -/
def portQueueMap : Fld := ⟨0x2, 34, 0, 4⟩
/-- BurstCells of SchedQueue, word 0 bits 51:32 (Table 6-2, R160). Access RW. -/
def sqBurstCells : Fld := ⟨0xb, 0, 32, 20⟩
/-- Weight of SchedQueue, word 0 bits 10:0 (Table 6-2, R160). Access RW. -/
def sqWeight : Fld := ⟨0xb, 0, 0, 11⟩
/-- ShapeKbps of SchedQueue, word 1 bits 31:0 (Table 6-2, R160). Access RW. -/
def sqShapeKbps : Fld := ⟨0xb, 1, 0, 32⟩
/-- BurstBytes of SchedQueue, word 2 bits 31:0 (Table 6-2, R160). Access RW. -/
def sqBurstBytes : Fld := ⟨0xb, 2, 0, 32⟩
/-- DepthCells of SchedQueue, word 3 bits 53:32 (Table 6-2, R160). Access RO. -/
def sqDepthCells : Fld := ⟨0xb, 3, 32, 22⟩
/-- HeadDelay of SchedQueue, word 3 bits 31:0 (Table 6-2, R160). Access RO. -/
def sqHeadDelay : Fld := ⟨0xb, 3, 0, 32⟩
/-- MaxDepthCells of SchedQueue, word 4 bits 53:32 (Table 6-2, R160). Access RW. -/
def sqMaxDepthCells : Fld := ⟨0xb, 4, 32, 22⟩
/-- MaxHeadDelay of SchedQueue, word 4 bits 31:0 (Table 6-2, R160). Access RW. -/
def sqMaxHeadDelay : Fld := ⟨0xb, 4, 0, 32⟩
/-- ShapeTokens of SchedQueue, word 5 bits 63:32 (Table 6-2, R160). Access RO. -/
def sqShapeTokens : Fld := ⟨0xb, 5, 32, 32⟩
/-- DeficitCells of SchedQueue, word 5 bits 19:0 (Table 6-2, R160). Access RO. -/
def sqDeficitCells : Fld := ⟨0xb, 5, 0, 20⟩
/-- Mode of Meter, word 0 bits 33:32 (Table 6-3, R168). Access RW. -/
def meterMode : Fld := ⟨0xa, 0, 32, 2⟩
/-- CirKbps of Meter, word 0 bits 31:0 (Table 6-3, R168). Access RW. -/
def meterCirKbps : Fld := ⟨0xa, 0, 0, 32⟩
/-- PirKbps of Meter, word 1 bits 31:0 (Table 6-3, R168). Access RW. -/
def meterPirKbps : Fld := ⟨0xa, 1, 0, 32⟩
/-- ExcessBurstBytes of Meter, word 2 bits 63:32 (Table 6-3, R168). Access RW. -/
def meterExcessBurstBytes : Fld := ⟨0xa, 2, 32, 32⟩
/-- CommittedBurstBytes of Meter, word 2 bits 31:0 (Table 6-3, R168). Access RW. -/
def meterCommittedBurstBytes : Fld := ⟨0xa, 2, 0, 32⟩
/-- ClearCounts of Meter, word 3 bits 0:0 (Table 6-3, R168). Access WO. -/
def meterClearCounts : Fld := ⟨0xa, 3, 0, 1⟩
/-- TokensC of Meter, word 4 bits 63:32 (Table 6-3, R168). Access RO. -/
def meterTokensC : Fld := ⟨0xa, 4, 32, 32⟩
/-- TokensEP of Meter, word 4 bits 31:0 (Table 6-3, R168). Access RO. -/
def meterTokensEP : Fld := ⟨0xa, 4, 0, 32⟩
/-- GreenBytes of Meter, word 5 bits 47:0 (Table 6-3, R168). Access RO. -/
def meterGreenBytes : Fld := ⟨0xa, 5, 0, 48⟩
/-- YellowBytes of Meter, word 6 bits 47:0 (Table 6-3, R168). Access RO. -/
def meterYellowBytes : Fld := ⟨0xa, 6, 0, 48⟩
/-- RedHolds of Meter, word 7 bits 47:0 (Table 6-3, R168). Access RO. -/
def meterRedHolds : Fld := ⟨0xa, 7, 0, 48⟩
/-- HeldEpochs of Meter, word 8 bits 47:0 (Table 6-3, R168). Access RO. -/
def meterHeldEpochs : Fld := ⟨0xa, 8, 0, 48⟩
/-- State of Tenant, word 0 bits 63:62 (Table 7-1, R173). Access RO. -/
def tenState : Fld := ⟨0x7, 0, 62, 2⟩
/-- HomeView of Tenant, word 0 bits 22:16 (Table 7-1, R173). Access RO. -/
def tenHomeView : Fld := ⟨0x7, 0, 16, 7⟩
/-- Quota of Tenant, word 1 bits 63:32 (Table 7-1, R173). Access RO. -/
def tenQuota : Fld := ⟨0x7, 1, 32, 32⟩
/-- Use of Tenant, word 1 bits 31:0 (Table 7-1, R173). Access RO. -/
def tenUse : Fld := ⟨0x7, 1, 0, 32⟩
/-- GateRefusals of Tenant, word 7 bits 63:32 (Table 7-1, R173). Access RO. -/
def tenGateRefusals : Fld := ⟨0x7, 7, 32, 32⟩
/-- SuspendRefusals of Tenant, word 7 bits 31:0 (Table 7-1, R173). Access RO. -/
def tenSuspendRefusals : Fld := ⟨0x7, 7, 0, 32⟩
/-- VirtualPorts of HostView, word 0 bits 47:40 (Table 7-4, R179). Access RO. -/
def viewVirtualPorts : Fld := ⟨0x6, 0, 40, 8⟩
/-- LinkUp of HostView, word 0 bits 33:33 (Table 7-4, R179). Access RO. -/
def viewLinkUp : Fld := ⟨0x6, 0, 33, 1⟩
/-- FmQueue of HostView, word 0 bits 32:32 (Table 7-4, R179). Access RW. -/
def viewFmQueue : Fld := ⟨0x6, 0, 32, 1⟩
/-- Port of HostView, word 0 bits 31:24 (Table 7-4, R179). Access RW. -/
def viewPort : Fld := ⟨0x6, 0, 24, 8⟩
/-- OwnerTenant of HostView, word 0 bits 12:0 (Table 7-4, R179). Access RW. -/
def viewOwnerTenant : Fld := ⟨0x6, 0, 0, 13⟩
/-- SlotCount of Port, word 38 bits 30:16 (Table 7-5, R181). Access RW. -/
def portSlotCount : Fld := ⟨0x2, 38, 16, 15⟩
/-- SlotBase of Port, word 38 bits 13:0 (Table 7-5, R181). Access RW. -/
def portSlotBase : Fld := ⟨0x2, 38, 0, 14⟩
/-- VendorId of Function, word 0 bits 63:48 (Table 7-6, R182). Access RO. -/
def fnVendorId : Fld := ⟨0x8, 0, 48, 16⟩
/-- DeviceId of Function, word 0 bits 47:32 (Table 7-6, R182). Access RO. -/
def fnDeviceId : Fld := ⟨0x8, 0, 32, 16⟩
/-- Port of Function, word 0 bits 31:24 (Table 7-6, R182). Access RO. -/
def fnPort : Fld := ⟨0x8, 0, 24, 8⟩
/-- RoutingId of Function, word 0 bits 23:8 (Table 7-6, R182). Access RO. -/
def fnRoutingId : Fld := ⟨0x8, 0, 8, 16⟩
/-- Mld of Function, word 0 bits 4:4 (Table 7-6, R182). Access RO. -/
def fnMld : Fld := ⟨0x8, 0, 4, 1⟩
/-- Contained of Function, word 0 bits 3:3 (Table 7-6, R182). Access RO. -/
def fnContained : Fld := ⟨0x8, 0, 3, 1⟩
/-- State of Function, word 0 bits 2:0 (Table 7-6, R182). Access RO. -/
def fnState : Fld := ⟨0x8, 0, 0, 3⟩
/-- Generation of Function, word 1 bits 63:56 (Table 7-6, R182). Access RO. -/
def fnGeneration : Fld := ⟨0x8, 1, 56, 8⟩
/-- Bound of Function, word 1 bits 55:55 (Table 7-6, R182). Access RO. -/
def fnBound : Fld := ⟨0x8, 1, 55, 1⟩
/-- Matched of Function, word 1 bits 54:54 (Table 7-6, R182). Access RO. -/
def fnMatched : Fld := ⟨0x8, 1, 54, 1⟩
/-- ViewDevice of Function, word 1 bits 53:42 (Table 7-6, R182). Access RO. -/
def fnViewDevice : Fld := ⟨0x8, 1, 42, 12⟩
/-- Side of Function, word 1 bits 41:40 (Table 7-6, R182). Access RO. -/
def fnSide : Fld := ⟨0x8, 1, 40, 2⟩
/-- LogicalDevice of Function, word 1 bits 39:32 (Table 7-6, R182). Access RO. -/
def fnLogicalDevice : Fld := ⟨0x8, 1, 32, 8⟩
/-- VirtualPort of Function, word 1 bits 31:24 (Table 7-6, R182). Access RO. -/
def fnVirtualPort : Fld := ⟨0x8, 1, 24, 8⟩
/-- HostView of Function, word 1 bits 22:16 (Table 7-6, R182). Access RO. -/
def fnHostView : Fld := ⟨0x8, 1, 16, 7⟩
/-- TenantId of Function, word 1 bits 12:0 (Table 7-6, R182). Access RO. -/
def fnTenantId : Fld := ⟨0x8, 1, 0, 13⟩
/-- LateCompletions of Function, word 34 bits 63:32 (Table 7-6, R182). Access RO. -/
def fnLateCompletions : Fld := ⟨0x8, 34, 32, 32⟩
/-- GateRefusals of Function, word 34 bits 31:0 (Table 7-6, R182). Access RO. -/
def fnGateRefusals : Fld := ⟨0x8, 34, 0, 32⟩
/-- Valid of gate entry, word 18 bits 63:63 (Table 7-7, R187). Access RW. -/
def gateValid : Fld := ⟨0x8, 18, 63, 1⟩
/-- AllowAtomic of gate entry, word 18 bits 62:62 (Table 7-7, R187). Access RW. -/
def gateAllowAtomic : Fld := ⟨0x8, 18, 62, 1⟩
/-- AllowWrite of gate entry, word 18 bits 61:61 (Table 7-7, R187). Access RW. -/
def gateAllowWrite : Fld := ⟨0x8, 18, 61, 1⟩
/-- AllowRead of gate entry, word 18 bits 60:60 (Table 7-7, R187). Access RW. -/
def gateAllowRead : Fld := ⟨0x8, 18, 60, 1⟩
/-- MatchKind of gate entry, word 18 bits 59:58 (Table 7-7, R187). Access RW. -/
def gateMatchKind : Fld := ⟨0x8, 18, 58, 2⟩
/-- StartPage of gate entry, word 18 bits 55:28 (Table 7-7, R187). Access RW. -/
def gateStartPage : Fld := ⟨0x8, 18, 28, 28⟩
/-- PageCount of gate entry, word 18 bits 27:0 (Table 7-7, R187). Access RW. -/
def gatePageCount : Fld := ⟨0x8, 18, 0, 28⟩
/-- Bar of gate entry, word 19 bits 63:60 (Table 7-7, R187). Access RW. -/
def gateBar : Fld := ⟨0x8, 19, 60, 4⟩
/-- MatchDevice of gate entry, word 19 bits 55:44 (Table 7-7, R187). Access RW. -/
def gateMatchDevice : Fld := ⟨0x8, 19, 44, 12⟩
/-- MatchValue of gate entry, word 19 bits 13:0 (Table 7-7, R187). Access RW. -/
def gateMatchValue : Fld := ⟨0x8, 19, 0, 14⟩
/-- Contained of CmWindow, word 0 bits 63:63 (Table 8-1, R196). Access RO. -/
def winContained : Fld := ⟨0x9, 0, 63, 1⟩
/-- Remote of CmWindow, word 0 bits 48:48 (Table 8-1, R196). Access RW. -/
def winRemote : Fld := ⟨0x9, 0, 48, 1⟩
/-- HomeDevice of CmWindow, word 0 bits 43:32 (Table 8-1, R196). Access RW. -/
def winHomeDevice : Fld := ⟨0x9, 0, 32, 12⟩
/-- HomeWindow of CmWindow, word 0 bits 5:0 (Table 8-1, R196). Access RW. -/
def winHomeWindow : Fld := ⟨0x9, 0, 0, 6⟩
/-- GateRefusals of CmWindow, word 17 bits 63:32 (Table 8-1, R196). Access RO. -/
def winGateRefusals : Fld := ⟨0x9, 17, 32, 32⟩
/-- ScFailures of CmWindow, word 17 bits 31:0 (Table 8-1, R196). Access RO. -/
def winScFailures : Fld := ⟨0x9, 17, 0, 32⟩
/-- Discards of CmWindow, word 18 bits 63:32 (Table 8-1, R196). Access RO. -/
def winDiscards : Fld := ⟨0x9, 18, 32, 32⟩
/-- Atomics of CmWindow, word 18 bits 31:0 (Table 8-1, R196). Access RO. -/
def winAtomics : Fld := ⟨0x9, 18, 0, 32⟩
/-- RingBase of CompletionQueue, word 0 bits 63:12 (Table 9-6, R224). Access RO. -/
def cqRingBase : Fld := ⟨0xd, 0, 12, 52⟩
/-- TenantId of CompletionQueue, word 1 bits 60:48 (Table 9-6, R224). Access RO. -/
def cqTenantId : Fld := ⟨0xd, 1, 48, 13⟩
/-- MsixVector of CompletionQueue, word 1 bits 42:32 (Table 9-6, R224). Access RO. -/
def cqMsixVector : Fld := ⟨0xd, 1, 32, 11⟩
/-- Entries of CompletionQueue, word 1 bits 23:0 (Table 9-6, R224). Access RO. -/
def cqEntries : Fld := ⟨0xd, 1, 0, 24⟩
/-- State of CompletionQueue, word 2 bits 63:62 (Table 9-6, R224). Access RO. -/
def cqState : Fld := ⟨0xd, 2, 62, 2⟩
/-- Armed of CompletionQueue, word 2 bits 61:61 (Table 9-6, R224). Access RO. -/
def cqArmed : Fld := ⟨0xd, 2, 61, 1⟩
/-- Consumer of CompletionQueue, word 2 bits 47:32 (Table 9-6, R224). Access RO. -/
def cqConsumer : Fld := ⟨0xd, 2, 32, 16⟩
/-- Producer of CompletionQueue, word 2 bits 15:0 (Table 9-6, R224). Access RO. -/
def cqProducer : Fld := ⟨0xd, 2, 0, 16⟩
/-- PeerQp of QueuePair, word 0 bits 63:44 (Table 9-7, R227). Access RO. -/
def qpPeerQp : Fld := ⟨0xc, 0, 44, 20⟩
/-- PeerGen of QueuePair, word 0 bits 43:36 (Table 9-7, R227). Access RO. -/
def qpPeerGen : Fld := ⟨0xc, 0, 36, 8⟩
/-- PeerDevice of QueuePair, word 0 bits 35:24 (Table 9-7, R227). Access RO. -/
def qpPeerDevice : Fld := ⟨0xc, 0, 24, 12⟩
/-- PeerValid of QueuePair, word 0 bits 23:23 (Table 9-7, R227). Access RO. -/
def qpPeerValid : Fld := ⟨0xc, 0, 23, 1⟩
/-- SendCq of QueuePair, word 0 bits 17:0 (Table 9-7, R227). Access RO. -/
def qpSendCq : Fld := ⟨0xc, 0, 0, 18⟩
/-- RecvCq of QueuePair, word 1 bits 49:32 (Table 9-7, R227). Access RO. -/
def qpRecvCq : Fld := ⟨0xc, 1, 32, 18⟩
/-- Window of QueuePair, word 1 bits 28:20 (Table 9-7, R227). Access RO. -/
def qpWindow : Fld := ⟨0xc, 1, 20, 9⟩
/-- RetryLimit of QueuePair, word 1 bits 19:16 (Table 9-7, R227). Access RO. -/
def qpRetryLimit : Fld := ⟨0xc, 1, 16, 4⟩
/-- TenantId of QueuePair, word 1 bits 12:0 (Table 9-7, R227). Access RO. -/
def qpTenantId : Fld := ⟨0xc, 1, 0, 13⟩
/-- SqBase of QueuePair, word 2 bits 63:12 (Table 9-7, R227). Access RO. -/
def qpSqBase : Fld := ⟨0xc, 2, 12, 52⟩
/-- Log2SqEntries of QueuePair, word 2 bits 4:0 (Table 9-7, R227). Access RO. -/
def qpLog2SqEntries : Fld := ⟨0xc, 2, 0, 5⟩
/-- RqBase of QueuePair, word 3 bits 63:12 (Table 9-7, R227). Access RO. -/
def qpRqBase : Fld := ⟨0xc, 3, 12, 52⟩
/-- Log2RqEntries of QueuePair, word 3 bits 4:0 (Table 9-7, R227). Access RO. -/
def qpLog2RqEntries : Fld := ⟨0xc, 3, 0, 5⟩
/-- HostView of QueuePair, word 4 bits 22:16 (Table 9-7, R227). Access RO. -/
def qpHostView : Fld := ⟨0xc, 4, 16, 7⟩
/-- State of QueuePair, word 6 bits 63:61 (Table 9-7, R227). Access RO. -/
def qpState : Fld := ⟨0xc, 6, 61, 3⟩
/-- Generation of QueuePair, word 6 bits 60:53 (Table 9-7, R227). Access RO. -/
def qpGeneration : Fld := ⟨0xc, 6, 53, 8⟩
/-- RetryCount of QueuePair, word 6 bits 35:32 (Table 9-7, R227). Access RO. -/
def qpRetryCount : Fld := ⟨0xc, 6, 32, 4⟩
/-- NextPsn of QueuePair, word 6 bits 23:0 (Table 9-7, R227). Access RO. -/
def qpNextPsn : Fld := ⟨0xc, 6, 0, 24⟩
/-- ExpectedPsn of QueuePair, word 7 bits 63:40 (Table 9-7, R227). Access RO. -/
def qpExpectedPsn : Fld := ⟨0xc, 7, 40, 24⟩
/-- BasePsn of QueuePair, word 7 bits 39:16 (Table 9-7, R227). Access RO. -/
def qpBasePsn : Fld := ⟨0xc, 7, 16, 24⟩
/-- SqConsumer of QueuePair, word 7 bits 15:0 (Table 9-7, R227). Access RO. -/
def qpSqConsumer : Fld := ⟨0xc, 7, 0, 16⟩
/-- RqConsumer of QueuePair, word 8 bits 63:48 (Table 9-7, R227). Access RO. -/
def qpRqConsumer : Fld := ⟨0xc, 8, 48, 16⟩
/-- SrttNs of QueuePair, word 8 bits 47:24 (Table 9-7, R227). Access RO. -/
def qpSrttNs : Fld := ⟨0xc, 8, 24, 24⟩
/-- RtoNs of QueuePair, word 8 bits 23:0 (Table 9-7, R227). Access RO. -/
def qpRtoNs : Fld := ⟨0xc, 8, 0, 24⟩
/-- Retransmits of QueuePair, word 9 bits 63:32 (Table 9-7, R227). Access RO. -/
def qpRetransmits : Fld := ⟨0xc, 9, 32, 32⟩
/-- Duplicates of QueuePair, word 9 bits 31:0 (Table 9-7, R227). Access RO. -/
def qpDuplicates : Fld := ⟨0xc, 9, 0, 32⟩
/-- HostAddress of Region, word 0 bits 63:12 (Table 9-9, R229). Access RO. -/
def regHostAddress : Fld := ⟨0xe, 0, 12, 52⟩
/-- Length of Region, word 1 bits 63:0 (Table 9-9, R229). Access RO. -/
def regLength : Fld := ⟨0xe, 1, 0, 64⟩
/-- Generation of Region, word 2 bits 63:56 (Table 9-9, R229). Access RO. -/
def regGeneration : Fld := ⟨0xe, 2, 56, 8⟩
/-- Registered of Region, word 2 bits 55:55 (Table 9-9, R229). Access RO. -/
def regRegistered : Fld := ⟨0xe, 2, 55, 1⟩
/-- Revoking of Region, word 2 bits 54:54 (Table 9-9, R229). Access RO. -/
def regRevoking : Fld := ⟨0xe, 2, 54, 1⟩
/-- PasidValid of Region, word 2 bits 52:52 (Table 9-9, R229). Access RO. -/
def regPasidValid : Fld := ⟨0xe, 2, 52, 1⟩
/-- Pasid of Region, word 2 bits 51:32 (Table 9-9, R229). Access RO. -/
def regPasid : Fld := ⟨0xe, 2, 32, 20⟩
/-- HostView of Region, word 2 bits 30:24 (Table 9-9, R229). Access RO. -/
def regHostView : Fld := ⟨0xe, 2, 24, 7⟩
/-- RemoteAtomic of Region, word 2 bits 18:18 (Table 9-9, R229). Access RO. -/
def regRemoteAtomic : Fld := ⟨0xe, 2, 18, 1⟩
/-- RemoteWrite of Region, word 2 bits 17:17 (Table 9-9, R229). Access RO. -/
def regRemoteWrite : Fld := ⟨0xe, 2, 17, 1⟩
/-- RemoteRead of Region, word 2 bits 16:16 (Table 9-9, R229). Access RO. -/
def regRemoteRead : Fld := ⟨0xe, 2, 16, 1⟩
/-- TenantId of Region, word 2 bits 12:0 (Table 9-9, R229). Access RO. -/
def regTenantId : Fld := ⟨0xe, 2, 0, 13⟩
/-- KeyRefusals of Region, word 3 bits 31:0 (Table 9-9, R229). Access RO. -/
def regKeyRefusals : Fld := ⟨0xe, 3, 0, 32⟩
/-- RxPoolUnits of Port, word 40 bits 63:48 (Table 10-7, R273). Access RW. -/
def qlRxPoolUnits : Fld := ⟨0x2, 40, 48, 16⟩
/-- ErrThreshold of Port, word 40 bits 47:32 (Table 10-7, R273). Access RW. -/
def qlErrThreshold : Fld := ⟨0x2, 40, 32, 16⟩
/-- CreditTimeoutUs of Port, word 40 bits 23:16 (Table 10-7, R273). Access RW. -/
def qlCreditTimeoutUs : Fld := ⟨0x2, 40, 16, 8⟩
/-- PartnerDevice of Port, word 41 bits 63:52 (Table 10-7, R273). Access RO. -/
def qlPartnerDevice : Fld := ⟨0x2, 41, 52, 12⟩
/-- PartnerPort of Port, word 41 bits 51:44 (Table 10-7, R273). Access RO. -/
def qlPartnerPort : Fld := ⟨0x2, 41, 44, 8⟩
/-- LinkState of Port, word 41 bits 43:40 (Table 10-7, R273). Access RO. -/
def qlLinkState : Fld := ⟨0x2, 41, 40, 4⟩
/-- ActiveWidth of Port, word 41 bits 39:37 (Table 10-7, R273). Access RO. -/
def qlActiveWidth : Fld := ⟨0x2, 41, 37, 3⟩
/-- ActiveRate of Port, word 41 bits 36:33 (Table 10-7, R273). Access RO. -/
def qlActiveRate : Fld := ⟨0x2, 41, 33, 4⟩
/-- Degraded of Port, word 41 bits 32:32 (Table 10-7, R273). Access RO. -/
def qlDegraded : Fld := ⟨0x2, 41, 32, 1⟩
/-- SelfLoop of Port, word 41 bits 31:31 (Table 10-7, R273). Access RO. -/
def qlSelfLoop : Fld := ⟨0x2, 41, 31, 1⟩
/-- Spilling of Port, word 41 bits 30:30 (Table 10-7, R273). Access RO. -/
def qlSpilling : Fld := ⟨0x2, 41, 30, 1⟩
/-- ResizeResult of Port, word 41 bits 20:19 (Table 10-7, R273). Access RO. -/
def qlResizeResult : Fld := ⟨0x2, 41, 19, 2⟩
/-- Outstanding of Port, word 41 bits 18:0 (Table 10-7, R273). Access RO. -/
def qlOutstanding : Fld := ⟨0x2, 41, 0, 19⟩
/-- CalPhase of Port, word 42 bits 47:32 (Table 11-4, R296). Access RW. -/
def qlCalPhase : Fld := ⟨0x2, 42, 32, 16⟩
/-- CalPeriodLog2 of Port, word 42 bits 29:24 (Table 11-4, R296). Access RW. -/
def qlCalPeriodLog2 : Fld := ⟨0x2, 42, 24, 6⟩
/-- MinWidth of Port, word 42 bits 19:17 (Table 11-4, R296). Access RW. -/
def qlMinWidth : Fld := ⟨0x2, 42, 17, 3⟩
/-- CalWindows of Port, word 42 bits 16:16 (Table 11-4, R296). Access RW. -/
def qlCalWindows : Fld := ⟨0x2, 42, 16, 1⟩
/-- FailedAttempts of Port, word 42 bits 15:8 (Table 11-4, R296). Access RO. -/
def qlFailedAttempts : Fld := ⟨0x2, 42, 8, 8⟩
/-- NoPartner of Port, word 42 bits 1:1 (Table 11-4, R296). Access RO. -/
def qlNoPartner : Fld := ⟨0x2, 42, 1, 1⟩
/-- LiveCal of Port, word 42 bits 0:0 (Table 11-4, R296). Access RW. -/
def qlLiveCal : Fld := ⟨0x2, 42, 0, 1⟩
/-- WindowsRun of Port, word 43 bits 63:32 (Table 11-4, R296). Access RO. -/
def qlWindowsRun : Fld := ⟨0x2, 43, 32, 32⟩
/-- WindowsSkipped of Port, word 43 bits 31:0 (Table 11-4, R296). Access RO. -/
def qlWindowsSkipped : Fld := ⟨0x2, 43, 0, 32⟩
/-- RxState of Lane, word 0 bits 63:61 (Table 11-5, R297). Access RO. -/
def laneRxState : Fld := ⟨0x3, 0, 61, 3⟩
/-- TxState of Lane, word 0 bits 60:58 (Table 11-5, R297). Access RO. -/
def laneTxState : Fld := ⟨0x3, 0, 58, 3⟩
/-- RxStream of Lane, word 0 bits 57:53 (Table 11-5, R297). Access RO. -/
def laneRxStream : Fld := ⟨0x3, 0, 53, 5⟩
/-- TxStream of Lane, word 0 bits 52:48 (Table 11-5, R297). Access RO. -/
def laneTxStream : Fld := ⟨0x3, 0, 48, 5⟩
/-- Locked of Lane, word 0 bits 47:47 (Table 11-5, R297). Access RO. -/
def laneLocked : Fld := ⟨0x3, 0, 47, 1⟩
/-- MarkerLock of Lane, word 0 bits 46:46 (Table 11-5, R297). Access RO. -/
def laneMarkerLock : Fld := ⟨0x3, 0, 46, 1⟩
/-- SeedSource of Lane, word 0 bits 45:44 (Table 11-5, R297). Access RO. -/
def laneSeedSource : Fld := ⟨0x3, 0, 44, 2⟩
/-- RateCode of Lane, word 0 bits 43:40 (Table 11-5, R297). Access RO. -/
def laneRateCode : Fld := ⟨0x3, 0, 40, 4⟩
/-- CalPasses of Lane, word 0 bits 31:16 (Table 11-5, R297). Access RO. -/
def laneCalPasses : Fld := ⟨0x3, 0, 16, 16⟩
/-- CalFailures of Lane, word 0 bits 15:0 (Table 11-5, R297). Access RO. -/
def laneCalFailures : Fld := ⟨0x3, 0, 0, 16⟩
/-- LinkSpare of Lane, word 1 bits 25:24 (Table 11-5, R297). Access RW. -/
def laneLinkSpare : Fld := ⟨0x3, 1, 24, 2⟩
/-- LinkPort of Lane, word 1 bits 23:16 (Table 11-5, R297). Access RW. -/
def laneLinkPort : Fld := ⟨0x3, 1, 16, 8⟩
/-- TargetState of Lane, word 1 bits 1:0 (Table 11-5, R297). Access RW. -/
def laneTargetState : Fld := ⟨0x3, 1, 0, 2⟩
/-- TxPost of Lane, word 2 bits 20:16 (Table 11-5, R297). Access RW. -/
def laneTxPost : Fld := ⟨0x3, 2, 16, 5⟩
/-- TxPre of Lane, word 2 bits 12:8 (Table 11-5, R297). Access RW. -/
def laneTxPre : Fld := ⟨0x3, 2, 8, 5⟩
/-- TxMain of Lane, word 2 bits 6:0 (Table 11-5, R297). Access RO. -/
def laneTxMain : Fld := ⟨0x3, 2, 0, 7⟩
/-- CtleCode of Lane, word 3 bits 47:40 (Table 11-5, R297). Access RO. -/
def laneCtleCode : Fld := ⟨0x3, 3, 40, 8⟩
/-- DfeTap1 of Lane, word 3 bits 39:32 (Table 11-5, R297). Access RO. -/
def laneDfeTap1 : Fld := ⟨0x3, 3, 32, 8⟩
/-- AdaptFreeze of Lane, word 3 bits 0:0 (Table 11-5, R297). Access RW. -/
def laneAdaptFreeze : Fld := ⟨0x3, 3, 0, 1⟩
/-- ClearCheck of Lane, word 4 bits 13:13 (Table 11-5, R297). Access WO. -/
def laneClearCheck : Fld := ⟨0x3, 4, 13, 1⟩
/-- CheckLock of Lane, word 4 bits 12:12 (Table 11-5, R297). Access RO. -/
def laneCheckLock : Fld := ⟨0x3, 4, 12, 1⟩
/-- CheckPattern of Lane, word 4 bits 11:8 (Table 11-5, R297). Access RW. -/
def laneCheckPattern : Fld := ⟨0x3, 4, 8, 4⟩
/-- GenPattern of Lane, word 4 bits 7:4 (Table 11-5, R297). Access RW. -/
def laneGenPattern : Fld := ⟨0x3, 4, 4, 4⟩
/-- Loop of Lane, word 4 bits 2:0 (Table 11-5, R297). Access RW. -/
def laneLoop : Fld := ⟨0x3, 4, 0, 3⟩
/-- CheckedBits of Lane, word 5 bits 47:0 (Table 11-5, R297). Access RO. -/
def laneCheckedBits : Fld := ⟨0x3, 5, 0, 48⟩
/-- ErrorBits of Lane, word 6 bits 47:0 (Table 11-5, R297). Access RO. -/
def laneErrorBits : Fld := ⟨0x3, 6, 0, 48⟩
/-- MarginGo of Lane, word 7 bits 63:63 (Table 11-5, R297). Access WO. -/
def laneMarginGo : Fld := ⟨0x3, 7, 63, 1⟩
/-- MarginDone of Lane, word 7 bits 62:62 (Table 11-5, R297). Access RO. -/
def laneMarginDone : Fld := ⟨0x3, 7, 62, 1⟩
/-- MarginLeft of Lane, word 7 bits 47:32 (Table 11-5, R297). Access RO. -/
def laneMarginLeft : Fld := ⟨0x3, 7, 32, 16⟩
/-- MarginRight of Lane, word 7 bits 31:16 (Table 11-5, R297). Access RO. -/
def laneMarginRight : Fld := ⟨0x3, 7, 16, 16⟩
/-- MarginUp of Lane, word 7 bits 15:8 (Table 11-5, R297). Access RO. -/
def laneMarginUp : Fld := ⟨0x3, 7, 8, 8⟩
/-- MarginDown of Lane, word 7 bits 7:0 (Table 11-5, R297). Access RO. -/
def laneMarginDown : Fld := ⟨0x3, 7, 0, 8⟩
/-- ClockMode of Port, word 0 bits 15:14 (Table 12-2, R305). Access RO. -/
def portClockMode : Fld := ⟨0x2, 0, 14, 2⟩
/-- SpillEnable of Port, word 0 bits 13:13 (Table 12-2, R305). Access RO. -/
def portSpillEnable : Fld := ⟨0x2, 0, 13, 1⟩
/-- CxlEnable of Port, word 0 bits 12:12 (Table 12-2, R305). Access RO. -/
def portCxlEnable : Fld := ⟨0x2, 0, 12, 1⟩
/-- MaxRate of Port, word 0 bits 11:8 (Table 12-2, R305). Access RO. -/
def portMaxRate : Fld := ⟨0x2, 0, 8, 4⟩
/-- Width of Port, word 0 bits 7:4 (Table 12-2, R305). Access RO. -/
def portWidth : Fld := ⟨0x2, 0, 4, 4⟩
/-- Role of Port, word 0 bits 3:0 (Table 12-2, R305). Access RO. -/
def portRole : Fld := ⟨0x2, 0, 0, 4⟩
/-- RetrainCount of Port, word 1 bits 63:48 (Table 12-2, R305). Access RO. -/
def portRetrainCount : Fld := ⟨0x2, 1, 48, 16⟩
/-- LinkDownCount of Port, word 1 bits 47:32 (Table 12-2, R305). Access RO. -/
def portLinkDownCount : Fld := ⟨0x2, 1, 32, 16⟩
/-- L1Sub of Port, word 1 bits 17:16 (Table 12-2, R305). Access RO. -/
def portL1Sub : Fld := ⟨0x2, 1, 16, 2⟩
/-- PerstHeld of Port, word 1 bits 15:15 (Table 12-2, R305). Access RO. -/
def portPerstHeld : Fld := ⟨0x2, 1, 15, 1⟩
/-- DllActive of Port, word 1 bits 14:14 (Table 12-2, R305). Access RO. -/
def portDllActive : Fld := ⟨0x2, 1, 14, 1⟩
/-- CxlMem of Port, word 1 bits 13:13 (Table 12-2, R305). Access RO. -/
def portCxlMem : Fld := ⟨0x2, 1, 13, 1⟩
/-- FlitMode of Port, word 1 bits 12:12 (Table 12-2, R305). Access RO. -/
def portFlitMode : Fld := ⟨0x2, 1, 12, 1⟩
/-- NegRate of Port, word 1 bits 11:8 (Table 12-2, R305). Access RO. -/
def portNegRate : Fld := ⟨0x2, 1, 8, 4⟩
/-- NegWidth of Port, word 1 bits 6:4 (Table 12-2, R305). Access RO. -/
def portNegWidth : Fld := ⟨0x2, 1, 4, 3⟩
/-- LinkState of Port, word 1 bits 3:0 (Table 12-2, R305). Access RO. -/
def portLinkState : Fld := ⟨0x2, 1, 0, 4⟩
/-- CplTimeoutMs of Port, word 2 bits 27:16 (Table 12-2, R305). Access RW. -/
def portCplTimeoutMs : Fld := ⟨0x2, 2, 16, 12⟩
/-- IdeDirect of Port, word 2 bits 5:5 (Table 12-2, R305). Access RW. -/
def portIdeDirect : Fld := ⟨0x2, 2, 5, 1⟩
/-- L0pEnable of Port, word 2 bits 4:4 (Table 12-2, R305). Access RW. -/
def portL0pEnable : Fld := ⟨0x2, 2, 4, 1⟩
/-- L1_2Enable of Port, word 2 bits 3:3 (Table 12-2, R305). Access RW. -/
def portL12Enable : Fld := ⟨0x2, 2, 3, 1⟩
/-- L1_1Enable of Port, word 2 bits 2:2 (Table 12-2, R305). Access RW. -/
def portL11Enable : Fld := ⟨0x2, 2, 2, 1⟩
/-- AspmL1 of Port, word 2 bits 1:1 (Table 12-2, R305). Access RW. -/
def portAspmL1 : Fld := ⟨0x2, 2, 1, 1⟩
/-- EcrcCheck of Port, word 2 bits 0:0 (Table 12-2, R305). Access RW. -/
def portEcrcCheck : Fld := ⟨0x2, 2, 0, 1⟩
/-- EcrcFailures of Port, word 3 bits 63:32 (Table 12-2, R305). Access RO. -/
def portEcrcFailures : Fld := ⟨0x2, 3, 32, 32⟩
/-- Nullified of Port, word 3 bits 31:0 (Table 12-2, R305). Access RO. -/
def portNullified : Fld := ⟨0x2, 3, 0, 32⟩
/-- Source of TideUnit, word 0 bits 61:60 (Table 13-1, R330). Access RW. -/
def tideSource : Fld := ⟨0x13, 0, 60, 2⟩
/-- SourcePort of TideUnit, word 0 bits 59:52 (Table 13-1, R330). Access RW. -/
def tideSourcePort : Fld := ⟨0x13, 0, 52, 8⟩
/-- StepThresholdNs of TideUnit, word 0 bits 47:32 (Table 13-1, R330). Access RW. -/
def tideStepThresholdNs : Fld := ⟨0x13, 0, 32, 16⟩
/-- PpsSeconds of TideUnit, word 0 bits 31:0 (Table 13-1, R330). Access RW. -/
def tidePpsSeconds : Fld := ⟨0x13, 0, 0, 32⟩
/-- PtmOffset of TideUnit, word 1 bits 63:0 (Table 13-1, R330). Access RW. -/
def tidePtmOffset : Fld := ⟨0x13, 1, 0, 64⟩
/-- State of TideUnit, word 2 bits 63:61 (Table 13-1, R330). Access RO. -/
def tideState : Fld := ⟨0x13, 2, 61, 3⟩
/-- EverLocked of TideUnit, word 2 bits 60:60 (Table 13-1, R330). Access RO. -/
def tideEverLocked : Fld := ⟨0x13, 2, 60, 1⟩
/-- Steps of TideUnit, word 2 bits 47:32 (Table 13-1, R330). Access RO. -/
def tideSteps : Fld := ⟨0x13, 2, 32, 16⟩
/-- OffsetNs of TideUnit, word 2 bits 31:0 (Table 13-1, R330). Access RO. -/
def tideOffsetNs : Fld := ⟨0x13, 2, 0, 32⟩
/-- HoldoverEntries of TideUnit, word 3 bits 63:32 (Table 13-1, R330). Access RO. -/
def tideHoldoverEntries : Fld := ⟨0x13, 3, 32, 32⟩
/-- SourceLosses of TideUnit, word 3 bits 31:0 (Table 13-1, R330). Access RO. -/
def tideSourceLosses : Fld := ⟨0x13, 3, 0, 32⟩
/-- LockTide of TideUnit, word 4 bits 63:0 (Table 13-1, R330). Access RO. -/
def tideLockTide : Fld := ⟨0x13, 4, 0, 64⟩
/-- Key of Device, word 12 bits 47:32 (Table 13-7, R341). Access WO. -/
def rstKey : Fld := ⟨0x1, 12, 32, 16⟩
/-- Action of Device, word 12 bits 1:0 (Table 13-7, R341). Access WO. -/
def rstAction : Fld := ⟨0x1, 12, 0, 2⟩
/-- InjectArmUntil of Device, word 13 bits 63:0 (Table 14-6a, R358). Access RW. -/
def devInjectArmUntil : Fld := ⟨0x1, 13, 0, 64⟩
/-- MergeQuietMs of Device, word 14 bits 47:32 (Table 14-6a, R358). Access RW. -/
def devMergeQuietMs : Fld := ⟨0x1, 14, 32, 16⟩
/-- LeakyLimit of Device, word 14 bits 31:24 (Table 14-6a, R358). Access RW. -/
def devLeakyLimit : Fld := ⟨0x1, 14, 24, 8⟩
/-- LeakyWindowS of Device, word 14 bits 23:8 (Table 14-6a, R358). Access RW. -/
def devLeakyWindowS : Fld := ⟨0x1, 14, 8, 16⟩
/-- HaltHold of Device, word 14 bits 0:0 (Table 14-6a, R358). Access RW. -/
def devHaltHold : Fld := ⟨0x1, 14, 0, 1⟩
/-- RetryLimit of Slot, word 0 bits 63:60 (Table 15-3, R378). Access RW. -/
def slotRetryLimit : Fld := ⟨0xf, 0, 60, 4⟩
/-- BreakerQuarters of Slot, word 0 bits 52:48 (Table 15-3, R378). Access RW. -/
def slotBreakerQuarters : Fld := ⟨0xf, 0, 48, 5⟩
/-- GateUa of Slot, word 0 bits 47:40 (Table 15-3, R378). Access RW. -/
def slotGateUa : Fld := ⟨0xf, 0, 40, 8⟩
/-- ShuntTenthMohm of Slot, word 0 bits 39:32 (Table 15-3, R378). Access RW. -/
def slotShuntTenthMohm : Fld := ⟨0xf, 0, 32, 8⟩
/-- FaultTimerUs of Slot, word 0 bits 31:16 (Table 15-3, R378). Access RW. -/
def slotFaultTimerUs : Fld := ⟨0xf, 0, 16, 16⟩
/-- LimitMa of Slot, word 0 bits 15:0 (Table 15-3, R378). Access RW. -/
def slotLimitMa : Fld := ⟨0xf, 0, 0, 16⟩
/-- InrushW of Slot, word 1 bits 63:56 (Table 15-3, R378). Access RW. -/
def slotInrushW : Fld := ⟨0xf, 1, 56, 8⟩
/-- SteadyW of Slot, word 1 bits 55:48 (Table 15-3, R378). Access RW. -/
def slotSteadyW : Fld := ⟨0xf, 1, 48, 8⟩
/-- DwellMs of Slot, word 1 bits 47:32 (Table 15-3, R378). Access RW. -/
def slotDwellMs : Fld := ⟨0xf, 1, 32, 16⟩
/-- PerstDelayMs of Slot, word 1 bits 31:16 (Table 15-3, R378). Access RW. -/
def slotPerstDelayMs : Fld := ⟨0xf, 1, 16, 16⟩
/-- RampLimitMs of Slot, word 1 bits 15:8 (Table 15-3, R378). Access RW. -/
def slotRampLimitMs : Fld := ⟨0xf, 1, 8, 8⟩
/-- PgoodDropTenMv of Slot, word 1 bits 7:0 (Table 15-3, R378). Access RW. -/
def slotPgoodDropTenMv : Fld := ⟨0xf, 1, 0, 8⟩
/-- Port of Slot, word 2 bits 15:8 (Table 15-3, R378). Access RW. -/
def slotPort : Fld := ⟨0xf, 2, 8, 8⟩
/-- TargetState of Slot, word 2 bits 5:4 (Table 15-3, R378). Access RW. -/
def slotTargetState : Fld := ⟨0xf, 2, 4, 2⟩
/-- Test of Slot, word 2 bits 3:3 (Table 15-3, R378). Access RW. -/
def slotTest : Fld := ⟨0xf, 2, 3, 1⟩
/-- ClearEnergy of Slot, word 2 bits 2:2 (Table 15-3, R378). Access WO. -/
def slotClearEnergy : Fld := ⟨0xf, 2, 2, 1⟩
/-- AttnOut of Slot, word 2 bits 1:1 (Table 15-3, R378). Access RW. -/
def slotAttnOut : Fld := ⟨0xf, 2, 1, 1⟩
/-- AutoOn of Slot, word 2 bits 0:0 (Table 15-3, R378). Access RW. -/
def slotAutoOn : Fld := ⟨0xf, 2, 0, 1⟩
/-- State of Slot, word 3 bits 63:61 (Table 15-3, R378). Access RO. -/
def slotState : Fld := ⟨0xf, 3, 61, 3⟩
/-- Present of Slot, word 3 bits 60:60 (Table 15-3, R378). Access RO. -/
def slotPresent : Fld := ⟨0xf, 3, 60, 1⟩
/-- PowerGood of Slot, word 3 bits 59:59 (Table 15-3, R378). Access RO. -/
def slotPowerGood : Fld := ⟨0xf, 3, 59, 1⟩
/-- FaultTimerRunning of Slot, word 3 bits 58:58 (Table 15-3, R378). Access RO. -/
def slotFaultTimerRunning : Fld := ⟨0xf, 3, 58, 1⟩
/-- InLimit of Slot, word 3 bits 57:57 (Table 15-3, R378). Access RO. -/
def slotInLimit : Fld := ⟨0xf, 3, 57, 1⟩
/-- TestResult of Slot, word 3 bits 56:55 (Table 15-3, R378). Access RO. -/
def slotTestResult : Fld := ⟨0xf, 3, 55, 2⟩
/-- RetryCount of Slot, word 3 bits 51:48 (Table 15-3, R378). Access RO. -/
def slotRetryCount : Fld := ⟨0xf, 3, 48, 4⟩
/-- LastFault of Slot, word 3 bits 47:44 (Table 15-3, R378). Access RO. -/
def slotLastFault : Fld := ⟨0xf, 3, 44, 4⟩
/-- Trips of Slot, word 3 bits 31:0 (Table 15-3, R378). Access RO. -/
def slotTrips : Fld := ⟨0xf, 3, 0, 32⟩
/-- CurrentMa of Slot, word 4 bits 63:48 (Table 15-3, R378). Access RO. -/
def slotCurrentMa : Fld := ⟨0xf, 4, 48, 16⟩
/-- OutputMv of Slot, word 4 bits 47:32 (Table 15-3, R378). Access RO. -/
def slotOutputMv : Fld := ⟨0xf, 4, 32, 16⟩
/-- InputMv of Slot, word 4 bits 31:16 (Table 15-3, R378). Access RO. -/
def slotInputMv : Fld := ⟨0xf, 4, 16, 16⟩
/-- PeakMa of Slot, word 4 bits 15:0 (Table 15-3, R378). Access RW. -/
def slotPeakMa : Fld := ⟨0xf, 4, 0, 16⟩
/-- PowerMw of Slot, word 5 bits 31:0 (Table 15-3, R378). Access RO. -/
def slotPowerMw : Fld := ⟨0xf, 5, 0, 32⟩
/-- EnergyUj of Slot, word 6 bits 47:0 (Table 15-3, R378). Access RO. -/
def slotEnergyUj : Fld := ⟨0xf, 6, 0, 48⟩
/-- UvMv of Feed, word 0 bits 63:48 (Table 15-4, R381). Access RW. -/
def feedUvMv : Fld := ⟨0x10, 0, 48, 16⟩
/-- OvMv of Feed, word 0 bits 47:32 (Table 15-4, R381). Access RW. -/
def feedOvMv : Fld := ⟨0x10, 0, 32, 16⟩
/-- FwdMv of Feed, word 0 bits 23:16 (Table 15-4, R381). Access RW. -/
def feedFwdMv : Fld := ⟨0x10, 0, 16, 8⟩
/-- TargetState of Feed, word 0 bits 1:0 (Table 15-4, R381). Access RW. -/
def feedTargetState : Fld := ⟨0x10, 0, 0, 2⟩
/-- State of Feed, word 1 bits 63:61 (Table 15-4, R381). Access RO. -/
def feedState : Fld := ⟨0x10, 1, 61, 3⟩
/-- InputMv of Feed, word 1 bits 47:32 (Table 15-4, R381). Access RO. -/
def feedInputMv : Fld := ⟨0x10, 1, 32, 16⟩
/-- BusMv of Feed, word 1 bits 31:16 (Table 15-4, R381). Access RO. -/
def feedBusMv : Fld := ⟨0x10, 1, 16, 16⟩
/-- CurrentTenMa of Feed, word 1 bits 15:0 (Table 15-4, R381). Access RO. -/
def feedCurrentTenMa : Fld := ⟨0x10, 1, 0, 16⟩
/-- ReverseBlocks of Feed, word 2 bits 63:32 (Table 15-4, R381). Access RO. -/
def feedReverseBlocks : Fld := ⟨0x10, 2, 32, 32⟩
/-- ShuntTenUohm of Feed, word 2 bits 15:0 (Table 15-4, R381). Access RW. -/
def feedShuntTenUohm : Fld := ⟨0x10, 2, 0, 16⟩
/-- LanesPer2us of Budget, word 0 bits 23:8 (Table 15-5, R384). Access RW. -/
def budLanesPer2us : Fld := ⟨0x11, 0, 8, 16⟩
/-- SlotOnsMax of Budget, word 0 bits 7:0 (Table 15-5, R384). Access RW. -/
def budSlotOnsMax : Fld := ⟨0x11, 0, 0, 8⟩
/-- BoardW of Budget, word 1 bits 15:0 (Table 15-5, R384). Access RW. -/
def budBoardW : Fld := ⟨0x11, 1, 0, 16⟩
/-- CommittedW of Budget, word 2 bits 63:48 (Table 15-5, R384). Access RO. -/
def budCommittedW : Fld := ⟨0x11, 2, 48, 16⟩
/-- SlotsRamping of Budget, word 2 bits 47:40 (Table 15-5, R384). Access RO. -/
def budSlotsRamping : Fld := ⟨0x11, 2, 40, 8⟩
/-- SlotsWaiting of Budget, word 2 bits 39:32 (Table 15-5, R384). Access RO. -/
def budSlotsWaiting : Fld := ⟨0x11, 2, 32, 8⟩
/-- LanesWaiting of Budget, word 2 bits 15:0 (Table 15-5, R384). Access RO. -/
def budLanesWaiting : Fld := ⟨0x11, 2, 0, 16⟩
/-- State of SnapshotSet, word 0 bits 63:61 (Table 16-2, R392). Access RO. -/
def snapState : Fld := ⟨0x17, 0, 61, 3⟩
/-- RequireFrozen of SnapshotSet, word 0 bits 60:60 (Table 16-2, R392). Access RW. -/
def snapRequireFrozen : Fld := ⟨0x17, 0, 60, 1⟩
/-- ClearOnRead of SnapshotSet, word 0 bits 59:59 (Table 16-2, R392). Access RW. -/
def snapClearOnRead : Fld := ⟨0x17, 0, 59, 1⟩
/-- RangeCount of SnapshotSet, word 0 bits 54:48 (Table 16-2, R392). Access RW. -/
def snapRangeCount : Fld := ⟨0x17, 0, 48, 7⟩
/-- TotalCount of SnapshotSet, word 0 bits 22:0 (Table 16-2, R392). Access RO. -/
def snapTotalCount : Fld := ⟨0x17, 0, 0, 23⟩
/-- LastCaptureTide of SnapshotSet, word 1 bits 63:0 (Table 16-2, R392). Access RO. -/
def snapLastCaptureTide : Fld := ⟨0x17, 1, 0, 64⟩
/-- Completed of SnapshotSet, word 2 bits 63:32 (Table 16-2, R392). Access RO. -/
def snapCompleted : Fld := ⟨0x17, 2, 32, 32⟩
/-- Abandoned of SnapshotSet, word 2 bits 31:0 (Table 16-2, R392). Access RO. -/
def snapAbandoned : Fld := ⟨0x17, 2, 0, 32⟩
/-- FirstCounter of SnapshotSet, word 3 bits 63:32 (Table 16-2, R392). Access RW. -/
def snapFirstCounter : Fld := ⟨0x17, 3, 32, 32⟩
/-- Count of SnapshotSet, word 3 bits 16:0 (Table 16-2, R392). Access RW. -/
def snapCount : Fld := ⟨0x17, 3, 0, 17⟩
/-- HostBase of Device, word 16 bits 63:12 (Table 16-4, R397). Access RW. -/
def ringHostBase : Fld := ⟨0x1, 16, 12, 52⟩
/-- Log2HostRecords of Device, word 16 bits 4:0 (Table 16-4, R397). Access RW. -/
def ringLog2HostRecords : Fld := ⟨0x1, 16, 0, 5⟩
/-- Enable of Device, word 17 bits 63:63 (Table 16-4, R397). Access RW. -/
def ringEnable : Fld := ⟨0x1, 17, 63, 1⟩
/-- HostView of Device, word 17 bits 62:56 (Table 16-4, R397). Access RW. -/
def ringHostView : Fld := ⟨0x1, 17, 56, 7⟩
/-- Log2StageMiB of Device, word 17 bits 35:32 (Table 16-4, R397). Access RW. -/
def ringLog2StageMiB : Fld := ⟨0x1, 17, 32, 4⟩
/-- Lost of Device, word 17 bits 31:0 (Table 16-4, R397). Access RO. -/
def ringLost : Fld := ⟨0x1, 17, 0, 32⟩
/-- WearMargin of Device, word 32 bits 63:56 (Table 17-14, R423). Access RO. -/
def wearWearMargin : Fld := ⟨0x1, 32, 56, 8⟩
/-- WearLow of Device, word 32 bits 55:55 (Table 17-14, R423). Access RO. -/
def wearWearLow : Fld := ⟨0x1, 32, 55, 1⟩
/-- WearOut of Device, word 32 bits 54:54 (Table 17-14, R423). Access RO. -/
def wearWearOut : Fld := ⟨0x1, 32, 54, 1⟩
/-- TempPeak of Device, word 32 bits 47:32 (Table 17-14, R423). Access RW. -/
def wearTempPeak : Fld := ⟨0x1, 32, 32, 16⟩
/-- TempNow of Device, word 32 bits 31:16 (Table 17-14, R423). Access RO. -/
def wearTempNow : Fld := ⟨0x1, 32, 16, 16⟩
/-- RingShiftPpm of Device, word 32 bits 15:0 (Table 17-14, R423). Access RO. -/
def wearRingShiftPpm : Fld := ⟨0x1, 32, 0, 16⟩
/-- TelemetryOn and TelemetryRing of Port, word 44 (R397). -/
def portTelemetryOn : Fld := ⟨0x2, 44, 3, 1⟩
/-- TelemetryRing of Port, word 44 bits 2:0 (R397). -/
def portTelemetryRing : Fld := ⟨0x2, 44, 0, 3⟩

/-! Classes of Table 2-8. -/

/-- Class codes (Table 2-8, R56). -/
def cDevice : Nat := 0x001
def cPort : Nat := 0x002
def cLane : Nat := 0x003
def cRoute : Nat := 0x004
def cPathGroup : Nat := 0x005
def cHostView : Nat := 0x006
def cTenant : Nat := 0x007
def cFunction : Nat := 0x008
def cCmWindow : Nat := 0x009
def cMeter : Nat := 0x00A
def cSchedQueue : Nat := 0x00B
def cQueuePair : Nat := 0x00C
def cCompletionQueue : Nat := 0x00D
def cRegion : Nat := 0x00E
def cSlot : Nat := 0x00F
def cFeed : Nat := 0x010
def cBudget : Nat := 0x011
def cOverlay : Nat := 0x012
def cTideUnit : Nat := 0x013
def cFaultRecord : Nat := 0x014
def cSdramChannel : Nat := 0x015
def cBufferBank : Nat := 0x016
def cSnapshotSet : Nat := 0x017

/-- The device total of each tenant resource (Table 7-3). -/
def resourceTotal : Nat → Nat
  | 0 => 2621440
  | 1 => 1048576
  | 2 => 4194304
  | 3 => 262144
  | 4 => 4096
  | 5 => 262144
  | _ => 0

/-- Words of a class's image (Tables 2-12, 5-3, 5-4, 6-1 to 6-3, 7-1, 7-4, 7-6, 8-1, 9-6, 9-7, 9-9, 11-4, 11-5, 13-1, 14-2,
15-3 to 15-5, 16-2, 4-6). The SdramChannel image is the model's own layout (log entry 9). An Overlay's words are computed
(R87). -/
def imageWords (cls : Nat) : Nat :=
  if cls = cDevice then 42 else if cls = cPort then 45 else if cls = cLane then 8 else if cls = cRoute then 2
  else if cls = cPathGroup then 22 else if cls = cHostView then 1 else if cls = cTenant then 8
  else if cls = cFunction then 35 else if cls = cCmWindow then 19 else if cls = cMeter then 9
  else if cls = cSchedQueue then 6 else if cls = cQueuePair then 10 else if cls = cCompletionQueue then 3
  else if cls = cRegion then 4 else if cls = cSlot then 7 else if cls = cFeed then 3 else if cls = cBudget then 3
  else if cls = cTideUnit then 5 else if cls = cFaultRecord then 8 else if cls = cSdramChannel then 2
  else if cls = cBufferBank then 3 else if cls = cSnapshotSet then 67 else 0

/-- The cold-reset value of word `w` of object `sel` of class `cls`: the "After cold reset" columns of the field maps. -/
def coldWord (cls sel w : Nat) : Word :=
  if cls = cPort then
    if w = 0 then 0x620
    else if w = 1 then 0x8000
    else if w = 2 then 0x280000
    else if 16 ≤ w ∧ w ≤ 31 then 0x4000042
    else if w = 33 then 0x1F00
    else if 34 ≤ w ∧ w ≤ 37 then 0x0444444444444444
    else if w = 40 then 0x0800004000040000
    else if w = 42 then 0x21010001
    else 0
  else if cls = cDevice then
    if w = 0 then 0x914400A100000000
    else if w = 8 then 0x6400C8
    else if w = 14 then 0x000003E810003C00
    else 0
  else if cls = cLane then
    if w = 0 then 0x03FF000000000000
    else if w = 1 then 0xFF0000
    else 0
  else if cls = cHostView then (if w = 0 then 0xFF000000 else 0)
  else if cls = cTenant then
    if w = 0 then (if sel = 0 then 0x40000000007F0000 else 0x7F0000)
    else if 1 ≤ w ∧ w ≤ 6 ∧ sel = 0 then BitVec.ofNat 64 (resourceTotal (w - 1) * 4294967296)
    else 0
  else if cls = cFunction then
    if w = 1 then 0xFF00000000
    else if 2 ≤ w ∧ w ≤ 17 then BitVec.ofNat 64 ((w - 2) * 4294967296)
    else 0
  else if cls = cSchedQueue then (if w = 0 ∧ 4 ≤ sel / 256 then 0x4200000001 else 0)
  else if cls = cQueuePair then
    if w = 1 then 0x10070000
    else if w = 8 then 16000
    else 0
  else if cls = cTideUnit then (if w = 0 then 0x0FF003E800000000 else 0)
  else if cls = cSlot then
    if w = 0 then 0x30080A3207D003E8
    else if w = 1 then 0x000003E800643232
    else if w = 2 then 0xFF00
    else if w = 3 then 0x2000000000000000
    else 0
  else if cls = cFeed then
    if w = 0 then 0x2A30339000140000
    else if w = 2 then 20
    else 0
  else if cls = cBudget then (if w = 0 then 0x4004 else 0)
  else 0

end Sys2Proof.Machine
end

