-- ==== Sys2Proof/Machine/Store.lean ====
section
/-! DEFINITION. Sparse tables in one canonical form: keys strictly rising, and no entry that equals what an unlisted key reads
as. Object images, versions, registers, counters and coordination memory are held so. -/

namespace Sys2Proof.Machine

/-- The value at a key; an unlisted key reads as `d`. -/
def tget {α : Type} (d : α) : List (Nat × α) → Nat → α
  | [], _ => d
  | (k', v) :: m, k => if k' = k then v else tget d m k

/-- `tput d m k v` writes `v` at `k`, where an unlisted key `k` reads as `d`; the form stays canonical. -/
def tput {α : Type} [DecidableEq α] (d : α) : List (Nat × α) → Nat → α → List (Nat × α)
  | [], k, v => if v = d then [] else [(k, v)]
  | (k', v') :: m, k, v =>
    if k < k' then (if v = d then (k', v') :: m else (k, v) :: (k', v') :: m)
    else if k = k' then (if v = d then m else (k, v) :: m)
    else (k', v') :: tput d m k v

/-- The canonical form, for a table whose unlisted key `k` reads as `d k`. -/
def twf {α : Type} [DecidableEq α] (d : Nat → α) : List (Nat × α) → Bool
  | [] => true
  | [(k, v)] => decide (v ≠ d k)
  | (k, v) :: (k', v') :: m => decide (v ≠ d k) && decide (k < k') && twf d ((k', v') :: m)

end Sys2Proof.Machine
end

