-- ==== Sys2Proof/Machine/Ops.lean ====
section
/-! DEFINITION. The named operations over the state that every block uses: image words and fields, versions, registers,
counters, free values, and what the device emits. -/

namespace Sys2Proof.Machine

/-! ## Bits -/

/-- Bits [lo + width − 1 : lo] of a word (R6). -/
def bitsOf (w : Word) (lo width : Nat) : Nat := w.toNat / 2 ^ lo % 2 ^ width

/-- The word with bits [lo + width − 1 : lo] replaced by the low bits of `v`. -/
def setBits (w : Word) (lo width v : Nat) : Word :=
  let n := w.toNat
  BitVec.ofNat 64 (n - n / 2 ^ lo % 2 ^ width * 2 ^ lo + v % 2 ^ width * 2 ^ lo)

/-- The word of a natural number, modulo 2^64. -/
def word (n : Nat) : Word := BitVec.ofNat 64 n

/-- A signed reading of a number of `width` bits. -/
def signed (width n : Nat) : Int := if n < 2 ^ (width - 1) then n else (n : Int) - 2 ^ width

/-- The two's complement of an integer in `width` bits. -/
def unsigned (width : Nat) (i : Int) : Nat := (i % (2 ^ width : Int)).toNat

/-- 1 for true. -/
def bit (b : Bool) : Nat := if b then 1 else 0

/-! ## Objects -/

/-- Key of an object: class and selector (Table 2-8). -/
def okey (cls sel : Nat) : Nat := cls * 4294967296 + sel

/-- Key of one word of an object's image. -/
def wkey (cls sel w : Nat) : Nat := okey cls sel * 128 + w

/-- The cold-reset value of an image word, by its key. -/
def coldAt (k : Nat) : Word := coldWord (k / 128 / 4294967296) (k / 128 % 4294967296) (k % 128)

/-- The base value of an image word (R86): as written, or its cold-reset value. -/
def State.baseWord (s : State) (cls sel w : Nat) : Word := tget (coldAt (wkey cls sel w)) s.objs (wkey cls sel w)

/-- Writes the base value of an image word. -/
def State.putWord (s : State) (cls sel w : Nat) (v : Word) : State :=
  { s with objs := tput (coldAt (wkey cls sel w)) s.objs (wkey cls sel w) v }

/-- The overlay that is in effect for an object: the active one, or an earlier one while the object is contained (R88). -/
def State.overlayFor (s : State) (obj : Nat) : Option Nat :=
  match s.overlayHeld.find? (fun e => e.1 = obj) with
  | some e => e.2
  | none => s.activeOverlay

/-- The shadow of an image word in the overlay in effect, if it has one (R86). -/
def State.shadowOf (s : State) (cls sel w : Nat) : Option Shadow :=
  match s.overlayFor (okey cls sel) with
  | none => none
  | some i =>
    match s.overlays.find? (fun o => o.index = i) with
    | none => none
    | some o => o.shadow.find? (fun h => h.key = wkey cls sel w)

/-- The effective value of an image word: the overlay's bits where the overlay in effect writes them, and the base value elsewhere
(R86). -/
def State.effWord (s : State) (cls sel w : Nat) : Word :=
  let b := s.baseWord cls sel w
  match s.shadowOf cls sel w with
  | none => b
  | some h => (b &&& ~~~ h.mask) ||| (h.value &&& h.mask)

/-- The effective value of a field of an object. -/
def State.fld (s : State) (f : Fld) (sel : Nat) : Nat := bitsOf (s.effWord f.cls sel f.word) f.lo f.width

/-- The base value of a field of an object. -/
def State.base (s : State) (f : Fld) (sel : Nat) : Nat := bitsOf (s.baseWord f.cls sel f.word) f.lo f.width

/-- Writes the base value of a field of an object, modulo the field's width. -/
def State.put (s : State) (f : Fld) (sel v : Nat) : State :=
  s.putWord f.cls sel f.word (setBits (s.baseWord f.cls sel f.word) f.lo f.width v)

/-- Adds to a field that saturates at its maximum (R389). -/
def State.addSat (s : State) (f : Fld) (sel n : Nat) : State :=
  s.put f sel (min (s.base f sel + n) (2 ^ f.width - 1))

/-- Writes the low bits of a natural number over consecutive words of an image. -/
def State.putWords (s : State) (cls sel w : Nat) : List Word → State
  | [] => s
  | v :: vs => (s.putWord cls sel w v).putWords cls sel (w + 1) vs

/-- Returns every word of an object's image to its cold-reset value. -/
def State.coldObj (s : State) (cls sel : Nat) : State :=
  { s with objs := s.objs.filter (fun e => decide (e.1 / 128 ≠ okey cls sel)) }

/-- The selectors of a class that hold a value other than the cold-reset one, in rising order, each once. -/
def selsIn (cls : Nat) : List (Nat × Word) → List Nat
  | [] => []
  | (k, _) :: m =>
    let r := selsIn cls m
    if k / 128 / 4294967296 = cls ∧ r.head? ≠ some (k / 128 % 4294967296) then k / 128 % 4294967296 :: r else r

/-- The same for the objects as they stand, and those that an overlay in effect shadows. -/
def State.selsOf (s : State) (cls : Nat) : List Nat :=
  let base := selsIn cls s.objs
  let live := s.overlays.filter (fun o => decide (s.activeOverlay = some o.index) || s.overlayHeld.any (fun e => decide (e.2 = some o.index)))
  let scope := (live.flatMap (fun o => o.scope)).filter (fun k => decide (k / 4294967296 = cls))
  base ++ ((scope.map (fun k => k % 4294967296)).filter (fun i => !base.contains i)).eraseDups

/-- The version of an object (R44). -/
def State.version (s : State) (obj : Nat) : Nat := tget 0 s.vers obj

/-- The version of an object increments, in 32 bits (R44). -/
def State.bump (s : State) (obj : Nat) : State :=
  { s with vers := tput 0 s.vers obj ((s.version obj + 1) % 4294967296) }

/-! ## Registers of BAR0 -/

/-- Key of a BAR0 register: view and offset. -/
def rkey (v off : Nat) : Nat := v * 2097152 + off

/-- Cold-reset value of a BAR0 register held in `State.regs` (Tables 2-3, 3-4, 8-2, 14-7). -/
def coldReg (off : Nat) : Word := if off = 0x010008 then 1 else 0

/-- The cold-reset value of a BAR0 register, by its key. -/
def coldRegAt (k : Nat) : Word := coldReg (k % 2097152)

/-- A BAR0 register of a view. -/
def State.reg (s : State) (v off : Nat) : Word := tget (coldRegAt (rkey v off)) s.regs (rkey v off)

/-- Writes a BAR0 register of a view. -/
def State.setReg (s : State) (v off : Nat) (w : Word) : State :=
  { s with regs := tput (coldRegAt (rkey v off)) s.regs (rkey v off) w }

/-- Bits of a BAR0 register. -/
def State.regBits (s : State) (v off lo width : Nat) : Nat := bitsOf (s.reg v off) lo width

/-- Writes bits of a BAR0 register. -/
def State.setRegBits (s : State) (v off lo width n : Nat) : State :=
  s.setReg v off (setBits (s.reg v off) lo width n)

/-! ## Emissions and free values -/

/-- The device emits `o`. -/
def State.emit (s : State) (o : Output) : State := { s with out := o :: s.out }

/-- The device emits a list, the first element first. -/
def State.emits (s : State) : List Output → State
  | [] => s
  | o :: os => (s.emit o).emits os

/-- The next free value (log entry 1). -/
def State.freeVal (s : State) : Word := Config.freeWord s.free

/-- Counts one free value as drawn. -/
def State.draw (s : State) : State := { s with free := s.free + 1 }

/-- The management function of a view is in a function-level reset: no request with its requester ID leaves (R313). -/
def State.mgmtQuiet (s : State) (v : Nat) : Bool := s.pcie.resets.any (fun r => decide (r.view = v) && r.fn = .management)

/-! ## Counters (R388, R389) -/

/-- Counter ID of a block's object (R388). -/
def ctrId (block perObject obj n : Nat) : Nat := block * 16777216 + obj * perObject + n

/-- Largest value of a 48-bit counter. -/
def ctrMax : Nat := 281474976710655

/-- The value of a counter. -/
def State.ctr (s : State) (id : Nat) : Nat := tget 0 s.counters.vals id

/-- A counter counts `n` upward and stays at its maximum (R389). -/
def State.count (s : State) (id n : Nat) : State :=
  { s with counters := { s.counters with vals := tput 0 s.counters.vals id (min (s.ctr id + n) ctrMax) } }

/-- A counter and its flags become 0 (R389). -/
def State.clearCtr (s : State) (id : Nat) : State :=
  { s with counters := { s.counters with
      vals := tput 0 s.counters.vals id 0
      invalid := s.counters.invalid.filter (fun i => decide (i ≠ id))
      saturated := s.counters.saturated.filter (fun i => decide (i ≠ id)) } }

/-! ## The device, its clock and its links -/

/-- The device's fabric ID (R119). -/
def State.fabricId (s : State) : Nat := s.fld devFabricId 0

/-- Tide is locked (R330, state 2). -/
def State.tideLocked (s : State) : Bool := decide (s.fld tideState 0 = 2)

/-- Tide has been locked since the last cold or device reset. -/
def State.everLocked (s : State) : Bool := decide (s.fld tideEverLocked 0 = 1)

/-- Roles of a port (Table 2-9). -/
def roleOff : Nat := 0
def roleHost : Nat := 1
def roleDevice : Nat := 2
def roleFabric : Nat := 3

/-- The role of a port. -/
def State.role (s : State) (p : Nat) : Nat := s.fld portRole p

/-- Ports that a width code joins: ×1 to ×4 one, ×8 two, ×16 four (R11). -/
def portsOfWidth (w : Nat) : Nat := if w = 3 then 2 else if w = 4 then 4 else 1

/-- The lane-0 port of the link that a port belongs to (R11). -/
def State.lane0 (s : State) (p : Nat) : Nat :=
  if s.role p = roleOff then p else p / portsOfWidth (s.fld portWidth p) * portsOfWidth (s.fld portWidth p)

/-- The ports of the link whose lane-0 port is `p`. -/
def State.linkPorts (s : State) (p : Nat) : List Nat :=
  (List.range (portsOfWidth (s.fld portWidth p))).map (fun i => p + i)

/-- A host or device port has a link in L0, L0p or L1 (R426). -/
def State.edgeLinkUp (s : State) (p : Nat) : Bool :=
  let l := s.fld portLinkState p
  (s.role p = roleHost || s.role p = roleDevice) && (l = 3 || l = 4 || l = 6)

/-- Quayline link states (Table 10-7). -/
def qlDown : Nat := 0
def qlInit : Nat := 1
def qlActive : Nat := 2
def qlRetrain : Nat := 3
def qlResize : Nat := 4
def qlHeld : Nat := 5

/-- The state of a fabric link (R272). -/
def State.ql (s : State) (p : Nat) : Nat := s.fld qlLinkState p

/-- A fabric port has a link in Active. -/
def State.fabricUp (s : State) (p : Nat) : Bool := s.role p = roleFabric && s.ql p = qlActive

/-- A port has a link (R426). -/
def State.linkUp (s : State) (p : Nat) : Bool := s.edgeLinkUp p || s.fabricUp p

/-- Sets a fabric link's state in word 41 and its copy in word 1 (Table 12-2). -/
def State.setQl (s : State) (p st : Nat) : State := (s.put qlLinkState p st).put portLinkState p st

/-- The lane-0 port of a view's host link, 0xFF none (R179). -/
def State.portOfView (s : State) (v : Nat) : Nat := s.fld viewPort v

/-- Views that name a host port. -/
def State.viewsOpen (s : State) : List Nat := (s.selsOf cHostView).filter (fun v => decide (s.portOfView v ≠ 255))

/-- The view that names a port, if any (R13). -/
def State.viewOfPort (s : State) (p : Nat) : Option Nat := s.viewsOpen.find? (fun v => decide (s.portOfView v = p))

/-- The view's host link is up (R179). -/
def State.viewUp (s : State) (v : Nat) : Bool := decide (s.portOfView v ≠ 255) && s.edgeLinkUp (s.portOfView v)

/-- The view holds a granted fabric-manager queue (R30, R179). -/
def State.fmGranted (s : State) (v : Nat) : Bool := decide (s.fld viewFmQueue v = 1)

/-- The device runs commands of its blocks: power is up and neither a halt nor a latch has stopped it. -/
def State.running (s : State) : Bool :=
  match s.power.phase with
  | .managed | .ready => true
  | _ => false

/-- A view's management function answers: the device runs and the view's host link is up. -/
def State.viewLive (s : State) (v : Nat) : Bool := s.running && s.viewUp v

end Sys2Proof.Machine
end

