-- ==== Sys2Proof/Machine/Operands.lean ====
section
/-! DEFINITION. The operand forms of Tally: instruction words and rods (R39, R40), operand blocks (R42), program headers and
descriptors (R31, R36, R37), and the acceptance checks of R38. -/

namespace Sys2Proof.Machine

/-! ## CRC-32 (R37) -/

/-- One bit of the reflected CRC-32. -/
def crcBit (c : Nat) : Nat := if c % 2 = 1 then c / 2 ^^^ 0xEDB88320 else c / 2

/-- One byte of the reflected CRC-32. -/
def crcByte (c b : Nat) : Nat := crcBit (crcBit (crcBit (crcBit (crcBit (crcBit (crcBit (crcBit (c ^^^ b))))))))

/-- The eight bytes of a word in address order (R6). -/
def wordBytes (w : Word) : List Nat := (List.range 8).map (fun i => w.toNat / 256 ^ i % 256)

/-- CRC-32 of IEEE 802.3 over bytes in address order (R37). -/
def crc32 (bs : List Nat) : Nat := bs.foldl crcByte 0xFFFFFFFF ^^^ 0xFFFFFFFF

/-- CRC-32 over words in address order. -/
def crcWords (ws : List Word) : Nat := crc32 (ws.flatMap wordBytes)

/-! ## Instruction words (R39, Table 2-5) -/

def iOpcode (w : Word) : Nat := bitsOf w 56 8
def iFlags (w : Word) : Nat := bitsOf w 52 4
def iDst (w : Word) : Nat := bitsOf w 48 4
def iSrc (w : Word) : Nat := bitsOf w 44 4
def iSub (w : Word) : Nat := bitsOf w 32 12
def iImm (w : Word) : Nat := bitsOf w 0 32

/-- `CONT`, bit 52. -/
def fCont (flags : Nat) : Bool := flags % 2 = 1
/-- `FORCE`, bit 53. -/
def fForce (flags : Nat) : Bool := flags / 2 % 2 = 1
/-- Bit 54: `HI`, `LATE_OK` or `OPEN`. -/
def fOpt (flags : Nat) : Bool := flags / 4 % 2 = 1

/-- The opcodes of the object instructions (Table 2-9). -/
def objOps : List Nat :=
  [0x20, 0x21, 0x22, 0x30, 0x31, 0x38, 0x39, 0x3A, 0x40, 0x41, 0x42, 0x43, 0x44, 0x48, 0x49, 0x50, 0x51, 0x52, 0x53, 0x58,
   0x59, 0x60, 0x68, 0x69, 0x70, 0x71]

/-- The opcodes of Table 2-7. -/
def ctlOps : List Nat :=
  [0x00, 0x01, 0x02, 0x03, 0x04, 0x05, 0x06, 0x08, 0x09, 0x0A, 0x0B, 0x10, 0x11, 0x12, 0x13, 0x14, 0x15, 0x16, 0x17, 0x18,
   0x19, 0x78, 0x7F]

/-- An object instruction. -/
def isObj (op : Nat) : Bool := objOps.contains op

/-- The one class that Table 2-9 fixes for an opcode; 0 where `Sub` chooses it. -/
def opClass (op : Nat) : Nat :=
  if op = 0x30 ∨ op = 0x31 ∨ op = 0x3A then cPort
  else if op = 0x38 then cRoute
  else if op = 0x39 then cPathGroup
  else if op = 0x40 ∨ op = 0x44 then cTenant
  else if op = 0x41 ∨ op = 0x42 then cFunction
  else if op = 0x48 then cMeter
  else if op = 0x49 then cSchedQueue
  else if op = 0x50 then cQueuePair
  else if op = 0x51 ∨ op = 0x52 then cRegion
  else if op = 0x53 then cCompletionQueue
  else if op = 0x58 then cSlot
  else if op = 0x59 then cBudget
  else if op = 0x60 then cOverlay
  else if op = 0x68 then cSnapshotSet
  else if op = 0x70 ∨ op = 0x71 then cFaultRecord
  else 0

/-- The lowest level that may use an opcode (Tables 2-7, 2-9). -/
def opLevel (op : Nat) : Nat :=
  if isObj op && !([0x20, 0x50, 0x51, 0x52, 0x53, 0x69].contains op) then 2 else 1

/-- A state-changing object instruction: every one but `OREAD` and `QUERY` (R46). -/
def isChange (op : Nat) : Bool := isObj op && decide (op ≠ 0x20) && decide (op ≠ 0x69)

/-- The opcodes of Table 2-7 whose operand is `Src`, or `Imm` when `Src` is A0. -/
def operandOps : List Nat := [0x12, 0x13, 0x14, 0x15, 0x16, 0x17, 0x18, 0x19]

/-- Object instructions whose `Dst` receives nothing (Table 2-9). -/
def noDstOps : List Nat := [0x21, 0x30, 0x38, 0x39, 0x40, 0x43, 0x48, 0x49, 0x53, 0x59, 0x60, 0x68, 0x70, 0x71]

/-- The `Sub` field obeys R39. -/
def subOk (op sub : Nat) : Bool :=
  if op = 0x43 then sub = 8 || sub = 9
  else if op = 0x78 then sub = 0 || sub = 1
  else if isObj op then
    (if opClass op = 0 then 1 ≤ sub && sub ≤ 0x17 else sub = 0 || sub = opClass op)
  else sub = 0

/-- Every field that an opcode does not use is zero (R39). DEDUCED: a word that breaks this fails check 5 as a `Sub` value does
(log entry 10). -/
def fieldsOk (w : Word) : Bool :=
  let op := iOpcode w
  let fl := iFlags w
  let d := iDst w = 0
  let r := iSrc w = 0
  let m := iImm w = 0
  subOk op (iSub w) && decide (fl < 8) &&
  (if isObj op then
    (!fForce fl || op = 0x42 || op = 0x44) && (!fOpt fl || op = 0x20 || op = 0x41) && (!noDstOps.contains op || d)
  else
    !fCont fl && !fForce fl && (!fOpt fl || op = 0x05 || op = 0x10) &&
    (if op = 0x05 || op = 0x06 then d && m
     else if op = 0x08 then d && r
     else if op = 0x09 || op = 0x0A || op = 0x0B || op = 0x7F then decide d
     else if op = 0x10 then decide r
     else if op = 0x11 then decide m
     else if operandOps.contains op then r || m
     else d && r && m))

/-- One parsed instruction: its index, word and operand block. -/
structure PInstr where
  index : Nat
  w : Word
  blk : List Word
  deriving DecidableEq, Repr

/-- Parses words into instructions with complete operand blocks, and the index of the word that ends the parse, if any. The
first argument bounds the instructions read. An object instruction with `Imm` 0 has no selector word and ends the parse (DESIGN CHOICE, log entry 119);
a block of another wrong length is left to the instruction. -/
def parseBody : Nat → Nat → List Word → List PInstr × Option Nat
  | 0, _, _ => ([], none)
  | _, _, [] => ([], none)
  | fuel + 1, i, w :: rest =>
    let op := iOpcode w
    let n := if isObj op then iImm w else 0
    if (!isObj op && !ctlOps.contains op) || (isObj op && n = 0) || decide (rest.length < n) then ([], some i)
    else
      let r := parseBody fuel (i + 1 + n) (rest.drop n)
      (⟨i, w, rest.take n⟩ :: r.1, r.2)

/-- The smallest of a list of indices. -/
def firstBad : List Nat → Option Nat
  | [] => none
  | i :: is => match firstBad is with
    | none => some i
    | some j => some (min i j)

/-- The words that offend against check 5 of R38, transaction rules of R45 and R46 included. -/
def badWords (flags n : Nat) (is : List PInstr) (stop : Option Nat) : List Nat :=
  let trans := flags % 2 = 1
  let starts := is.map (·.index)
  let begins := (is.filter (fun x => iOpcode x.w = 0x02)).map (·.index)
  let commits := (is.filter (fun x => iOpcode x.w = 0x03)).map (·.index)
  let b := begins.headD n
  let c := commits.headD n
  stop.toList
  ++ (is.filter (fun x => !fieldsOk x.w)).map (·.index)
  ++ (is.filter (fun x =>
        [0x08, 0x09, 0x0A, 0x0B].contains (iOpcode x.w) && !starts.contains (iImm x.w)
          && (match stop with | none => true | some j => decide (iImm x.w < j) || decide (n ≤ iImm x.w)))).map (·.index)
  ++ (if flags / 2 % 2 = 1 then [] else
        (is.filter (fun x => iOpcode x.w = 0x05 || iOpcode x.w = 0x06)).map (·.index))
  ++ (if trans then
        begins.drop 1 ++ commits.drop 1 ++ (if !begins.isEmpty && decide (c < b) then [c] else [])
        ++ (is.filter (fun x => isChange (iOpcode x.w) && !(decide (b < x.index) && decide (x.index < c)))).map (·.index)
        ++ (is.filter (fun x => iOpcode x.w = 0x01 && !commits.isEmpty && decide (x.index < c))).map (·.index)
      else begins ++ commits)

/-- Check 5 and 6 of R38 on the instruction words of a program, at a level: none if they pass, else the status and
`FailWord`. -/
def checkBody (flags level : Nat) (body : List Word) : Option (Status × Nat) :=
  let n := body.length
  let p := parseBody n 0 body
  match firstBad (badWords flags n p.1 p.2) with
  | some i => some (.badop, i)
  | none =>
    let ops := p.1.map (fun x => iOpcode x.w)
    if flags % 2 = 1 ∧ !(ops.contains 0x02 && ops.contains 0x03) then
      some (.badop, (p.1.getLast?.map (·.index)).getD 0)
    else
      match p.1.find? (fun x => decide (level < opLevel (iOpcode x.w))) with
      | some x => some (.denied, x.index)
      | none => none

/-! ## Headers and descriptors (R31, R36) -/

def hTarget (ws : List Word) : Nat := bitsOf (ws.getD 0 0) 48 16
def hVersion (ws : List Word) : Nat := bitsOf (ws.getD 0 0) 40 8
def hFlags (ws : List Word) : Nat := bitsOf (ws.getD 0 0) 32 8
def hLength (ws : List Word) : Nat := bitsOf (ws.getD 0 0) 0 16
def hSequence (ws : List Word) : Nat := bitsOf (ws.getD 1 0) 0 32
def hCrc (ws : List Word) : Nat := bitsOf (ws.getD 3 0) 0 32

/-- The program asks for a transaction, may be timed, asks for mirroring (Table 2-4). -/
def hTrans (ws : List Word) : Bool := hFlags ws % 2 = 1
def hMirror (ws : List Word) : Bool := hFlags ws / 4 % 2 = 1

/-- The instruction words of a program. -/
def body (ws : List Word) : List Word := ws.drop 4

/-- The program with its `Crc32` field taken as zero. -/
def crcZeroed (ws : List Word) : List Word :=
  ws.take 3 ++ [setBits (ws.getD 3 0) 0 32 0] ++ ws.drop 4

/-- Check 2 of R38: the header's version, zero fields and length against `ProgramBytes`. -/
def headerOk (ws : List Word) (bytes : Nat) : Bool :=
  decide (hVersion ws = 1) && decide (bitsOf (ws.getD 0 0) 16 16 = 0) && decide (hFlags ws < 8)
  && decide (bitsOf (ws.getD 1 0) 32 32 = 0) && decide (ws.getD 2 0 = 0) && decide (bitsOf (ws.getD 3 0) 32 32 = 0)
  && decide (1 ≤ hLength ws) && decide (hLength ws ≤ 2044) && decide (32 + 8 * hLength ws = bytes)

/-- Check 3 of R38. -/
def crcOk (ws : List Word) : Bool := decide (crcWords (crcZeroed ws) = hCrc ws)

def dAddress (d : List Word) : Nat := (d.getD 0 0).toNat
def dBytes (d : List Word) : Nat := bitsOf (d.getD 1 0) 0 32
def dControl (d : List Word) : Nat := bitsOf (d.getD 1 0) 32 32

/-! ## Rods (R40) -/

/-- The value of a rod; A0 reads as zero. -/
def Prog.rod (p : Prog) (k : Nat) : Word := if k = 0 then 0 else p.rods.getD (k - 1) 0

/-- Writes a rod; a write to A0 is discarded. -/
def Prog.setRod (p : Prog) (k : Nat) (v : Word) : Prog :=
  if k = 0 then p else { p with rods := p.rods.set (k - 1) v }

/-- The instruction word at a program's word index. -/
def Prog.instr (p : Prog) : Word := (body p.words).getD p.pc 0

/-- The operand of Table 2-7: the value of `Src` if it is not A0, and `Imm` otherwise. -/
def Prog.operand (p : Prog) : Word :=
  if iSrc p.instr = 0 then word (iImm p.instr) else p.rod (iSrc p.instr)

/-- The class of an object instruction: fixed by its opcode, or from `Sub` (R39). -/
def reqClass (op sub : Nat) : Nat := if opClass op = 0 then sub else opClass op

/-- `Source` of a program's entries (Table 3-2). -/
def srcCode : ProgSrc → Nat
  | .queue (.admin _) => 0
  | .queue (.fm _) => 1
  | .queue .mgmt => 2
  | .forwarded _ _ => 3
  | .base => 4

/-- The object instruction at a program's word index, with the `Src` substitution of R42. -/
def Prog.objReq (p : Prog) : ObjReq :=
  let w := p.instr
  let blk := ((body p.words).drop (p.pc + 1)).take (iImm w)
  { index := p.pc, op := iOpcode w, iflags := iFlags w, dst := iDst w, sub := iSub w,
    blk := if iSrc w = 0 then blk else p.rod (iSrc w) :: blk.drop 1,
    level := p.level, view := p.view, issuerDev := p.issuerDev, source := srcCode p.src, prog := p.id, image := none, clear := false }

/-- A block word; 0 past the end, which a block of the right length never shows (log entry 11). -/
def ObjReq.w (r : ObjReq) (i : Nat) : Word := r.blk.getD i 0

/-- Bits of a block word. -/
def ObjReq.b (r : ObjReq) (i lo width : Nat) : Nat := bitsOf (r.w i) lo width

/-- The class an object instruction acts on. -/
def ObjReq.cls (r : ObjReq) : Nat := reqClass r.op r.sub

/-! ## Selectors (R56, Table 2-8) -/

/-- Bits of selector word 0 that a class uses. -/
def selMask (cls : Nat) : Nat :=
  if cls = cPort then 0xFF else if cls = cLane then 0x77F else if cls = cRoute then 0xFFFFFFFF
  else if cls = cPathGroup then 0x3FFF else if cls = cHostView then 0x7F else if cls = cTenant then 0x1FFF
  else if cls = cFunction then 0xFFFF3FFF else if cls = cCmWindow then 0x3F else if cls = cMeter then 0x7FFF
  else if cls = cSchedQueue then 0xFFF else if cls = cQueuePair then 0xFFFFF else if cls = cCompletionQueue then 0x3FFFF
  else if cls = cRegion then 0xFFFFFF else if cls = cSlot then 0x3F else if cls = cFeed then 1
  else if cls = cOverlay then 0xF else if cls = cFaultRecord then 0xFFFF else if cls = cSdramChannel then 0xF
  else if cls = cBufferBank then 0x7FF else if cls = cSnapshotSet then 0xFF else 0

/-- The selector lies in the class's Number column and ranges. -/
def selInRange (cls sel : Nat) : Bool :=
  if cls = cPort then sel < 144
  else if cls = cLane then sel / 256 < 8 && sel % 256 < 76
  else if cls = cRoute then sel / 65536 < 4096 && (sel % 65536 < 144 || sel % 65536 = 255)
  else if cls = cHostView then sel < 96
  else if cls = cFunction then sel / 65536 = 65535 || sel / 65536 < 4096
  else if cls = cMeter then sel < 20480
  else if cls = cSchedQueue then sel % 256 < 144
  else if cls = cRegion then sel < 4194304
  else if cls = cSdramChannel then sel < 12
  else if cls = cBufferBank then sel < 1280
  else 1 ≤ cls && cls ≤ 0x17

/-- A function selector that names this device by its own ID names the home record, as 0xFFFF does (R182). -/
def State.canonSel (s : State) (cls sel : Nat) : Nat :=
  if cls = cFunction ∧ sel / 65536 = s.fabricId then 0xFFFF * 65536 + sel % 65536 else sel

/-- BADOP for an unused bit, NOOBJ for an index out of range, else none (R56). -/
def selCheck (cls : Nat) (w0 : Word) : Option Status :=
  if w0.toNat &&& selMask cls ≠ w0.toNat then some .badop
  else if !selInRange cls w0.toNat then some .noobj
  else none

/-- The lane number (tile × 76 + lane) of a lane selector. -/
def laneOfSel (sel : Nat) : Nat := sel / 256 * 76 + sel % 256

/-- The selector of a lane number. -/
def selOfLane (l : Nat) : Nat := l / 76 * 256 + l % 76

end Sys2Proof.Machine
end

