-- ==== Sys2Proof/Machine/Wire.lean ====
section
/-! DEFINITION. Bytes on the wire and in the buffer: CRCs (R37, R93, R251), the FEC (R252, R253), cells with their tags and descriptors
(R92, R93), the fabric header (R120), management messages (R275), Lighter packets (R233), flits (R248 to R257), INIT records (R258), alignment
markers (R283), and the lane coding (R249, R281, R282). -/

namespace Sys2Proof.Machine

/-! ## Fields and bytes -/

/-- `n` bytes of a number, the lowest first (R6). -/
def leBytes : Nat → Nat → List Byte
  | 0, _ => []
  | n + 1, v => BitVec.ofNat 8 v :: leBytes n (v / 256)

/-- The number that bytes give, the lowest first (R6). -/
def leNat : List Byte → Nat
  | [] => 0
  | b :: bs => b.toNat + 256 * leNat bs

/-- A word from its fields: first bit, width and value of each; every other bit is 0. -/
def fieldsOf (fs : List (Nat × Nat × Nat)) : Nat := (fs.map (fun f => f.2.2 % 2 ^ f.2.1 * 2 ^ f.1)).sum

/-- Bits [lo + width − 1 : lo] of a number. -/
def bitsAt (n lo width : Nat) : Nat := n / 2 ^ lo % 2 ^ width

/-- A list cut into pieces of at most `n`; the first argument bounds the pieces. -/
def pieces {α : Type} (n : Nat) : Nat → List α → List (List α)
  | 0, _ => []
  | fuel + 1, l => if l.isEmpty then [] else l.take n :: pieces n fuel (l.drop n)

/-- The first `n` bytes of a list, with zero bytes where it is shorter. -/
def padTo (n : Nat) (bs : List Byte) : List Byte := bs.take n ++ List.replicate (n - bs.length) 0

/-- CRC-32 of R37 over bytes. -/
def crcBytes (bs : List Byte) : Nat := crc32 (bs.map (·.toNat))

/-- Bits of a byte, the most significant first. -/
def bitsMsb (b : Byte) : List Bool := (List.range 8).map (fun i => b.getLsbD (7 - i))

/-- Bits of a byte in transmit order, bit 0 first (R281). -/
def bitsLsb (b : Byte) : List Bool := (List.range 8).map (fun i => b.getLsbD i)

/-- The byte whose bits in transmit order are given. -/
def byteOfBits (l : List Bool) : Byte := BitVec.ofNat 8 (l.foldr (fun b n => bit b + 2 * n) 0)

/-- A CRC that takes bits most significant first, without reflection. -/
def crcMsb (w : Nat) (poly init : BitVec w) (bits : List Bool) : BitVec w :=
  bits.foldl (fun c b => if c.msb != b then (c <<< 1) ^^^ poly else c <<< 1) init

/-! ## Cells (R92, R93) -/

/-- Bytes of a packet (R92). -/
def Packet.bytes (pk : Packet) : Nat := pk.image.length

/-- Cells that a packet of `b` bytes takes (R92). -/
def cellsOf (b : Nat) : Nat := (b + 63) / 64

/-- Cells of a packet. -/
def Packet.cells (pk : Packet) : Nat := cellsOf pk.bytes

/-- The bank of a cell index (R93). -/
def bankOfCell (i : CellIdx) : Nat := i.val / 2048

/-- The banks of a packet's cells, in order. -/
def Packet.banks (pk : Packet) : List Nat := pk.idxs.map bankOfCell

/-- Bytes of cell i of a packet: the next 64 of its bytes, the last cell the remainder (R92). -/
def Packet.cellBytes (pk : Packet) (i : Nat) : List Byte := (pk.image.drop (64 * i)).take 64

/-- The mark of no next cell or packet (Tables 4-1 and 4-2). -/
def noCell : Nat := 0x3FFFFF

/-- The cell tag of cell i of a packet (Table 4-1). -/
def Packet.cellTag (pk : Packet) (i : Nat) : Nat :=
  let next := match pk.idxs[i + 1]? with | some c => c.val | none => noCell
  fieldsOf [(10, 22, next), (9, 1, bit (i = 0)), (8, 1, bit (i + 1 = pk.cells)), (2, 6, (pk.cellBytes i).length - 1)]

/-- The kind's code in a packet descriptor and a fabric header (Tables 4-2 and 5-1). -/
def kindCode : PktKind → Nat
  | .posted => 0 | .nonPosted => 1 | .completion => 2 | .unordered => 3

/-- The packet descriptor with a given next packet of its list (Table 4-2). -/
def Packet.descriptor (pk : Packet) (next : Nat) : Nat :=
  fieldsOf [(42, 22, next), (35, 7, pk.cells), (33, 2, kindCode pk.kind), (29, 4, pk.queue), (21, 8, pk.ingress), (19, 2, pk.pool),
    (18, 1, bit pk.poison), (17, 1, bit pk.cutThrough), (0, 13, pk.tenant)]

/-- Check bits of a 64-bit word of the buffer: SECDED, whose code the manual does not give (R93; log entry 1). -/
def checkBits (w : Word) : BitVec 8 := Config.secded w

/-- The CRC-16 that crosses the crossbar with a cell: over its bytes and its tag (R93). The order of the two, and the bytes of a short last
cell, are a DESIGN CHOICE: log entry 91. -/
def cellCrc (tag : Nat) (bytes : List Byte) : BitVec 16 :=
  crcMsb 16 0x1021 0xFFFF ((padTo 64 bytes ++ leBytes 4 tag).flatMap bitsMsb)

/-! ## The fabric header (Table 5-1) -/

/-- The 16 bytes of a fabric header. -/
def hdrBytes (h : FabHdr) (k : PktKind) : List Byte :=
  leBytes 8 (fieldsOf [(52, 12, h.dstDev), (44, 8, h.dstPort), (32, 12, h.srcDev), (24, 8, h.srcPort), (0, 24, h.seq)])
  ++ leBytes 8 (fieldsOf [(32, 32, h.birth), (24, 8, h.gen), (20, 4, h.cls), (18, 2, kindCode k), (16, 2, h.hop), (15, 1, bit h.resend),
      (14, 1, bit h.birthValid), (0, 13, h.tenant)])

/-- The fabric header that 16 bytes carry. -/
def hdrOfBytes (bs : List Byte) : FabHdr :=
  let a := leNat (bs.take 8)
  let b := leNat ((bs.drop 8).take 8)
  { dstDev := bitsAt a 52 12, dstPort := bitsAt a 44 8, srcDev := bitsAt a 32 12, srcPort := bitsAt a 24 8, seq := bitsAt a 0 24
    birth := bitsAt b 32 32, gen := bitsAt b 24 8, cls := bitsAt b 20 4, hop := bitsAt b 16 2, resend := bitsAt b 15 1 = 1
    birthValid := bitsAt b 14 1 = 1, tenant := bitsAt b 0 13 }

/-! ## Management messages (R275, Table 10-8) -/

/-- `MsgType` of a message. -/
def msgType : FabricMsg → Nat
  | .withdraw _ => 0x01
  | .tideSync _ => 0x10
  | .tideFollow .. => 0x11
  | .tideDreq _ => 0x12
  | .tideDresp .. => 0x13
  | .tallyFwd .. => 0x20
  | .tallyAccept _ => 0x21
  | .tallyResult .. => 0x22
  | .teardown _ => 0x30
  | .delivery .. => 0x31
  | .bindNotice _ => 0x32
  | .bindConfirm _ => 0x33
  | .bindReset _ => 0x34

/-- `MsgId`: tide messages carry their exchange's own; for the others the sender chooses (R275). -/
def msgId (id : Nat) : FabricMsg → Nat
  | .tideSync i => i
  | .tideFollow i .. => i
  | .tideDreq i => i
  | .tideDresp i _ => i
  | _ => id

/-- One 32-bit entry of a WITHDRAW. -/
def withdrawBits (e : WithdrawEntry) : Nat := fieldsOf [(0, 12, e.dev), (12, 2, e.level), (15, 1, bit e.restore)]

/-- Word 1 of TEARDOWN and DELIVERY. -/
def teardownFields (m : TeardownMsg) : List (Nat × Nat × Nat) :=
  [(0, 8, m.srcPort), (8, 8, m.dstPort), (16, 4, m.cls), (24, 8, m.gen)]

/-- Bytes after the header. -/
def msgBody : FabricMsg → List Byte
  | .withdraw es => leBytes 8 (es.length % 65536) ++ es.flatMap (fun e => leBytes 4 (withdrawBits e)) ++ (if es.length % 2 = 1 then [0, 0, 0, 0] else [])
  | .tideSync _ => []
  | .tideFollow _ t1 l h k => leBytes 8 t1.toNat ++ leBytes 8 (fieldsOf [(0, 1, bit l), (1, 1, bit h), (4, 4, k)])
  | .tideDreq _ => []
  | .tideDresp _ t4 => leBytes 8 t4.toNat
  | .tallyFwd f i c l v ws =>
    leBytes 8 (fieldsOf [(0, 16, f), (16, 8, i), (24, 8, c), (32, 2, l), (40, 7, v)]) ++ leBytes 8 (8 * ws.length % 65536)
      ++ ws.flatMap (fun w => leBytes 8 w.toNat)
  | .tallyAccept f => leBytes 8 (f % 65536)
  | .tallyResult f r q rs =>
    leBytes 8 (f % 65536) ++ leBytes 8 r.toNat ++ leBytes 8 q.toNat ++ rs.flatMap (fun w => leBytes 8 w.toNat)
  | .teardown m => leBytes 8 (fieldsOf (teardownFields m))
  | .delivery m q => leBytes 8 (fieldsOf (teardownFields m ++ [(32, 24, q)]))
  | .bindNotice m =>
    leBytes 8 (fieldsOf [(0, 14, m.slot.val), (16, 8, m.ld), (24, 12, m.viewDev), (36, 7, m.hostView), (48, 8, m.vport)])
      ++ leBytes 8 (fieldsOf [(0, 13, m.tenant), (16, 8, m.hostPort)])
  | .bindConfirm m => leBytes 8 (fieldsOf [(0, 14, m.slot.val), (16, 8, m.ld), (24, 8, m.port), (32, 3, m.fnState)])
  | .bindReset m => leBytes 8 (fieldsOf [(0, 14, m.slot.val), (16, 8, m.ld), (24, 7, m.hostView), (32, 12, m.viewDev)])

/-- A management message as packet bytes (R275). -/
def msgBytes (id : Nat) (m : FabricMsg) : List Byte :=
  let body := msgBody m
  leBytes 8 (fieldsOf [(0, 8, msgType m), (16, 16, 8 + body.length), (32, 32, msgId id m)]) ++ body

/-- A tide message: it always begins at payload offset 0 of a new flit and is timestamped (R276). -/
def isTide : FabricMsg → Bool
  | .tideSync _ | .tideFollow .. | .tideDreq _ | .tideDresp .. => true
  | _ => false

/-! ## Lighter packets (R233, Table 9-10) -/

/-- The packet carries the header's fifth word (Table 9-10). -/
def ltLong (p : LighterPkt) : Bool := p.typ = 1 || p.typ = 2

/-- The header's bytes with a given `E2eCheck`. -/
def ltHead (p : LighterPkt) (e2e : Nat) : List Byte :=
  leBytes 8 (fieldsOf [(60, 4, p.typ), (59, 1, bit p.first), (58, 1, bit p.last), (57, 1, bit p.retransmit), (48, 8, p.dstGen),
    (24, 20, p.dstQp.val), (0, 24, p.psn)])
  ++ leBytes 8 (fieldsOf [(44, 20, p.srcQp), (36, 8, p.srcGen), (0, 32, p.remoteKey)])
  ++ leBytes 8 (p.offset % 2 ^ 64)
  ++ leBytes 8 (fieldsOf [(32, 32, p.aux), (0, 32, e2e)])
  ++ (if ltLong p then leBytes 8 (fieldsOf [(32, 32, p.immediate), (0, 32, p.recvSeq)]) else [])

/-- The payload's bytes; an `ACK` carries `Sack`, bit i for sequence number `Psn` + i (Table 9-11). -/
def ltBody (p : LighterPkt) : List Byte := if p.typ = 9 then leBytes 32 p.sack.toNat else p.payload

/-- `E2eCheck`: the CRC of R37 over header and payload, with the field taken as zero. -/
def ltCheck (p : LighterPkt) : Nat := crcBytes (ltHead p 0 ++ ltBody p)

/-- The sending engine fills in `E2eCheck` (R235). -/
def ltSealed (p : LighterPkt) : LighterPkt := { p with e2e := ltCheck p }

/-- Check 1 of R237: `E2eCheck` is correct and the packet is not poisoned. -/
def ltIntact (p : LighterPkt) : Bool := p.e2e = ltCheck p && !p.poisoned

/-- A Lighter packet as packet bytes. -/
def ltPktBytes (p : LighterPkt) : List Byte := ltHead p p.e2e ++ ltBody p

/-! ## CRC-64 and FEC (R251 to R253) -/

/-- CRC-64/WE over bytes, each most significant bit first (R251). -/
def crc64 (bs : List Byte) : BitVec 64 := crcMsb 64 0x42F0E1EBA9EA3693 (BitVec.allOnes 64) (bs.flatMap bitsMsb) ^^^ BitVec.allOnes 64

/-- Twice an element of GF(2^8) under 0x11D (R252). -/
def gfDouble (a : Byte) : Byte := if a.msb then (a <<< 1) ^^^ 0x1D else a <<< 1

/-- Remainder of the data symbols of one interleave: p1 and p0 (R252). -/
def fecParity (ds : List Byte) : Byte × Byte :=
  ds.foldl (fun r d => let f := d ^^^ r.1; (r.2 ^^^ gfDouble f ^^^ f, gfDouble f)) (0, 0)

/-- Symbols of interleave j: bytes 4k + j, the last two being p1 and p0 (R252). -/
def interleave (bs : List Byte) (j : Nat) : List Byte := (List.range 64).map (fun k => bs.getD (4 * k + j) 0)

/-- The eight parity bytes of bytes 0 to 247 of a flit. -/
def fecBytes (bs : List Byte) : List Byte :=
  let ps := (List.range 4).map (fun j => fecParity ((interleave bs j).take 62))
  ps.map (·.1) ++ ps.map (·.2)

/-- Power e of α with s · α^e = t, from e = 0 on; none within the first argument's count. -/
def gfPower (t : Byte) : Nat → Nat → Byte → Option Nat
  | 0, _, _ => none
  | n + 1, e, s => if s = t then some e else gfPower t n (e + 1) (gfDouble s)

/-- Decoding of one interleave (R253): none where it is uncorrectable, else the symbol's place and the correction, if one is needed. -/
def fecDecode (cs : List Byte) : Option (Option (Nat × Byte)) :=
  let s0 := cs.foldl (fun a c => a ^^^ c) 0
  let s1 := cs.foldl (fun a c => gfDouble a ^^^ c) 0
  if s0 = 0 then (if s1 = 0 then some none else none)
  else (gfPower s1 64 0 s0).map (fun e => some (63 - e, s0))

/-- A flit after FEC decoding: its bytes and those corrected; none where an interleave is uncorrectable. -/
def fecFlit (bs : List Byte) : List Nat → List Byte × List Nat → Option (List Byte × List Nat)
  | [], r => some r
  | j :: js, r =>
    match fecDecode (interleave bs j) with
    | none => none
    | some none => fecFlit bs js r
    | some (some (k, e)) => fecFlit bs js (r.1.set (4 * k + j) (bs.getD (4 * k + j) 0 ^^^ e), r.2 ++ [4 * k + j])

/-! ## Flits (Tables 10-1, 10-2 and 10-4) -/

/-- The link control word (Table 10-4). -/
structure LinkCtl where
  ackSeq : Nat
  creditCount : Nat
  creditVc : Nat
  congHop : Nat
  congLevel : Nat
  replayReq : Bool
  replayEpoch : Bool
  degraded : Bool
  cmd : Nat
  arg : Nat
  deriving DecidableEq, Repr

def LinkCtl.word (c : LinkCtl) : Nat :=
  fieldsOf [(40, 24, c.ackSeq), (24, 16, c.creditCount), (20, 4, c.creditVc), (18, 2, c.congHop), (14, 4, c.congLevel), (13, 1, bit c.replayReq),
    (12, 1, bit c.replayEpoch), (11, 1, bit c.degraded), (8, 3, c.cmd), (0, 8, c.arg)]

def linkCtlOf (n : Nat) : LinkCtl :=
  { ackSeq := bitsAt n 40 24, creditCount := bitsAt n 24 16, creditVc := bitsAt n 20 4, congHop := bitsAt n 18 2, congLevel := bitsAt n 14 4
    replayReq := bitsAt n 13 1 = 1, replayEpoch := bitsAt n 12 1 = 1, degraded := bitsAt n 11 1 = 1, cmd := bitsAt n 8 3, arg := bitsAt n 0 8 }

/-- A flit from its header word, link control word and payload: CRC-64 little-endian in bytes 240 to 247, FEC parity in 248 to 255. -/
def flitBytes (head ctl : Nat) (payload : List Byte) : List Byte :=
  let b := leBytes 4 head ++ leBytes 8 ctl ++ padTo 228 payload
  let c := b ++ leBytes 8 (crc64 b).toNat
  c ++ fecBytes c

/-- A flit header (Table 10-2). -/
def flitHead (seq vc typ : Nat) : Nat := fieldsOf [(8, 24, seq), (4, 4, vc), (0, 4, typ)]

/-- A flit as received after R253: the FEC corrects, the CRC-64 holds and `Type` is 0, 1 or 2; none for a CRC-failed flit. -/
structure RxFlit where
  typ : Nat
  vc : Nat
  seq : Nat
  ctl : LinkCtl
  payload : List Byte
  deriving DecidableEq, Repr

/-- The bytes that the FEC corrects in a flit; none where an interleave is uncorrectable. -/
def flitDecode (bs : List Byte) : Option (List Byte × List Nat) := fecFlit bs [0, 1, 2, 3] (bs, [])

/-- What R253 makes of 256 received bytes. -/
def rxFlit (bs : List Byte) : Option RxFlit :=
  match flitDecode bs with
  | none => none
  | some (b, _) =>
    let h := leNat (b.take 4)
    if leNat ((b.drop 240).take 8) ≠ (crc64 (b.take 240)).toNat ∨ 3 ≤ bitsAt h 0 4 then none
    else some ⟨bitsAt h 0 4, bitsAt h 4 4, bitsAt h 8 24, linkCtlOf (leNat ((b.drop 4).take 8)), (b.drop 12).take 228⟩

/-! ## The packet stream (R255, R256) -/

/-- A packet in its channel's stream: lead, fabric header, bytes, padding to a multiple of 4. -/
def streamOf (h : FabHdr) (k : PktKind) (image : List Byte) : List Byte :=
  leBytes 4 (image.length % 8192) ++ hdrBytes h k ++ image ++ List.replicate ((4 - image.length % 4) % 4) 0

/-- What a payload leaves open: bytes of the packet still to come, or a lead that R256 forbids. -/
inductive StreamEnd where
  | idle
  | left (n : Nat)
  | badLead
  deriving DecidableEq, Repr

/-- Reads a DATA payload from a place where `left` bytes of an open packet are still to come (R255, R256); the first argument bounds the packets. -/
def streamRead : Nat → Nat → List Byte → StreamEnd
  | 0, _, _ => .idle
  | fuel + 1, left, bs =>
    if bs.length < left then .left (left - bs.length)
    else
      let rest := bs.drop left
      if rest.isEmpty then .idle
      else
        let n := bitsAt (leNat (rest.take 4)) 0 32
        if n = 0 then .idle
        else if 4224 < n then .badLead
        else streamRead fuel (16 + 4 * ((n + 3) / 4)) (rest.drop 4)

/-! ## INIT records (Table 10-5) -/

/-- The payload of an INIT flit. -/
def initPayload (m : InitMsg) : List Byte :=
  leBytes 8 (fieldsOf [(40, 4, m.rate), (36, 4, m.width), (28, 8, m.port), (16, 12, m.fabricId), (9, 1, bit m.resume), (8, 1, bit m.heard), (0, 8, 1)])
  ++ leBytes 8 (fieldsOf [(24, 24, m.nextSeq), (0, 24, m.ackSeq)])
  ++ leBytes 8 (m.nonce % 4294967296)

/-- An INIT flit: no sequence number, and its link control is zero (R254). -/
def initFlit (m : InitMsg) : List Byte := flitBytes (flitHead 0 0 2) 0 (initPayload m)

/-- The record of a received INIT payload, valid if its `Version` is 0x01 and its reserved bits are zero (R258). -/
def initOf (bs : List Byte) : InitMsg :=
  let a := leNat (bs.take 8)
  let b := leNat ((bs.drop 8).take 8)
  let c := leNat ((bs.drop 16).take 8)
  { valid := bitsAt a 0 8 = 1 && bitsAt a 44 20 = 0 && bitsAt a 10 6 = 0 && bitsAt b 48 16 = 0 && bitsAt c 32 32 = 0
    rate := bitsAt a 40 4, width := bitsAt a 36 4, port := bitsAt a 28 8, fabricId := bitsAt a 16 12, resume := bitsAt a 9 1 = 1
    heard := bitsAt a 8 1 = 1, nextSeq := bitsAt b 24 24, ackSeq := bitsAt b 0 24, nonce := bitsAt c 0 32 }

/-! ## Alignment markers (Table 11-2) -/

/-- The marker pattern, bytes 0 to 5. -/
def markPattern : List Byte := [0x4B, 0xD3, 0x2F, 0x90, 0x6C, 0xA5]

/-- Bytes 6 to 11 of a marker. -/
def markFields (m : MarkerIn) : List Byte :=
  [BitVec.ofNat 8 (m.markLane % 32), BitVec.ofNat 8 (fieldsOf [(7, 1, bit m.rxOk), (0, 7, m.markCount)]),
    BitVec.ofNat 8 (fieldsOf [(4, 4, m.steerTag), (0, 4, m.steerCmd)]),
    BitVec.ofNat 8 (fieldsOf [(6, 1, bit m.replacement), (4, 2, m.steerSpare), (0, 4, m.steerLane)]), 0, 0]

/-- A marker as its lane sends it. -/
def markBytes (m : MarkerIn) : List Byte := markPattern ++ markFields m ++ leBytes 4 (crcBytes (markFields m))

/-- A marker as 16 received bytes give it. -/
def markOf (bs : List Byte) : MarkerIn :=
  let b := fun i => (bs.getD i 0).toNat
  { crcOk := leNat (bs.drop 12) = crcBytes ((bs.drop 6).take 6), markLane := bitsAt (b 6) 0 5, rxOk := bitsAt (b 7) 7 1 = 1
    markCount := bitsAt (b 7) 0 7, steerTag := bitsAt (b 8) 4 4, steerCmd := bitsAt (b 8) 0 4, replacement := bitsAt (b 9) 6 1 = 1
    steerSpare := bitsAt (b 9) 4 2, steerLane := bitsAt (b 9) 0 4 }

/-! ## Lane coding (R249, R281, R282) -/

/-- The stream that carries byte i of a flit on a link of w active lanes, counted from the link's lane 0 (R249). -/
def laneOfByte (w i : Nat) : Nat := (i + i / w) % w

/-- The bytes of a flit that stream k carries, in order (R249). -/
def laneShare (w k : Nat) (flit : List Byte) : List Byte :=
  ((List.range flit.length).filter (fun i => laneOfByte w i = k)).map (fun i => flit.getD i 0)

/-- A flit collected from the bytes of its streams (R249). -/
def flitOfLanes (w : Nat) (shares : List (List Byte)) : List Byte :=
  (List.range 256).map (fun i => (shares.getD (laneOfByte w i) []).getD (i / w) 0)

/-- The level of a bit pair, most significant bit first: Gray code (R281). -/
def pamLevel (hi lo : Bool) : PamLevel :=
  match hi, lo with
  | false, false => .m3
  | false, true => .m1
  | true, true => .p1
  | true, false => .p3

/-- The four PAM4 symbols of a byte: symbol k carries bits 2k + 1 and 2k (R281). -/
def pamSymbols (b : Byte) : List PamLevel := (List.range 4).map (fun k => pamLevel (b.getLsbD (2 * k + 1)) (b.getLsbD (2 * k)))

/-- The bit pair of a level, bit 2k first. -/
def pamBits (l : PamLevel) : List Bool := [l = .m1 || l = .p1, l = .p1 || l = .p3]

/-- The bytes that symbols carry, four symbols to a byte. -/
def pamBytes (ls : List PamLevel) : List Byte := (pieces 4 ls.length ls).map (fun l => byteOfBits (l.flatMap pamBits))

/-- One bit through the scrambler: the bit sent and the next state (R282). -/
def scramBit (s : BitVec 31) (d : Bool) : Bool × BitVec 31 :=
  let b := s.getLsbD 30 != s.getLsbD 27
  (d != b, (s <<< 1) ||| (if b then 1 else 0))

/-- Bits in transmit order through the scrambler. -/
def scramBits : BitVec 31 → List Bool → List Bool × BitVec 31
  | s, [] => ([], s)
  | s, d :: ds =>
    let r := scramBit s d
    let q := scramBits r.2 ds
    (r.1 :: q.1, q.2)

/-- Bytes through the scrambler; the same function descrambles, since the scrambler is additive (R282). -/
def scramble : BitVec 31 → List Byte → List Byte × BitVec 31
  | s, [] => ([], s)
  | s, b :: bs =>
    let r := scramBits s (bitsLsb b)
    let q := scramble r.2 bs
    (byteOfBits r.1 :: q.1, q.2)

/-- The state that the end of a marker loads (R282). -/
def scramLoad (markLane : Nat) : BitVec 31 := BitVec.ofNat 31 (0x7FFFFF00 + markLane % 32)

end Sys2Proof.Machine
end

