-- ==== Sys2Proof/Machine/Origin.lean ====
section
/-! DEFINITION. Packets that the device makes itself (R94, R100, R154): their class, kind and queue, and the posted writes and MSI-X messages of the
management functions (R32, R59, R75, R312). -/

namespace Sys2Proof.Machine

/-! ## Flow classes, kinds and channels (R94, R126, Table 5-2) -/

def isCxl (r : ReqType) : Bool := r = .cxlReq || r = .cxlRwD || r = .cxlNdr || r = .cxlDrs

def isLighter (r : ReqType) : Bool := r = .lighterData || r = .lighterResp || r = .lighterAck

/-- The flow class of a packet (Table 5-2). -/
def flowClassOf (r : ReqType) (tc : Nat) : Nat :=
  if r = .cxlReq ∨ r = .cxlRwD then 8
  else if r = .cxlNdr ∨ r = .cxlDrs then 9
  else if isLighter r then 14
  else if r = .mgmtMsg then 15
  else tc % 8

/-- The kind that ingress assigns (R94). -/
def kindOf (r : ReqType) : PktKind :=
  match r with
  | .memRead | .atomicOp | .config | .io | .cxlReq => .nonPosted
  | .memWrite | .idMessage | .cxlRwD | .mgmtMsg | .broadcast => .posted
  | .cpl | .cxlNdr | .cxlDrs => .completion
  | .lighterData | .lighterResp | .lighterAck => .unordered

/-- Offset c of a channel: posted 0, non-posted 1, completion 2; Lighter requests as posted, the rest as completions (R126). -/
def channelOf (k : PktKind) (r : ReqType) : Nat :=
  match k with
  | .posted => 0
  | .nonPosted => 1
  | .completion => 2
  | .unordered => if r = .lighterData then 0 else 2

/-! ## Queue maps (R154, R155) -/

/-- The egress queue of a packet: fixed for management and Lighter acknowledgements, the internal agent's own for port 0xFF
(R100), otherwise the map entry of its queue set and flow class. -/
def State.queueFor (s : State) (ingress egress cls : Nat) (ack : Bool) : Nat :=
  if cls = 15 then 0
  else if ack then 1
  else if egress = 255 then 4
  else
    let set := if ingress = 255 then 0
      else if s.role ingress = roleFabric then s.fld portFabricSet egress
      else s.fld portQueueSet ingress
    s.fld ((portQueueMap.up set).at (4 * cls)) egress

/-! ## Packets of the internal agent (R100) -/

/-- Bytes of the header of a completion, a CXL response or a message that the EB9144 builds, whose format the manual does not give (log entry 1). -/
def State.tlpHead (s : State) (n : Nat) : List Byte := (List.range n).map (Config.tlpHead s.freeVal)

/-- A packet that the internal agent makes, before its destination is filled in: it has no ingress port, account or floor (R100). -/
def State.ownPkt (s : State) (req : ReqType) (body : Body) (image : List Byte) (tc tenant : Nat) : Packet :=
  { id := 0, ingress := 255, group := channelOf (kindOf req) req, kind := kindOf req, req := req, body := body, image := image, tc := tc % 8,
    flowClass := flowClassOf req tc, egress := 255, queue := 4, acctQueue := 4, arr := 0, outLevel := 0, tenant := tenant, hdr := none,
    dest := .agent, view := 0x7F, viewDev := s.fabricId, srcSlot := 16384, srcLd := 0xFF, requester := 0, tag := 0, pool := 3, idxs := [],
    poison := false, cutThrough := false, written := cellsOf image.length, writtenAt := 0, yellow := false, cm := false, resent := false, ecrcBad := false,
    ide := false, loc := .ingress, linkedAt := 0, redBy := [], redNow := [], unreached := 0, dests := [] }

/-- A new packet joins those held at its ingress, not yet admitted. -/
def State.post (s : State) (pk : Packet) : State :=
  { s with core := { s.core with
      pkts := s.core.pkts ++ [{ pk with id := s.core.nextPkt, loc := .ingress, pool := 3, linkedAt := s.now }], nextPkt := s.core.nextPkt + 1 } }

/-! ## Posted writes of the management functions -/

/-- A posted write or an MSI-X message of a view's management function: a packet of flow class 0 from the internal agent to the host port of the view (R59,
R100). One for a view without a live host goes nowhere, and none starts during a function-level reset (R313). -/
def State.mgmtPost (s : State) (v : Nat) (body : Body) (data : List Byte) : State :=
  if s.viewLive v && !s.mgmtQuiet v then
    let p := s.portOfView v
    let q := s.queueFor 255 p 0 false
    s.draw.post { s.ownPkt .memWrite body (s.tlpHead 16 ++ data) 0 0 with egress := p, queue := q, acctQueue := q, view := v, dest := .host }
  else s

/-- MSI-X vector of the management function of a view (R312). Its address and data stand in the table that the host wrote: they are free bytes here. -/
def State.msix (s : State) (v vec : Nat) : State := s.mgmtPost v (.mgmtMsix v vec) (s.tlpHead 4)

end Sys2Proof.Machine
end

