-- ==== Sys2Proof/Machine/Records.lean ====
section
/-! DEFINITION. Bindings and view scope (R43, R182), fault records (R348 to R351, R354), and the status bits that views see
(R311, R359). -/

namespace Sys2Proof.Machine

/-! ## Binding words (Table 7-6, words 1 to 17) -/

def bGen (w : Word) : Nat := bitsOf w 56 8
def bBound (w : Word) : Bool := bitsOf w 55 1 = 1
def bMatched (w : Word) : Bool := bitsOf w 54 1 = 1
def bViewDev (w : Word) : Nat := bitsOf w 42 12
def bSide (w : Word) : Nat := bitsOf w 40 2
def bLd (w : Word) : Nat := bitsOf w 32 8
def bVport (w : Word) : Nat := bitsOf w 24 8
def bView (w : Word) : Nat := bitsOf w 16 7
def bTenant (w : Word) : Nat := bitsOf w 0 13

/-- The selector of a home record on this device (R182). -/
def homeSel (slot : Nat) : Nat := 0xFFFF * 65536 + slot

/-- A function selector names a home record. -/
def isHome (sel : Nat) : Bool := sel / 65536 = 0xFFFF

/-- The binding word of a logical device; 0xFF selects the plain binding (Table 7-6). -/
def ldIndex (ld : Nat) : Nat := if ld = 0xFF then 0 else 1 + ld

/-- Binding word `i` (0 plain, 1 + n logical device n) of a function object. -/
def State.bindW (s : State) (sel i : Nat) : Word := s.baseWord cFunction sel (1 + i)

/-- The bound words of a function object, as indices 0 to 16. -/
def State.boundOf (s : State) (sel : Nat) : List Nat := (List.range 17).filter (fun i => bBound (s.bindW sel i))

/-- A binding word belongs to view `v` of this device: a view-side record, or a home record whose view is here. -/
def State.bindHere (s : State) (sel i v : Nat) : Bool :=
  let w := s.bindW sel i
  bBound w && decide (bView w = v) && (!isHome sel || (decide (bSide w = 0)) || (bMatched w && decide (bViewDev w = s.fabricId)))

/-- Every binding of a view of this device: function selector and word index. -/
def State.viewBindings (s : State) (v : Nat) : List (Nat × Nat) :=
  (s.selsOf cFunction).flatMap (fun sel =>
    ((List.range 17).filter (fun i => s.bindHere sel i v)).map (fun i => (sel, i)))

/-- The view side of a virtual port: the record that `Side` 0 or 2 wrote (R183). -/
def State.vportBinding (s : State) (v k : Nat) : Option (Nat × Nat) :=
  (s.viewBindings v).find? (fun e => decide (bVport (s.bindW e.1 e.2) = k) && decide (bSide (s.bindW e.1 e.2) ≠ 1))

/-! ## View scope (R43) -/

/-- The view a tenant calls home; none for an absent tenant. -/
def State.homeView (s : State) (t : Nat) : Option Nat :=
  if s.fld tenState t = 0 then none else some (s.fld tenHomeView t)

/-- An object lies inside the scope of view `v` (R43). -/
def State.inView (s : State) (v cls sel : Nat) : Bool :=
  if cls = cHostView then decide (sel = v)
  else if cls = cFunction then (List.range 17).any (fun i => s.bindHere sel i v)
  else if cls = cTenant then decide (s.homeView sel = some v) && decide (sel ≠ 0)
  else if cls = cQueuePair then
    decide (s.fld qpState sel ≠ 0) && decide (s.homeView (s.fld qpTenantId sel) = some v)
      && decide (s.fld qpTenantId sel ≠ 0)
  else if cls = cCompletionQueue then
    decide (s.fld cqState sel ≠ 0) && decide (s.homeView (s.fld cqTenantId sel) = some v)
      && decide (s.fld cqTenantId sel ≠ 0)
  else if cls = cRegion then
    decide (s.fld regRegistered sel = 1) && decide (s.homeView (s.fld regTenantId sel) = some v)
      && decide (s.fld regTenantId sel ≠ 0)
  else false

/-! ## Status a view sees (R311, R359) -/

/-- A view may see a fault record (R359). -/
def State.mayseeRec (s : State) (v : Nat) (r : FaultRec) : Bool :=
  s.fmGranted v || decide (3 ≤ r.grade) || s.inView v r.cls r.sel

/-- The records that FAULT_SUMMARY of a view counts: permitted, open, not acknowledged. -/
def State.summaryRecs (s : State) (v : Nat) : List FaultRec :=
  s.faults.recs.filter (fun r => r.isOpen && !r.acked && s.mayseeRec v r)

/-- FAULT_SUMMARY of a view (Table 14-7). -/
def State.faultSummary (s : State) (v : Nat) : Nat :=
  let rs := s.summaryRecs v
  min rs.length 65535 * 65536 + ((List.range 6).map (fun g => if rs.any (fun r => decide (r.grade = g)) then 2 ^ g else 0)).sum

/-- DEV_STATUS bits [5:0] of a view (Table 12-6): base failed, tide ever locked, holdover, locked, fault pending, ready. In
state 2 `Holdover` also follows the source's own report (R330). -/
def State.devStatusLow (s : State) (v : Nat) : Nat :=
  bit s.power.baseFailed * 32 + s.fld tideEverLocked 0 * 16
  + bit (s.fld tideState 0 = 3 || (s.fld tideState 0 = 2 && s.sourceHoldover)) * 8
  + bit s.tideLocked * 4 + bit (s.faultSummary v ≠ 0) * 2 + bit (s.power.phase = .ready)

/-- DEV_STATUS of a view (Table 12-6). -/
def State.devStatus (s : State) (v : Nat) : Nat :=
  s.fabricId * 65536 + v * 512 + bit (s.fmGranted v) * 256 + s.power.baseSlot * 64 + s.devStatusLow v

/-- Any change of DEV_STATUS bits [5:0] sends MSI-X vector 0 of that view (R312). -/
def notifyViews : List Nat → State → State
  | [], s => s
  | v :: vs, s =>
    let d := s.devStatusLow v
    notifyViews vs (if tget 0 s.faults.summaries v = d then s
      else { (s.msix v 0) with faults := { s.faults with summaries := tput 0 s.faults.summaries v d } })

/-- Compares DEV_STATUS of every open view with what was last signalled (R312, R359). -/
def State.notify (s : State) : State := notifyViews s.viewsOpen s

/-! ## Fault records (R349 to R351) -/

/-- An event as a block reports it; `key` is how many low bits of the syndrome a merge must share (13 for a gate refusal, 40
for a pair, 52 for a flow, R351). -/
structure FEvent where
  grade : Nat
  checker : Nat
  cls : Nat
  sel : Nat
  syn0 : Nat
  syn1 : Nat
  action : Nat
  key : Nat
  deriving DecidableEq, Repr

/-- Checker ID of a source block's instance (Table 14-2). -/
def checkerId (block inst : Nat) : Nat := block * 65536 + inst

/-- An open record that an event merges into (R351). -/
def merges (e : FEvent) (r : FaultRec) : Bool :=
  r.isOpen && decide (r.grade = e.grade) && decide (r.cls = e.cls) && decide (r.sel = e.sel)
  && decide (r.checker / 65536 = e.checker / 65536) && decide (r.syn0 % 2 ^ e.key = e.syn0 % 2 ^ e.key)

/-- The record to close when 4,096 are open: the oldest open record of the lowest grade present (R350). The list is newest
first. -/
def victim (rs : List FaultRec) : Option Nat :=
  let os := rs.filter (·.isOpen)
  if os.length < 4096 then none
  else
    let g := os.foldl (fun (m : Nat) r => min m r.grade) 5
    ((os.filter (fun r => decide (r.grade = g))).getLast?).map (·.id)

/-- Closes a record by its ID. -/
def closeRec (id : Nat) (rs : List FaultRec) : List FaultRec :=
  rs.map (fun r => if r.id = id then { r with isOpen := false } else r)

/-- Puts a new record at the head of the log, whose ring keeps 65,536 (R350). -/
def pushRec (r : FaultRec) (rs : List FaultRec) : List FaultRec := (r :: rs).take 65536

/-- Before the ring overwrites an open record, the record is copied forward as a new one with `Action` 14; the containment it
caused follows the copy (R350, R354). -/
def carryForward (f : Faults) : Faults :=
  match f.recs.find? (fun r => r.isOpen && decide (r.id + 65536 = f.nextId)) with
  | none => f
  | some r =>
    { f with
      recs := pushRec { r with id := f.nextId, action := 14, related := r.id, logged := false } f.recs,
      nextId := f.nextId + 1,
      contained := f.contained.map (fun c => if c.1 = r.id then (f.nextId, c.2) else c) }

/-- Carries records forward until the next slot of the ring holds no open record, for at most so many copies. -/
def carryAll : Nat → Faults → Faults
  | 0, f => f
  | k + 1, f => if f.recs.any (fun r => r.isOpen && decide (r.id + 65536 = f.nextId)) then carryAll k (carryForward f) else f

/-- Writes a new record; gives its ID. At most 4,096 records are open, so no more are copied. -/
def State.newRec (s : State) (e : FEvent) (lasting injected : Bool) (leaky related : Nat) : State × Nat :=
  let f := carryAll 4096 s.faults
  let rs := match victim f.recs with | some i => closeRec i f.recs | none => f.recs
  let r : FaultRec :=
    { id := f.nextId, grade := e.grade, isOpen := true, acked := false, lasting := lasting, injected := injected,
      locked := s.tideLocked, checker := e.checker, action := e.action, leaky := leaky, cls := e.cls, sel := e.sel,
      first := s.tide, last := s.tide, merges := 0, related := related, syn0 := e.syn0, syn1 := e.syn1,
      quietFrom := s.now, logged := false }
  let s1 := { s with faults := { f with recs := pushRec r rs, nextId := f.nextId + 1 } }
  let s2 := s1.count (ctrId 0x11 256 0 (min e.grade 5)) 1
  (s2.count (ctrId 0x11 256 0 (8 + e.checker / 65536)) 1, f.nextId)

/-- The source whose leaky count an event raises; none for a checker that is not counted (Table 14-6). -/
def leakSource (e : FEvent) : Option Nat :=
  let b := e.checker / 65536
  let i := e.checker % 65536
  if b = 0x01 then (if e.cls = cLane then some (checkerId 0x01 (1024 + laneOfSel e.sel)) else none)
  else if b = 0x04 then some (checkerId 0x04 (i / 4))
  else if b = 0x0D then some (checkerId 0x0D (i / 2))
  else if [0x02, 0x03, 0x05, 0x06, 0x07, 0x08, 0x09, 0x0B, 0x0C, 0x0F, 0x10, 0x18].contains b then some e.checker
  else none

/-- The interval between two decrements of a leaky count, in ns (R352). -/
def State.leakInterval (s : State) : Nat :=
  s.fld devLeakyWindowS 0 * 1000000000 / max 1 (s.fld devLeakyLimit 0)

/-- The leaky count of a source. -/
def State.leakCount (s : State) (src : Nat) : Nat := ((s.faults.leaks.find? (fun l => decide (l.source = src))).map (·.count)).getD 0

/-- One event of a source: its leaky count rises by 1, up to 255, and its timer starts from 0 (R352). -/
def State.leakUp (s : State) (src : Nat) : State :=
  let ls := s.faults.leaks
  let ls' := match ls.find? (fun l => decide (l.source = src)) with
    | some _ => ls.map (fun l => if l.source = src then { l with count := min 255 (l.count + 1) } else l)
    | none => ls ++ [⟨src, 1, s.now + s.leakInterval⟩]
  { s with faults := { s.faults with leaks := ls' } }

/-- An injection takes effect on a checker's next check (R361): whether it did, and whether this is its first event. -/
def State.takeInjection (s : State) (checker : Nat) : State × Bool :=
  match s.faults.injections.find? (fun i => decide (i.checker = checker)) with
  | none => (s, false)
  | some i =>
    let is := (s.faults.injections.map (fun j =>
      if j = i then { j with count := j.count - 1, fresh := false } else j)).filter (fun j => decide (0 < j.count))
    ({ s with faults := { s.faults with injections := is } }, i.fresh)

/-- Injections that spoil what is sent, and no check of this device: link CRCs and `E2eCheck` (Table 14-6). -/
def spoilsSent (checker : Nat) : Bool := checker / 65536 = 0x01 || checker / 65536 = 0x0A

/-- An injection spoils what is sent next. -/
def State.injects (s : State) (checker : Nat) : Bool := s.faults.injections.any (fun i => decide (i.checker = checker))

/-- An event is merged into an open record or written as a new one, and counted toward its source's limit (R351, R352). Gives the
record's ID, and whether the source has just become lasting. -/
def State.record (s : State) (e : FEvent) : State × Nat × Bool :=
  let ti := if spoilsSent e.checker then (s, false) else s.takeInjection e.checker
  let s := ti.1
  let src := leakSource e
  let before := match src with | some k => s.leakCount k | none => 0
  let s := match src with | some k => s.leakUp k | none => s
  let lk := match src with | some k => s.leakCount k | none => 0
  let crossed := src.isSome && decide (before = s.fld devLeakyLimit 0) && decide (lk = before + 1)
  match s.faults.recs.find? (merges e) with
  | some r =>
    let rs := s.faults.recs.map (fun q => if q.id = r.id then
      { q with merges := min (q.merges + 1) 4294967295, last := s.tide, leaky := lk, quietFrom := s.now } else q)
    ((({ s with faults := { s.faults with recs := rs } } : State).count (ctrId 0x11 256 0 64) 1).notify, r.id, crossed)
  | none =>
    let n := s.newRec e false ti.2 lk 0
    (n.1.notify, n.2, crossed)

/-- The same where only the state matters. -/
def State.fault (s : State) (e : FEvent) : State := (s.record e).1

/-- Adds a containment that record `id` caused (R352, R353). -/
def State.contain (s : State) (id : Nat) (t : ContTarget) : State :=
  if s.faults.contained.contains (id, t) then s
  else { s with faults := { s.faults with contained := s.faults.contained ++ [(id, t)] } }

/-- A target is contained by some record. -/
def State.isContained (s : State) (t : ContTarget) : Bool := s.faults.contained.any (fun c => decide (c.2 = t))

/-- A function or logical device is contained, by itself or with its device port (R353). -/
def State.fnContained (s : State) (slot ld : Nat) : Bool :=
  s.isContained (.obj cFunction (homeSel slot)) || s.isContained (.logical slot ld)
  || s.isContained (.port (s.fld fnPort (homeSel slot)))

/-- An object is contained at Grade 1 or higher (R58). -/
def State.objContained (s : State) (cls sel : Nat) : Bool :=
  s.isContained (.obj cls sel)
  || (cls = cPort && s.isContained (.port sel))
  || (cls = cFunction && isHome sel && s.fld fnState sel ≠ 0 && s.isContained (.port (s.fld fnPort sel)))

/-- Removes containments. -/
def State.uncontain (s : State) (f : Nat × ContTarget → Bool) : State :=
  { s with faults := { s.faults with contained := s.faults.contained.filter (fun c => !f c) } }

/-- A target leaves its containment by an exit of its own (Table 14-5): the entries go, and the records that contained nothing else close (R351). -/
def State.exitOf (s : State) (t : ContTarget) : State :=
  let ids := (s.faults.contained.filter (fun c => decide (c.2 = t))).map (·.1)
  let s1 := s.uncontain (fun c => decide (c.2 = t))
  { s1 with faults := { s1.faults with recs := s1.faults.recs.map (fun r =>
      if ids.contains r.id ∧ (r.action = 2 ∨ r.action = 3) ∧ !s1.faults.contained.any (fun c => decide (c.1 = r.id)) then { r with isOpen := false } else r) } }

/-- The syndrome of a pair or flow (Table 14-3). -/
def flowSyn (f : FlowKey) (gen : Nat) : Nat :=
  f.srcDev % 4096 + f.srcPort % 256 * 4096 + f.dstDev % 4096 * 1048576 + f.dstPort % 256 * 4294967296
  + f.cls % 16 * 1099511627776 + gen % 256 * 17592186044416

/-- The 8-word image of a record (Table 14-2). -/
def recWords (r : FaultRec) : List Word :=
  let w0 := r.id % 4294967296 * 4294967296 + r.grade * 536870912 + bit r.isOpen * 268435456 + bit r.acked * 134217728
    + bit r.lasting * 67108864 + bit r.injected * 33554432 + bit r.locked * 16777216 + r.checker % 16777216
  let w1 := r.action * 72057594037927936 + r.leaky * 281474976710656 + r.cls % 4096 * 4294967296 + r.sel % 4294967296
  let w4 := r.merges * 4294967296 + r.related % 4294967296
  let ws := [word w0, word w1, word r.first, word r.last, word w4, word r.syn0, word r.syn1]
  let crc := crc32 ((ws.flatMap wordBytes) ++ [0, 0, 0, 0])
  ws ++ [word (crc * 4294967296)]

end Sys2Proof.Machine
end

