-- ==== Sys2Proof/Machine/Buffer.lean ====
section
/-! DEFINITION. The shared buffer (R92 to R106), meters and shapers (R162 to R168), queue maps (R155), routes, path groups and
spraying (R122 to R131): everything that the lookup and admission stages decide. -/

namespace Sys2Proof.Machine

/-! ## Cells and banks -/

/-- A packet holds cells of the buffer. -/
def Packet.admitted (pk : Packet) : Bool := pk.pool < 3

/-- The packets that hold cells. -/
def State.inBuffer (s : State) : List Packet := s.core.pkts.filter (·.admitted)

/-- Cells held in a bank (Table 4-6, `CellsInUse`). -/
def State.bankUse (s : State) (b : Nat) : Nat :=
  (s.inBuffer.map (fun pk => (pk.banks.filter (fun x => decide (x = b))).length)).sum
  + (s.core.orphans.filter (fun o => decide (o.1 / 2048 = b))).length

/-- Cells in service: 2,048 for each bank in service, and the cells still held in a draining bank (R99, R115). -/
def State.capacity (s : State) : Nat :=
  let bs := s.selsOf cBufferBank
  (1280 - bs.length) * 2048
  + (bs.map (fun b => if s.fld bankState b = 0 then 2048 else if s.fld bankState b = 1 then s.bankUse b else 0)).sum

/-- Cells in banks that are in service: what reserves and floors must fit into (R116). -/
def State.inService (s : State) : Nat :=
  let bs := s.selsOf cBufferBank
  (1280 - bs.length) * 2048 + (bs.map (fun b => if s.fld bankState b = 0 then 2048 else 0)).sum

/-- Every reserve together (R99). -/
def State.reserves (s : State) : Nat :=
  let ps := s.selsOf cPort
  (144 - ps.length) * 1056
  + (ps.map (fun p => ((List.range 16).map (fun q => s.fld (portReserveCells.up q) p)).sum)).sum

/-- Credit groups of a port by its role (R99). -/
def creditGroups (role : Nat) : Nat := if role = roleFabric then 13 else if role = roleOff then 0 else 3

/-- Every floor together (R99). -/
def State.floors (s : State) : Nat := ((s.selsOf cPort).map (fun p => creditGroups (s.role p) * 66)).sum

/-- Cells set aside for receive pools above 2,048 units, one per unit (R267). -/
def State.setAside (s : State) : Nat := ((s.selsOf cPort).map (fun p => s.fld qlRxPoolUnits p - 2048)).sum

/-- Size of the shared pool (R99): the cells in service less every reserve and every floor, and less what receive pools set aside. -/
def State.sharedPool (s : State) : Nat := s.inService - s.reserves - s.floors - s.setAside

/-- Cells of an admission account drawn from a pool. -/
def State.acctUse (s : State) (p q pool : Nat) : Nat :=
  ((s.inBuffer.filter (fun k => decide (k.ingress = p) && decide (k.acctQueue = q) && decide (k.pool = pool))).map (·.cells)).sum

/-- Reserve use of the accounts above a reserve that was lowered (R105). -/
def State.overReserve (s : State) : Nat :=
  (((s.inBuffer.filter (fun k => decide (k.pool = 0))).map (fun k => (k.ingress, k.acctQueue))).eraseDups.map
    (fun a => s.acctUse a.1 a.2 0 - s.fld (portReserveCells.up a.2) a.1)).sum

/-- Cells of packets drawn from the shared pool, cells that no packet reaches, and reserve use above a lowered reserve (R105). -/
def State.sharedUse (s : State) : Nat :=
  ((s.inBuffer.filter (fun k => decide (k.pool = 1))).map (·.cells)).sum + s.core.orphans.length + s.overReserve

/-- F of R100: the free shared cells. -/
def State.freeShared (s : State) : Nat := s.capacity - s.reserves - s.floors - s.setAside - s.sharedUse

/-- Cells charged to a tenant (R101). -/
def State.tenantCells (s : State) (t : Nat) : Nat :=
  ((s.inBuffer.filter (fun k => decide (k.tenant = t) && decide (k.queue ≠ 0))).map (·.cells)).sum

/-! ## Meters (R162 to R168) -/

/-- The EB9144 made the packet itself for a port: a presence message (R149). -/
def Packet.ownMessage (pk : Packet) : Bool := match pk.body with | .presence _ => true | _ => false

/-- The meters a packet meets (R162): its tenant's meter for the kind of port it entered on, and that port's shared meter. Lighter data of a queue
pair of tenant 0 meets meter 0. -/
def State.metersOf (s : State) (pk : Packet) : List Nat :=
  if pk.queue = 0 ∨ pk.queue = 1 ∨ pk.ownMessage = true then []
  else if pk.ingress = 255 then (if pk.req = .lighterData ∨ pk.req = .lighterResp then [2 * pk.tenant] else [])
  else if s.role pk.ingress = roleFabric then []
  else
    (if pk.tenant = 0 then [] else [2 * pk.tenant + (if s.role pk.ingress = roleDevice then 1 else 0)])
    ++ (if s.fld portSharedMeter pk.ingress = 0 then [] else [s.fld portSharedMeter pk.ingress])

/-- Colours (R165). -/
inductive Colour where
  | green | yellow | red
  deriving DecidableEq, Repr

/-- The colour a meter gives a packet of `b` bytes (R165). -/
def State.colour (s : State) (m b : Nat) : Colour :=
  let mode := s.fld meterMode m
  if mode = 1 then
    if b ≤ s.fld meterTokensC m then .green else if b ≤ s.fld meterTokensEP m then .yellow else .red
  else if mode = 2 then
    if s.fld meterTokensEP m < b then .red else if s.fld meterTokensC m < b then .yellow else .green
  else .green

/-- A meter debits an admitted packet by its own colour and counts it (R166, R168). -/
def State.debit (s : State) (b m : Nat) : State :=
  let mode := s.fld meterMode m
  match s.colour m b with
  | .green =>
    let s1 := if mode = 0 then s else s.put meterTokensC m (s.fld meterTokensC m - b)
    let s2 := if mode = 2 then s1.put meterTokensEP m (s.fld meterTokensEP m - b) else s1
    (s2.addSat meterGreenBytes m b).count (ctrId 0x05 4 m 0) b
  | .yellow =>
    ((s.put meterTokensEP m (s.fld meterTokensEP m - b)).addSat meterYellowBytes m b).count (ctrId 0x05 4 m 1) b
  | .red => s

/-- Debits every meter of a list. -/
def State.debits (s : State) (b : Nat) : List Nat → State
  | [] => s
  | m :: ms => (s.debit b m).debits b ms

/-- Meters that give a packet red count it once, at their first red (R168, `RedHolds`). -/
def State.countReds (s : State) (old : List Nat) : List Nat → State
  | [] => s
  | m :: ms =>
    (if old.contains m then s else (s.addSat meterRedHolds m 1).count (ctrId 0x05 4 m 2) 1).countReds old ms

/-! ## Routes and path groups (R122 to R131) -/

/-- The group of a route that is valid and has members (R122). -/
def State.routeGroup (s : State) (dev port : Nat) : Option Nat :=
  let sel := dev * 65536 + port
  let g := s.fld routePathGroup sel
  if s.fld routeValid sel = 1 ∧ g < 16384 ∧ s.fld grpMemberCount g ≠ 0 then some g else none

/-- A route exists to a device: route (D, 0xFF) is valid and names a group with a member (R122). -/
def State.routeExists (s : State) (dev : Nat) : Bool := (s.routeGroup dev 255).isSome

def memberFld (f : Fld) (m : Nat) : Fld := (f.up (m / 4)).at (16 * (m % 4))

/-- Egress port, hop level and backup mark of a member (R124). -/
def State.mPort (s : State) (g m : Nat) : Nat := s.fld (memberFld grpEgressPort m) g
def State.mLevel (s : State) (g m : Nat) : Nat := s.fld (memberFld grpHopLevel m) g
def State.mBackup (s : State) (g m : Nat) : Bool := s.fld (memberFld grpBackup m) g = 1

/-- A port can carry sprayed packets: in the fabric role, its link up, not withdrawn, and not a link back to this device (R124,
R125). -/
def State.pathLive (s : State) (p : Nat) : Bool :=
  p < 144 && s.role p = roleFabric && (s.ql p = qlActive || s.ql p = qlResize) && !s.fabric.failed.contains p
  && s.fld qlSelfLoop p = 0

/-- `MemberLive` of a member (R124). -/
def State.mLive (s : State) (g m : Nat) : Bool := s.pathLive (s.mPort g m)

/-- The members of a group, by number. -/
def State.membersOf (s : State) (g : Nat) : List Nat := List.range (s.fld grpMemberCount g)

/-- A member is left out for a destination device (R127, R140). -/
def State.mExcluded (s : State) (g dev m : Nat) : Bool :=
  s.fabric.exclusions.contains (s.mPort g m, dev, s.mLevel g m)

/-- The members whose level is the smallest of a list. -/
def State.lowest (s : State) (g : Nat) (ms : List Nat) : List Nat :=
  match ms.map (s.mLevel g) with
  | [] => []
  | l :: ls =>
    let lo := ls.foldl min l
    ms.filter (fun m => decide (s.mLevel g m = lo))

/-- The spray set of R127 for a packet toward `dev` at arrival level `arr` − 1; CXL.mem uses hop levels 0 and 1 alone (R128). -/
def State.spraySet (s : State) (g dev arr : Nat) (cxl : Bool) : List Nat :=
  let ok := (s.membersOf g).filter (fun m =>
    s.mLive g m && decide (arr ≤ s.mLevel g m) && !s.mExcluded g dev m && (!cxl || decide (s.mLevel g m ≤ 1)))
  let pri := s.lowest g (ok.filter (fun m => !s.mBackup g m))
  if pri.isEmpty then s.lowest g (ok.filter (fun m => s.mBackup g m)) else pri

/-- The equal-weight period of a group runs (R131). -/
def State.coldStart (s : State) (g : Nat) : Bool := s.now < tget 0 s.fabric.coldUntil g

/-- A member's weight (R129, R131). -/
def State.mWeight (s : State) (g m : Nat) : Nat :=
  if s.coldStart g then 16 else 16 - tget 0 s.fabric.congestion (g * 64 + m)

/-- A member's spray counter. -/
def State.sprayCtr (s : State) (g m : Nat) : Int := tget 0 s.fabric.spray (g * 64 + m)

def State.setSpray (s : State) (g m : Nat) (v : Int) : State :=
  { s with fabric := { s.fabric with spray := tput 0 s.fabric.spray (g * 64 + m) v } }

/-- Adds n × weight to the counter of every member of the set (R130 step 1). -/
def State.sprayAdd (s : State) (g n : Nat) : List Nat → State
  | [] => s
  | m :: ms => (s.setSpray g m (s.sprayCtr g m + (n * s.mWeight g m : Nat))).sprayAdd g n ms

/-- The member with the largest counter, the lowest number on a tie (R130 step 2). -/
def State.sprayMax (s : State) (g : Nat) : List Nat → Option Nat
  | [] => none
  | m :: ms =>
    match s.sprayMax g ms with
    | none => some m
    | some k => if s.sprayCtr g k ≤ s.sprayCtr g m then some m else some k

/-- The choice of R130 for a packet of n cells: the state with the counters updated and the member chosen. -/
def State.spray (s : State) (g n : Nat) (set : List Nat) : State × Option Nat :=
  let s1 := s.sprayAdd g n set
  match s1.sprayMax g set with
  | none => (s, none)
  | some m =>
    let w := (set.map (s.mWeight g)).sum
    (s1.setSpray g m (s1.sprayCtr g m - (n * w : Nat)), some m)

/-- The next hop of a packet toward (`dev`, `port`): the state, and the member's port and level (R127, R130); none without an
eligible member. -/
def State.nextHop (s : State) (dev port arr n : Nat) (cxl : Bool) : State × Option (Nat × Nat) :=
  match s.routeGroup dev port with
  | none => (s, none)
  | some g =>
    let r := s.spray g n (s.spraySet g dev arr cxl)
    match r.2 with
    | none => (s, none)
    | some m => ((r.1.count (ctrId 0x0B 4 g 0) 1).count (ctrId 0x0B 4 g 1) n, some (s.mPort g m, s.mLevel g m))

/-- A group becomes active: its equal-weight period starts (R131). -/
def State.activateGroup (s : State) (g : Nat) : State :=
  ({ s with fabric := { s.fabric with coldUntil := tput 0 s.fabric.coldUntil g (s.now + 100000) } }).count
    (ctrId 0x0B 4 g 2) 1

/-! ## Virtual channels (R126) -/

/-- The virtual channel of a packet on a link it crosses at hop level h (R126). -/
def vcOf (h : Nat) (k : PktKind) (r : ReqType) : Nat := if r = .mgmtMsg then 12 else 3 * h + channelOf k r

/-- The credit group of a packet at its ingress port (R99). -/
def State.groupOf (s : State) (p h : Nat) (k : PktKind) (r : ReqType) : Nat :=
  if s.role p = roleFabric then vcOf h k r else channelOf k r

/-! ## Quayline receive space (R265 to R267) -/

/-- The state of a link beside its image. -/
def State.qlp (s : State) (p : Nat) : QlPort :=
  (s.quay.find? (fun r => decide (r.port = p))).getD
    { port := p, nextSeq := 0, acked := 0xFFFFFF, actedEpoch := false, replayFrom := 0, replayRuns := 0, replay := [], spilled := 0,
      throttled := false, spillFrom := none, sendQ := [], rot := 0, laneBytes := 65536, answer := none, expected := 0, reqOpen := false,
      epoch := false, rxOpen := none, rxPool := 0, rxLimit := [], rxFreed := [], rxReturned := [], rxS := [], limits := [], consumed := [],
      advertised := [], pauses := [], frozenFrom := none, errSubs := [], subFlits := 0, declFlits := 0, overRuns := 0,
      ownDegraded := false, partnerDegraded := false, aligned := false, block := 0, nonce := 0, resume := false, heardAt := none, partnerHeard := false,
      partnerAck := 0xFFFFFF, initsSent := 0, initDue := none, retrainDue := none, failedAt := none, heldDue := none, resizeDue := none,
      drainDue := none, steerDue := none, wanted := none, byWindow := false, target := none, carry := 0, failure := 0 }

/-- Writes a link's state, and its `Outstanding` and `Spilling` fields (Table 10-7). -/
def State.setQlp (s : State) (r : QlPort) : State :=
  let s1 := { s with quay := s.quay.filter (fun (q : QlPort) => decide (q.port ≠ r.port)) ++ [r] }
  (s1.put qlOutstanding r.port ((r.nextSeq + 33554432 - (r.acked + 1)) % 16777216)).put qlSpilling r.port (bit (0 < r.spilled))

/-- Flits outstanding (R263). -/
def QlPort.outstanding (r : QlPort) : Nat := (r.nextSeq + 33554432 - (r.acked + 1)) % 16777216

/-- Bytes of a packet in its channel's stream: lead, header, and bytes padded to 4. -/
def streamBytes (b : Nat) : Nat := 20 + 4 * ((b + 3) / 4)

/-- Credit units of a packet (R265). -/
def unitsOf (b : Nat) : Nat := (streamBytes b + 63) / 64

/-- Credit units that a channel's partner holds or whose space a packet still takes: granted and not freed. -/
def QlPort.held (r : QlPort) (vc : Nat) : Nat := tget 0 r.rxLimit vc - tget 0 r.rxFreed vc

/-- Units returned on a channel in the last microsecond. -/
def QlPort.returned (r : QlPort) (now vc : Nat) : Nat :=
  ((r.rxReturned.filter (fun e => decide (e.2.1 = vc) && decide (now < e.1 + 1000))).map (·.2.2)).sum

/-- Units that a channel should hold: 68, and of the rest a share in proportion to what it returned in the last microsecond (R267). -/
def QlPort.share (r : QlPort) (now vc : Nat) : Nat :=
  let total := ((List.range 13).map (r.returned now)).sum
  68 + (if total = 0 then 0 else (r.rxPool - 884) * r.returned now vc / total)

/-- The limit of a channel as the next advertisement raises it (R266, R267): the guaranteed 68 units, and its share as far as units are free; never
2^15 ahead. A limit does not fall. -/
def QlPort.raised (r : QlPort) (now vc : Nat) : Nat :=
  let h := r.held vc
  let free := r.rxPool - ((List.range 13).map (fun k => max (r.held k) 68)).sum
  let want := min 32767 (min (r.share now vc) (max h 68 + free))
  tget 0 r.rxLimit vc + (want - h)

/-- A packet received on a fabric port leaves its receive space, and its units can be granted again (R106, R266). -/
def State.returnUnits (s : State) (p vc n : Nat) : State :=
  let r := s.qlp p
  s.setQlp { r with
    rxFreed := tput 0 r.rxFreed vc (tget 0 r.rxFreed vc + n)
    rxReturned := (r.rxReturned.filter (fun e => decide (s.now < e.1 + 1000))) ++ [(s.now, vc, n)] }

/-- Returns the credits of an admitted packet's cells: to the link partner of an edge port, or as receive units of a fabric port (R106). -/
def State.returnCredits (s : State) (pk : Packet) : State :=
  if pk.ingress = 255 || pk.ownMessage || pk.resent then s
  else if s.role pk.ingress = roleFabric then s.returnUnits pk.ingress pk.group (unitsOf pk.bytes)
  else s.emit (.credits pk.ingress pk.group pk.cells)

/-! ## Admission (R100 to R103, R166) -/

/-- The queue pair that sends a Lighter packet. -/
def Packet.sender (pk : Packet) : Option Nat := match pk.body with | .lighter l => some l.srcQp | _ => none

/-- An earlier packet of the same port and credit group is held (R102). For the internal agent one of the same kind that waits for the shared pool
stops the later ones (R100), and a red Lighter packet stops those of its own queue pair (R166). -/
def State.groupHeld (s : State) (pk : Packet) : Bool :=
  (s.core.pkts.takeWhile (fun k => decide (k.id ≠ pk.id))).any (fun k =>
    k.loc = .ingress && decide (k.ingress = pk.ingress)
      && (if pk.ingress = 255 then decide (k.kind = pk.kind) && (k.redNow.isEmpty || decide (k.sender = pk.sender))
          else decide (k.group = pk.group)))
  || (decide (pk.kind = .posted) && s.cms.waits.any (fun w => decide (s.portOfView w.view = pk.ingress) && decide (w.mark ≤ pk.id)))

/-- The floor of a packet's credit group holds no packet. -/
def State.floorFree (s : State) (pk : Packet) : Bool :=
  !s.inBuffer.any (fun k => decide (k.ingress = pk.ingress) && decide (k.group = pk.group) && decide (k.pool = 2))

/-- The tenant's quota leaves room (R101). -/
def State.quotaOk (s : State) (pk : Packet) : Bool :=
  pk.tenant = 0 || pk.queue = 0 || s.tenantCells pk.tenant + pk.cells ≤ s.fld tenQuota pk.tenant

/-- The source that can take a packet (R100): 0 reserve, 1 shared, 2 floor. -/
def State.poolFor (s : State) (pk : Packet) : Option Nat :=
  let n := pk.cells
  let f := s.freeShared
  if pk.ingress = 255 then (if n ≤ f then some 1 else none)
  else
    let q := pk.acctQueue
    let p := pk.ingress
    let res := s.acctUse p q 0
    let sh := s.acctUse p q 1
    let total := res + sh + s.acctUse p q 2
    let maxC := s.fld (portMaxCells.up q) p
    if res + n ≤ s.fld (portReserveCells.up q) p then some 0
    else if (maxC = 0 ∨ total + n ≤ maxC) ∧ sh + n ≤ f * 2 ^ s.fld (portAlpha.up q) p / 16 ∧ n ≤ f then some 1
    else if s.floorFree pk then some 2
    else none

/-- Cells that hold a packet's bytes or that no packet reaches. -/
def State.cellsUsed (s : State) : List Nat := s.inBuffer.flatMap (fun k => k.idxs.map (·.val)) ++ s.core.orphans.map (·.1)

/-- Cells named for a packet: one for each, all different, each free and in a bank in service (R93, R115). -/
def State.cellsOk (s : State) (pk : Packet) (cells : List CellIdx) : Bool :=
  cells.length = pk.cells && decide cells.Nodup
  && cells.all (fun i => s.fld bankState (bankOfCell i) = 0 && !s.cellsUsed.contains i.val)

/-- Replaces a packet in place. -/
def State.setPkt (s : State) (pk : Packet) : State :=
  { s with core := { s.core with pkts := s.core.pkts.map (fun k => if k.id = pk.id then pk else k) } }

/-- Moves a packet to the tail of the lists, as a packet that joins a list does (R96). -/
def State.movePkt (s : State) (pk : Packet) : State :=
  { s with core := { s.core with pkts := s.core.pkts.filter (fun k => decide (k.id ≠ pk.id)) ++ [pk] } }

/-- Removes a packet; its cells return to the pool that supplied them (R100). -/
def State.dropPkt (s : State) (id : Nat) : State :=
  { s with core := { s.core with pkts := s.core.pkts.filter (fun k => decide (k.id ≠ id)) } }

/-- A packet by its ID. -/
def State.pkt (s : State) (id : Nat) : Option Packet := s.core.pkts.find? (fun k => decide (k.id = id))

/-- An ordered packet that crossed the fabric and ends at this device meets the reorder unit first (R122, R133). -/
def State.needsReorder (s : State) (pk : Packet) : Bool :=
  match pk.hdr with
  | none => false
  | some h => pk.ingress ≠ 255 && s.role pk.ingress = roleFabric && h.dstDev = s.fabricId && h.cls ≠ 14

/-- Where a packet goes on admission: its virtual output queue list, or the reorder unit. -/
def State.placeOnAdmit (s : State) (pk : Packet) : Packet :=
  if s.needsReorder pk then { pk with loc := .reorderIn } else { pk with loc := .linked, linkedAt := s.now }

/-- A counter that keeps the largest value seen. -/
def State.countPeak (s : State) (id n : Nat) : State := s.count id (n - s.ctr id)

/-- Counters of an admission (R388 blocks 0x01, 0x03, 0x08): the time it was held, the pool, the tenant's charge and its peak. -/
def State.countAdmit (s : State) (pk : Packet) (pool : Nat) : State :=
  let s := if pk.ingress = 255 then s else s.count (ctrId 0x01 256 pk.ingress (32 + pk.group)) (s.now - pk.linkedAt)
  let s := if pk.tenant = 0 ∨ pk.queue = 0 then s
    else s.countPeak (ctrId 0x08 16 pk.tenant 2) (s.tenantCells pk.tenant + pk.cells)
  let s1 := if pk.ingress = 255 then s else s.count (ctrId 0x03 8 (pk.ingress * 16 + pk.acctQueue) pool) 1
  if pk.tenant = 0 then s1 else (s1.count (ctrId 0x08 16 pk.tenant 0) 1).count (ctrId 0x08 16 pk.tenant 1) pk.bytes

/-! ## Send records (R132) -/

/-- The flow of a fabric header (R132). -/
def hdrFlow (h : FabHdr) : FlowKey := ⟨h.srcDev, h.srcPort, h.dstDev, h.dstPort, h.cls⟩

/-- Tide bits [41:10], in units of 1,024 ns (Table 5-1, `Birth`). -/
def birthOf (tide : Nat) : Nat := tide / 1024 % 4294967296

/-- A packet that this device numbers: it entered the fabric here, in an ordered class (R121, R132). -/
def State.numbersHere (s : State) (pk : Packet) : Bool :=
  match pk.hdr with
  | none => false
  | some h => h.cls ≠ 14 && h.dstDev ≠ s.fabricId && (pk.ingress = 255 || s.role pk.ingress ≠ roleFabric)

/-- The send record of a flow. -/
def State.sendRec (s : State) (f : FlowKey) : Option SendRec := s.fabric.send.find? (fun r => decide (r.flow = f))

/-- A packet needs a new send record and none is free (R132). -/
def State.sendFull (s : State) (pk : Packet) : Bool :=
  match pk.hdr with
  | none => false
  | some h => s.numbersHere pk && (s.sendRec (hdrFlow h)).isNone && decide (262144 ≤ s.fabric.send.length)

/-- The packet enters the fabric here with a fabric header (R121). -/
def State.entersHere (s : State) (pk : Packet) : Bool := pk.hdr.isSome && (pk.ingress = 255 || s.role pk.ingress ≠ roleFabric)

/-- Stamps the birth of a packet that enters the fabric here, and numbers one of an ordered class in its flow, opening an incarnation if the flow has
no record (R120, R132). -/
def State.stamp (s : State) (pk : Packet) : State × Packet :=
  match pk.hdr with
  | none => (s, pk)
  | some h =>
    let birth := birthOf s.tide
    let h := { h with birth := birth, birthValid := s.tideLocked }
    if !s.entersHere pk then (s, pk)
    else if !s.numbersHere pk then (s, { pk with hdr := some h })
    else match s.sendRec (hdrFlow h) with
      | some r =>
        ({ s with fabric := { s.fabric with send := s.fabric.send.map (fun q =>
            if q.flow = r.flow then { q with nextSeq := (q.nextSeq + 1) % 16777216, lastAt := s.now } else q) } },
          { pk with hdr := some { h with seq := r.nextSeq, gen := r.gen } })
      | none =>
        ({ s with fabric := { s.fabric with send := s.fabric.send ++ [⟨hdrFlow h, birth % 256, 1, s.now⟩] } },
          { pk with hdr := some { h with seq := 0, gen := birth % 256 } })

/-! ## Outstanding requests (R146) and device IDs -/

/-- Entries of one of a port's two tables. -/
def State.reqTable (s : State) (p : Nat) (inbound : Bool) : List ReqEntry :=
  s.fabric.reqs.filter (fun r => decide (r.port = p) && r.inbound = inbound)

/-- A table of 16,384 entries is full (R146). -/
def State.tableFull (s : State) (p : Nat) (inbound : Bool) : Bool := 16384 ≤ (s.reqTable p inbound).length

/-- Adds an outstanding-request entry. -/
def State.addReq (s : State) (r : ReqEntry) : State :=
  { s with fabric := { s.fabric with reqs := s.fabric.reqs ++ [{ r with id := s.fabric.nextReq }], nextReq := s.fabric.nextReq + 1 } }

/-- Removes an entry by its ID. -/
def State.dropReq (s : State) (id : Nat) : State :=
  { s with fabric := { s.fabric with reqs := s.fabric.reqs.filter (fun r => decide (r.id ≠ id)) } }

/-! ## Tracked posted writes (R201, R204) -/

/-- The barrier record of a view (R205). -/
def State.cmView (s : State) (v : Nat) : CmView :=
  (s.cms.views.find? (fun c => decide (c.view = v))).getD ⟨v, 0, [], []⟩

/-- Writes the barrier record of a view. -/
def State.setCmView (s : State) (c : CmView) : State :=
  { s with cms := { s.cms with views := s.cms.views.filter (fun d => decide (d.view ≠ c.view)) ++ [c] } }

/-- Counts one discarded write against the barrier epoch in which it was issued. -/
def State.countDiscard (s : State) (v epoch : Nat) : State :=
  let c := s.cmView v
  let n := ((c.discards.find? (fun d => decide (d.1 = epoch))).map (·.2)).getD 0
  s.setCmView { c with discards := c.discards.filter (fun d => decide (d.1 ≠ epoch)) ++ [(epoch, n + 1)] }

/-- A posted memory write that enters on a view's host link (R201). -/
def State.fromView (s : State) (pk : Packet) : Bool :=
  pk.kind = .posted && pk.req = .memWrite && pk.ingress < 144 && s.role pk.ingress = roleHost

/-- Such a write is tracked from its arrival until it is visible or discarded (R204, R205). -/
def State.track (s : State) (pk : Packet) : State :=
  if s.fromView pk then
    let f := match pk.hdr with | some h => hdrFlow h | none => ⟨s.fabricId, pk.ingress, s.fabricId, pk.egress, pk.flowClass⟩
    let fn := match pk.dest with | .fn k l _ _ _ => (k, l) | _ => (16384, 0xFF)
    { s with cms := { s.cms with tracked := s.cms.tracked ++ [⟨pk.view, pk.id, (s.cmView pk.view).epoch, fn.1, fn.2, f, none⟩] } }
  else s

/-- A tracked write goes to a function of a device, or to one logical device of it (0xFF: to any). -/
def Tracked.goesTo (t : Tracked) (dev slot ld : Nat) : Bool :=
  decide (t.flow.dstDev = dev) && decide (t.slot = slot) && (ld = 0xFF || decide (t.ld = ld))

/-- A tracked write takes its number in its flow (R132, R204). -/
def State.numberTracked (s : State) (pk : Packet) : State :=
  let q := match pk.hdr with | some h => some h.seq | none => none
  { s with cms := { s.cms with tracked := s.cms.tracked.map (fun t => if t.id = pk.id then { t with seq := q } else t) } }

/-- A tracked write is discarded: counted against its epoch and tracked no more. -/
def State.discardTracked (s : State) (t : Tracked) : State :=
  { s.countDiscard t.view t.epoch with cms := { (s.countDiscard t.view t.epoch).cms with
      tracked := s.cms.tracked.filter (fun u => decide (u ≠ t)) } }

/-- Discards every tracked write of a list. -/
def State.discardAll (s : State) : List Tracked → State
  | [] => s
  | t :: ts => (s.discardTracked t).discardAll ts

/-- The function that a host's request goes to, by its selector and logical device: a home record here, or the view-side record of another
device's function. -/
def State.aimOf (s : State) (pk : Packet) : Option (Nat × Nat) :=
  match pk.dest with
  | .fn k l _ _ _ =>
    if pk.srcSlot ≠ 16384 then none
    else match pk.hdr with
      | some h => some (if h.dstDev = s.fabricId then homeSel k else h.dstDev * 65536 + k, l)
      | none => some (homeSel k, l)
  | _ => none

/-- The generation of the function that an entry concerns, as it stands now (R146, R148, R182). -/
def State.genNow (s : State) (slot far ld : Nat) : Nat :=
  if slot < 16384 then bGen (s.bindW (homeSel slot) (ldIndex ld)) else if far ≠ 0 then bGen (s.bindW far (ldIndex ld)) else 0

/-- A CXL.mem write has an answer to come and so an entry like a non-posted request (R146, R151; log entry 92). -/
def Packet.answered (pk : Packet) : Bool := pk.kind = .nonPosted || pk.req = .cxlRwD

/-- The inbound entry of a request admitted from an edge link (R146); a host's read of a peer's coordination memory is answered within 50 µs
(R150). -/
def State.inEntry (s : State) (pk : Packet) : ReqEntry :=
  let aim := (s.aimOf pk).getD (0, pk.srcLd)
  { id := 0, port := pk.ingress, inbound := true, tag := pk.tag, requester := pk.requester, origTag := pk.tag,
    origDev := s.fabricId, origPort := pk.ingress, req := pk.req,
    flow := match pk.hdr with | some h => hdrFlow h | none => ⟨s.fabricId, pk.ingress, s.fabricId, pk.egress, pk.flowClass⟩,
    view := pk.view, slot := pk.srcSlot, ld := aim.2, far := aim.1, gen := s.genNow pk.srcSlot aim.1 aim.2,
    due := if pk.cm then s.now + 50000 else 0, cm := pk.cm, closed := false }

/-- A request from an edge link that takes an entry of the port's table (R146). -/
def State.takesEntry (s : State) (pk : Packet) : Bool :=
  pk.answered && pk.ingress ≠ 255 && s.role pk.ingress ≠ roleFabric

/-- The packet leaves on an edge link of this device and takes an entry there (R146). -/
def State.takesOut (s : State) (pk : Packet) : Bool :=
  pk.answered && pk.egress < 144 && s.role pk.egress ≠ roleFabric

/-- Requests already admitted toward an edge port, whose places and tags at its table are spoken for. -/
def State.bound (s : State) (c : Nat) : List Packet :=
  s.core.pkts.filter (fun k => k.loc ≠ .ingress && k.loc ≠ .leaving && decide (k.egress = c) && k.answered)

/-- Non-posted requests that a port may have outstanding on its link: tags have 14 bits in FLIT mode and 10 otherwise (R146, R303; log entry 108). -/
def State.ownTags (s : State) (c : Nat) : Nat := if s.fld portFlitMode c = 1 then 16384 else 1024

/-- A request waits in its credit group while the table of the edge port it leaves by is full, and on a port that passes IDE while its tag repeats that of
an open entry (R102, R146, R322). -/
def State.outFull (s : State) (pk : Packet) : Bool :=
  let ks := s.bound pk.egress
  s.takesOut pk && (decide (s.ownTags pk.egress ≤ (s.reqTable pk.egress false).length + ks.length)
    || (s.fld portIdeDirect pk.egress = 1 && ((s.reqTable pk.egress false).any (fun r => decide (r.tag = pk.tag)) || ks.any (fun k => decide (k.tag = pk.tag)))))

/-- At most 256 broadcast packets are held at once; a further one waits at ingress (R98). -/
def State.broadcastFull (s : State) (pk : Packet) : Bool :=
  pk.req = .broadcast && decide (256 ≤ (s.inBuffer.filter (fun k => decide (k.req = .broadcast))).length)

/-! ### Lighter packets as they are sent (R166, R235, R241) -/

/-- A queue pair with nothing under way. -/
def newRun (q : Nat) : QpRun :=
  { qp := q, sqProducer := 0, rqProducer := 0, wrs := [], sent := [], sack := [], noRecv := none, timer := none, sendSeq := 0,
    rsack := [], lasts := [], msgs := [], unreported := 0, ackDue := none, ackNow := false, atomics := [], fences := [],
    placed := [], lost := 0 }

/-- The engine's record of a queue pair. -/
def State.run (s : State) (q : Nat) : QpRun := (s.lighter.runs.find? (fun r => decide (r.qp = q))).getD (newRun q)

/-- Writes the engine's record of a queue pair. -/
def State.setRun (s : State) (r : QpRun) : State :=
  { s with lighter := { s.lighter with runs := s.lighter.runs.filter (fun x => decide (x.qp ≠ r.qp)) ++ [r] } }

/-- Counter `n` of a tenant in block 0x0A (Table 16-1). DEDUCED order: 0 work requests, 1 packets, 2 retransmits, 3 duplicates, 4–11
NAKs by code 1–8, 12 doorbell errors, 13 context misses, 14 discards (log entry 14). -/
def State.ltCount (s : State) (t n k : Nat) : State := s.count (ctrId 0x0A 16 t n) k

/-- Request packet types (Table 9-11). -/
def ltIsReq (typ : Nat) : Bool := typ = 0 || typ = 1 || typ = 2 || typ = 3 || typ = 5 || typ = 7

/-- A packet of the Lighter engine is sent when it is admitted (R166): one that takes its sequence number becomes outstanding, and the timer starts if
none was (R235, R241). -/
def State.ltSent (s : State) (pk : Packet) : State :=
  match pk.body with
  | .lighter l =>
    if pk.ingress ≠ 255 then s
    else if !ltIsReq l.typ || l.retransmit then s.ltCount pk.tenant 1 1
    else
      let q := l.srcQp
      let s1 := s.ltCount pk.tenant 1 1
      let r := s1.run q
      let idle := decide (s1.fld qpNextPsn q = s1.fld qpBasePsn q)
      (s1.put qpNextPsn q ((l.psn + 1) % 16777216)).setRun { r with
        sent := r.sent ++ [⟨l.psn, l, s.now, false, false⟩], sendSeq := r.sendSeq + bit (l.last && (l.typ = 1 || l.typ = 2))
        timer := if idle then some (s.now + s1.fld qpRtoNs q) else r.timer }
  | _ => s

/-- Meters give a held packet red in this epoch (R168, `HeldEpochs`). -/
def State.seeReds (s : State) (reds : List Nat) : State :=
  { s with core := { s.core with redSeen := s.core.redSeen ++ reds.filter (fun m => !s.core.redSeen.contains m) } }

/-- One evaluation of a packet at ingress: the broadcast limit (R98), the outstanding-request tables and the send records (R132, R146), meters (R166), the
tenant's quota (R101), then the three sources (R100). On admission the meters debit, the credits of its cells go back (R106),
and it is numbered and placed; otherwise it stays held. -/
def State.evaluate (s : State) (pk : Packet) (cells : List CellIdx) : State :=
  let ms := s.metersOf pk
  let reds := ms.filter (fun m => decide (s.colour m pk.bytes = .red))
  let acct := pk.ingress * 16 + pk.acctQueue
  if s.groupHeld pk || s.broadcastFull pk || s.sendFull pk || (s.takesEntry pk && s.tableFull pk.ingress true) || s.outFull pk then s
  else if !reds.isEmpty then
    ((s.countReds pk.redBy reds).seeReds reds).setPkt
      { pk with redBy := pk.redBy ++ reds.filter (fun m => !pk.redBy.contains m), redNow := reds }
  else
    let pk := { pk with redNow := [] }
    if !s.quotaOk pk then ((if pk.ingress = 255 then s else s.count (ctrId 0x03 8 acct 4) 1)).setPkt pk
    else match s.poolFor pk with
      | none => ((if pk.ingress = 255 then s else s.count (ctrId 0x03 8 acct 3) 1)).setPkt pk
      | some pool =>
        if !s.cellsOk pk cells then s.setPkt pk
        else
          let yellow := ms.any (fun m => decide (s.colour m pk.bytes = .yellow))
          let s1 := (s.countAdmit pk pool).debits pk.bytes ms
          let st := s1.stamp { pk with pool := pool, idxs := cells, yellow := yellow }
          let s2 := (if s.takesEntry pk then st.1.addReq (s.inEntry pk) else st.1).numberTracked st.2
          let s3 := (s2.movePkt (s2.placeOnAdmit st.2)).ltSent st.2
          s3.returnCredits pk

/-- A new packet enters its ingress tile and is evaluated at once. -/
def State.enter (s : State) (pk : Packet) (cells : List CellIdx) : State :=
  let k := { pk with id := s.core.nextPkt, loc := .ingress, pool := 3, linkedAt := s.now }
  ((s.post pk).track k).evaluate k cells

/-! ## Packets of the internal agent (R100, R121, R122) -/

/-- The event of a torn-down pair or flow at an edge of this device (R137, R138, R349). -/
def pairEvent (f : FlowKey) (gen port action : Nat) : FEvent :=
  { grade := 2, checker := checkerId 0x16 port, cls := cPort, sel := port, syn0 := flowSyn f gen, syn1 := 0, action := action,
    key := 40 }

/-- A packet without an eligible member is counted at its route (R122, R147). -/
def State.countNoPath (s : State) (dev port : Nat) : State :=
  let s1 := s.addSat routeNoPathPackets (dev * 65536 + port) 1
  match s.routeGroup dev port with
  | some g => s1.count (ctrId 0x0B 4 g 3) 1
  | none => s1

/-- Its Grade 1 event against the route (R147). -/
def noPathEvent (pk : Packet) (dev port : Nat) : FEvent :=
  { grade := 1, checker := checkerId 0x16 0xFF, cls := cRoute, sel := dev * 65536 + port, syn0 := pk.requester * 65536 + pk.tag, syn1 := 0,
    action := if pk.kind = .nonPosted then 7 else 15, key := 0 }

/-- The header that a source edge fills (R121): from its port `p`, or 0xFF for the internal agent. -/
def State.edgeHdr (s : State) (p dev port cls tenant : Nat) : FabHdr :=
  ⟨dev, port, s.fabricId, p, 0, 0, 0, cls, 0, false, false, tenant⟩

/-- A packet that this device makes goes on to its queue: the lookup stage fixes its egress port and queue, and it waits at the agent until it is
admitted (R100). A contained pair refuses it (R138); without an eligible member it is discarded, counted and recorded (R147). -/
def State.originate (s : State) (pk : Packet) : State :=
  let ack := decide (pk.req = .lighterAck)
  match pk.hdr with
  | none => let q := s.queueFor pk.ingress pk.egress pk.flowClass ack; s.post { pk with queue := q, acctQueue := q }
  | some h =>
    if h.dstDev = s.fabricId then
      let q := s.queueFor pk.ingress h.dstPort pk.flowClass ack
      s.post { pk with egress := h.dstPort, queue := q, acctQueue := q }
    else if s.isContained (.pair h.srcDev h.srcPort h.dstDev h.dstPort) then s.fault (pairEvent (hdrFlow h) 0 h.srcPort 4)
    else
      let r := s.nextHop h.dstDev h.dstPort 0 pk.cells (isCxl pk.req)
      match r.2 with
      | none => (s.countNoPath h.dstDev h.dstPort).fault (noPathEvent pk h.dstDev h.dstPort)
      | some (p, l) =>
        let q := r.1.queueFor pk.ingress p pk.flowClass ack
        r.1.post { pk with egress := p, outLevel := l, queue := q, acctQueue := q }

/-- Sends a routed management message to the internal agent of a device (R122, R275). The sender chooses its `MsgId`: a free value. -/
def State.sendMsg (s : State) (dev : Nat) (m : FabricMsg) : State :=
  let pk := s.ownPkt .mgmtMsg (.msg m) (msgBytes (s.freeVal.toNat % 4294967296) m) 0 0
  s.draw.originate { pk with hdr := some (s.edgeHdr 255 dev 255 15 0) }

/-- Sends a link-local message on a fabric port: never routed, toward the partner's `FabricId` (R122, R275). -/
def State.sendLocal (s : State) (p : Nat) (m : FabricMsg) : State :=
  let pk := s.ownPkt .mgmtMsg (.msg m) (msgBytes (s.freeVal.toNat % 4294967296) m) 0 0
  s.draw.post { pk with egress := p, queue := 0, acctQueue := 0, hdr := some (s.edgeHdr 255 (s.fld qlPartnerDevice p) 255 15 0) }

/-- The answer that a request's type gets: a completion, S2M DRS or S2M NDR (R147, R151). -/
def answerType (r : ReqType) : ReqType :=
  match r with
  | .cxlReq => .cxlDrs
  | .cxlRwD => .cxlNdr
  | _ => .cpl

/-- A completion of the internal agent toward a port of this device or of another (R100, R146), with the original requester and tag. -/
def State.backTo (s : State) (dev port tc : Nat) (req : ReqType) (requester tag : Nat) (st : CplStatus) (data : List Byte) : State :=
  let pk := { s.ownPkt (answerType req) (.cpl st) (s.tlpHead 12 ++ data) tc 0 with requester := requester, tag := tag, dest := .host }
  s.draw.originate (if dev = s.fabricId then { pk with egress := port } else { pk with hdr := some (s.edgeHdr 255 dev port pk.flowClass 0) })

/-! ## Closing entries -/

/-- Error completion of a request at a requester: CXL.mem reads get poisoned data and writes Cmp (R151). -/
def errorFor (r : ReqType) (st : CplStatus) : CplStatus :=
  match r with
  | .cxlReq => .cxlPoison
  | .cxlRwD => .cxlCmp
  | _ => st

/-- The traffic class of an entry's request. -/
def ReqEntry.tc (r : ReqEntry) : Nat := r.flow.cls % 8

/-- Marks an entry as closed: its answer is on the way and no other is taken (R148). -/
def State.markClosed (s : State) (id : Nat) : State :=
  { s with fabric := { s.fabric with reqs := s.fabric.reqs.map (fun r => if r.id = id then { r with closed := true } else r) } }

/-- Closes a port's own request: the completion of the internal agent frees the entry when it passes the port (R146, R148). -/
def State.closeIn (s : State) (st : CplStatus) (r : ReqEntry) : State :=
  if r.closed then s
  else (s.markClosed r.id).backTo s.fabricId r.port r.tc r.req r.requester r.origTag (errorFor r.req st) []

/-- The open entry of a port's own request. -/
def State.openIn (s : State) (p requester tag : Nat) : Option ReqEntry :=
  (s.reqTable p true).find? (fun r => decide (r.tag = tag) && decide (r.requester = requester) && !r.closed)

/-- Closes an entry and returns an error completion to its requester: a port's own request on its link; one sent onto the link through the entry of the
port it came from, or across the fabric (R3, R146, R147). -/
def State.closeReq (s : State) (st : CplStatus) (r : ReqEntry) : State :=
  if r.inbound then s.closeIn st r
  else
    let s1 := s.dropReq r.id
    if r.origDev = s.fabricId then
      match s1.openIn r.origPort r.requester r.origTag with
      | some q => s1.closeIn st q
      | none => s1
    else s1.backTo r.origDev r.origPort r.tc r.req r.requester r.origTag (errorFor r.req st) []

/-- Closes a list of entries in order. -/
def State.closeReqs (s : State) (st : CplStatus) : List ReqEntry → State
  | [] => s
  | r :: rs => (s.closeReq st r).closeReqs st rs

/-- The entries that no answer is on the way to. -/
def State.openReqs (s : State) : List ReqEntry := s.fabric.reqs.filter (fun r => !r.closed)

/-- Answers a request that a view's host made to the device itself: its entry of the host port, and the completion (R146, R307). -/
def State.hostReply (s : State) (v tag : Nat) (req : ReqType) (st : CplStatus) (data : List Byte) : State :=
  let p := s.portOfView v
  let e : ReqEntry := { id := 0, port := p, inbound := true, tag := tag, requester := 0, origTag := tag, origDev := s.fabricId, origPort := p, req := req
                        flow := ⟨s.fabricId, p, s.fabricId, 255, 0⟩, view := v, slot := 16384, ld := 0xFF, far := 0, gen := 0, due := 0, cm := false
                        closed := true }
  (s.addReq e).backTo s.fabricId p 0 req 0 tag st data

/-- Key of a configuration register of a function of a view. -/
def cfgKey (v fn reg : Nat) : Nat := (v * 65536 + fn) * 1024 + reg

/-- Function number of virtual port k in configuration space, beside the view's own functions. -/
def vportFn (k : Nat) : Nat := 16384 + k

/-- A configuration register: what the host last wrote, else its value before any write. -/
def State.cfgReg (s : State) (v fn reg : Nat) : Nat :=
  (tget none s.cfg (cfgKey v fn reg)).getD (Config.cfgReset (cfgKey 0 fn reg)).toNat

/-- The host has set P2P Request Redirect, bit 2 of the ACS Control register (R186). -/
def State.p2pRedirect (s : State) (v k : Nat) : Bool := s.cfgReg v (vportFn k) (Config.capReg 0) / 4 % 2 = 1

end Sys2Proof.Machine
end

