-- ==== Sys2Proof/Machine/Gate.lean ====
section
/-! DEFINITION. The gate in front of a function or a coordination-memory window (R187, R188, R191). -/

namespace Sys2Proof.Machine

/-- Who asks, for the gate: tenant, the view and device it entered from (view 0x7F: none), the requesting function's slot
(16,384: none) and logical device. -/
structure Asker where
  tenant : Nat
  dev : Nat
  view : Nat
  slot : Nat
  ld : Nat
  deriving DecidableEq, Repr

/-- What is asked: the request type, BAR, first byte and length. -/
structure Access where
  req : ReqType
  bar : Nat
  offset : Nat
  len : Nat
  deriving DecidableEq, Repr

/-- The gate's decision (R188). -/
inductive Gate where
  | pass
  /-- Step 1: the target is contained. -/
  | contained
  /-- Step 2: suspension. -/
  | suspended
  /-- An I/O request (Table 7-8). -/
  | ioRefused
  /-- A completion without its entry (R148). -/
  | late
  /-- Step 6. -/
  | refused
  deriving DecidableEq, Repr

/-- A tenant is suspended (Table 7-1, state 2). -/
def State.suspended (s : State) (t : Nat) : Bool := s.fld tenState t = 2

/-- A requester matches a gate entry (R188). -/
def askerMatches (w0 w1 : Word) (a : Asker) : Bool :=
  let v := bitsOf w1 0 14
  let k := bitsOf w0 58 2
  if k = 0 then decide (a.tenant = v)
  else if k = 1 then decide (a.view = v) && decide (a.dev = bitsOf w1 44 12) && decide (a.view ≠ 0x7F) && decide (16384 ≤ a.slot)
  else if k = 2 then decide (a.slot = v) && decide (a.dev = bitsOf w1 44 12)
  else false

/-- An entry covers the first and the last byte of an access in one BAR (R187, R188). -/
def entryCovers (w0 w1 : Word) (x : Access) : Bool :=
  let bar := bitsOf w1 60 4
  let start := bitsOf w0 28 28
  let count := bitsOf w0 0 28
  let first := x.offset / 4096
  let last := (x.offset + x.len - 1) / 4096
  (bar = 15 && start = 0 && count = 0)
  || (bar = x.bar && start ≤ first && (count = 0 || last < start + count))

/-- An entry permits a request type (Table 7-7). -/
def entryPermits (w0 : Word) (r : ReqType) : Bool :=
  match r with
  | .memRead => bitsOf w0 60 1 = 1
  | .memWrite => bitsOf w0 61 1 = 1
  | .atomicOp => bitsOf w0 62 1 = 1
  | _ => false

/-- A single valid entry lets an access pass (R188 step 4). -/
def entryPasses (w0 w1 : Word) (a : Asker) (x : Access) : Bool :=
  bitsOf w0 63 1 = 1 && askerMatches w0 w1 a && entryCovers w0 w1 x && entryPermits w0 x.req

/-- Some entry of a gate lets an access pass; entry e stands in words `base` + 2e and `base` + 2e + 1. -/
def State.gateEntries (s : State) (cls sel base : Nat) (a : Asker) (x : Access) : Bool :=
  (List.range 8).any (fun e => entryPasses (s.effWord cls sel (base + 2 * e)) (s.effWord cls sel (base + 2 * e + 1)) a x)

/-- The requester's tenant is suspended, or the target's tenant is and the requester is not tenant 0 (R188 step 2). -/
def State.suspendedFor (s : State) (a : Asker) (target : Nat) : Bool :=
  (a.tenant ≠ 0 && s.suspended a.tenant) || (target ≠ 0 && s.suspended target && a.tenant ≠ 0)

/-- The requester is the host of the view that holds a binding word, or tenant 0 (Table 7-8). -/
def fromHolder (w : Word) (a : Asker) : Bool :=
  a.tenant = 0 || (bBound w && a.view = bView w && a.dev = bViewDev w && decide (16384 ≤ a.slot))

/-- The first and the last byte of an access lie in one BAR of the function: its extent is what enumeration found, and one that enumeration did not
give bounds nothing (R187, R188; log entry 94). -/
def State.inBar (s : State) (slot : Nat) (x : Access) : Bool :=
  let n := tget 0 s.tenancy.bars (slot * 8 + x.bar)
  n = 0 || decide (x.offset + x.len ≤ n)

/-- The gate of function slot `slot`, logical device `ld`, decides a request (R188). -/
def State.fnGate (s : State) (slot ld : Nat) (a : Asker) (x : Access) : Gate :=
  let sel := homeSel slot
  let w := s.bindW sel (ldIndex ld)
  if s.fnContained slot ld then .contained
  else if s.suspendedFor a (if bBound w then bTenant w else 0) then .suspended
  else match x.req with
    | .config | .idMessage => if fromHolder w a then .pass else .refused
    | .io => .ioRefused
    | .cxlReq | .cxlRwD =>
      if bBound w && a.view = bView w && a.dev = bViewDev w && decide (16384 ≤ a.slot) then .pass else .refused
    | .cpl | .cxlNdr | .cxlDrs => .late
    | _ => if s.inBar slot x && (s.gateEntries cFunction sel 18 a x || a.tenant = 0) then .pass else .refused

/-- The number that a gate record's syndrome gives a request type (Table 14-3 leaves the codes open: DESIGN CHOICE, log
entry 13). -/
def reqCode : ReqType → Nat
  | .memRead => 0 | .memWrite => 1 | .atomicOp => 2 | .config => 3 | .idMessage => 4 | .io => 5 | .cxlReq => 6 | .cxlRwD => 7
  | .cpl => 8 | .cxlNdr => 9 | .cxlDrs => 10 | .lighterData => 11 | .lighterResp => 12 | .lighterAck => 13 | .mgmtMsg => 14
  | .broadcast => 15

/-- Records a gate refusal against its target and counts it for the tenant (R188 step 6, R191). `inst` is the gate slot, or 16,384
plus the window. -/
def State.gateRecord (s : State) (cls sel inst : Nat) (a : Asker) (x : Access) : State :=
  let who := if a.slot < 16384 then a.slot % 2048 else a.view
  let syn := a.tenant + who * 65536 + reqCode x.req * 268435456 + x.len % 16777216 * 1099511627776
  let s1 := s.addSat tenGateRefusals a.tenant 1
  (s1.count (ctrId 0x08 16 a.tenant 3) 1).fault
    { grade := 0, checker := checkerId 0x15 inst, cls := cls, sel := sel, syn0 := syn, syn1 := x.offset, action := 7, key := 13 }

/-- Returns a completion for a packet to its requester: through the entry of the port it entered on, or across the fabric. A request that was never
admitted takes its entry with the answer. -/
def State.answer (s : State) (pk : Packet) (st : CplStatus) : State :=
  let src := match pk.hdr with | some h => (h.srcDev, h.srcPort) | none => (s.fabricId, pk.ingress)
  if src.1 ≠ s.fabricId ∨ src.2 = 255 then s.backTo src.1 src.2 pk.tc pk.req pk.requester pk.tag (errorFor pk.req st) []
  else match s.openIn src.2 pk.requester pk.tag with
    | some r => s.closeIn st r
    | none =>
      (s.addReq { s.inEntry pk with port := src.2, closed := true }).backTo src.1 src.2 pk.tc pk.req pk.requester pk.tag (errorFor pk.req st) []

/-- A posted write from a host of another device was delivered, or discarded here: its source hears of it with the next delivery notice of its
flow, at most one in 1 µs (R204, R205; log entry 95). -/
def State.notice (s : State) (h : FabHdr) : State :=
  let m : TeardownMsg := ⟨h.srcPort, h.dstPort, h.cls, h.gen⟩
  let old := s.cms.notices.find? (fun n => decide (n.dev = h.srcDev) && decide (n.msg = m))
  let due := match old with | some n => n.due | none => s.now + 1000
  { s with cms := { s.cms with
      notices := s.cms.notices.filter (fun n => !(decide (n.dev = h.srcDev) && decide (n.msg = m))) ++ [⟨h.srcDev, m, h.seq, due⟩] } }

/-- A request that cannot go on: a non-posted one gets `st`; a CXL.mem write gets Cmp; a posted one is discarded (R147, R151). A write of a view
counts against its epoch, whether it had been admitted or not (R205). -/
def State.turnAway (s : State) (pk : Packet) (st : CplStatus) : State :=
  if pk.answered then s.answer pk st
  else if pk.id = s.core.nextPkt then (if s.fromView pk then s.countDiscard pk.view (s.cmView pk.view).epoch else s)
  else
    let s1 := s.discardAll (s.cms.tracked.filter (fun t => decide (t.id = pk.id)))
    match pk.hdr with
    | some h => if h.dstDev = s.fabricId ∧ h.srcDev ≠ s.fabricId ∧ pk.req = .memWrite then s1.notice h else s1
    | none => s1

/-- The same where a discarded posted request is counted at its tenant (R147, R184). -/
def State.refuse (s : State) (pk : Packet) (st : CplStatus) : State :=
  (if pk.answered then s else s.count (ctrId 0x08 16 pk.tenant 3) 1).turnAway pk st

/-- AER of the requester's own port: its view's upstream port, or the virtual port of the requesting function in the view that holds it; on another
device where the view stands there (R188 step 6, R191). -/
def State.aerRequester (s : State) (a : Asker) (e : AerError) : State :=
  if a.dev ≠ s.fabricId then s.emit (.aerFar a.dev a.view a.slot a.ld e)
  else if a.slot < 16384 then
    let w := s.bindW (homeSel a.slot) (ldIndex a.ld)
    if !bBound w || !bMatched w then s
    else if bViewDev w = s.fabricId then s.emit (.aer (bView w) (bVport w) e)
    else s.emit (.aerFar (bViewDev w) 0x7F a.slot a.ld e)
  else if a.view < 96 then s.emit (.aer a.view 0 e) else s

/-- A gate's refusal of a packet to a function: the response, the counts and the record (R188, R191). -/
def State.gateRefuse (s : State) (pk : Packet) (slot : Nat) (g : Gate) (a : Asker) (x : Access) : State :=
  let sel := homeSel slot
  match g with
  | .pass => s
  | .contained =>
    (if pk.answered then s.count (ctrId 0x06 8 slot 4) 1 else s).refuse pk .completerAbort
  | .suspended =>
    let ld := match pk.dest with | .fn _ ld _ _ _ => ld | _ => 0xFF
    let t := if a.tenant ≠ 0 && s.suspended a.tenant then a.tenant else bTenant (s.bindW sel (ldIndex ld))
    let s1 := ((s.addSat tenSuspendRefusals t 1).count (ctrId 0x06 8 slot 5) 1).turnAway pk .unsupportedRequest
    if !pk.answered then s1.aerRequester a .unsupportedRequest else s1
  | .ioRefused => s.turnAway pk .unsupportedRequest
  | .late => (s.addSat fnLateCompletions sel 1).count (ctrId 0x06 8 slot 3) 1
  | .refused =>
    let s1 := ((s.addSat fnGateRefusals sel 1).count (ctrId 0x06 8 slot 2) 1).turnAway pk .unsupportedRequest
    let s2 := if !pk.answered then s1.aerRequester a .unsupportedRequest else s1
    s2.gateRecord cFunction sel slot a x

end Sys2Proof.Machine
end

