-- ==== Sys2Proof/Machine/Paths.lean ====
section
/-! DEFINITION. Withdrawal, restoration and re-steering of fabric paths (R139 to R145), responses without a path (R147), and the
closing of outstanding requests (R3, R146, R185). -/

namespace Sys2Proof.Machine

/-- Ports in the fabric role whose link is Active: the fabric neighbours. -/
def State.neighbours (s : State) : List Nat :=
  (s.selsOf cPort).filter (fun p => p < 144 && s.fabricUp p && decide (s.lane0 p = p) && s.fld qlSelfLoop p = 0)

/-- Sends a message on each port of a list. -/
def State.sendAll (s : State) (m : FabricMsg) : List Nat → State
  | [] => s
  | p :: ps => (s.sendLocal p m).sendAll m ps

/-- Sends withdrawals or restores to every fabric neighbour, at most 1,024 to a message (R140, Table 10-8). -/
def State.sendWithdraw (s : State) (es : List WithdrawEntry) : State :=
  (pieces 1024 (es.length + 1) es).foldl (fun s e => s.sendAll (.withdraw e) s.neighbours) s

/-- The valid routes of this device, as selectors. -/
def State.validRoutes (s : State) : List Nat := (s.selsOf cRoute).filter (fun r => s.fld routeValid r = 1)

/-- The devices that valid routes name, each once. -/
def State.routedDevs (s : State) : List Nat := (s.validRoutes.map (fun r => r / 65536)).eraseDups

/-- A primary member is live for device D at arrival level L (given as L + 1), in some group that a valid route (D, x) names
(R140). -/
def State.primaryFor (s : State) (dev arr : Nat) : Bool :=
  (s.validRoutes.filter (fun r => decide (r / 65536 = dev))).any (fun r =>
    match s.routeGroup dev (r % 65536) with
    | none => false
    | some g => (s.membersOf g).any (fun m =>
        s.mLive g m && !s.mBackup g m && decide (arr ≤ s.mLevel g m) && !s.mExcluded g dev m))

/-- Every (device, arrival level 0–3) with a primary member, the level given plus one. -/
def State.primaries (s : State) : List (Nat × Nat) :=
  s.routedDevs.flatMap (fun d => ([1, 2, 3, 4].filter (fun a => s.primaryFor d a)).map (fun a => (d, a)))

/-- After a loss: withdraws every (D, L) that had a primary member before and has none now (R140). -/
def State.withdrawLost (s : State) (before : List (Nat × Nat)) : State :=
  let lost := before.filter (fun e => !s.primaryFor e.1 e.2)
  let s1 := { s with fabric := { s.fabric with withdrawn := s.fabric.withdrawn ++ lost.filter (fun e => !s.fabric.withdrawn.contains e) } }
  s1.sendWithdraw (lost.map (fun e => ⟨e.1, e.2 - 1, false⟩))

/-- After a return: restores every outstanding withdrawal for which the check finds a primary member again (R145). -/
def State.restoreFound (s : State) : State :=
  let back := s.fabric.withdrawn.filter (fun e => s.primaryFor e.1 e.2)
  let s1 := { s with fabric := { s.fabric with withdrawn := s.fabric.withdrawn.filter (fun e => !back.contains e) } }
  s1.sendWithdraw (back.map (fun e => ⟨e.1, e.2 - 1, true⟩))

/-- A packet without an eligible member: answered or discarded, counted at its route and recorded at Grade 1 (R122, R147). -/
def State.noPath (s : State) (pk : Packet) (dev port : Nat) : State :=
  ((s.countNoPath dev port).refuse pk .unsupportedRequest).fault (noPathEvent pk dev port)

/-- Chooses again for one packet queued toward a failed port (R140): a packet in the buffer moves to the list of its new egress port, and one that is
held at ingress keeps its place (R102). Without an eligible member Table 5-10 applies. -/
def State.resteer (s : State) (id : Nat) : State :=
  match s.pkt id with
  | none => s
  | some pk =>
    match pk.hdr with
    | none => s
    | some h =>
      let r := s.nextHop h.dstDev h.dstPort pk.arr pk.cells (isCxl pk.req)
      match r.2 with
      | some (p, l) =>
        let q := r.1.queueFor pk.ingress p pk.flowClass (pk.req = .lighterAck)
        let k := { pk with egress := p, queue := q, outLevel := l }
        if pk.loc = .ingress then r.1.setPkt { k with acctQueue := q } else r.1.movePkt { k with linkedAt := s.now }
      | none => (r.1.dropPkt id).noPath pk h.dstDev h.dstPort

/-- Re-steers a list of packets in order. -/
def State.resteers (s : State) : List Nat → State
  | [] => s
  | i :: is => (s.resteer i).resteers is

/-- Packets queued toward a port, in the order of its lists. -/
def State.queuedTo (s : State) (p : Nat) : List Nat :=
  (s.core.pkts.filter (fun k => decide (k.egress = p) && (k.loc = .linked || k.loc = .ingress))).map (·.id)

/-- The primary members as they stood while a port's link carried packets: a failure has already moved the link on (R139, R140). -/
def State.primariesBefore (s : State) (p : Nat) : List (Nat × Nat) :=
  if s.quay.any (fun (r : QlPort) => decide (r.port = p) && decide (r.failure ≠ 0)) then (s.setQl p qlActive).primaries else s.primaries

/-- Withdraws a port's paths: its members are live no more, queued packets are re-steered, and lost primaries are withdrawn toward
the neighbours (R140). Without effect on a port already withdrawn. -/
def State.withdrawPort (s : State) (p : Nat) : State :=
  if s.fabric.failed.contains p then
    { s with fabric := { s.fabric with restoring := s.fabric.restoring.filter (fun e => decide (e.1 ≠ p)) } }
  else
    let before := s.primariesBefore p
    let s1 := { s with fabric := { s.fabric with
        failed := s.fabric.failed ++ [p], restoring := s.fabric.restoring.filter (fun e => decide (e.1 ≠ p)) } }
    (s1.withdrawLost before).resteers (s1.queuedTo p)

/-- Groups that name a port. -/
def State.groupsWith (s : State) (p : Nat) : List Nat :=
  (s.selsOf cPathGroup).filter (fun g => (s.membersOf g).any (fun m => decide (s.mPort g m = p)))

/-- The local level of a member: cells queued toward its port at its hop level (R129). -/
def State.localLevel (s : State) (p l : Nat) : Nat :=
  min 15 ((((s.core.pkts.filter (fun k => k.loc = .linked && decide (k.egress = p) && decide (k.outLevel = l))).map (·.cells)).sum) / 4096)

/-- The congestion level of a member (R129). -/
def State.levelOf (s : State) (g m : Nat) : Nat :=
  let p := s.mPort g m
  if s.fld qlDegraded p = 1 then 15
  else max (s.localLevel p (s.mLevel g m)) (tget 0 s.fabric.remoteLevel (p * 4 + s.mLevel g m))

/-- Levels of the members of a list of groups that satisfy `c`. -/
def State.levelsOf (s : State) (gs : List Nat) (c : Nat → Nat → Bool) : List (Nat × Nat) → List (Nat × Nat)
  | t => gs.foldl (fun t g => ((s.membersOf g).filter (c g)).foldl (fun t m => tput 0 t (g * 64 + m) (s.levelOf g m)) t) t

/-- Reinstates a port's paths at once (R145). A member that becomes live again takes its local level at once, and remote level 0 (R131). -/
def State.reinstatePort (s : State) (p : Nat) : State :=
  let s1 := { s with fabric := { s.fabric with
      failed := s.fabric.failed.filter (fun q => decide (q ≠ p)),
      restoring := s.fabric.restoring.filter (fun e => decide (e.1 ≠ p)),
      remoteLevel := s.fabric.remoteLevel.filter (fun e => decide (e.1 / 4 ≠ p)) } }
  let s2 := { s1 with fabric := { s1.fabric with
      congestion := s1.levelsOf (s1.groupsWith p) (fun g m => decide (s1.mPort g m = p)) s1.fabric.congestion } }
  s2.restoreFound

/-- A link that a failure took from service has returned: the port rejoins after `AutoRestoreMs` of running; 0 never (R136,
R145). -/
def State.startRestore (s : State) (p : Nat) : State :=
  let ms := s.fld devAutoRestoreMs 0
  if s.fabric.failed.contains p && decide (ms ≠ 0) then
    { s with fabric := { s.fabric with
        restoring := s.fabric.restoring.filter (fun e => decide (e.1 ≠ p)) ++ [(p, s.now + ms * 1000000)] } }
  else s

/-! ## Closing outstanding requests -/

/-- A CXL.mem write lost with a link: the Grade 2 record names its binding, by the home record and the logical device (R151). -/
def State.recordLost (s : State) : List ReqEntry → State
  | [] => s
  | r :: rs =>
    (if r.req = .cxlRwD ∧ r.slot < 16384 then
      s.fault { grade := 2, checker := checkerId 0x16 r.port, cls := cFunction, sel := homeSel r.slot, syn0 := r.ld, syn1 := 0, action := 7, key := 0 }
     else s).recordLost rs

/-- A single-attached edge link goes down: every request sent onto it is closed with Completer Abort, and the entries of its own
requests are freed, their completions to be discarded (R3, R147, R148). -/
def State.closeLink (s : State) (p : Nat) : State :=
  let sent := s.reqTable p false
  let own := s.reqTable p true
  let s1 := (s.closeReqs .completerAbort sent).recordLost sent
  own.foldl (fun s r => s.dropReq r.id) s1

/-- Open entries that the device holds for a function: requests it sent and requests sent to it; `ld` 0xFF names all of its logical
devices (R62, R146). -/
def State.fnReqs (s : State) (slot ld : Nat) : List ReqEntry :=
  s.openReqs.filter (fun r => decide (r.slot = slot) && (ld = 0xFF || decide (r.ld = ld)))

/-- Closes a function's entries with Completer Abort. -/
def State.closeFn (s : State) (slot ld : Nat) : State := s.closeReqs .completerAbort (s.fnReqs slot ld)

/-- Increments the generation of a binding word (R182). -/
def State.bumpGen (s : State) (sel i : Nat) : State :=
  let f := fnGeneration.up i
  s.put f sel ((s.base f sel + 1) % 256)

/-- Increments the generation of every bound word of a function object. -/
def State.bumpGens (s : State) (sel : Nat) : State := (s.boundOf sel).foldl (fun s i => s.bumpGen sel i) s

/-- DPC holds a virtual port (R316). -/
def State.inDpc (s : State) (v k : Nat) : Bool := s.pcie.dpcs.any (fun d => decide (d.view = v) && decide (d.k = k))

/-- The slot of a virtual port after a change behind it (R315): presence brings the data link layer with it where the device port has it, or is another
device's (DEDUCED, log entry 109); DPC shows the link down. -/
def State.vslotAfter (s : State) (v k : Nat) (kind : PresenceKind) : VSlot :=
  let x := tget .empty s.pcie.vslots (v * 256 + k)
  let link := match s.vportBinding v k with
    | some e => (!isHome e.1 || decide (s.fld portDllActive (s.base fnPort e.1) = 1)) && !s.inDpc v k
    | none => false
  let shown := fun (p a : Bool) => { x with
    present := p, active := a, presenceChanged := x.presenceChanged || p != x.present, activeChanged := x.activeChanged || a != x.active }
  match kind with
  | .presence b => shown b (b && link)
  | .dll b => shown x.present (b && x.present && !s.inDpc v k)
  | .attention => { x with attention := true }
  | .intx _ => x

/-- A change reaches a virtual downstream port: its slot shows it, and the host hears of it (R149, R315). -/
def State.slotEvent (s : State) (v k : Nat) (kind : PresenceKind) : State :=
  ({ s with pcie := { s.pcie with vslots := tput .empty s.pcie.vslots (v * 256 + k) (s.vslotAfter v k kind) } } : State).emit (.hotplug v k kind)

/-- Tells the view of one binding word of a change of the function: a posted message of flow class 0 from the device port to the host port of the
view, behind the TC0 packets that went before it (R149). Presence waits for `State` 1 (R315). A view without a host port takes the change at once. -/
def State.tellView (s : State) (sel i : Nat) (kind : PresenceKind) : State :=
  let w := s.bindW sel i
  let p := s.base fnPort sel
  let here := bViewDev w = s.fabricId
  if !bBound w || !bMatched w || (kind = .presence true && decide (s.base fnState sel ≠ 1)) then s
  else if h : bView w < 96 then
    if here ∧ s.portOfView (bView w) = 255 then s.slotEvent (bView w) (bVport w) kind
    else
      let pk := { s.ownPkt .idMessage (.presence ⟨⟨bView w, h⟩, bVport w, kind⟩) (s.tlpHead 16) 0 0 with ingress := p, dest := .host }
      s.draw.originate (if here then { pk with egress := s.portOfView (bView w) }
        else { pk with hdr := some (s.edgeHdr p (bViewDev w) (tget 255 s.tenancy.bindPort (sel % 65536 * 32 + i)) 0 0) })
  else s

/-- Tells every view that holds the function (R149). -/
def State.tellViews (s : State) (slot : Nat) (kind : PresenceKind) : State :=
  (List.range 17).foldl (fun s i => s.tellView (homeSel slot) i kind) s

/-- Functions below a device port that have been enumerated: the slots whose `Port` names it and whose `State` is not empty. -/
def State.fnsBelow (s : State) (p : Nat) : List Nat :=
  ((s.selsOf cFunction).filter (fun f => isHome f && decide (s.base fnState f ≠ 0) && decide (s.base fnPort f = p))).map
    (fun f => f % 65536)

/-! ## Packets whose edge port is gone (R118, R193, R353) -/

/-- A completion that came too late is counted at its function: of this device, or of the device that sent it (R148). -/
def State.countLate (s : State) (dev slot : Nat) : State :=
  if slot < 16384 then
    (if dev = s.fabricId then (s.addSat fnLateCompletions (homeSel slot) 1).count (ctrId 0x06 8 slot 3) 1
     else s.addSat fnLateCompletions (dev * 65536 + slot) 1)
  else s

/-- The device that a packet came from across the fabric, else this one. -/
def Packet.fromDev (pk : Packet) (own : Nat) : Nat := match pk.hdr with | some h => h.srcDev | none => own

/-- A packet that will not leave by its edge port: a request gets Completer Abort, or is discarded and counted; a completion is discarded and
counted as late (R3, R148, R152, R193). One that was already leaving is lost with its link, and its entry there has been closed. -/
def State.failPkt (s : State) (pk : Packet) : State :=
  let s1 := s.dropPkt pk.id
  if pk.kind = .completion then s1.countLate (pk.fromDev s.fabricId) pk.srcSlot
  else if pk.loc = .leaving && pk.answered then s1 else s1.refuse pk .completerAbort

/-- Fails a list of packets in order. -/
def State.failPkts (s : State) : List Packet → State
  | [] => s
  | k :: ks => (s.failPkt k).failPkts ks

/-- The packet that an edge port is sending, or holds to send again, is lost with the link (R321). -/
def State.failLeaving (s : State) (p : Nat) : State :=
  let s1 := { s with
    core := { s.core with egress := s.core.egress.filter (fun e => decide (e.port ≠ p)) }
    pcie := { s.pcie with nullified := s.pcie.nullified.filter (fun e => decide (e.1 ≠ p)) } }
  s1.failPkts (s.core.pkts.filter (fun k => k.loc = .leaving && decide (k.egress = p) && k.dests.isEmpty))

/-- Every packet in the queues of an edge port is turned away (R118). -/
def State.failQueued (s : State) (p : Nat) : State :=
  let s1 := s.failLeaving p
  s1.failPkts (s1.core.pkts.filter (fun k => k.loc = .linked && decide (k.egress = p) && k.dests.isEmpty))

/-- Nothing goes out on an edge port: it is contained or out of service, or a host port without its link (R193, R353). -/
def State.edgeDead (s : State) (p : Nat) : Bool :=
  (s.role p = roleHost && (!(s.edgeLinkUp p || s.fld portLinkState p = 5) || s.isContained (.port p) || s.lanes.outOfService.contains p))
  || (s.role p = roleDevice && (s.isContained (.port p) || s.lanes.outOfService.contains p))

/-! ## Packets that enter at an edge (R100, R121, R138, R316) -/

/-- DPC contains a function of another device at its view side (R316). -/
def State.farContained (s : State) (pk : Packet) (h : FabHdr) : Bool :=
  match pk.dest with
  | .fn slot ld _ _ _ => s.isContained (.obj cFunction (h.dstDev * 65536 + slot)) || s.isContained (.logical (h.dstDev * 65536 + slot) ld)
  | _ => false

/-- A resolved packet that enters at an edge goes on: its pair must not be contained (R138), and its next hop, queue and admission
follow (R100, R122, R155). One that is turned away gives its credits back (R106). -/
def State.goOn (s : State) (pk : Packet) (cells : List CellIdx) : State :=
  match pk.hdr with
  | some h =>
    if s.farContained pk h then (s.refuse pk .completerAbort).returnCredits pk
    else if s.isContained (.pair h.srcDev h.srcPort h.dstDev h.dstPort) then
      ((s.refuse pk .unsupportedRequest).returnCredits pk).fault (pairEvent (hdrFlow h) 0 h.srcPort 4)
    else
      let r := s.nextHop h.dstDev h.dstPort 0 pk.cells (isCxl pk.req)
      match r.2 with
      | none => (s.noPath pk h.dstDev h.dstPort).returnCredits pk
      | some (q, l) =>
        let queue := r.1.queueFor pk.ingress q pk.flowClass (pk.req = .lighterAck)
        r.1.enter { pk with egress := q, queue := queue, acctQueue := queue, outLevel := l } cells
  | none =>
    let queue := s.queueFor pk.ingress pk.egress pk.flowClass false
    s.enter { pk with queue := queue, acctQueue := queue } cells

end Sys2Proof.Machine
end

