-- ==== Sys2Proof/Machine/Allot.lean ====
section
/-! DEFINITION. The answer of an object instruction (R40, R54, R57), tenant resources (R175 to R178), and the level-1 checks that
every object instruction shares (R43). -/

namespace Sys2Proof.Machine

/-- What an object instruction gives: its status, the state it leaves, the word for `Dst` if it writes one, the objects whose version
its commit increments (R44), and the tenant at which a NORES counts (Table 16-1, block 0x08). -/
structure OpRes where
  status : Status
  st : State
  dst : Option Word
  changed : List Nat
  blame : Option Nat
  deriving DecidableEq, Repr

/-- An instruction that ends with a status other than OK and leaves the state as it was. -/
def opBad (s : State) (st : Status) : OpRes := ⟨st, s, none, [], none⟩

/-- An instruction that ends OK, changes objects and writes no `Dst`. -/
def opOk (s : State) (changed : List Nat) : OpRes := ⟨.ok, s, none, changed, none⟩

/-- An instruction that ends OK and writes `Dst`. -/
def opDst (s : State) (changed : List Nat) (w : Word) : OpRes := ⟨.ok, s, some w, changed, none⟩

/-! ## Tenant resources (Table 7-3) -/

/-- The tenant that owns a port (R177): of a host port the `OwnerTenant` of its view, of a device port the tenant bound at slot offset 0;
0 where nobody does. -/
def State.portOwner (s : State) (p : Nat) : Nat :=
  if s.role p = roleHost then (match s.viewOfPort (s.lane0 p) with | some v => s.fld viewOwnerTenant v | none => 0)
  else if s.role p = roleDevice ∧ 0 < s.fld portSlotCount p then
    (let w := s.bindW (homeSel (s.fld portSlotBase p)) 0
     if bBound w then bTenant w else 0)
  else 0

/-- Distinct shared meters that the ports of a tenant name (Table 7-3, resource 4). -/
def State.sharedMeters (s : State) (t : Nat) : List Nat :=
  (((s.selsOf cPort).filter (fun p => decide (s.fld portSharedMeter p ≠ 0) && decide (s.portOwner p = t))).map
    (fun p => s.fld portSharedMeter p)).eraseDups

/-- What a tenant holds of a resource; buffer cells and shared meters are counted where they are (R101, R177). -/
def State.useOf (s : State) (t r : Nat) : Nat :=
  if r = 0 then s.tenantCells t else if r = 4 then (if t = 0 then 0 else (s.sharedMeters t).length) else s.base (tenUse.up r) t

/-- A tenant's quota of a resource. -/
def State.quotaOf (s : State) (t r : Nat) : Nat := s.base (tenQuota.up r) t

/-- A change keeps a tenant's shared meters within their quota, or at most as many as they were (R177). -/
def State.sharedFits (s0 s1 : State) (t : Nat) : Bool :=
  t = 0 || decide (s1.useOf t 4 ≤ s0.useOf t 4) || decide (s1.useOf t 4 ≤ s1.quotaOf t 4)

/-- Everything held of a resource by all tenants. -/
def State.allUse (s : State) (r : Nat) : Nat := ((s.selsOf cTenant).map (fun t => s.useOf t r)).sum

/-- What the reservations of other tenants still hold back (R175). -/
def State.heldBack (s : State) (r : Nat) : Nat :=
  (((s.selsOf cTenant).filter (fun t => decide (t ≠ 0) && decide (s.fld tenState t ≠ 0))).map (fun t => s.quotaOf t r - s.useOf t r)).sum

/-- One more of a resource fits the tenant: within its quota (R177), and for tenant 0 outside every reservation (R175). -/
def State.canTake (s : State) (t r : Nat) : Bool :=
  s.useOf t r + 1 ≤ s.quotaOf t r && (t ≠ 0 || s.allUse r + 1 + s.heldBack r ≤ resourceTotal r)

/-- The tenant takes one of a resource, for an object (R178 reclaims the newest first). -/
def State.take (s : State) (t r obj : Nat) : State :=
  let s1 := s.put (tenUse.up r) t (s.useOf t r + 1)
  { s1 with tenancy := { s1.tenancy with born := (r, t, obj) :: s1.tenancy.born } }

/-- The tenant returns one of a resource. -/
def State.giveBack (s : State) (t r obj : Nat) : State :=
  let s1 := s.put (tenUse.up r) t (s.useOf t r - 1)
  { s1 with tenancy := { s1.tenancy with born := s1.tenancy.born.erase (r, t, obj) } }

/-- A tenant is active (Table 7-1, state 1). -/
def State.tenantActive (s : State) (t : Nat) : Bool := s.fld tenState t = 1

/-- An allocation that would exceed a resource: NORES, counted at the tenant. -/
def opNores (s : State) (t : Nat) : OpRes := ⟨.nores, s, none, [], some t⟩

/-- An object lies inside the view that issued an instruction (R43). A view of another device is no view of this one: only the functions
matched to it are inside (DEDUCED, log entry 31). -/
def State.inScope (s : State) (r : ObjReq) (cls sel : Nat) : Bool :=
  if r.issuerDev = 0xFFFF ∨ r.issuerDev = s.fabricId then s.inView r.view cls sel
  else decide (cls = cFunction) && (List.range 17).any (fun i =>
    let w := s.bindW sel i
    bBound w && bMatched w && decide (bView w = r.view) && decide (bViewDev w = r.issuerDev))

/-- A level-1 program may not name this tenant: it lies outside its view (R43). -/
def State.deniedTenant (s : State) (r : ObjReq) (t : Nat) : Bool := decide (r.level < 2) && !s.inScope r cTenant t

/-- A level-1 program may not name this object (R43). -/
def State.deniedObj (s : State) (r : ObjReq) (cls sel : Nat) : Bool := decide (r.level < 2) && !s.inScope r cls sel

/-- The view whose host holds what a tenant registers: its home view, or for tenant 0 the issuing view (R227, R229). -/
def State.memoryView (s : State) (r : ObjReq) (t : Nat) : Nat := if t = 0 then r.view else s.fld tenHomeView t

end Sys2Proof.Machine
end

