-- ==== Sys2Proof/WellFormed.lean ====
section
/-! DEFINITION. What no link, host or board can present: the checks on operands that the types of Syntax.lean leave open. A
command that fails its check stands for no event, and changes nothing (log entry 4). -/

namespace Sys2Proof

/-- A packet has 1 to 4,224 bytes (R92). -/
def packetWf (bytes : Nat) : Bool := 1 ≤ bytes && bytes ≤ 4224

/-- An access to BAR2 has at least one byte, at most 4,096, and ends inside the BAR's 16 MiB (R195, Table 12-1). -/
def cmAccessWf (offset len : Nat) : Bool := 1 ≤ len && len ≤ 4096 && offset + len ≤ 16777216

/-- What a link of 1, 2, 4, 8 or 16 active lanes brings in the time of one flit: its 256 bytes, four symbols each, in equal shares (R248, R249,
R281). -/
def flitWf (lanes : List (List PamLevel)) : Bool :=
  [1, 2, 4, 8, 16].contains lanes.length && lanes.all (fun l => decide (l.length = 1024 / lanes.length))

/-- An alignment marker is 16 bytes of four symbols each (R281, R283). -/
def markerWf (symbols : List PamLevel) : Bool := decide (symbols.length = 64)

/-- A comparison of the wear rings measures every die: the core, eight lane tiles, the slot-power die (R423). -/
def diesWf (dies : List DieReading) : Bool := dies.length = 10

/-- A descriptor as the fetch returns it: its two host words, and with it a program of `ProgramBytes` (Table 2-1). -/
def fetchWf (desc code : Option (List Word)) : Bool :=
  match desc, code with
  | none, none => true
  | none, some _ => false
  | some d, none => d.length = 2
  | some d, some c => d.length = 2 && 8 * c.length = (d.getD 1 0).toNat % 4294967296

/-- A TALLY_FWD fragment (Table 10-8, R277). -/
def fwdWf (m : FwdFragment) : Bool :=
  1 ≤ m.count && m.count ≤ 5 && m.index < m.count && 1 ≤ m.level && m.level ≤ 2 && m.view < 128 && m.words.length ≤ 512
  && m.srcDev < 4096 && m.fwdId < 65536 && (m.index ≠ 0 || 4 ≤ m.words.length)

/-- A TALLY_RESULT carries four rods (Table 10-8). -/
def resultWf (rods : List Word) : Bool := rods.length = 4

/-- The two image slots of the boot flash hold at most 4 MiB each (R344). -/
def flashWf (slotA slotB : List Byte) : Bool := slotA.length ≤ 4194304 && slotB.length ≤ 4194304

end Sys2Proof
end

