-- ==== Sys2Proof/Machine/Cm.lean ====
section
/-! DEFINITION. Coordination memory and the ordering model (R195 to R213). -/

namespace Sys2Proof.Machine

/-! ## Bytes and lines (R195, R200) -/

/-- The canonical form of coordination memory: addresses rise, no zero byte is listed, and none lies beyond 8 MiB. -/
def Memory.wf (m : List Host.Cell) : Bool := twf (fun _ => 0) m && m.all (fun c => decide (c.1 < 8388608))

/-- A byte of coordination memory. -/
def State.cmByte (s : State) (a : Nat) : Byte := tget 0 s.cm a

/-- Writes consecutive bytes; a byte beyond the 8 MiB exists nowhere and changes nothing. -/
def cmWrite (m : List Host.Cell) (a : Nat) : List Byte → List Host.Cell
  | [] => m
  | b :: bs => cmWrite (if a < 8388608 then tput 0 m a b else m) (a + 1) bs

/-- The line of a plain address. -/
def lineOf (a : Nat) : Nat := a / 64

/-- The window of a plain address. -/
def windowOf (a : Nat) : Nat := a / 131072

/-- The part of an offset in BAR2 that names a byte: the alias names the same byte as the plain offset (R195). -/
def plainOf (o : Nat) : Nat := o % 8388608

/-- An offset lies in the reserve alias. -/
def inAlias (o : Nat) : Bool := 8388608 ≤ o

/-- A store cut into line parts in rising address order; the first argument bounds the parts (R200). -/
def lineParts : Nat → Nat → List Byte → List (Nat × List Byte)
  | 0, _, _ => []
  | fuel + 1, a, bs =>
    if bs.isEmpty then []
    else
      let n := 64 - a % 64
      (a, bs.take n) :: lineParts fuel (a + n) (bs.drop n)

/-- Bytes of an agent's held stores over an address, oldest first: the last one wins (R202 rule 3). -/
def heldByte (hs : List HeldStore) (a : Nat) (b : Byte) : Byte :=
  hs.foldl (fun b h => if !h.cond && decide (h.addr ≤ a) && decide (a < h.addr + h.data.length) then h.data.getD (a - h.addr) b else b) b

/-- What agent `v` of this device reads at an address: the applied byte with its own held stores merged over it. -/
def State.cmRead1 (s : State) (v a : Nat) : Byte :=
  heldByte (s.cms.held.filter (fun h => decide (h.view = v))) a (s.cmByte a)

/-- Bytes an agent reads. -/
def State.cmReadN (s : State) (ag : Agent) (a n : Nat) : List Byte :=
  (List.range n).map (fun i => match ag with
    | .here v => s.cmRead1 v.val (a + i)
    | .far _ _ _ _ => s.cmByte (a + i))

/-! ## Agents, gates and answers -/

/-- Who an agent is to a gate (R180, R199). -/
def State.agentAsker (s : State) : Agent → Asker
  | .here v => ⟨s.fld viewOwnerTenant v.val, s.fabricId, v.val, 16384, 0xFF⟩
  | .far d v _ t => ⟨t, d, v, 16384, 0xFF⟩

/-- A completion goes back to the agent: to its host port here, or across the fabric (R100, R150). -/
def State.toAgentWith (s : State) (a : Agent) (tag : Nat) (st : CplStatus) (data : List Byte) : State :=
  match a with
  | .here v => s.hostReply v.val tag .memRead st data
  | .far d _ p _ => s.backTo d p 0 .memRead 0 tag st data

/-- Read data goes back to the agent. -/
def State.toAgent (s : State) (a : Agent) (tag : Nat) (data : List Byte) : State := s.toAgentWith a tag .success data

/-- An error completion goes back to the agent. -/
def State.toAgentErr (s : State) (a : Agent) (tag : Nat) (st : CplStatus) : State := s.toAgentWith a tag st []

/-- The agent's view is live, or the agent stands on another device. -/
def State.agentLive (s : State) : Agent → Bool
  | .here v => s.viewLive v.val
  | .far _ _ _ _ => s.running

/-- The gate of a window decides an access (R188, R198); one that spans two windows is refused whole, even for tenant 0. -/
def State.cmGate (s : State) (ag : Agent) (req : ReqType) (o len : Nat) : Gate :=
  let a := plainOf o
  let w := windowOf a
  let x : Access := ⟨req, 0, a % 131072, len⟩
  let k := s.agentAsker ag
  if windowOf (plainOf o + len - 1) ≠ w then .refused
  else if s.isContained (.obj cCmWindow w) then .contained
  else if s.suspendedFor k 0 then .suspended
  else if s.gateEntries cCmWindow w 1 k x then .pass
  else if k.tenant = 0 then .pass else .refused

/-- A window's gate refuses an access: counts and record; the completion or the AER report is the caller's (R188, R191). -/
def State.cmRefuse (s : State) (ag : Agent) (req : ReqType) (o len : Nat) (g : Gate) : State :=
  let w := windowOf (plainOf o)
  let k := s.agentAsker ag
  match g with
  | .suspended => s.addSat tenSuspendRefusals k.tenant 1
  | .refused =>
    ((s.addSat winGateRefusals w 1).count (ctrId 0x07 8 w 5) 1).gateRecord cCmWindow w (16384 + w) k
      ⟨req, 0, plainOf o % 131072, len⟩
  | _ => s

/-- A read or AtomicOp that its gate did not pass: Completer Abort for a contained window, Unsupported Request otherwise. -/
def State.cmDenyRead (s : State) (ag : Agent) (req : ReqType) (o len tag : Nat) (g : Gate) : State :=
  (s.cmRefuse ag req o len g).toAgentErr ag tag (if g = .contained then .completerAbort else .unsupportedRequest)

/-! ## Discards and reservations (R209, R212) -/

/-- Counts one store to a window discarded. -/
def State.winDiscard (s : State) (w : Nat) : State := (s.addSat winDiscards w 1).count (ctrId 0x07 8 w 4) 1

/-- A held store is discarded: counted against its epoch and at its window. -/
def State.dropHeld (s : State) (h : HeldStore) : State :=
  ((s.winDiscard (windowOf h.addr)).countDiscard h.view h.epoch)

/-- Discards the held stores that satisfy a test. -/
def State.discardHeld (s : State) (f : HeldStore → Bool) : State :=
  let gone := s.cms.held.filter f
  let s1 := gone.foldl State.dropHeld s
  { s1 with cms := { s1.cms with held := s1.cms.held.filter (fun h => !f h) } }

/-- A store by `by_` is applied to a line: the reservations that other agents hold on it are lost (R209). -/
def breakResvs (by_ : Agent) (line : Nat) (rs : List Resv) : List Resv :=
  rs.map (fun r => if r.line = line ∧ r.agent ≠ by_ ∧ r.lost = 0 then { r with lost := 2 } else r)

/-- Ends the reservations that satisfy a test, with a reason. -/
def endResvs (f : Resv → Bool) (why : Nat) (rs : List Resv) : List Resv :=
  rs.map (fun r => if f r && r.lost = 0 then { r with lost := why } else r)

/-- Applies a store's bytes to the memory at one instant (R200, R202). -/
def State.applyStore (s : State) (ag : Agent) (a : Nat) (data : List Byte) : State :=
  { s with cm := cmWrite s.cm a data, cms := { s.cms with resvs := breakResvs ag (lineOf a) s.cms.resvs } }

/-- The outcome of a conditional store: `Seq` advances, `Success` and `Reason` record it, and a failure counts (R208). -/
def State.scResolve (s : State) (v w reason : Nat) : State :=
  let q := (s.regBits v 0x010010 24 8 + 1) % 256
  let s1 := s.setReg v 0x010010 (word (q * 16777216 + reason * 2 + bit (reason = 0)))
  if reason = 0 then s1 else (s1.addSat winScFailures w 1).count (ctrId 0x07 8 w 2) 1

/-- Answers the reads of CM_SC_STATUS that no conditional store of the view delays any more (R208). -/
def State.scAnswer (s : State) (v : Nat) : State :=
  if s.cms.held.any (fun h => h.cond && decide (h.view = v)) || s.cms.waits.any (fun w => decide (w.view = v)) then s
  else
    let s1 := (s.cms.scReads.filter (fun r => decide (r.1 = v))).foldl
      (fun s r => s.hostReply v r.2 .memRead .success (leBytes 4 (s.reg v 0x010010).toNat)) s
    { s1 with cms := { s1.cms with scReads := s1.cms.scReads.filter (fun r => decide (r.1 ≠ v)) } }

/-- Why a conditional store of a view to a line would fail now; 0 if its reservation is held there (R208, Table 8-4). -/
def State.scReason (s : State) (v : ViewId) (line : Nat) : Nat :=
  match s.cms.resvs.find? (fun r => decide (r.agent = Agent.here v)) with
  | none => 1
  | some r => if r.lost ≠ 0 then r.lost else if r.line ≠ line then 1 else if r.due ≤ s.now then 3 else 0

/-- An agent's reservation ends. -/
def State.dropResv (s : State) (a : Agent) : State :=
  { s with cms := { s.cms with resvs := s.cms.resvs.filter (fun r => decide (r.agent ≠ a)) } }

/-- Removes the oldest held store of a view to a line, and applies or resolves it (R202, R208, R212). -/
def State.applyHeld (s : State) (v : ViewId) (h : HeldStore) : State :=
  let s1 := { s with cms := { s.cms with held := s.cms.held.erase h } }
  let w := windowOf h.addr
  if h.fails = 0 ∧ s.isContained (.obj cCmWindow w) then
    let s2 := s1.dropHeld h
    if h.cond then (s2.scResolve v.val w 4).dropResv (.here v) else s2
  else if h.cond then
    let r := if h.fails ≠ 0 then h.fails else s1.scReason v (lineOf h.addr)
    let s2 := (s1.scResolve v.val w r).dropResv (.here v)
    if r = 0 then (s2.applyStore (.here v) h.addr h.data).count (ctrId 0x07 8 w 1) 1 else s2
  else (s1.applyStore (.here v) h.addr h.data).count (ctrId 0x07 8 w 1) 1

/-- The oldest held store of a view to a line. -/
def State.oldestHeld (s : State) (v line : Nat) : Option HeldStore :=
  s.cms.held.find? (fun h => decide (h.view = v) && decide (lineOf h.addr = line))

/-- Applies every held store of a view to a line, oldest first; the first argument bounds them (R207, R210). -/
def State.drainLine : Nat → State → ViewId → Nat → State
  | 0, s, _, _ => s
  | fuel + 1, s, v, line =>
    match s.oldestHeld v.val line with
    | none => s
    | some h => State.drainLine fuel (s.applyHeld v h) v line

/-- Applies every held store of a view, in arrival order (R212, R324). -/
def State.drainView : Nat → State → ViewId → State
  | 0, s, _ => s
  | fuel + 1, s, v =>
    match s.cms.held.find? (fun h => decide (h.view = v.val)) with
    | none => s
    | some h => State.drainView fuel (s.applyHeld v h) v

/-- The same, and the reads of CM_SC_STATUS that it lets through are answered (R208). -/
def State.drainBuffer (s : State) (v : ViewId) : State := (State.drainView s.cms.held.length s v).scAnswer v.val

/-- An agent's own held stores to a line are applied first; an agent of another device holds none here. -/
def State.drainFor (s : State) (a : Agent) (line : Nat) : State :=
  match a with
  | .here v => (State.drainLine s.cms.held.length s v line).scAnswer v.val
  | .far _ _ _ _ => s

/-! ## Barriers (R205, R206) -/

/-- The oldest barrier of a view is complete: nothing of its epoch or an earlier one is held or tracked. -/
def State.barrierReady (s : State) (v : Nat) : Bool :=
  match (s.cmView v).barriers with
  | [] => false
  | (e, _) :: _ =>
    !s.cms.held.any (fun h => decide (h.view = v) && decide (h.epoch ≤ e))
      && !s.cms.tracked.any (fun t => decide (t.view = v) && decide (t.epoch ≤ e))

/-- CM_BARRIER_STATUS with a new pending count (Table 8-2). -/
def State.setPending (s : State) (v n : Nat) : State :=
  (s.setRegBits v 0x010008 1 4 n).setRegBits v 0x010008 0 1 (bit (n = 0))

/-- Answers the held reads of CM_BARRIER_STATUS of a view with its current value. -/
def State.answerStatus (s : State) (v : Nat) : State :=
  let s1 := (s.cms.statusReads.filter (fun r => decide (r.1 = v))).foldl
    (fun s r => s.hostReply v r.2.1 .memRead .success (leBytes 8 (s.reg v 0x010008).toNat)) s
  { s1 with cms := { s1.cms with statusReads := s1.cms.statusReads.filter (fun r => decide (r.1 ≠ v)) } }

/-- The barrier completes: its tag and the discards of its epoch stand in CM_BARRIER_STATUS; with none left pending, held reads
are answered. -/
def State.barrierDone (s : State) (v : Nat) : State :=
  let c := s.cmView v
  match c.barriers with
  | [] => s
  | (e, tag) :: rest =>
    let n := ((c.discards.find? (fun d => decide (d.1 = e))).map (·.2)).getD 0
    let s1 := s.setCmView { c with barriers := rest, discards := c.discards.filter (fun d => decide (d.1 > e)) }
    let s2 := ((s1.setRegBits v 0x010008 32 32 (min n 4294967295)).setRegBits v 0x010008 16 16 tag).setPending v rest.length
    if rest.isEmpty then s2.answerStatus v else s2

/-! ## Exceptions and resets (Table 8-5) -/

/-- A function-level reset of the view's management function, and whatever acts alike: held stores discarded, tracked writes no
longer tracked, the registers at their cold-reset values, the reservation ended (R212). -/
def State.cmViewReset (s : State) (v : ViewId) : State :=
  let s1 := s.discardHeld (fun h => decide (h.view = v.val))
  let s2 := { s1 with cms := { s1.cms with
      tracked := s1.cms.tracked.filter (fun t => decide (t.view ≠ v.val)),
      resvs := endResvs (fun r => decide (r.agent = Agent.here v)) 4 s1.cms.resvs } }
  let s3 := s2.setCmView ⟨v.val, (s2.cmView v.val).epoch + 1, [], []⟩
  let s4 := (s3.setReg v.val 0x010008 1).setReg v.val 0x010010 0
  (s4.answerStatus v.val).scAnswer v.val

/-- Containment of the agent's host port: held stores discarded, tracked writes go on, the reservation ended. -/
def State.cmPortContained (s : State) (v : ViewId) : State :=
  let s1 := s.discardHeld (fun h => decide (h.view = v.val))
  { s1 with cms := { s1.cms with resvs := endResvs (fun r => decide (r.agent = Agent.here v)) 4 s1.cms.resvs } }

/-- A reservation of the view that wrote a held store. -/
def resvOf (h : HeldStore) (r : Resv) : Bool := match r.agent with | .here v => decide (v.val = h.view) | .far _ _ _ _ => false

/-- Containment of a window: the stores held for it are discarded and reservations in it end; a conditional store among them is resolved
with reason 4 (R208, R209, R212). -/
def State.cmWindowContained (s : State) (w : Nat) : State :=
  let cs := s.cms.held.filter (fun h => h.cond && decide (windowOf h.addr = w))
  let s1 := s.discardHeld (fun h => decide (windowOf h.addr = w))
  let s2 := cs.foldl (fun s h => (s.scResolve h.view w 4).scAnswer h.view) s1
  { s2 with cms := { s2.cms with
      resvs := endResvs (fun r => decide (windowOf (r.line * 64) = w)) 4 (s2.cms.resvs.filter (fun r => !cs.any (fun h => resvOf h r))) } }

/-! ## Remote windows (R197, R150) -/

/-- Window w reaches a window of another device. -/
def State.isRemote (s : State) (w : Nat) : Bool := s.fld winRemote w = 1

/-- The packet that carries an access to the home window's device, port 0xFF, entering on the view's host port (R197). -/
def State.remotePkt (s : State) (v : ViewId) (req : ReqType) (o len tag : Nat) (data : List Byte) : Packet :=
  let w := windowOf (plainOf o)
  let p := s.portOfView v.val
  let t := s.fld viewOwnerTenant v.val
  { s.ownPkt req .plain (s.tlpHead 16 ++ data) 0 t with
    id := s.core.nextPkt, ingress := p, group := s.groupOf p 0 (kindOf req) req, hdr := some (s.edgeHdr p (s.fld winHomeDevice w) 255 0 t),
    dest := .fn 16384 0xFF 2 (s.fld winHomeWindow w * 131072 + plainOf o % 131072) len, view := v.val, tag := tag,
    cm := decide (kindOf req = .nonPosted) }

/-- An access to a remote window goes to its home device; a read is held for at most 50 µs (R150, R197). -/
def State.remoteAccess (s : State) (v : ViewId) (req : ReqType) (o len tag : Nat) (data : List Byte) (cells : List CellIdx) : State :=
  s.draw.goOn (s.remotePkt v req o len tag data) cells

/-! ## Accesses line by line (R200, R202) -/

/-- Bytes of an access that lie in its first line. -/
def lineLen (a n : Nat) : Nat := min n (64 - a % 64)

/-- A store that waits at ingress touches a line of plain addresses. -/
def CmWait.touches (w : CmWait) (line : Nat) : Bool :=
  w.barrier.isNone && decide (lineOf (plainOf w.offset) ≤ line) && decide (line ≤ lineOf (plainOf w.offset + w.data.length - 1))

/-- A view's read of a line waits for its own earlier stores to it that still wait at ingress (R202 rule 1). -/
def State.readBlocked (s : State) (r : CmPart) : Bool :=
  match r.agent with
  | .here v => s.cms.waits.any (fun w => decide (w.view = v.val) && w.touches (lineOf r.addr))
  | .far _ _ _ _ => false

/-- An agent's own held conditional stores to a line are resolved before it reads the line (R202 rule 1). -/
def State.settleConds (s : State) (a : Agent) (line : Nat) : State :=
  match a with
  | .here v =>
    if s.cms.held.any (fun h => h.cond && decide (h.view = v.val) && decide (lineOf h.addr = line)) then s.drainFor a line else s
  | .far _ _ _ _ => s

/-- Performs the next line part of a read at one instant; the last part sends the completion (R200, R203). The read stays listed until then. -/
def State.readLine (s : State) (r : CmPart) : State :=
  if s.readBlocked r then { s with cms := { s.cms with reads := s.cms.reads ++ [r] } }
  else
    let n := lineLen r.addr r.left
    let s1 := s.settleConds r.agent (lineOf r.addr)
    let got := r.got ++ s1.cmReadN r.agent r.addr n
    if r.left ≤ n then s1.toAgent r.agent r.tag got
    else { s1 with cms := { s1.cms with reads := s1.cms.reads ++ [{ r with addr := r.addr + n, left := r.left - n, got := got }] } }

/-- Performs one line part of each read of a list. -/
def State.readLines (s : State) : List CmPart → State
  | [] => s
  | r :: rs => (s.readLine r).readLines rs

/-- One line part of every read that satisfies a test. -/
def State.readSome (s : State) (f : CmPart → Bool) : State :=
  ({ s with cms := { s.cms with reads := s.cms.reads.filter (fun r => !f r) } }).readLines (s.cms.reads.filter f)

/-- Performs an agent's reads to their ends, a line of each at a time; the first argument bounds the lines. -/
def State.finishReads (a : Agent) : Nat → State → State
  | 0, s => s
  | fuel + 1, s =>
    if s.cms.reads.any (fun r => decide (r.agent = a)) then State.finishReads a fuel (s.readSome (fun r => decide (r.agent = a))) else s

/-- A store of another device's view was applied or discarded whole: its device hears of it (R204). -/
def State.farDone (s : State) (a : Agent) : State :=
  match a with
  | .far d _ p _ =>
    match s.fabric.recv.find? (fun r => decide (r.flow.srcDev = d) && decide (r.flow.srcPort = p) && decide (r.flow.dstPort = 255)
        && decide (r.flow.cls = 0)) with
    | some r => s.notice { s.edgeHdr p s.fabricId 255 0 0 with srcDev := d, seq := (r.expected + 16777215) % 16777216, gen := r.gen }
    | none => s
  | .here _ => s

/-- Applies the next line part of a far store at one instant (R200). -/
def State.storeLine (s : State) (x : CmPart) : State :=
  let n := lineLen x.addr x.data.length
  let s1 := s.applyStore x.agent x.addr (x.data.take n)
  if x.data.length ≤ n then s1.farDone x.agent
  else { s1 with cms := { s1.cms with stores := s1.cms.stores ++ [{ x with addr := x.addr + n, data := x.data.drop n }] } }

/-- Applies one line part of each store of a list. -/
def State.storeLines (s : State) : List CmPart → State
  | [] => s
  | x :: xs => (s.storeLine x).storeLines xs

/-- One line part of every far store that satisfies a test. -/
def State.storeSome (s : State) (f : CmPart → Bool) : State :=
  ({ s with cms := { s.cms with stores := s.cms.stores.filter (fun x => !f x) } }).storeLines (s.cms.stores.filter f)

/-- Applies an agent's far stores to their ends; the first argument bounds the lines. -/
def State.finishStores (a : Agent) : Nat → State → State
  | 0, s => s
  | fuel + 1, s =>
    if s.cms.stores.any (fun x => decide (x.agent = a)) then State.finishStores a fuel (s.storeSome (fun x => decide (x.agent = a))) else s

/-- What an agent had begun before is performed first (R202 rule 1): an access has at most 65 lines. -/
def State.finish (s : State) (a : Agent) : State := State.finishStores a 65 (State.finishReads a 65 s)

/-! ## Posted writes of a view (R201, R205) -/

/-- A conditional store of a view that its arrival settles as failed: behind an earlier conditional store it waits its turn (R208). -/
def State.scFailed (s : State) (v : ViewId) (a reason : Nat) : State :=
  if s.cms.held.any (fun h => h.cond && decide (h.view = v.val)) then
    { s with cms := { s.cms with held := s.cms.held ++ [⟨v.val, a, [], true, (s.cmView v.val).epoch, reason⟩] } }
  else (s.scResolve v.val (windowOf a) reason).dropResv (.here v)

/-- A store of a view to BAR2 as it leaves ingress: to the home device of a remote window, refused by the gate, or held by line parts. None while the
write buffer has no room (R201). -/
def State.storeIn (s : State) (v : ViewId) (offset : Nat) (data : List Byte) (cells : List CellIdx) : Option State :=
  let a := plainOf offset
  let w := windowOf a
  let crosses := decide (windowOf (a + data.length - 1) ≠ w)
  let g := s.cmGate (.here v) .memWrite offset data.length
  let lost := s.countDiscard v.val (s.cmView v.val).epoch
  if s.isRemote w && !crosses then
    some (if inAlias offset then lost.scFailed v a 6 else s.remoteAccess v .memWrite offset data.length 0 data cells)
  else if g ≠ .pass then
    let s1 := (lost.cmRefuse (.here v) .memWrite offset data.length g).winDiscard w
    let s2 := if g = .refused || g = .suspended then s1.emit (.aer v.val 0 .unsupportedRequest) else s1
    some (if inAlias offset then s2.scFailed v a (if g = .contained then 4 else 7) else s2)
  else if inAlias offset && decide (lineOf a ≠ lineOf (a + data.length - 1)) then some (lost.scFailed v a 5)
  else
    let parts := lineParts (data.length + 1) a data
    if 256 < (s.cms.held.filter (fun h => decide (h.view = v.val))).length + parts.length then none
    else
      let new : List HeldStore := parts.map (fun x => ⟨v.val, x.1, x.2, inAlias offset, (s.cmView v.val).epoch, 0⟩)
      some { s with cms := { s.cms with held := s.cms.held ++ new } }

/-- A write of CM_BARRIER as it leaves ingress: it closes an epoch. None while 8 barriers are incomplete (R205). -/
def State.barrierIn (s : State) (v : ViewId) (value : Nat) : Option State :=
  let c := s.cmView v.val
  if 8 ≤ c.barriers.length then none
  else
    some ((s.setCmView { c with epoch := c.epoch + 1, barriers := c.barriers ++ [(c.epoch, value % 65536)] }).setPending v.val (c.barriers.length + 1))

/-- A posted write of a view leaves ingress, if it can. -/
def State.writeIn (s : State) (v : ViewId) (w : CmWait) (cells : List CellIdx) : Option State :=
  match w.barrier with
  | some n => s.barrierIn v n
  | none => s.storeIn v w.offset w.data cells

/-- An earlier posted packet of the view's host port is still held at ingress (R102). -/
def State.behindPackets (s : State) (v mark : Nat) : Bool :=
  s.core.pkts.any (fun k => k.loc = .ingress && k.kind = .posted && decide (k.ingress = s.portOfView v) && decide (k.id < mark))

/-- Lets the posted writes of a view that wait at ingress go on, oldest first, as far as they can; the first argument bounds them. -/
def State.retryWaits : Nat → State → ViewId → State
  | 0, s, _ => s
  | fuel + 1, s, v =>
    match s.cms.waits.find? (fun w => decide (w.view = v.val)) with
    | none => s
    | some w =>
      if s.behindPackets v.val w.mark then s
      else match s.writeIn v w [] with
        | none => s
        | some t => State.retryWaits fuel { t with cms := { t.cms with waits := t.cms.waits.erase w } } v

/-- The same for every view. -/
def State.retryViews (s : State) : List Nat → State
  | [] => s
  | v :: vs => (if h : v < 96 then State.retryWaits s.cms.waits.length s ⟨v, h⟩ else s).retryViews vs

/-- A posted write of a view arrives: it goes on, or waits at ingress behind what waits there (R102). -/
def State.writeArrives (s : State) (v : ViewId) (w : CmWait) (cells : List CellIdx) : State :=
  let wait := { s with cms := { s.cms with waits := s.cms.waits ++ [w] } }
  if s.cms.waits.any (fun x => decide (x.view = v.val)) || s.behindPackets v.val s.core.nextPkt then wait
  else (s.writeIn v w cells).getD wait

/-- Sends the delivery notices that are due (R204). -/
def State.sendNotices (s : State) : List Notice → State
  | [] => s
  | n :: ns => (s.sendMsg n.dev (.delivery n.msg n.seq)).sendNotices ns

/-- One nanosecond of coordination memory: a line part of each access under way, the writes that wait, and the notices that are due. -/
def State.cmTick (s : State) : State :=
  let s1 := (s.readSome (fun _ => true)).storeSome (fun _ => true)
  let s2 := s1.retryViews ((s1.cms.waits.map (·.view)).eraseDups)
  let go := s2.cms.notices.filter (fun n => decide (n.due ≤ s2.now))
  ({ s2 with cms := { s2.cms with notices := s2.cms.notices.filter (fun n => decide (s2.now < n.due)) } }).sendNotices go

/-! ## The commands -/

/-- `CM_POSTED_WRITE` (R201, R208): a posted write of an agent to BAR2. At its home device a store of another device's view is applied line by line
(R199, R200). -/
def execCmPostedWrite (a : Agent) (offset : Nat) (data : List Byte) (cells : List CellIdx) (s : State) :
    Host.Outcome State Fault Refusal :=
  if !cmAccessWf offset data.length then .next s
  else if !s.agentLive a then .next s
  else match a with
    | .here v => .next ((s.finish a).writeArrives v ⟨v.val, s.core.nextPkt, none, offset, data⟩ cells)
    | .far _ _ _ _ =>
      let w := windowOf (plainOf offset)
      let g := s.cmGate a .memWrite offset data.length
      if g ≠ .pass then .next (((s.cmRefuse a .memWrite offset data.length g).winDiscard w).farDone a)
      else .next (((s.finish a).count (ctrId 0x07 8 w 1) 1).storeLine ⟨a, plainOf offset, 0, 0, [], data⟩)

/-- `HELD_STORE_APPLIED` (R202): the oldest held store of a view to a line, a plain one, is applied. -/
def execHeldStoreApplied (v : ViewId) (line : Nat) (s : State) : Host.Outcome State Fault Refusal :=
  match s.oldestHeld v.val line with
  | none => .next s
  | some h => if h.cond || !s.running then .next s else .next (s.applyHeld v h)

/-- `CM_READ` (R198, R203): a read of plain offsets, line by line. -/
def execCmRead (a : Agent) (offset len tag : Nat) (cells : List CellIdx) (s : State) : Host.Outcome State Fault Refusal :=
  if !cmAccessWf offset len then .next s
  else if !s.agentLive a || inAlias offset then .next s
  else
    let w := windowOf offset
    let remote := match a with | .here _ => s.isRemote w && decide (windowOf (offset + len - 1) = w) | .far _ _ _ _ => false
    match a, remote with
    | .here v, true => .next (s.remoteAccess v .memRead offset len tag [] cells)
    | _, _ =>
      let g := s.cmGate a .memRead offset len
      if g ≠ .pass then .next (s.cmDenyRead a .memRead offset len tag g)
      else .next ((s.count (ctrId 0x07 8 w 0) 1).readLine ⟨a, offset, tag, len, [], []⟩)

/-- `RESERVED_LOAD` (R207): a read in the alias, which sets the agent's reservation. -/
def execReservedLoad (v : ViewId) (offset len tag : Nat) (s : State) : Host.Outcome State Fault Refusal :=
  if !cmAccessWf offset len then .next s
  else if !s.viewLive v.val || !inAlias offset then .next s
  else
    let ad := plainOf offset
    let w := windowOf ad
    if s.isRemote w && decide (windowOf (ad + len - 1) = w) then .next (s.toAgentErr (.here v) tag .unsupportedRequest)
    else
      let g := s.cmGate (.here v) .memRead offset len
      if g ≠ .pass then .next (s.cmDenyRead (.here v) .memRead offset len tag g)
      else if lineOf ad ≠ lineOf (ad + len - 1) then .next (s.toAgentErr (.here v) tag .unsupportedRequest)
      else
        let s1 := s.drainFor (.here v) (lineOf ad)
        let s2 := s1.dropResv (.here v)
        let new : Resv := ⟨.here v, lineOf ad, s.now + 100000, 0⟩
        let s3 := { s2 with cms := { s2.cms with resvs := s2.cms.resvs ++ [new] } }
        .next ((s3.count (ctrId 0x07 8 w 0) 1).toAgent (.here v) tag (s3.cmReadN (.here v) ad len))

/-- `CONDITIONAL_STORE_APPLIED` (R208): the oldest held store of a view to a line, a conditional one, is resolved. -/
def execConditionalStoreApplied (v : ViewId) (line : Nat) (s : State) : Host.Outcome State Fault Refusal :=
  match s.oldestHeld v.val line with
  | none => .next s
  | some h =>
    let first := s.cms.held.find? (fun x => x.cond && decide (x.view = v.val)) = some h
    if !h.cond || !s.running || (decide (h.fails ≠ 0) && !first) then .next s else .next ((s.applyHeld v h).scAnswer v.val)

/-- `RESERVATION_EXPIRY` (R209): a reservation reaches its lifetime. -/
def execReservationExpiry (a : Agent) (s : State) : Host.Outcome State Fault Refusal :=
  .next { s with cms := { s.cms with resvs := endResvs (fun r => decide (r.agent = a) && decide (r.due ≤ s.now)) 3 s.cms.resvs } }

/-- What an AtomicOp leaves, from the old value (R210): FetchAdd adds modulo the width, Swap replaces, CAS replaces on equality. -/
def atomicNew (op : AtomicKind) (size old x y : Nat) : Nat :=
  match op with
  | .fetchAdd => (old + x) % 256 ^ size
  | .swap => x % 256 ^ size
  | .cas => if old = x % 256 ^ size then y % 256 ^ size else old

/-- Widths of R210: 4 and 8 bytes, and 16 for CAS. -/
def atomicSizeOk (op : AtomicKind) (size : Nat) : Bool := size = 4 || size = 8 || (op = .cas && size = 16)

/-- `CM_ATOMIC_OP` (R210): an AtomicOp of an agent on plain offsets. -/
def execCmAtomicOp (a : Agent) (op : AtomicKind) (offset size operand1 operand2 tag : Nat) (cells : List CellIdx) (s : State) :
    Host.Outcome State Fault Refusal :=
  if !(cmAccessWf offset size && atomicSizeOk op size) then .next s
  else if !s.agentLive a then .next s
  else
    let ad := plainOf offset
    let w := windowOf ad
    let bad := inAlias offset || decide (offset % size ≠ 0)
    let remote := match a with | .here _ => s.isRemote w && decide (windowOf (ad + size - 1) = w) | .far _ _ _ _ => false
    match a, remote with
    | .here v, true =>
      .next (if bad then s.toAgentErr a tag .unsupportedRequest
        else s.remoteAccess v .atomicOp offset size tag (leBytes size operand1 ++ (if op = .cas then leBytes size operand2 else [])) cells)
    | _, _ =>
      let g := s.cmGate a .atomicOp offset size
      if g ≠ .pass then .next (s.cmDenyRead a .atomicOp offset size tag g)
      else if bad then .next (s.toAgentErr a tag .unsupportedRequest)
      else
        let s1 := (s.finish a).drainFor a (lineOf offset)
        let old := (List.range size).map (fun i => s1.cmByte (offset + i))
        let s2 := s1.applyStore a offset (leBytes size (atomicNew op size (leNat old) operand1 operand2))
        .next (((s2.addSat winAtomics w 1).count (ctrId 0x07 8 w 3) 1).toAgent a tag old)

/-- A placed write of the Lighter engine into a view's host becomes visible (R204, R244). -/
def State.ltVisible (s : State) (v id : Nat) : State :=
  { s with lighter := { s.lighter with runs := s.lighter.runs.map (fun r =>
      { r with placed := r.placed.filter (fun p => !(decide (p.id = id) && decide (p.view = v))) }) } }

/-- The link partner of a device port has acknowledged a write of another device's host: its source hears with the next notice (R204). -/
def State.farVisible (s : State) (id : Nat) : State :=
  match s.cms.far.find? (fun (e : Nat × FabHdr) => decide (e.1 = id)) with
  | none => s
  | some e => ({ s with cms := { s.cms with far := s.cms.far.filter (fun (x : Nat × FabHdr) => decide (x.1 ≠ id)) } } : State).notice e.2

/-- `TRACKED_WRITE_VISIBLE` (R204): a posted write of a view has left on its device port and the link partner has acknowledged its last byte, or a
Lighter placement into the view's host is visible (R244). A packet still in the core is not. -/
def execTrackedWriteVisible (v : ViewId) (id : Nat) (s : State) : Host.Outcome State Fault Refusal :=
  if (s.pkt id).isSome then .next s
  else
    let s1 := (s.ltVisible v.val id).farVisible id
    .next { s1 with cms := { s1.cms with
      tracked := s1.cms.tracked.filter (fun t => !(decide (t.view = v.val) && decide (t.id = id) && decide (t.flow.dstDev = s.fabricId))) } }

/-- `CM_BARRIER` (R205): a posted write that closes a barrier epoch; a ninth waits at ingress. -/
def execCmBarrier (v : ViewId) (value : BitVec 32) (s : State) : Host.Outcome State Fault Refusal :=
  .next (if s.viewLive v.val then s.writeArrives v ⟨v.val, s.core.nextPkt, some value.toNat, 0, []⟩ [] else s)

/-- Completes the barriers of a view that are ready, oldest first; the first argument bounds them. -/
def State.barriersDone : Nat → State → Nat → State
  | 0, s, _ => s
  | fuel + 1, s, v => if s.barrierReady v then State.barriersDone fuel (s.barrierDone v) v else s

/-- `BARRIER_COMPLETE` (R205): the oldest barrier of a view completes. -/
def execBarrierComplete (v : ViewId) (s : State) : Host.Outcome State Fault Refusal :=
  if s.barrierReady v.val then .next (s.barrierDone v.val) else .next s

/-- `CM_BARRIER_STATUS_READ` (R206): held while barriers are pending. -/
def execCmBarrierStatusRead (v : ViewId) (tag : Nat) (s : State) : Host.Outcome State Fault Refusal :=
  if !s.viewLive v.val then .next s
  else if (s.cmView v.val).barriers.isEmpty && !s.cms.waits.any (fun w => decide (w.view = v.val)) then
    .next (s.hostReply v.val tag .memRead .success (leBytes 8 (s.reg v.val 0x010008).toNat))
  else .next { s with cms := { s.cms with statusReads := s.cms.statusReads ++ [(v.val, tag, s.now + 20000)] } }

/-- `BARRIER_STATUS_HOLD_EXPIRY` (R206): the hold limit of the oldest held read of a view ends; barriers that are complete are taken first (Table
8-7). -/
def execBarrierStatusHoldExpiry (v : ViewId) (s : State) : Host.Outcome State Fault Refusal :=
  let s := State.barriersDone 8 s v.val
  match s.cms.statusReads.find? (fun r => decide (r.1 = v.val) && decide (r.2.2 ≤ s.now)) with
  | none => .next s
  | some r =>
    .next ({ s with cms := { s.cms with statusReads := s.cms.statusReads.erase r } }.hostReply v.val r.2.1 .memRead .success
      (leBytes 8 (s.reg v.val 0x010008).toNat))

/-- `CM_SC_STATUS_READ` (R208): answered after every conditional store that the view issued before it. -/
def execCmScStatusRead (v : ViewId) (tag : Nat) (s : State) : Host.Outcome State Fault Refusal :=
  if !s.viewLive v.val then .next s
  else .next ({ s with cms := { s.cms with scReads := s.cms.scReads ++ [(v.val, tag)] } }.scAnswer v.val)

end Sys2Proof.Machine
end

