-- ==== Sys2Proof/Machine/Lighter.lean ====
section
/-! DEFINITION. The Lighter engine: doorbells, work requests, completions, regions and the packet protocol (R215 to R246). -/

namespace Sys2Proof.Machine

/-! ## What the engine keeps of a queue pair -/

/-- Forgets the engine's record of a queue pair. -/
def State.dropRun (s : State) (q : Nat) : State :=
  { s with lighter := { s.lighter with
      runs := s.lighter.runs.filter (fun x => decide (x.qp ≠ q)),
      waiting := s.lighter.waiting.filter (fun w => decide (w.pk.dstQp.val ≠ q)),
      sendWaits := s.lighter.sendWaits.filter (fun w => decide (w.1 ≠ q)) } }

/-- Queue-pair states (Table 9-8). -/
def qpAbsent : Nat := 0
def qpInit : Nat := 1
def qpReady : Nat := 2
def qpError : Nat := 3

/-- A queue pair is in a state. -/
def State.qpIs (s : State) (q st : Nat) : Bool := s.fld qpState q = st

/-- Difference of two indices or sequence numbers, modulo 2^n. -/
def distMod (n a b : Nat) : Nat := (a + 2 ^ n - b % 2 ^ n) % 2 ^ n

/-! ## Rings and work requests (R215, R218, R219) -/

/-- Entries a ring of 2^k holds at once (R215). -/
def ringRoom (k : Nat) : Nat := min (2 ^ k) 65535

/-- Address of entry i of a ring of 2^k entries (R215). -/
def ringAt (base k i : Nat) : Nat := base * 4096 + 64 * (i % 2 ^ k)

def wOpcode (w : List Word) : Nat := bitsOf (w.getD 1 0) 56 8
def wSignal (w : List Word) : Bool := bitsOf (w.getD 1 0) 48 1 = 1
def wLength (w : List Word) : Nat := bitsOf (w.getD 1 0) 0 32
def wLocalOffset (w : List Word) : Nat := (w.getD 2 0).toNat
def wLocalKey (w : List Word) : Nat := bitsOf (w.getD 3 0) 32 32
def wRemoteKey (w : List Word) : Nat := bitsOf (w.getD 3 0) 0 32
def wRemoteOffset (w : List Word) : Nat := (w.getD 4 0).toNat
def wImmediate (w : List Word) : Nat := bitsOf (w.getD 5 0) 0 32

/-- Bits that must be zero are zero (Table 9-2). -/
def wZeros (w : List Word) : Bool :=
  w.length = 8 && bitsOf (w.getD 1 0) 49 7 = 0 && bitsOf (w.getD 1 0) 32 16 = 0 && bitsOf (w.getD 5 0) 32 32 = 0

/-- A well-formed send-queue work request (Table 9-3, R219). -/
def sendWrOk (w : List Word) : Bool :=
  let op := wOpcode w
  let n := wLength w
  wZeros w && op ≤ 6
  && (if op = 6 then n = 0
      else if op = 4 || op = 5 then n = 8 && wRemoteOffset w % 8 = 0
      else if op = 2 then 1 ≤ n && n ≤ 1073741824
      else n ≤ 1073741824)

/-- A well-formed receive-queue entry: `WrId`, `Opcode` 7, `Length`, `LocalOffset` and `LocalKey` alone (R218). -/
def recvWrOk (w : List Word) : Bool :=
  wZeros w && wOpcode w = 7 && bitsOf (w.getD 1 0) 48 1 = 0 && wLength w ≤ 1073741824 && wRemoteKey w = 0
  && w.getD 4 0 = 0 && w.getD 5 0 = 0 && w.getD 6 0 = 0 && w.getD 7 0 = 0

/-- Sequence numbers that a work request takes (R235). -/
def wrPackets (w : List Word) : Nat :=
  let op := wOpcode w
  if op = 4 ∨ op = 5 ∨ op = 6 then 1 else max 1 ((wLength w + 4095) / 4096)

/-! ## Regions and translations (R229 to R232) -/

/-- A key names a registered region of a tenant with its current generation (R229, R237 check 6). -/
def State.keyOk (s : State) (t key : Nat) : Bool :=
  let i := key / 256 % 16777216
  i < 4194304 && s.fld regRegistered i = 1 && s.fld regRevoking i = 0 && s.fld regGeneration i = key % 256
  && s.fld regTenantId i = t

/-- Bytes [off, off + len) lie inside a region. -/
def State.inRegion (s : State) (key off len : Nat) : Bool :=
  off + len ≤ s.fld regLength (key / 256 % 16777216)

/-- The local range and key of a work request hold (R219). -/
def State.localOk (s : State) (t : Nat) (w : List Word) : Bool :=
  wOpcode w = 6 || (s.keyOk t (wLocalKey w) && s.inRegion (wLocalKey w) (wLocalOffset w) (wLength w))

/-- Host address of a byte of a region. -/
def State.regAddr (s : State) (key off : Nat) : Nat := s.fld regHostAddress (key / 256 % 16777216) * 4096 + off

/-- PASID of a region. -/
def State.regPasidOf (s : State) (key : Nat) : Option Nat :=
  let i := key / 256 % 16777216
  if s.fld regPasidValid i = 1 then some (s.fld regPasid i) else none

/-- A translation covers a 4 KiB page of a view. -/
def xlateCovers (p : PageRef) (x : Xlate) : Bool :=
  decide (x.view = p.view) && decide (x.pasid = p.pasid) && decide (x.page ≤ p.page) && decide (p.page < x.page + 2 ^ (x.log2 - 12))

/-- The translated 4 KiB page of a page, where the cache holds it (R232). -/
def State.pageTo (s : State) (p : PageRef) : Option Nat :=
  (s.lighter.xlates.find? (xlateCovers p)).map (fun x => x.dst + (p.page - x.page))

/-- Bytes [a, a + n) by 4 KiB pages, at most two of them: page, first byte in it, length. -/
def pageSpans (a n : Nat) : List (Nat × Nat × Nat) :=
  let k := min n (4096 - a % 4096)
  if n = 0 then [] else if k = n then [(a / 4096, a % 4096, n)] else [(a / 4096, a % 4096, k), (a / 4096 + 1, 0, n - k)]

/-- What the translation cache says of an access: its translated addresses with their lengths, or the first page that misses. -/
inductive XlateRes where
  | hit (at_ : List (Nat × Nat))
  | miss (p : PageRef)
  deriving DecidableEq, Repr

/-- The translation of a list of spans. -/
def State.xlateSpans (s : State) (v : Nat) (pasid : Option Nat) : List (Nat × Nat × Nat) → List (Nat × Nat) → XlateRes
  | [], acc => .hit acc
  | (page, off, n) :: rest, acc =>
    match s.pageTo (PageRef.mk v pasid page) with
    | some p => s.xlateSpans v pasid rest (acc ++ [(p * 4096 + off, n)])
    | none => .miss (PageRef.mk v pasid page)

/-- The view whose host holds a region. -/
def State.regView (s : State) (key : Nat) : Nat := s.fld regHostView (key / 256 % 16777216)

/-- The translation of bytes [off, off + n) of a region's memory (at most 4,096 bytes). -/
def State.xlate (s : State) (key off n : Nat) : XlateRes :=
  s.xlateSpans (s.regView key) (s.regPasidOf key) (pageSpans (s.regAddr key off) n) []

/-- Asks for a translation as the tenant's Lighter function (R232), once while something waits for it. -/
def State.askPage (s : State) (t : Nat) (p : PageRef) : State :=
  if s.lighter.waiting.any (fun w => decide (w.need = LtNeed.page p)) || s.lighter.sendWaits.any (fun w => decide (w.2 = p)) then s
  else s.emit (.atsRequest p.view t p.pasid p.page)

/-! ## Accesses to host memory (R215, R223, R232) -/

/-- A posted write, or an MSI-X message, of a Lighter function: a packet from the internal agent to the host port of a view (R223). One for a view
without a live host goes nowhere. -/
def State.hostPost (s : State) (v t : Nat) (body : Body) (data : List Byte) : State :=
  if s.viewLive v then
    s.draw.originate { s.ownPkt .memWrite body (s.tlpHead 16 ++ data) 0 t with egress := s.portOfView v, view := v, dest := .host }
  else s

/-- Reads host memory at translated addresses. A read and an AtomicOp act in the command that needs their reply (DESIGN CHOICE, log entry 96). -/
def State.hostReads (s : State) (v t : Nat) : List (Nat × Nat) → State
  | [] => s
  | (a, n) :: rest => (s.emit (.lighterRead v t a n)).hostReads v t rest

/-- Writes bytes at translated addresses, for a queue pair that placed them if one is named (R238, R244). -/
def State.hostWrites (s : State) (v t : Nat) (q : Option Nat) (data : List Byte) : List (Nat × Nat) → State
  | [] => s
  | (a, n) :: rest =>
    let s1 := match q with
      | none => s
      | some q =>
        let r := s.run q
        s.setRun (if s.viewLive v then { r with placed := r.placed ++ [Placement.mk s.core.nextPkt v n] } else { r with lost := r.lost + n })
    (s1.hostPost v t (.ltWrite v t a (data.take n)) (data.take n)).hostWrites v t q (data.drop n) rest

/-! ## Contexts (R245) -/

/-- 64-byte units that a cached context takes. -/
def ctxUnits (k : Nat) : Nat := if k / 4294967296 = cQueuePair then 8 else 1

/-- The most recent contexts that fit 48 MiB. -/
def ctxFit : Nat → List Nat → List Nat
  | _, [] => []
  | room, k :: ks => if ctxUnits k ≤ room then k :: ctxFit (room - ctxUnits k) ks else []

/-- Room of the context cache: each retired way takes a sixteenth (Table 14-5). -/
def State.ctxRoom (s : State) : Nat :=
  786432 - 49152 * ((List.range 16).filter (fun w => s.isContained (.resource (checkerId 0x09 w)))).length

/-- Makes a context the most recently used one of the cache. -/
def State.touchCtx (s : State) (k : Nat) : State :=
  { s with lighter := { s.lighter with cached := ctxFit s.ctxRoom (k :: s.lighter.cached.filter (fun x => decide (x ≠ k))) } }

/-- Uses contexts that are cached, the last of the list becoming the most recent. -/
def State.touchAll (s : State) : List Nat → State
  | [] => s
  | k :: ks => (s.touchCtx k).touchAll ks

/-- The context of the region that a key names. -/
def regCtx (key : Nat) : List Nat :=
  let i := key / 256 % 16777216
  if i < 4194304 then [okey cRegion i] else []

/-- The first context of a list that is not cached. -/
def State.lacks (s : State) (ks : List Nat) : Option Nat := ks.find? (fun k => !s.lighter.cached.contains k)

/-- The tenant of a context. -/
def State.ctxTenant (s : State) (k : Nat) : Nat :=
  let i := k % 4294967296
  if k / 4294967296 = cQueuePair then s.fld qpTenantId i
  else if k / 4294967296 = cRegion then s.fld regTenantId i else s.fld cqTenantId i

/-- A context miss: counted, and the context is fetched. -/
def State.ctxMiss (s : State) (k : Nat) : State :=
  if s.lighter.missing.contains k then s
  else
    let s1 := s.ltCount (s.ctxTenant k) 13 1
    { s1 with lighter := { s1.lighter with missing := s1.lighter.missing ++ [k] } }

/-! ## Packets (R233, R234) -/

/-- Request type of a Lighter packet in the core: requests, responses, and the acknowledgements of queue Q1. -/
def ltReq (typ : Nat) : ReqType :=
  if typ = 8 ∨ typ = 9 ∨ typ = 10 then .lighterAck
  else if typ = 4 ∨ typ = 6 then .lighterResp else .lighterData

/-- A Lighter packet with its `E2eCheck` computed (R235); an injection inverts it (R361, Table 14-6). -/
def State.ltSeal (s : State) (pk : LighterPkt) : State × LighterPkt :=
  let l := ltSealed pk
  if s.injects (checkerId 0x0A 0) then ((s.takeInjection (checkerId 0x0A 0)).1, { l with e2e := 4294967295 - l.e2e }) else (s, l)

/-- Hands a Lighter packet of a tenant to the core, from the internal agent to port 0xFF of a device (R233). -/
def State.ltSend (s0 : State) (t dev : Nat) (pk : LighterPkt) : State :=
  let e := s0.ltSeal pk
  let s := e.1
  let l := e.2
  s.originate { s.ownPkt (ltReq pk.typ) (.lighter l) (ltPktBytes l) 0 t with hdr := some (s.edgeHdr 255 dev 255 14 t) }

/-- A packet of the engine with the fields that every type has; the others are zero. -/
def State.ltNew (s : State) (typ psn : Nat) (dstQp : QpId) (dstGen srcQp srcGen : Nat) : LighterPkt :=
  { srcDev := s.fabricId, typ := typ, first := true, last := true, retransmit := false, dstGen := dstGen, dstQp := dstQp, psn := psn,
    srcQp := srcQp, srcGen := srcGen, remoteKey := 0, offset := 0, aux := 0, immediate := 0, recvSeq := 0, payload := [], sack := 0, e2e := 0,
    poisoned := false }

/-- A reply of a queue pair, or of a number that names none, to the sender of a packet. It carries the generation that the packet named, so that the
sender takes it (R246). -/
def State.ltReply (s : State) (pk : LighterPkt) (typ psn off : Nat) (payload : List Byte) : State :=
  s.ltSend (s.fld qpTenantId pk.dstQp.val) pk.srcDev
    { s.ltNew typ psn (Fin.ofNat 1048576 pk.srcQp) pk.srcGen pk.dstQp.val pk.dstGen with offset := off, payload := payload }

/-- A packet of a queue pair to its peer. -/
def State.ltToPeer (s : State) (q typ psn off : Nat) (sack : BitVec 256) : State :=
  s.ltSend (s.fld qpTenantId q) (s.fld qpPeerDevice q)
    { s.ltNew typ psn (Fin.ofNat 1048576 (s.fld qpPeerQp q)) (s.fld qpPeerGen q) q (s.fld qpGeneration q) with offset := off, sack := sack }

/-- A NAK with its code (R237). -/
def State.ltNak (s : State) (pk : LighterPkt) (code : Nat) : State :=
  (s.ltCount (s.fld qpTenantId pk.dstQp.val) (3 + code) 1).ltReply pk 10 pk.psn code []

/-- A request names a region by `RemoteKey` (R237 check 6). -/
def ltNamesRegion (pk : LighterPkt) : Bool := pk.typ ≠ 2 && pk.typ ≠ 7

/-- A NAK KEY_INVALID, counted against the region index that the packet names (R229). -/
def State.keyNak (s : State) (pk : LighterPkt) : State :=
  let i := pk.remoteKey / 256 % 16777216
  (if ltNamesRegion pk && decide (i < 4194304) then s.addSat regKeyRefusals i 1 else s).ltNak pk 1

/-- Check 2 of Table 9-12. -/
def State.ltPeerOk (s : State) (pk : LighterPkt) : Bool :=
  let q := pk.dstQp.val
  s.qpIs q qpReady && s.fld qpGeneration q = pk.dstGen && s.fld qpPeerDevice q = pk.srcDev && s.fld qpPeerQp q = pk.srcQp
  && s.fld qpPeerGen q = pk.srcGen

/-! ## Errors and completions (R220 to R226) -/

/-- Bytes of packet i of a message of L bytes (R235). -/
def pieceLen (len i : Nat) : Nat := min 4096 (len - 4096 * i)

/-- Bytes of a work request whose sequence numbers are done (Table 9-4, `ByteCount`). -/
def bytesDone (r : QpRun) (base : Nat) (w : WorkReq) : Nat :=
  let len := wLength w.words
  let d := distMod 24 base w.first
  let k := if d < 8388608 then min w.count d else 0
  min len (4096 * k)
    + ((r.sent.filter (fun x => x.isDone && decide (distMod 24 x.psn w.first < w.count))).map (fun x => pieceLen len (distMod 24 x.psn w.first))).sum

/-- Work requests that the entry to Error overtakes: from the first that is not done, each without a status takes FLUSHED. -/
def flushWrs (r : QpRun) (base : Nat) (live : Bool) : List WorkReq → List WorkReq
  | [] => []
  | w :: ws =>
    let here := live && w.status = 0 && decide (w.count ≤ distMod 24 base w.first) && decide (distMod 24 base w.first < 8388608)
    (if here then w else { w with status := if w.status = 0 then 0x0C else w.status, bytes := bytesDone r base w }) :: flushWrs r base here ws

/-- A message that has passed its last sequence number (R222). -/
def msgDone (expected : Nat) (m : RecvMsg) : Bool :=
  match m.lastPsn with
  | none => false
  | some p => decide (distMod 24 expected (p + 1) < 8388608)

/-- Messages that the entry to Error overtakes. -/
def flushMsgs (expected : Nat) (live : Bool) : List RecvMsg → List RecvMsg
  | [] => []
  | m :: ms =>
    let here := live && m.status = 0 && msgDone expected m
    (if here || m.status ≠ 0 then m else { m with status := 0x0C }) :: flushMsgs expected here ms

/-- Packets of a queue pair that wait at the internal agent are not sent; a NAK still is (R228, R237). -/
def State.ltQuiet (s : State) (q : Nat) : State :=
  { s with core := { s.core with pkts := s.core.pkts.filter (fun k => !(decide (k.loc = .ingress) && decide (k.ingress = 255)
      && (match k.body with | .lighter l => decide (l.srcQp = q) && decide (l.typ ≠ 10) | _ => false))) } }

/-- A queue pair in Init or Ready enters Error: it sends nothing more, and what has not reached its commit point completes FLUSHED
(Table 9-8). -/
def State.qpToError (s : State) (q : Nat) : State :=
  if s.qpIs q qpInit || s.qpIs q qpReady then
    let r := s.run q
    let base := s.fld qpBasePsn q
    let s1 := (s.put qpState q qpError).ltQuiet q
    let s2 := s1.setRun { r with
      wrs := flushWrs r base true r.wrs, msgs := flushMsgs (s.fld qpExpectedPsn q) true r.msgs,
      sent := [], sack := [], noRecv := none, timer := none, ackDue := none, ackNow := false, fences := [] }
    { s2 with lighter := { s2.lighter with
        waiting := s2.lighter.waiting.filter (fun w => decide (w.pk.dstQp.val ≠ q)),
        sendWaits := s2.lighter.sendWaits.filter (fun w => decide (w.1 ≠ q)) } }
  else s

/-- The same for a list. -/
def State.qpsToError (s : State) : List Nat → State
  | [] => s
  | q :: qs => (s.qpToError q).qpsToError qs

/-- The queue pairs that are not Absent. -/
def State.qpsUsed (s : State) : List Nat := (s.selsOf cQueuePair).filter (fun q => decide (s.fld qpState q ≠ 0))

/-- A queue pair names a completion queue; without a receive queue it names one only (DEDUCED, log entry 15). -/
def State.namesCq (s : State) (c q : Nat) : Bool :=
  decide (s.fld qpSendCq q = c) || (decide (s.fld qpRecvCq q = c) && decide (s.fld qpLog2RqEntries q ≠ 0))

/-- A Lighter packet that fails check 1 is discarded and counted; one whose `E2eCheck` is wrong is an event of its checker (R237, R348; DEDUCED, log
entry 112). -/
def State.ltBroken (s : State) (pk : LighterPkt) : State :=
  let s1 := s.ltCount (s.fld qpTenantId pk.dstQp.val) 14 1
  if pk.e2e = ltCheck pk then s1
  else s1.fault { grade := 0, checker := checkerId 0x0A 0, cls := cQueuePair, sel := pk.dstQp.val, syn0 := pk.e2e, syn1 := ltCheck pk, action := 15, key := 0 }

/-- A completion queue overflows: contained until it is destroyed (R225, Table 14-5). -/
def State.cqOverflow (s : State) (c : Nat) : State :=
  let e := (s.put cqState c 2).record
    { grade := 1, checker := checkerId 0x16 0xFF, cls := cCompletionQueue, sel := c, syn0 := s.fld cqProducer c, syn1 := 0, action := 2, key := 0 }
  let s1 := e.1.contain e.2.1 (.obj cCompletionQueue c)
  s1.qpsToError ((s1.qpsUsed).filter (fun q => s1.namesCq c q))

/-- The interrupt of a completion queue, behind the entries written into the view's host (R226); it clears `Armed`. -/
def State.cqInterrupt (s : State) (v c : Nat) : State :=
  let t := s.fld cqTenantId c
  (s.put cqArmed c 0).hostPost v t (.ltMsix v t (s.fld cqMsixVector c)) (s.tlpHead 4)

/-- `Phase` of the entry that the producer index names (R220). -/
def State.cqPhase (s : State) (c : Nat) : Nat :=
  1 - (tget 0 s.lighter.wraps c * 65536 + s.fld cqProducer c) / max 1 (s.fld cqEntries c) % 2

/-- Writes one completion entry (R220, R223, R225, R226); an overflowed or absent queue takes none. -/
def State.complete (s : State) (q : Nat) (recv : Bool) (idx : Nat) (wrId : Word) (op status imm bytes disc : Nat) : State :=
  let c := if recv then s.fld qpRecvCq q else s.fld qpSendCq q
  let p := s.fld cqProducer c
  let n := s.fld cqEntries c
  if s.fld cqState c ≠ 1 then s
  else if distMod 16 p (s.fld cqConsumer c) = min n 65535 then s.cqOverflow c
  else
    let w1 := q * 17592186044416 + bit recv * 1099511627776 + op * 4294967296 + status * 16777216
      + s.fld qpGeneration q * 65536 + idx
    let ws : List Nat := [wrId.toNat, w1, imm * 4294967296 + bytes, s.cqPhase c * 9223372036854775808 + disc]
    let v := s.fld qpHostView q
    let t := s.fld qpTenantId q
    let data := ws.flatMap (leBytes 8)
    let s1 := s.hostPost v t (.ltWrite v t (s.fld cqRingBase c * 4096 + 32 * (p % max 1 n)) data) data
    let s2 := s1.put cqProducer c ((p + 1) % 65536)
    let s3 := if p = 65535 then
        { s2 with lighter := { s2.lighter with wraps := tput 0 s2.lighter.wraps c (tget 0 s2.lighter.wraps c + 1) } } else s2
    if s3.fld cqArmed c = 1 then s3.cqInterrupt v c else s3

/-- Counts of the outstanding: the retransmission timer runs while `BasePsn` and `NextPsn` differ (R241). -/
def State.timerFrom (s : State) (q : Nat) (r : QpRun) : QpRun :=
  { r with timer := if s.fld qpBasePsn q = s.fld qpNextPsn q then none else some (s.now + s.fld qpRtoNs q) }

/-- The requester fails a work request with a status: the queue pair enters Error (R221). -/
def State.failWr (s : State) (q idx status : Nat) : State :=
  let r := s.run q
  (s.setRun { r with wrs := r.wrs.map (fun w => if w.index = idx then { w with status := status } else w) }).qpToError q

/-- A responder fails a receive entry with a status: the queue pair enters Error (R237). -/
def State.failMsg (s : State) (q seq status : Nat) : State :=
  let r := s.run q
  (s.setRun { r with msgs := r.msgs.map (fun m => if m.seq = seq then { m with status := status } else m) }).qpToError q

/-! ## Doorbells (R216, R217, R226) -/

/-- Tenant of a Lighter function. -/
def ltTenant : LighterFn → Nat
  | .pf _ => 0
  | .vf t => t.val

/-- The view that a Lighter function is in. -/
def State.ltFnView (s : State) : LighterFn → Nat
  | .pf v => v.val
  | .vf t => s.fld tenHomeView t.val

/-- The function answers: its view's host link is up and it exists (R176, R216). -/
def State.ltFnLive (s : State) : LighterFn → Bool
  | .pf v => s.viewLive v.val && s.fmGranted v.val
  | .vf t => decide (t.val ≠ 0) && decide (s.fld tenState t.val ≠ 0) && s.viewLive (s.fld tenHomeView t.val)

def dbQueue (w : Word) : Nat := bitsOf w 44 20
def dbKind (w : Word) : Nat := bitsOf w 40 4
def dbGen (w : Word) : Nat := bitsOf w 16 8
def dbIndex (w : Word) : Nat := bitsOf w 0 16

/-- A doorbell's form: one naturally aligned 8-byte write, `Kind` at most 3, reserved bits zero (R217). -/
def dbFormOk (whole : Bool) (w : Word) : Bool :=
  whole && dbKind w ≤ 3 && bitsOf w 24 16 = 0 && (dbKind w < 2 || (dbGen w = 0 && dbQueue w < 262144))

/-- A doorbell of one kind, or one that no kind claims. -/
def dbMine (k : Nat) (w : Word) : Bool := dbKind w = k || 3 < dbKind w

/-- A discarded doorbell counts at the function (R217). -/
def State.dbError (s : State) (f : LighterFn) : State := s.ltCount (ltTenant f) 12 1

/-- A doorbell of a queue pair passes R217. -/
def State.dbQpOk (s : State) (f : LighterFn) (w : Word) (consumer log2 : Nat) : Bool :=
  let q := dbQueue w
  (s.qpIs q qpInit || s.qpIs q qpReady) && s.fld qpTenantId q = ltTenant f && s.fld qpGeneration q = dbGen w
  && distMod 16 (dbIndex w) consumer ≤ ringRoom log2

/-- A doorbell of a completion queue passes R217. -/
def State.dbCqOk (s : State) (f : LighterFn) (w : Word) : Bool :=
  let c := dbQueue w
  s.fld cqState c ≠ 0 && s.fld cqTenantId c = ltTenant f
  && distMod 16 (s.fld cqProducer c) (dbIndex w) ≤ min (s.fld cqEntries c) 65535

/-- A read of the Lighter BAR0: `DOORBELL` is write-only, and every other offset reads as zero (R216). -/
def lighterBar0Read (_f : LighterFn) (_offset : Nat) : Word := 0

/-- `DOORBELL_SEND_QUEUE` (R217): kind 0. -/
def execDoorbellSend (f : LighterFn) (whole : Bool) (value : Word) (s : State) : Host.Outcome State Fault Refusal :=
  let q := dbQueue value
  if !s.ltFnLive f || !dbMine 0 value then .next s
  else if dbFormOk whole value && s.dbQpOk f value (s.fld qpSqConsumer q) (s.fld qpLog2SqEntries q) then
    .next (s.setRun { s.run q with sqProducer := dbIndex value })
  else .next (s.dbError f)

/-- `DOORBELL_RECEIVE_QUEUE` (R217): kind 1. -/
def execDoorbellRecv (f : LighterFn) (whole : Bool) (value : Word) (s : State) : Host.Outcome State Fault Refusal :=
  let q := dbQueue value
  if !s.ltFnLive f || !dbMine 1 value then .next s
  else if dbFormOk whole value && decide (s.fld qpLog2RqEntries q ≠ 0)
      && s.dbQpOk f value (s.fld qpRqConsumer q) (s.fld qpLog2RqEntries q) then
    .next (s.setRun { s.run q with rqProducer := dbIndex value })
  else .next (s.dbError f)

/-- `DOORBELL_CQ_ARM` (R226): kind 2. -/
def execDoorbellCqArm (f : LighterFn) (whole : Bool) (value : Word) (s : State) : Host.Outcome State Fault Refusal :=
  let c := dbQueue value
  if !s.ltFnLive f || !dbMine 2 value then .next s
  else if dbFormOk whole value && s.dbCqOk f value then
    let s1 := (s.put cqConsumer c (dbIndex value)).put cqArmed c 1
    .next (if s1.fld cqProducer c ≠ dbIndex value then s1.cqInterrupt (s.ltFnView f) c else s1)
  else .next (s.dbError f)

/-- `DOORBELL_CQ_CONSUMER` (R226): kind 3. -/
def execDoorbellCqConsumer (f : LighterFn) (whole : Bool) (value : Word) (s : State) : Host.Outcome State Fault Refusal :=
  let c := dbQueue value
  if !s.ltFnLive f || !dbMine 3 value then .next s
  else if dbFormOk whole value && s.dbCqOk f value then .next (s.put cqConsumer c (dbIndex value))
  else .next (s.dbError f)

/-! ## Requester (R219, R235, R240 to R243) -/

/-- The context of a queue pair. -/
def qpCtx (q : Nat) : Nat := okey cQueuePair q

/-- First sequence number of the next work request. -/
def State.nextFirst (s : State) (q : Nat) : Nat :=
  match (s.run q).wrs.getLast? with
  | none => s.fld qpNextPsn q
  | some w => (w.first + w.count) % 16777216

/-- The next work request of a queue pair may start (R217, R219, R244): Ready, posted, its tenant not suspended or resetting, no
fence before it, no failed one before it. -/
def State.canStart (s : State) (q : Nat) : Bool :=
  let r := s.run q
  s.running && s.qpIs q qpReady && s.tenantActive (s.fld qpTenantId q)
  && decide (r.wrs.length < distMod 16 r.sqProducer (s.fld qpSqConsumer q))
  && !r.wrs.any (fun w => wOpcode w.words = 6 || w.status ≠ 0)

/-- `WORK_REQUEST_START` (R219, R245): fetches the next work request from its ring, `wr` (none: the ring read failed), checks it and starts it; one
that fails a check takes no sequence number and completes with its status in ring order. -/
def execWorkRequestStart (q : QpId) (wr : Option (List Word)) (s : State) : Host.Outcome State Fault Refusal :=
  let w := wr.getD []
  let ks := qpCtx q.val :: (if w.length = 8 && wOpcode w ≠ 6 then regCtx (wLocalKey w) else [])
  if wr.isSome && decide (w.length ≠ 8) then .next s
  else if !s.canStart q.val then .next s
  else match s.lacks ks with
    | some k => .next (s.ctxMiss k)
    | none =>
      let r := s.run q.val
      let t := s.fld qpTenantId q.val
      let idx := (s.fld qpSqConsumer q.val + r.wrs.length) % 65536
      let st := match wr with
        | none => 0x02
        | some w => if !sendWrOk w then 0x03 else if !s.localOk t w then 0x01 else 0
      let new : WorkReq := ⟨idx, w, s.nextFirst q.val, if st = 0 then wrPackets w else 0, st, 0, 0⟩
      let s1 := (s.touchAll ks).hostReads (s.fld qpHostView q.val) t [(ringAt (s.fld qpSqBase q.val) (s.fld qpLog2SqEntries q.val) idx, 64)]
      .next ((s1.setRun { r with wrs := r.wrs ++ [new] }).ltCount t 0 1)

/-- `Type` of a work request's packets (Table 9-11). -/
def wrType (op : Nat) : Nat := if op = 2 then 3 else if op = 3 then 2 else if op = 4 ∨ op = 5 then 5 else if op = 6 then 7 else op

/-- Sequence numbers of atomic work requests sent and not done (R235). -/
def atomicsOut (r : QpRun) : Nat := (r.sent.filter (fun x => decide (x.pk.typ = 5) && !x.isDone)).length

/-- The work request that owns a sequence number. -/
def wrOf (r : QpRun) (psn : Nat) : Option WorkReq := r.wrs.find? (fun w => decide (distMod 24 psn w.first < w.count))

/-- Packet i of a work request. -/
def State.wrPacket (s : State) (q : QpId) (r : QpRun) (w : WorkReq) (i : Nat) (payload : List Byte) : LighterPkt :=
  let op := wOpcode w.words
  let recv := op = 1 || op = 3
  { s.ltNew (wrType op) ((w.first + i) % 16777216) (Fin.ofNat 1048576 (s.fld qpPeerQp q.val)) (s.fld qpPeerGen q.val) q.val
      (s.fld qpGeneration q.val) with
    first := i = 0, last := decide (i + 1 = w.count)
    remoteKey := if op = 3 || op = 6 then 0 else wRemoteKey w.words
    offset := if op = 6 then 0 else if op = 3 then 4096 * i else if op = 4 || op = 5 then wRemoteOffset w.words
      else (wRemoteOffset w.words + 4096 * i) % 18446744073709551616
    aux := if op = 2 then pieceLen (wLength w.words) i else 0
    immediate := if recv then wImmediate w.words else 0
    recvSeq := if recv then r.sendSeq % 4294967296 else 0
    payload := payload }

/-- The bytes of an AtomicOp's operands. -/
def atomicPayload (w : List Word) : List Byte := leBytes 8 (w.getD 6 0).toNat ++ leBytes 8 (w.getD 7 0).toNat

/-- A request packet of a queue pair waits at the internal agent: nothing later of the pair is sent (R166). -/
def State.ltHeld (s : State) (q : Nat) : Bool :=
  s.core.pkts.any (fun k => decide (k.loc = .ingress) && decide (k.ingress = 255)
    && (match k.body with | .lighter l => decide (l.srcQp = q) && ltIsReq l.typ | _ => false))

/-- The requester waits for a translation of its local region (R232). -/
def State.sendWait (s : State) (q : Nat) (p : PageRef) : State :=
  if s.lighter.sendWaits.any (fun w => decide (w.1 = q)) then s
  else
    let s1 := s.askPage (s.fld qpTenantId q) p
    { s1 with lighter := { s1.lighter with sendWaits := s1.lighter.sendWaits ++ [(q, p)] } }

/-- `LIGHTER_PACKET_SEND` (R235): the requester hands sequence number `NextPsn` to the core; `payload` is what it read from local memory (none: the
read failed). The packet is sent when the core admits it (R166). -/
def execLighterPacketSend (q : QpId) (payload : Option (List Byte)) (s : State) : Host.Outcome State Fault Refusal :=
  let r := s.run q.val
  let psn := s.fld qpNextPsn q.val
  match wrOf r psn with
  | none => .next s
  | some w =>
    let op := wOpcode w.words
    let t := s.fld qpTenantId q.val
    let i := distMod 24 psn w.first
    let n := if op = 0 || op = 1 || op = 3 then pieceLen (wLength w.words) i else 0
    let key := wLocalKey w.words
    let ks := qpCtx q.val :: (if n = 0 then [] else regCtx key)
    if (match payload with | some d => decide (d.length ≠ n) | none => false) then .next s
    else if !s.running || !s.qpIs q.val qpReady || s.ltHeld q.val || decide (s.fld qpWindow q.val ≤ distMod 24 psn (s.fld qpBasePsn q.val))
        || (op = 6 && r.wrs.head? ≠ some w) || ((op = 4 || op = 5) && decide (8 ≤ atomicsOut r)) then .next s
    else match s.lacks ks with
      | some k => .next (s.ctxMiss k)
      | none =>
        let s1 := s.touchAll ks
        if n ≠ 0 && !s.keyOk t key then .next (s1.failWr q.val w.index 0x01)
        else match s.xlate key (wLocalOffset w.words + 4096 * i) n with
          | .miss p => .next (s1.sendWait q.val p)
          | .hit places =>
            let s2 := s1.hostReads (s.regView key) t places
            match payload with
            | none => .next (s2.failWr q.val w.index 0x02)
            | some d => .next (s2.ltSend t (s.fld qpPeerDevice q.val) (s.wrPacket q r w i (if op = 4 || op = 5 then atomicPayload w.words else d)))

/-- The consecutive done sequence numbers at the head of the outstanding ones. -/
def doneHead : List SentPkt → List SentPkt
  | [] => []
  | x :: xs => if x.isDone then x :: doneHead xs else []

/-- `SrttNs` after a sample (R241). The quotient is rounded toward zero (DESIGN CHOICE, log entry 16). -/
def srttNext (srtt sample : Nat) : Nat :=
  let v := if srtt = 0 then sample
    else if srtt ≤ sample then srtt + (sample - srtt) / 8 else srtt - (srtt - sample) / 8
  min v 16777215

/-- `RtoNs` that a smoothed time gives (R241, R242). -/
def rtoOf (srtt : Nat) : Nat := if srtt = 0 then 16000 else max 2000 (min 2000000 (4 * srtt))

/-- `BasePsn` advances past every consecutive done sequence number: a round-trip sample if none of them was re-sent, `RetryCount` 0,
`RtoNs` anew, the timer restarted (R240 to R242). -/
def State.advanceBase (s : State) (q : Nat) : State :=
  let r := s.run q
  let d := doneHead r.sent
  match d.getLast? with
  | none => s
  | some l =>
    let srtt := if d.any (·.again) then s.fld qpSrttNs q else srttNext (s.fld qpSrttNs q) (s.now - l.at0)
    let s1 := ((((s.put qpBasePsn q ((l.psn + 1) % 16777216)).put qpSrttNs q srtt).put qpRtoNs q (rtoOf srtt)).put qpRetryCount q 0)
    s1.setRun (s1.timerFrom q { r with sent := r.sent.drop d.length })

/-- Sequence number p lies in [BasePsn, NextPsn). -/
def State.outstanding (s : State) (q p : Nat) : Bool :=
  decide (distMod 24 p (s.fld qpBasePsn q) < distMod 24 (s.fld qpNextPsn q) (s.fld qpBasePsn q))

/-- An ACK covers a sequence number: `Psn` above it, or its `Sack` bit (R240). -/
def ackCovers (base ackPsn : Nat) (sack : BitVec 256) (p : Nat) : Bool :=
  decide (distMod 24 p base < distMod 24 ackPsn base)
  || (decide (distMod 24 p ackPsn < 256) && sack.getLsbD (distMod 24 p ackPsn))

/-- An ACK passes the checks of R240. -/
def State.ackOk (s : State) (pk : LighterPkt) : Bool :=
  let q := pk.dstQp.val
  ltIntact pk && s.ltPeerOk pk && (s.outstanding q pk.psn || decide (pk.psn = s.fld qpNextPsn q))

/-- An ACK at the requester (R240). -/
def State.takeAck (s : State) (pk : LighterPkt) : State :=
  let q := pk.dstQp.val
  if !ltIntact pk then s.ltBroken pk
  else if !s.ackOk pk then s.ltCount (s.fld qpTenantId q) 14 1
  else
    let r := s.run q
    let base := s.fld qpBasePsn q
    let sent := r.sent.map (fun x =>
      if decide (x.pk.typ ≤ 2) && ackCovers base pk.psn pk.sack x.psn then { x with isDone := true } else x)
    let sack := (List.range 256).filter (fun i => pk.sack.getLsbD i)
    (s.setRun { r with sent := sent, sack := sack.map (fun i => (pk.psn + i) % 16777216) }).advanceBase q

/-- Acknowledgements of a queue pair that arrive in the same clock, which go first (Table 9-13): the commands that still wait act before time goes on
(log entry 2). -/
def acksFor (q : Nat) : List Instr → List LighterPkt
  | [] => []
  | c :: cs =>
    match c with
    | .ackReceived pk => if pk.dstQp.val = q && pk.typ = 9 then pk :: acksFor q cs else acksFor q cs
    | _ => acksFor q cs

/-- Takes a list of acknowledgements. -/
def State.takeAcks (s : State) : List LighterPkt → State
  | [] => s
  | pk :: rest => (s.takeAck pk).takeAcks rest

/-- One of a list of acknowledgements advances `BasePsn`. -/
def State.acksAdvance (s : State) (q : Nat) (l : List LighterPkt) : Bool :=
  l.any (fun pk => decide ((s.takeAck pk).fld qpBasePsn q ≠ s.fld qpBasePsn q))

/-- Status that a NAK code gives (Table 9-5). -/
def nakStatus (code : Nat) : Nat :=
  if code = 1 then 0x04 else if code = 2 then 0x05 else if code = 3 then 0x06 else if code = 5 then 0x07
  else if code = 6 then 0x08 else if code = 7 then 0x09 else 0x0A

/-- A NAK at the requester (R243). A code outside 1–8 is never sent (R237) and is discarded. -/
def State.takeNak (s : State) (pk : LighterPkt) : State :=
  let q := pk.dstQp.val
  let code := pk.offset % 256
  if !ltIntact pk then s.ltBroken pk
  else if !(s.ltPeerOk pk && s.outstanding q pk.psn) || !(1 ≤ code && code ≤ 8) then s.ltCount (s.fld qpTenantId q) 14 1
  else
    let r := s.run q
    if code = 4 then
      let low := match r.noRecv with
        | none => pk.psn
        | some p => if distMod 24 pk.psn (s.fld qpBasePsn q) < distMod 24 p (s.fld qpBasePsn q) then pk.psn else p
      (s.put qpRetryCount q (min (s.fld qpRetryLimit q) (s.fld qpRetryCount q + 1))).setRun { r with noRecv := some low }
    else match wrOf r pk.psn with
      | none => s
      | some w => s.failWr q w.index (nakStatus code)

/-- Re-sends a list of packets with `Retransmit` set (R242). -/
def State.resends (s : State) (q : Nat) : List SentPkt → State
  | [] => s
  | x :: xs =>
    ((s.addSat qpRetransmits q 1).ltCount (s.fld qpTenantId q) 2 1).ltSend (s.fld qpTenantId q) (s.fld qpPeerDevice q)
      { x.pk with retransmit := true } |>.resends q xs

/-- The oldest work request of a send queue that is not complete: one whose sequence numbers are not all done (R242). -/
def State.oldestOpen (s : State) (q : Nat) : Option WorkReq :=
  let base := s.fld qpBasePsn q
  (s.run q).wrs.find? (fun w => !(decide (w.count ≤ distMod 24 base w.first) && decide (distMod 24 base w.first < 8388608)))

/-- What the timer's expiry re-sends: what is not done and whose `Sack` bit is clear, and after a NAK NO_RECV that sequence number and all later ones
(R242, R243). -/
def resendSet (r : QpRun) (base : Nat) : List SentPkt :=
  r.sent.filter (fun x => (!x.isDone && !r.sack.contains x.psn)
    || (match r.noRecv with | some p => decide (distMod 24 p base ≤ distMod 24 x.psn base) | none => false))

/-- `RETRANSMISSION_TIMER_EXPIRY` (R242). An acknowledgement of the same clock that advances `BasePsn` goes first, and the timer restarts (Table 9-13).
The payload is re-sent as it was first read (DESIGN CHOICE, log entry 17). -/
def execRetransmissionTimerExpiry (q : QpId) (s : State) : Host.Outcome State Fault Refusal :=
  let r := s.run q.val
  match r.timer with
  | none => .next s
  | some due =>
    if s.now < due || !s.running || !s.qpIs q.val qpReady || s.acksAdvance q.val (acksFor q.val s.pending) then .next s
    else if s.fld qpRetryLimit q.val ≤ s.fld qpRetryCount q.val then
      match s.oldestOpen q.val with
      | none => .next s
      | some w => .next (s.failWr q.val w.index 0x0B)
    else
      let again := resendSet r (s.fld qpBasePsn q.val)
      let s1 := (s.put qpRetryCount q.val (s.fld qpRetryCount q.val + 1)).put qpRtoNs q.val (min 2000000 (2 * s.fld qpRtoNs q.val))
      let r1 := { r with noRecv := none, timer := some (s.now + s1.fld qpRtoNs q.val),
                         sent := r.sent.map (fun x => if again.any (fun y => decide (y.psn = x.psn)) then { x with again := true } else x) }
      .next ((s1.setRun r1).resends q.val again)

/-! ## Responder (R237 to R239, R244) -/

/-- `ExpectedPsn` advances past every consecutive `Sack` bit; the first argument bounds the steps. -/
def advanceExpected : Nat → Nat → List Nat → Nat
  | 0, e, _ => e
  | n + 1, e, sack => if sack.contains e then advanceExpected n ((e + 1) % 16777216) sack else e

/-- A packet has been placed: its `Sack` bit, `ExpectedPsn`, and the triggers of R239. -/
def State.placedAt (s : State) (q psn : Nat) (last : Bool) : State :=
  let r := s.run q
  let sack := psn :: r.rsack
  let lasts := if last then psn :: r.lasts else r.lasts
  let e0 := s.fld qpExpectedPsn q
  let e1 := advanceExpected 256 e0 sack
  let passed := fun p => decide (distMod 24 p e0 < distMod 24 e1 e0)
  let n := r.unreported + 1
  (s.put qpExpectedPsn q e1).setRun { r with
    rsack := sack.filter (fun p => !passed p), lasts := lasts.filter (fun p => !passed p), unreported := n,
    ackDue := some (r.ackDue.getD (s.now + 1000)), ackNow := r.ackNow || last || lasts.any passed || decide (8 ≤ n) }

/-- Requests an ACK at once. -/
def State.wantAck (s : State) (q : Nat) : State := s.setRun { s.run q with ackNow := true }

/-- A duplicate that is not answered again (R238). -/
def State.duplicate (s : State) (q : Nat) : State :=
  (s.addSat qpDuplicates q 1).ltCount (s.fld qpTenantId q) 3 1

/-- Bytes that a request packet names at the responder. -/
def ltSpan (pk : LighterPkt) : Nat := if pk.typ = 3 then pk.aux else if pk.typ = 5 then 8 else pk.payload.length

/-- The permission of Table 9-3 that a packet needs. -/
def State.grants (s : State) (pk : LighterPkt) : Bool :=
  let i := pk.remoteKey / 256 % 16777216
  if pk.typ = 3 then s.fld regRemoteRead i = 1
  else if pk.typ = 5 then s.fld regRemoteAtomic i = 1
  else s.fld regRemoteWrite i = 1

/-- Check 9 for a packet that consumes a receive entry: posted, and what its message record then is. -/
def State.entryFor (s : State) (pk : LighterPkt) (host : HostReply) : Option RecvMsg :=
  let q := pk.dstQp.val
  let r := s.run q
  match r.msgs.find? (fun m => decide (m.seq = pk.recvSeq)) with
  | some m => some m
  | none =>
    if distMod 16 pk.recvSeq (s.fld qpRqConsumer q) < distMod 16 r.rqProducer (s.fld qpRqConsumer q) then
      some ⟨pk.recvSeq, host.entry.getD [], if pk.typ = 1 then 1 else 3, pk.immediate, 0, none, if host.entry.isNone then 0x02 else 0⟩
    else none

/-- Reads the receive entry of a message that has none yet from its ring (R215). -/
def State.fetchEntry (s : State) (pk : LighterPkt) : State :=
  let q := pk.dstQp.val
  if (s.run q).msgs.any (fun m => decide (m.seq = pk.recvSeq)) then s
  else s.hostReads (s.fld qpHostView q) (s.fld qpTenantId q)
    [(ringAt (s.fld qpRqBase q) (s.fld qpLog2RqEntries q) (pk.recvSeq % 65536), 64)]

/-- Inserts or replaces a message, in order of `RecvSeq`. -/
def putMsg (m : RecvMsg) : List RecvMsg → List RecvMsg
  | [] => [m]
  | x :: xs => if x.seq = m.seq then m :: xs else if m.seq < x.seq then m :: x :: xs else x :: putMsg m xs

/-- Status of a receive entry that cannot serve: unreadable, malformed, or its region fails R219; 0 if it serves. -/
def State.entryStatus (s : State) (t : Nat) (m : RecvMsg) : Nat :=
  if m.status ≠ 0 then m.status
  else if !recvWrOk m.entry then 0x03
  else if !(s.keyOk t (wLocalKey m.entry) && s.inRegion (wLocalKey m.entry) (wLocalOffset m.entry) (wLength m.entry)) then 0x01
  else 0

/-- Region key and offset that a packet's bytes go to: the packet's own, or the receive entry's for `SEND`. -/
def ltWhere (pk : LighterPkt) (m : Option RecvMsg) : Nat × Nat :=
  if pk.typ = 2 then
    match m with
    | some m => (wLocalKey m.entry, wLocalOffset m.entry + pk.offset)
    | none => (0, 0)
  else (pk.remoteKey, pk.offset)

/-- The packet waits for a context or a translation (R232, R245). -/
def State.ltPark (s : State) (w : LtWait) : State :=
  { s with lighter := { s.lighter with waiting := s.lighter.waiting ++ [w] } }

/-- A `READ_REQ` is read and answered (R238). -/
def State.ltRead (s : State) (pk : LighterPkt) (data : List Byte) (places : List (Nat × Nat)) : State :=
  (s.hostReads (s.regView pk.remoteKey) (s.fld qpTenantId pk.dstQp.val) places).ltReply pk 4 pk.psn 0 data

/-- An `ATOMIC_REQ` is executed by the host and answered with the old value, which the result cache keeps (R238). -/
def State.ltAtomic (s : State) (pk : LighterPkt) (old : List Byte) (places : List (Nat × Nat)) : State :=
  let q := pk.dstQp.val
  let s1 := s.emit (.lighterAtomic (s.regView pk.remoteKey) (s.fld qpTenantId q) ((places.map (·.1)).headD 0)
    ([0, 1].map (fun i => word (leNat ((pk.payload.drop (8 * i)).take 8)))))
  let r := s1.run q
  (s1.setRun { r with atomics := ((pk.psn, old) :: r.atomics).take 8 }).ltReply pk 6 pk.psn 0 old

/-- Data of a write, `WRITE_IMM` or `SEND` goes into the responder's host memory (R238). -/
def State.ltStore (s : State) (pk : LighterPkt) (key : Nat) (m : Option RecvMsg) (places : List (Nat × Nat)) : State :=
  let q := pk.dstQp.val
  let s1 := match m with
    | none => s
    | some m =>
      let r := s.run q
      let m1 := { m with len := m.len + pk.payload.length, lastPsn := if pk.last then some pk.psn else m.lastPsn }
      s.setRun { r with msgs := putMsg m1 r.msgs }
  s1.hostWrites (s.regView key) (s.fld qpTenantId q) (some q) pk.payload places

/-- Checks 10 and 11, then the placement (R237, R238). `m` is the message of a packet that consumes a receive entry; `dup`: a READ_REQ
read again. -/
def State.ltPlace (s : State) (pk : LighterPkt) (host : HostReply) (m : Option RecvMsg) (dup : Bool) : State :=
  let q := pk.dstQp.val
  let w := ltWhere pk m
  match (if pk.typ = 7 then XlateRes.hit [] else s.xlate w.1 w.2 (ltSpan pk)) with
  | .miss p => (s.askPage (s.fld qpTenantId q) p).ltPark ⟨pk, host, true, .page p⟩
  | .hit places =>
    if (pk.typ = 3 || pk.typ = 5) && !host.success then s.ltNak pk 8
    else if pk.typ = 3 && dup then s.ltRead pk (host.data.take (ltSpan pk)) places
    else
      let s1 := if pk.typ = 7 then s.setRun { s.run q with fences := (s.run q).fences ++ [pk.psn] }
        else if pk.typ = 3 then s.ltRead pk (host.data.take (ltSpan pk)) places
        else if pk.typ = 5 then s.ltAtomic pk (host.data.take 8) places
        else s.ltStore pk w.1 m places
      s1.placedAt q pk.psn pk.last

/-- Check 9, then the rest (R237): a receive entry that is not posted, that is too short, or that cannot serve. -/
def State.ltEntry (s : State) (pk : LighterPkt) (host : HostReply) : State :=
  let q := pk.dstQp.val
  match s.entryFor pk host with
  | none => s.ltNak pk 4
  | some m =>
    let s1 := s.fetchEntry pk
    let st := s.entryStatus (s.fld qpTenantId q) m
    let r := s.run q
    if st ≠ 0 then
      (((s1.setRun { r with msgs := putMsg { m with status := st } r.msgs }).ltNak pk 6)).failMsg q m.seq st
    else if pk.typ = 2 && decide (wLength m.entry < pk.offset + pk.payload.length) then
      (((s1.setRun { r with msgs := putMsg { m with status := 0x07 } r.msgs }).ltNak pk 5)).failMsg q m.seq 0x07
    else s1.ltPlace pk host (some m) false

/-- Checks 5 to 9 of Table 9-12; `keyOk` after the packet passed check 6 before (R230). -/
def State.ltChecks (s : State) (pk : LighterPkt) (host : HostReply) (keyOk dup : Bool) : State :=
  let t := s.fld qpTenantId pk.dstQp.val
  let named := ltNamesRegion pk
  if s.suspended t && !keyOk then s.keyNak pk
  else if named && !keyOk && (!s.keyOk t pk.remoteKey || s.objContained cRegion (pk.remoteKey / 256 % 16777216)) then s.keyNak pk
  else if named && !s.grants pk then s.ltNak pk 2
  else if named && (!s.inRegion pk.remoteKey pk.offset (ltSpan pk) || (pk.typ = 5 && decide (pk.offset % 8 ≠ 0))) then s.ltNak pk 3
  else if pk.typ = 1 || pk.typ = 2 then s.ltEntry pk host
  else s.ltPlace pk host none dup

/-- A request packet at the responder (Table 9-12). Every duplicate causes an ACK (R239). A duplicate READ_REQ passes its key checks again before it is
read again (DEDUCED from R230, log entry 18). -/
def State.ltRequest (s : State) (pk : LighterPkt) (host : HostReply) (keyOk : Bool) : State :=
  let q := pk.dstQp.val
  let d := distMod 24 pk.psn (s.fld qpExpectedPsn q)
  if !ltIntact pk then s.ltBroken pk
  else if !s.ltPeerOk pk then s.ltNak pk 6
  else if 8388608 ≤ d || (s.run q).rsack.contains pk.psn then
    let s1 := s.wantAck q
    if pk.typ = 3 then s1.ltChecks pk host keyOk true
    else if pk.typ = 5 then
      match (s.run q).atomics.find? (fun a => decide (a.1 = pk.psn)) with
      | some a => s1.ltReply pk 6 pk.psn 0 a.2
      | none => s1
    else s1.duplicate q
  else if 256 ≤ d then s.ltCount (s.fld qpTenantId q) 14 1
  else s.ltChecks pk host keyOk false

/-! ## Responses at the requester (R240, R244, R246) -/

/-- Response type that answers a request type. -/
def respOf (typ : Nat) : Nat := if typ = 3 then 4 else if typ = 5 then 6 else 8

/-- A response in its place: READ_RESP and ATOMIC_RESP data go into the local region; a translation miss makes it wait; a local region
that no longer holds gives LOCAL_ACCESS. -/
def State.ltResponse (s : State) (pk : LighterPkt) : State :=
  let q := pk.dstQp.val
  let t := s.fld qpTenantId q
  if !ltIntact pk then s.ltBroken pk
  else if !(s.ltPeerOk pk && s.outstanding q pk.psn) then s.ltCount t 14 1
  else
    let r := s.run q
    match r.sent.find? (fun x => decide (x.psn = pk.psn)), wrOf r pk.psn with
    | some x, some w =>
      if x.isDone || decide (respOf x.pk.typ ≠ pk.typ) || decide (x.pk.typ ≤ 2) then s.ltCount t 14 1
      else
        let r1 := { r with sent := r.sent.map (fun y => if y.psn = pk.psn then { y with isDone := true } else y),
                           wrs := r.wrs.map (fun y => if y.index = w.index && pk.typ = 8 then { y with discarded := pk.offset % 4294967296 } else y) }
        if pk.typ = 8 then (s.setRun r1).advanceBase q
        else
          let off := wLocalOffset w.words + 4096 * distMod 24 pk.psn w.first
          let key := wLocalKey w.words
          if !s.keyOk t key then s.failWr q w.index 0x01
          else match s.xlate key off pk.payload.length with
            | .miss p => (s.askPage t p).ltPark ⟨pk, ⟨none, true, []⟩, false, .page p⟩
            | .hit places => ((s.hostWrites (s.regView key) t none pk.payload places).setRun r1).advanceBase q
    | _, _ => s.ltCount t 14 1

/-! ## Arrival, contexts and translations (R232, R245) -/

/-- The contexts that a packet needs: its queue pair's, and those of the regions it names or that its receive entry or work request names. -/
def State.ltNeeds (s : State) (pk : LighterPkt) (host : HostReply) : List Nat :=
  qpCtx pk.dstQp.val ::
    ((if ltIsReq pk.typ && ltNamesRegion pk then regCtx pk.remoteKey else [])
    ++ (if pk.typ = 1 || pk.typ = 2 then (match host.entry with | some w => regCtx (wLocalKey w) | none => []) else [])
    ++ (if pk.typ = 4 || pk.typ = 6 then
          (match wrOf (s.run pk.dstQp.val) pk.psn with | some w => regCtx (wLocalKey w.words) | none => []) else []))

/-- A packet of each type at the engine (Table 9-11). -/
def State.ltTake (s : State) (pk : LighterPkt) (host : HostReply) (keyOk : Bool) : State :=
  if ltIsReq pk.typ then s.ltRequest pk host keyOk
  else if pk.typ = 9 then s.takeAck pk
  else if pk.typ = 10 then s.takeNak pk
  else s.ltResponse pk

/-- A packet arrives at the engine; one whose contexts are not all cached waits for them (R245). -/
def State.ltArrive (s : State) (pk : LighterPkt) (host : HostReply) (keyOk : Bool) : State :=
  if ltIntact pk && s.ltPeerOk pk then
    match s.lacks (s.ltNeeds pk host) with
    | some k => (s.ctxMiss k).ltPark ⟨pk, host, keyOk, .ctx k⟩
    | none => (s.touchAll (s.ltNeeds pk host)).ltTake pk host keyOk
  else s.ltTake pk host keyOk

/-- Takes up again the packets that waited. -/
def State.ltResume (s : State) : List LtWait → State
  | [] => s
  | w :: ws => (s.ltArrive w.pk w.host w.keyOk).ltResume ws

/-- A request packet's form: a sequence number of 24 bits, at most 4,096 bytes; 16 bytes of operands; 1 to 4,096 bytes asked, which the host's reply
holds (Tables 9-10, 9-11). -/
def ltReqWf (pk : LighterPkt) (host : HostReply) : Bool :=
  pk.psn < 16777216 && pk.payload.length ≤ 4096
  && (pk.typ ≠ 3 || (1 ≤ pk.aux && pk.aux ≤ 4096 && (!host.success || host.data.length = pk.aux)))
  && (pk.typ ≠ 5 || (pk.payload.length = 16 && (!host.success || host.data.length = 8)))

/-- `LIGHTER_REQUEST_RECEIVED` (R237): checked in order; one whose contexts are not cached waits for them (R245). -/
def execLighterRequestReceived (pk : LighterPkt) (host : HostReply) (s : State) : Host.Outcome State Fault Refusal :=
  if !ltReqWf pk host || !ltIsReq pk.typ || !s.running then .next s
  else .next (s.ltArrive pk host false)

/-- `ACK_RECEIVED` (R240). -/
def execAckReceived (pk : LighterPkt) (s : State) : Host.Outcome State Fault Refusal :=
  if pk.typ ≠ 9 || !s.running then .next s else .next (s.ltArrive pk ⟨none, true, []⟩ false)

/-- `NAK_RECEIVED` (R243). -/
def execNakReceived (pk : LighterPkt) (s : State) : Host.Outcome State Fault Refusal :=
  if pk.typ ≠ 10 || !s.running then .next s else .next (s.ltArrive pk ⟨none, true, []⟩ false)

/-- A response's payload (Table 9-11): 1 to 4,096 bytes of a read, 8 of an AtomicOp. -/
def ltRespWf (pk : LighterPkt) : Bool :=
  pk.psn < 16777216 && (pk.typ ≠ 4 || (1 ≤ pk.payload.length && pk.payload.length ≤ 4096)) && (pk.typ ≠ 6 || pk.payload.length = 8)

/-- `LIGHTER_RESPONSE_RECEIVED` (R240). -/
def execLighterResponseReceived (pk : LighterPkt) (s : State) : Host.Outcome State Fault Refusal :=
  if !ltRespWf pk || !s.running || !(pk.typ = 4 || pk.typ = 6 || pk.typ = 8) then .next s
  else .next (s.ltArrive pk ⟨none, true, []⟩ false)

/-- The key of a context in the cache. -/
def ctxKey : LtCtx → Nat
  | .qp q => okey cQueuePair q.val
  | .region i => okey cRegion i.val
  | .cq c => okey cCompletionQueue c.val

/-- A missing context arrives from SDRAM, and what waited for it goes on (R245). -/
def State.ctxFilled (s : State) (k : Nat) : State :=
  let s1 := s.touchCtx k
  let go := s1.lighter.waiting.filter (fun w => decide (w.need = LtNeed.ctx k))
  let s2 := { s1 with lighter := { s1.lighter with
      missing := s1.lighter.missing.filter (fun x => decide (x ≠ k)),
      waiting := s1.lighter.waiting.filter (fun w => !decide (w.need = LtNeed.ctx k)) } }
  s2.ltResume go

/-- A packet whose translation failed: NAK TRANSLATION at a responder, LOCAL_ACCESS at a requester (R231). -/
def State.ltPageFailed (s : State) (w : LtWait) : State :=
  if ltIsReq w.pk.typ then s.ltNak w.pk 7
  else match wrOf (s.run w.pk.dstQp.val) w.pk.psn with
    | some r => s.failWr w.pk.dstQp.val r.index 0x01
    | none => s

/-- The same for a list. -/
def State.ltPagesFailed (s : State) : List LtWait → State
  | [] => s
  | w :: ws => (s.ltPageFailed w).ltPagesFailed ws

/-- Requesters whose next packet's translation failed (R231). -/
def State.sendsFailed (s : State) : List Nat → State
  | [] => s
  | q :: qs =>
    (match wrOf (s.run q) (s.fld qpNextPsn q) with
     | some w => s.failWr q w.index 0x01
     | none => s).sendsFailed qs

/-- `TRANSLATION_COMPLETE` (R231, R232): one translated page arrives, or the translation fails; what waited for it goes on. -/
def execTranslationComplete (v : ViewId) (pasid : Option Nat) (page log2Size : Nat) (dst : Option Nat) (s : State) :
    Host.Outcome State Fault Refusal :=
  if !(12 ≤ log2Size && log2Size ≤ 30) then .next s
  else if !s.viewLive v.val then .next s
  else
    let n := 2 ^ (log2Size - 12)
    let x : Xlate := ⟨v.val, pasid, page / n * n, log2Size, dst.getD 0⟩
    let mine := fun (w : LtWait) => match w.need with | .page p => xlateCovers p x | .ctx _ => false
    let go := s.lighter.waiting.filter mine
    let sends := (s.lighter.sendWaits.filter (fun w => xlateCovers w.2 x)).map (·.1)
    let s1 := { s with lighter := { s.lighter with
        xlates := if dst.isSome then (x :: s.lighter.xlates.filter (fun y => decide (y ≠ x))).take 32768 else s.lighter.xlates,
        waiting := s.lighter.waiting.filter (fun w => !mine w),
        sendWaits := s.lighter.sendWaits.filter (fun w => !xlateCovers w.2 x) } }
    .next (if dst.isSome then s1.ltResume go else (s1.ltPagesFailed go).sendsFailed sends)

/-- `INVALIDATE_REQUEST` (R232): matching entries are removed, and the completion returns; no access with them is in flight between
two steps. -/
def execInvalidateRequest (v : ViewId) (pasid : Option Nat) (page pages : Nat) (s : State) : Host.Outcome State Fault Refusal :=
  if !s.viewLive v.val then .next s
  else
    let hit := fun (x : Xlate) => decide (x.view = v.val) && decide (x.pasid = pasid) && decide (x.page < page + pages)
      && decide (page < x.page + 2 ^ (x.log2 - 12))
    .next (({ s with lighter := { s.lighter with xlates := s.lighter.xlates.filter (fun x => !hit x) } }).emit (.atsInvalidated v.val))

/-! ## Acknowledgements and fences (R239, R244) -/

/-- `ACK_SEND` (R239). -/
def execAckSend (q : QpId) (s : State) : Host.Outcome State Fault Refusal :=
  let r := s.run q.val
  let due := match r.ackDue with | none => false | some d => decide (d ≤ s.now)
  if !s.running || !s.qpIs q.val qpReady || !(r.ackNow || due) then .next s
  else
    let e := s.fld qpExpectedPsn q.val
    let sack := (r.rsack.filter (fun p => decide (distMod 24 p e < 256))).foldl
      (fun (b : BitVec 256) p => b ||| (1#256 <<< distMod 24 p e)) 0
    .next ((s.setRun { r with unreported := 0, ackDue := none, ackNow := false }).ltToPeer q.val 9 e 0 sack)

/-- The oldest FENCE_REQ of a queue pair may be answered: `ExpectedPsn` has passed it, and nothing placed stays invisible (R244). -/
def State.fenceReady (s : State) (q : Nat) : Bool :=
  let r := s.run q
  match r.fences with
  | [] => false
  | p :: _ => decide (distMod 24 (s.fld qpExpectedPsn q) (p + 1) < 8388608) && r.placed.isEmpty

/-- `FENCE_RESPONSE_READY` (R244). -/
def execFenceResponseReady (q : QpId) (s : State) : Host.Outcome State Fault Refusal :=
  let r := s.run q.val
  match r.fences with
  | [] => .next s
  | p :: rest =>
    if !s.running || !s.qpIs q.val qpReady || !s.fenceReady q.val then .next s
    else .next ((s.setRun { r with fences := rest, lost := 0 }).ltToPeer q.val 8 p (min r.lost 4294967295) 0)

/-- The host port of a view is contained or its link is lost: placed writes into its host that are not visible are discarded (R244). -/
def State.ltLost (s : State) (v : Nat) : State :=
  { s with lighter := { s.lighter with runs := s.lighter.runs.map (fun r =>
      { r with lost := r.lost + ((r.placed.filter (fun p => decide (p.view = v))).map (·.bytes)).sum
               placed := r.placed.filter (fun p => decide (p.view ≠ v)) }) } }

/-! ## Commit points (R222) -/

/-- The oldest work request of a send queue has every sequence number done. -/
def State.wrDone (s : State) (q : Nat) (w : WorkReq) : Bool :=
  let d := distMod 24 (s.fld qpBasePsn q) w.first
  w.status = 0 && decide (0 < w.count) && decide (w.count ≤ d) && decide (d < 8388608)

/-- `ByteCount` of a send completion: the bytes transferred (Table 9-4; log entry 97). -/
def wrBytes (w : WorkReq) : Nat := if w.status = 0 then wLength w.words else w.bytes

/-- Completes the oldest work request of a send queue and advances the queue; a status other than SUCCESS and FLUSHED moves the queue
pair to Error. -/
def State.commitSend (s : State) (q : Nat) (w : WorkReq) (signal : Bool) : State :=
  let r := s.run q
  let s1 := (s.put qpSqConsumer q ((s.fld qpSqConsumer q + 1) % 65536)).setRun { r with wrs := r.wrs.drop 1 }
  let s2 := if signal || w.status ≠ 0 then
      s1.complete q false w.index (w.words.getD 0 0) (wOpcode w.words) w.status 0 (wrBytes w) w.discarded
    else s1
  if w.status = 0 || w.status = 0x0C then s2 else s2.qpToError q

/-- Completes the oldest message of a receive queue and advances the queue. `ByteCount` of one that did not arrive whole is what was placed of it
(log entry 97). -/
def State.commitRecv (s : State) (q : Nat) (m : RecvMsg) : State :=
  let r := s.run q
  let idx := s.fld qpRqConsumer q
  let s1 := (s.put qpRqConsumer q ((idx + 1) % 65536)).setRun { r with msgs := r.msgs.filter (fun x => decide (x.seq ≠ m.seq)) }
  let flushed := m.status = 0x0C
  let s2 := s1.complete q true idx (m.entry.getD 0 0) (if flushed then 7 else m.op) m.status (if flushed then 0 else m.imm) m.len 0
  if m.status = 0 || flushed then s2 else s2.qpToError q

/-- Words of a ring entry that is flushed unread: as the engine fetches it now; unknown where that read fails (log entry 1). -/
def State.flushedEntry (s : State) (entry : Option (List Word)) : State × List Word :=
  match entry with
  | some w => (s, w)
  | none => (s.draw, [s.freeVal, 0, 0, 0, 0, 0, 0, 0])

/-- The oldest receive entry of a queue pair that completes now: a message at its commit point, or in Error with its status; in Error an entry that no
message has consumed completes FLUSHED. -/
def State.recvDue (s : State) (q : Nat) (entry : Option (List Word)) : Option (State × RecvMsg) :=
  let r := s.run q
  let error := s.qpIs q qpError
  let flush := if error && decide (r.rqProducer ≠ s.fld qpRqConsumer q) then
      let e := s.flushedEntry entry
      some (e.1, ⟨4294967296, e.2, 7, 0, 0, none, 0x0C⟩)
    else none
  match r.msgs.head? with
  | some m =>
    if decide (m.seq % 65536 = s.fld qpRqConsumer q) && ((s.qpIs q qpReady && msgDone (s.fld qpExpectedPsn q) m) || error) then some (s, m) else flush
  | none => flush

/-- The oldest work request of a send queue that completes now, and whether it writes an entry whatever its status. -/
def State.sendDue (s : State) (q : Nat) (entry : Option (List Word)) : Option (State × WorkReq × Bool) :=
  let r := s.run q
  let error := s.qpIs q qpError
  match r.wrs with
  | w :: _ => if error || w.status ≠ 0 || s.wrDone q w then some (s, w, wSignal w.words) else none
  | [] =>
    if error && decide (r.sqProducer ≠ s.fld qpSqConsumer q) then
      let e := s.flushedEntry entry
      some (e.1, ⟨s.fld qpSqConsumer q, e.2, 0, 0, 0x0C, 0, 0⟩, true)
    else none

/-- `WORK_REQUEST_COMMIT` (R222): the oldest work request or receive entry of a queue reaches its commit point, or, in Error, completes
with its status or FLUSHED; `entry` is a flushed entry that had not been fetched. An entry of a completion queue needs its context (R245). -/
def execWorkRequestCommit (q : QpId) (recv : Bool) (entry : Option (List Word)) (s : State) : Host.Outcome State Fault Refusal :=
  let cq := [qpCtx q.val, okey cCompletionQueue (if recv then s.fld qpRecvCq q.val else s.fld qpSendCq q.val)]
  if (match entry with | some w => decide (w.length ≠ 8) | none => false) then .next s
  else if !s.running || !(s.qpIs q.val qpReady || s.qpIs q.val qpError) then .next s
  else if recv then
    match s.recvDue q.val entry with
    | none => .next s
    | some (s1, m) =>
      match s.lacks cq with
      | some k => .next (s.ctxMiss k)
      | none => .next ((s1.touchAll cq).commitRecv q.val m)
  else
    match s.sendDue q.val entry with
    | none => .next s
    | some (s1, w, signal) =>
      let ks := if signal || w.status ≠ 0 then cq else [qpCtx q.val]
      match s.lacks ks with
      | some k => .next (s.ctxMiss k)
      | none => .next ((s1.touchAll ks).commitSend q.val w signal)

/-! ## Object instructions (R224, R228 to R230) -/

/-- A word with its reserved bits ignored (R8). -/
def keepBits (w : Word) (mask : Nat) : Word := w &&& word mask

/-- The context word that a block word sets: its reserved and read-only bits are ignored (R8, Table 9-7). -/
def ObjReq.ctx (r : ObjReq) (i : Nat) : Word :=
  keepBits (r.w i) (if i = 2 then 0xFFFFFFFFFF83FFFF else if i = 3 then 0x0003FFFF1FFF1FFF else 0xFFFFFFFFFFFFF01F)

/-- Ranges of Table 9-7 on the six context words. -/
def qpRangesOk (r : ObjReq) : Bool :=
  r.b 3 20 9 ≤ 256 && 4 ≤ r.b 4 0 5 && r.b 4 0 5 ≤ 16 && (r.b 5 0 5 = 0 || (4 ≤ r.b 5 0 5 && r.b 5 0 5 ≤ 16))

/-- Word 1 as it is stored: 0 means 256 in `Window` and 7 in `RetryLimit`. -/
def qpWord1 (w : Word) : Word :=
  let a := if bitsOf w 20 9 = 0 then setBits w 20 9 256 else w
  if bitsOf a 16 4 = 0 then setBits a 16 4 7 else a

/-- A named completion queue is absent, or belongs to another tenant. -/
def State.cqBad (s : State) (t c : Nat) : Option Status :=
  if s.fld cqState c = 0 then some .noobj else if s.fld cqTenantId c ≠ t then some .conflict else none

/-- The checks of R228 on a create or modify, in its order; NORES is the caller's. -/
def State.qpChecks (s : State) (r : ObjReq) : Option Status :=
  let t := r.b 3 0 13
  let a := s.cqBad t (r.b 2 0 18)
  let b := if r.b 5 0 5 = 0 then none else s.cqBad t (r.b 3 32 18)
  let dev := r.b 2 24 12
  if !qpRangesOk r then some .badop
  else if !s.tenantActive t || a = some .noobj || b = some .noobj
      || (r.b 2 23 1 = 1 && decide (dev ≠ s.fabricId) && !s.routeExists dev) then some .noobj
  else if a = some .conflict || b = some .conflict then some .conflict
  else if s.deniedTenant r t then some .denied
  else none

/-- The context words of a queue pair from a block, with history cleared (Table 9-8). -/
def State.qpContext (s : State) (q : Nat) (r : ObjReq) (st gen : Nat) : State :=
  let v := s.memoryView r (r.b 3 0 13)
  let s1 := s.putWords cQueuePair q 0 [r.ctx 2, qpWord1 (r.ctx 3), r.ctx 4, r.ctx 5, word (v * 65536), 0,
    word (st * 2305843009213693952 + gen * 9007199254740992), 0, 16000]
  s1.setRun (newRun q)

/-- QPCTL create (Table 9-8). -/
def State.qpCreate (s : State) (q : Nat) (r : ObjReq) : OpRes :=
  let t := r.b 3 0 13
  if t = 0 ∧ r.source = 2 then opBad s .badop
  else match s.qpChecks r with
    | some st => opBad s st
    | none =>
      if s.fld qpState q ≠ qpAbsent then opBad s .conflict
      else if !s.canTake t 1 then opNores s t
      else
        let s1 := (s.qpContext q r (if r.b 2 23 1 = 1 then qpReady else qpInit) (s.fld qpGeneration q)).take t 1 q
        opDst s1 [okey cQueuePair q] (s1.baseWord cQueuePair q 6)

/-- A modify changes `Window` and `RetryLimit` alone: everything else in the block equals the image. -/
def State.qpOnlyLimits (s : State) (q : Nat) (r : ObjReq) : Bool :=
  r.ctx 2 = s.baseWord cQueuePair q 0 && r.ctx 4 = s.baseWord cQueuePair q 2 && r.ctx 5 = s.baseWord cQueuePair q 3
  && setBits (setBits (r.ctx 3) 20 9 0) 16 4 0 = setBits (setBits (s.baseWord cQueuePair q 1) 20 9 0) 16 4 0

/-- Every flushed entry of a queue pair has been written. -/
def State.qpFlushed (s : State) (q : Nat) : Bool :=
  (s.run q).sqProducer = s.fld qpSqConsumer q && (s.run q).rqProducer = s.fld qpRqConsumer q

/-- QPCTL modify (Table 9-8). The owner cannot change (DEDUCED, log entry 19). -/
def State.qpModify (s : State) (q : Nat) (r : ObjReq) : OpRes :=
  let ch := [okey cQueuePair q]
  if s.qpIs q qpAbsent then opBad s .noobj
  else match s.qpChecks r with
    | some st => opBad s st
    | none =>
      if r.b 3 0 13 ≠ s.fld qpTenantId q then opBad s .conflict
      else if s.qpIs q qpError then
        if !s.qpFlushed q then opBad s .conflict
        else
          let s1 := (s.exitOf (.obj cQueuePair q)).qpContext q r qpInit ((s.fld qpGeneration q + 1) % 256)
          opDst s1 ch (s1.baseWord cQueuePair q 6)
      else if s.qpIs q qpInit && r.b 2 23 1 = 1 then
        let s1 := s.putWord cQueuePair q 0 (setBits (s.baseWord cQueuePair q 0) 23 41 (r.b 2 23 41))
        let s2 := ((s1.put qpNextPsn q 0).put qpExpectedPsn q 0).put qpState q qpReady
        opDst s2 ch (s2.baseWord cQueuePair q 6)
      else if s.qpOnlyLimits q r then
        let w := qpWord1 (r.w 3)
        let s1 := (s.put qpWindow q (bitsOf w 20 9)).put qpRetryLimit q (bitsOf w 16 4)
        opDst s1 ch (s1.baseWord cQueuePair q 6)
      else opBad s .conflict

/-- QPCTL flush (Table 9-8). Acknowledgements of the same clock go first (Table 9-13). -/
def State.qpFlush (s : State) (q : Nat) : OpRes :=
  if s.qpIs q qpAbsent then opBad s .noobj
  else
    let s1 := (s.takeAcks (acksFor q s.pending)).qpToError q
    opDst s1 (if s.qpIs q qpError then [] else [okey cQueuePair q]) (s1.baseWord cQueuePair q 6)

/-- A queue pair is destroyed: generation up, its entries never written, resource 1 returned. -/
def State.qpGone (s : State) (q : Nat) : State :=
  let g := (s.fld qpGeneration q + 1) % 256
  let t := s.fld qpTenantId q
  let s1 := ((s.exitOf (.obj cQueuePair q)).coldObj cQueuePair q).put qpGeneration q g
  ((s1.ltQuiet q).dropRun q).giveBack t 1 q

/-- QPCTL destroy (Table 9-8). -/
def State.qpDestroy (s : State) (q : Nat) : OpRes :=
  if s.qpIs q qpAbsent then opBad s .noobj
  else
    let s1 := s.qpGone q
    opDst s1 [okey cQueuePair q] (s1.baseWord cQueuePair q 6)

/-- `QPCTL` (R228). A level-1 issuer may name only a queue pair of its view. -/
def State.opQpctl (s : State) (q : Nat) (r : ObjReq) : OpRes :=
  let a := r.b 1 0 3
  if 3 < a then opBad s .badop
  else if a = 0 then s.qpCreate q r
  else if s.qpIs q qpAbsent then opBad s .noobj
  else if s.deniedObj r cQueuePair q then opBad s .denied
  else if a = 1 then s.qpModify q r
  else if a = 2 then s.qpFlush q
  else s.qpDestroy q

/-- Ranges of Table 9-9 on the block of `REGION`. -/
def regionOk (r : ObjReq) : Bool :=
  let a := (r.w 1).toNat
  let n := (r.w 2).toNat
  a % 4096 = 0 && n % 4096 = 0 && 4096 ≤ n && n ≤ 1099511627776 && a + n ≤ 18446744073709551616

/-- The key of a region (R229). -/
def State.regKey (s : State) (i : Nat) : Word := word (i * 256 + s.base regGeneration i)

/-- `REGION` (R229). An index in use ends a level-1 program with CONFLICT before its scope is looked at (DESIGN CHOICE, log entry 113). -/
def State.opRegion (s : State) (i : Nat) (r : ObjReq) : OpRes :=
  let t := r.b 3 0 13
  if !regionOk r then opBad s .badop
  else if s.fld regRegistered i = 1 || s.fld regRevoking i = 1 then opBad s .conflict
  else if !s.tenantActive t then opBad s .noobj
  else if s.deniedTenant r t then opBad s .denied
  else if !s.canTake t 2 then opNores s t
  else
    let w2 := (keepBits (r.w 3) 0x001FFFFF00071FFF).toNat + s.memoryView r t * 16777216 + 36028797018963968 + s.base regGeneration i * 72057594037927936
    let s1 := (s.putWords cRegion i 0 [r.w 1, r.w 2, word w2]).take t 2 i
    opDst s1 [okey cRegion i] (s1.regKey i)

/-- `REVOKE` (R230), step 1. One that finds no registration, or a revocation under way, ends with NOOBJ (DEDUCED, log entry 20). -/
def State.opRevoke (s : State) (i : Nat) (r : ObjReq) : OpRes :=
  if s.fld regRegistered i = 0 || s.fld regRevoking i = 1 then opBad s .noobj
  else if s.deniedObj r cRegion i then opBad s .denied
  else
    let s1 := (s.put regGeneration i ((s.base regGeneration i + 1) % 256)).put regRevoking i 1
    let s2 := { s1 with lighter := { s1.lighter with revoking := s1.lighter.revoking ++ [(i, s.now + 10000)] } }
    opDst s2 [okey cRegion i] (s2.regKey i)

/-- The pages of a region. -/
def State.regionHas (s : State) (i : Nat) (x : Xlate) : Bool :=
  let a := s.fld regHostAddress i
  decide (x.view = s.fld regHostView i) && decide (x.pasid = s.regPasidOf (i * 256)) && decide (x.page < a + s.fld regLength i / 4096)
  && decide (a < x.page + 2 ^ (x.log2 - 12))

/-- A region is deregistered: its translations leave the cache, resource 2 goes back, its generation stays (R230, step 3). -/
def State.regionGone (s : State) (i : Nat) : State :=
  let s1 := { s with lighter := { s.lighter with
      xlates := s.lighter.xlates.filter (fun x => !s.regionHas i x), revoking := s.lighter.revoking.filter (fun e => decide (e.1 ≠ i)) } }
  ((s1.put regRegistered i 0).put regRevoking i 0).giveBack (s.fld regTenantId i) 2 i

/-- NAKs every packet of a list with KEY_INVALID. -/
def State.nakAll (s : State) : List LtWait → State
  | [] => s
  | w :: ws => (s.keyNak w.pk).nakAll ws

/-- `REVOKE_COMPLETE` (R230): when no packet that passed its key check waits for the region, or at the limit, where those are discarded
with NAK KEY_INVALID. -/
def execRevokeComplete (r : Fin 4194304) (s : State) : Host.Outcome State Fault Refusal :=
  match s.lighter.revoking.find? (fun e => decide (e.1 = r.val)) with
  | none => .next s
  | some e =>
    let mine := fun (w : LtWait) => w.keyOk && decide (w.pk.remoteKey / 256 % 16777216 = r.val) && decide (w.pk.typ ≠ 2)
    let late := s.lighter.waiting.filter mine
    if !late.isEmpty && decide (s.now < e.2) then .next s
    else
      let s1 := { s with lighter := { s.lighter with waiting := s.lighter.waiting.filter (fun w => !mine w) } }
      .next ((s1.nakAll late).regionGone r.val)

/-- `Entries` of a completion queue: a power of two, 16–65,536 (Table 9-6). -/
def cqEntriesOk (n : Nat) : Bool := [16, 32, 64, 128, 256, 512, 1024, 2048, 4096, 8192, 16384, 32768, 65536].contains n

/-- Ranges of Table 9-6 on the block of `CQCTL`. -/
def cqRangesOk (r : ObjReq) : Bool :=
  cqEntriesOk (r.b 3 0 24)

/-- The words that `CQCTL` writes: reserved bits are ignored (R8, Table 9-6). -/
def ObjReq.cqWords (r : ObjReq) : List Word := [keepBits (r.w 2) 0xFFFFFFFFFFFFF000, keepBits (r.w 3) 0x1FFF07FF00FFFFFF, 0x4000000000000000]

/-- A completion queue is destroyed. -/
def State.cqGone (s : State) (c : Nat) : State :=
  let t := s.fld cqTenantId c
  let s1 := (s.exitOf (.obj cCompletionQueue c)).coldObj cCompletionQueue c
  ({ s1 with lighter := { s1.lighter with wraps := tput 0 s1.lighter.wraps c 0 } }).giveBack t 3 c

/-- Forgets how often a producer index has wrapped. -/
def State.cqFresh (s : State) (c : Nat) : State := { s with lighter := { s.lighter with wraps := tput 0 s.lighter.wraps c 0 } }

/-- CQCTL create (R224). -/
def State.cqCreate (s : State) (c : Nat) (r : ObjReq) : OpRes :=
  let t := r.b 3 48 13
  if !cqRangesOk r then opBad s .badop
  else if s.fld cqState c ≠ 0 then opBad s .conflict
  else if !s.tenantActive t then opBad s .noobj
  else if s.deniedTenant r t then opBad s .denied
  else if !s.canTake t 3 then opNores s t
  else opOk (((s.putWords cCompletionQueue c 0 r.cqWords).cqFresh c).take t 3 c) [okey cCompletionQueue c]

/-- CQCTL destroy (R224). -/
def State.cqDestroy (s : State) (c : Nat) (r : ObjReq) : OpRes :=
  if r.w 2 ≠ 0 ∨ r.w 3 ≠ 0 then opBad s .badop
  else if s.qpsUsed.any (s.namesCq c) then opBad s .conflict
  else opOk (s.cqGone c) [okey cCompletionQueue c]

/-- CQCTL resize (R224); an overflowed queue leaves that state by destroy alone (R225). -/
def State.cqResize (s : State) (c : Nat) (r : ObjReq) : OpRes :=
  if !cqRangesOk r then opBad s .badop
  else if r.b 3 48 13 ≠ s.fld cqTenantId c ∨ s.fld cqState c ≠ 1 ∨ s.fld cqProducer c ≠ s.fld cqConsumer c then opBad s .conflict
  else
    let armed := s.fld cqArmed c
    opOk (((s.putWords cCompletionQueue c 0 r.cqWords).put cqArmed c armed).cqFresh c) [okey cCompletionQueue c]

/-- `CQCTL` (R224). -/
def State.opCqctl (s : State) (c : Nat) (r : ObjReq) : OpRes :=
  let a := r.b 1 0 2
  if 2 < a then opBad s .badop
  else if a = 0 then s.cqCreate c r
  else if s.fld cqState c = 0 then opBad s .noobj
  else if s.deniedObj r cCompletionQueue c then opBad s .denied
  else if a = 1 then s.cqDestroy c r
  else s.cqResize c r

end Sys2Proof.Machine
end

