-- ==== Sys2Proof/Machine/Lanes.lean ====
section
/-! DEFINITION. Lanes (R280 to R302): grants, markers, streams and spares, and the named operations that bring-up and
steering share. -/

namespace Sys2Proof.Machine

/-! ## Lanes of a link (R10, R11, R289) -/

/-- The physical lane of stream `i` of the link whose lane-0 port is `p` (R10). -/
def ownLane (p i : Nat) : Nat := p / 18 * 76 + 4 * (p % 18) + i

/-- The tile of a lane. -/
def tileOf (l : Nat) : Nat := l / 76

/-- A lane is a spare (R280). -/
def isSpare (l : Nat) : Bool := 72 ≤ l % 76

/-- Number of streams of a width code (R11): ×1, ×2, ×4, ×8, ×16. -/
def streamsOf (w : Nat) : Nat := 2 ^ w

/-- A field of a lane's image, by lane number. -/
def State.lfld (s : State) (f : Fld) (l : Nat) : Nat := s.fld f (selOfLane l)

/-- Writes a field of a lane's image. -/
def State.lput (s : State) (f : Fld) (l v : Nat) : State := s.put f (selOfLane l) v

/-- The state of a lane beside its image. -/
def State.laneRun (s : State) (l : Nat) : LaneRun :=
  (s.lanes.runs.find? (fun r => decide (r.lane = l))).getD ⟨l, false, 0, 0, 0, 0, [], [], 0, 0x1F, false, false, false, false⟩

/-- Writes a lane's state. -/
def State.setLaneRun (s : State) (r : LaneRun) : State :=
  { s with lanes := { s.lanes with runs := s.lanes.runs.filter (fun q => decide (q.lane ≠ r.lane)) ++ [r] } }

/-- Steering of a link. -/
def State.steer (s : State) (p : Nat) : SteerPort :=
  (s.lanes.steers.find? (fun r => decide (r.port = p))).getD
    ⟨p, false, 0, 0, none, [], none, none, [], [], [], 0, []⟩

/-- Writes a link's steering. -/
def State.setSteer (s : State) (r : SteerPort) : State :=
  { s with lanes := { s.lanes with steers := s.lanes.steers.filter (fun q => decide (q.port ≠ r.port)) ++ [r] } }

/-- The spares routed to a fabric link: lane and link spare index (R19, R289). -/
def State.sparesOf (s : State) (p : Nat) : List (Nat × Nat) :=
  if s.role p ≠ roleFabric then []
  else ((List.range 4).map (fun j => p / 18 * 76 + 72 + j)).filterMap (fun l =>
    if s.lfld laneLinkPort l = p ∧ s.lfld laneTargetState l = 0 then some (l, s.lfld laneLinkSpare l) else none)

/-- The physical lane of link spare `k` of a link. -/
def State.spareLane (s : State) (p k : Nat) : Option Nat := ((s.sparesOf p).find? (fun e => decide (e.2 = k))).map (·.1)

/-- A fabric link runs, or pauses in a retrain or a resize (R271). -/
def State.linkRuns (s : State) (p : Nat) : Bool :=
  s.role p = roleFabric && (s.ql p = qlActive || s.ql p = qlRetrain || s.ql p = qlResize)

/-- The configured width code of a link. -/
def State.cfgWidth (s : State) (p : Nat) : Nat := s.fld portWidth p

/-- The width code of the lanes that carry a link: as configured, and the wider one that a fabric link which narrows while it runs keeps until its
resize has completed, or else until the next new bring-up (R12). -/
def State.linkWidth (s : State) (p : Nat) : Nat :=
  if s.role p = roleFabric then max (s.cfgWidth p) (s.qlp p).carry else s.cfgWidth p

/-- The fabric link that a port which left it still carries (R12). -/
def State.carriedLink (s : State) (q : Nat) : Option Nat :=
  [q / 2 * 2, q / 4 * 4].find? (fun p =>
    decide (p < q) && s.role q = roleOff && s.role p = roleFabric && decide (q < p + portsOfWidth (s.qlp p).carry) && decide (p / 18 = q / 18))

/-- The lane-0 port of the link that a physical lane belongs to, and its stream index; a spare belongs to the fabric link of its tile that it is
routed to (R19), and has none. -/
def State.linkOfLane (s : State) (l : Nat) : Option (Nat × Option Nat) :=
  if isSpare l then
    let p := s.lfld laneLinkPort l
    (if p < 144 ∧ p / 18 = tileOf l ∧ s.role p = roleFabric ∧ s.lfld laneTargetState l = 0 then some (p, none) else none)
  else
    let port := tileOf l * 18 + l % 76 / 4
    let p := (s.carriedLink port).getD (s.lane0 port)
    some (p, some (4 * (port - p) + l % 4))

/-- The streams of a link. -/
def State.streams (s : State) (p : Nat) : List Nat := List.range (streamsOf (s.linkWidth p))

/-- A tile has had a replacement (R19): one of its lanes failed. -/
def State.tileReplaced (s : State) (t : Nat) : Bool :=
  (List.range 72).any (fun i => s.lfld laneRxState (t * 76 + i) = 5)

/-- A lane of a tile is out of service or on its way there, so live calibration pauses (R298). -/
def State.tilePaused (s : State) (t : Nat) : Bool :=
  (List.range 72).any (fun i => s.lfld laneTargetState (t * 76 + i) = 2)

/-- Marker interval of a rate code in ns, rounded up (Table 11-6). -/
def markerNs (rate : Nat) : Nat := if rate = 6 then 4097 else 8194

/-! ## Ports in service (R285, R426) -/

/-- A port is enabled: it has a role, its tile's REFCLK is present (R335), and no `PORTSTATE` disabled it or took it out of service. -/
def State.portEnabled (s : State) (p : Nat) : Bool :=
  s.role p ≠ roleOff && !s.power.lost.contains (p / 18 + 1) && !s.lanes.disabled.contains p && !s.lanes.outOfService.contains p

/-! ## Grants (R22, R285, R323) -/

/-- Asks for a grant for a list of lanes, in order. -/
def State.askGrants (s : State) : List Nat → State
  | [] => s
  | l :: ls =>
    (if (s.laneRun l).granted || s.lanes.waiting.contains l then s
     else { s with lanes := { s.lanes with waiting := s.lanes.waiting ++ [l] } }).askGrants ls

/-- Lanes granted in the last 2 µs. -/
def State.recentGrants (s : State) : Nat := (s.lanes.grants.filter (fun t => decide (s.now < t + 2000))).length

/-- A lane returns its grant and stops: no state, no stream, no lock. A failed lane stays failed. -/
def State.laneOff (s : State) (l : Nat) : State :=
  let s1 := s.setLaneRun { s.laneRun l with
    granted := false, found := 0, shows := 0x1F, partnerOk := false, leavingTx := false, leavingRx := false }
  let s2 := { s1 with lanes := { s1.lanes with waiting := s1.lanes.waiting.filter (fun x => decide (x ≠ l)) } }
  let keep := fun x => x = 5 || x = 6 || x = 4
  let s3 := if keep (s.lfld laneRxState l) then s2 else s2.lput laneRxState l 0
  let s4 := if keep (s.lfld laneTxState l) then s3 else s3.lput laneTxState l 0
  (((s4.lput laneRxStream l 0x1F).lput laneTxStream l 0x1F).lput laneLocked l 0).lput laneMarkerLock l 0

/-- Stops a list of lanes. -/
def State.lanesOff (s : State) : List Nat → State
  | [] => s
  | l :: ls => (s.laneOff l).lanesOff ls

/-- Every physical lane of a fabric link: its own and its spares. -/
def State.linkLanes (s : State) (p : Nat) : List Nat :=
  (s.streams p).map (ownLane p) ++ (s.sparesOf p).map (·.1)

/-- The spare on which a transmitter keeps a replaced stream. -/
def State.txSpareOf (s : State) (p i : Nat) : Option Nat :=
  ((s.steer p).moves.find? (fun m => decide (m.lane = i) && decide (m.stage = 2) && m.replacement)).map (·.spare)

/-- Sets a lane's receiver to acquire, unless it failed, is tested or is out of service. -/
def State.laneAcquire (s : State) (l : Nat) : State :=
  let keep := fun x => x = 5 || x = 6 || x = 4
  let s1 := if keep (s.lfld laneRxState l) then s else s.lput laneRxState l 1
  let s2 := ((s1.lput laneLocked l 0).lput laneMarkerLock l 0).lput laneRxStream l 0x1F
  s2.setLaneRun { s2.laneRun l with found := 0, shows := 0x1F, partnerOk := false }

/-- Sets a list of lanes to acquire. -/
def State.lanesAcquire (s : State) : List Nat → State
  | [] => s
  | l :: ls => (s.laneAcquire l).lanesAcquire ls

/-- The settings a lane starts from (R288): its valid seed at the rate of the bring-up, else the factory preset, whose receive settings
the lane finds by itself. A lane that has its settings keeps them. -/
def State.laneSeed (s : State) (rate l : Nat) : State :=
  if s.lfld laneTxMain l ≠ 0 then s
  else match (if s.power.ignoreSeeds then [] else s.power.seeds).find? (fun e => decide (e.lane = l) && decide (e.rate = rate)) with
    | some e =>
      ((((((s.lput laneTxPre l e.pre).lput laneTxPost l e.post).lput laneTxMain l (64 - e.pre - e.post)).lput laneCtleCode l e.ctle).lput
        laneDfeTap1 l e.dfe).lput laneSeedSource l 1).lput laneRateCode l rate
    | none =>
      (((((((s.draw.draw.lput laneTxPre l 4).lput laneTxPost l 8).lput laneTxMain l 52).lput laneCtleCode l (s.freeVal.toNat % 32)).lput
        laneDfeTap1 l (s.draw.freeVal.toNat % 256)).lput laneSeedSource l 0).lput laneRateCode l rate)

/-- Lanes of ports that left a link, and carry it no more, stop (R12). -/
def State.leaversOff (s : State) (p : Nat) : State :=
  s.lanesOff (((List.range 16).filter (fun i =>
      decide (streamsOf (s.linkWidth p) ≤ i) && decide (p / 18 = (p + i / 4) / 18)
      && s.role (p + i / 4) = roleOff && (s.laneRun (ownLane p i)).granted)).map (ownLane p))

/-- A new bring-up takes the configured width: ports that left the link carry it no more (R12). -/
def State.carryEnds (s : State) (p : Nat) : State := (s.setQlp { s.qlp p with carry := 0 }).leaversOff p

/-- A bring-up attempt begins at step 1 (R285): lanes that hold no grant ask for one, and every receiver of the link acquires. -/
def State.startTraining (s : State) (p : Nat) : State :=
  if s.role p ≠ roleFabric || !s.portEnabled p then s
  else
    let s := if (s.qlp p).carry = 0 then s else s.carryEnds p
    let ls := s.linkLanes p
    let s0 := ls.foldl (fun s l => s.laneSeed (s.fld portMaxRate p) l) s
    let s1 := (s0.askGrants ls).lanesAcquire ls
    s1.setSteer { s1.steer p with
      training := true, req := none, backlog := [], answer := none,
      moves := (s1.steer p).moves.filter (fun m => m.replacement && decide (m.stage = 2)),
      passes := [], rxOnSpare := [] }

/-- The lanes of a link retrain without a new bring-up (R270, R271). -/
def State.retrainLanes (s : State) (p : Nat) : State :=
  let s1 := s.lanesAcquire (s.linkLanes p)
  s1.setSteer { s1.steer p with
    req := none, backlog := [], answer := none,
    moves := (s1.steer p).moves.filter (fun m => m.replacement && decide (m.stage = 2)), passes := [], rxOnSpare := [] }

/-- The transmitters and receivers of a link stop (R285: the port is no longer enabled in the fabric role). -/
def State.stopLanes (s : State) (p : Nat) : State :=
  let s1 := s.lanesOff (s.linkLanes p)
  s1.setSteer { s1.steer p with
    training := false, req := none, backlog := [], answer := none,
    moves := (s1.steer p).moves.filter (fun m => m.replacement && decide (m.stage = 2)), passes := [], rxOnSpare := [] }

/-- Streams of the link as it is being brought up: the configured width, or the target of a resize. -/
def State.aimWidth (s : State) (p : Nat) : Nat :=
  match (s.qlp p).target with | some (_, w) => if s.ql p = qlResize then w else s.linkWidth p | none => s.linkWidth p

/-- The rate of the link as it is being brought up. -/
def State.aimRate (s : State) (p : Nat) : Nat :=
  if s.ql p = qlDown then s.fld portMaxRate p
  else match (s.qlp p).target with
    | some (r, _) => if s.ql p = qlResize then r else s.fld qlActiveRate p
    | none => s.fld qlActiveRate p

/-- Marker interval of a link as it runs or trains. -/
def State.interval (s : State) (p : Nat) : Nat := markerNs (s.aimRate p)

/-! ## Alignment (R285, R286, R292) -/

/-- Skew that the deskew buffers absorb, in ns (R285). -/
def skewLimit (width : Nat) : Nat := if width ≤ 2 then 64 else 128

/-- Skew of a lane against another: their last markers, brought to one count by the marker interval. -/
def skewNs (iv : Nat) (a b : LaneRun) : Nat :=
  let d := (b.lastCount + 128 - a.lastCount) % 128
  let x := if d < 64 then a.lastMark + d * iv else a.lastMark
  let y := if d < 64 then b.lastMark else b.lastMark + (128 - d) * iv
  max x y - min x y

/-- A lane is deskewed: its skew against the first of the link's lanes in marker lock stays within the buffers (R285; DESIGN CHOICE of the lane it is
taken against, log entry 98). -/
def State.deskewed (s : State) (p l : Nat) : Bool :=
  match (s.linkLanes p).find? (fun k => decide (s.lfld laneMarkerLock k = 1)) with
  | none => true
  | some k => skewNs (s.interval p) (s.laneRun k) (s.laneRun l) ≤ skewLimit (s.linkWidth p)

/-- The lane that carries a received stream: the own lane if it is locked and its marker shows the stream, else the spare whose
marker shows it (R292). -/
def State.rxLane (s : State) (p i : Nat) : Option Nat :=
  let ok := fun l => s.lfld laneMarkerLock l = 1 && (s.laneRun l).shows = i && s.lfld laneRxState l ≠ 5 && s.deskewed p l
  if ok (ownLane p i) then some (ownLane p i)
  else ((s.sparesOf p).find? (fun (e : Nat × Nat) => ok e.1)).map (·.1)

/-- A stream index is good: aligned here, and the partner reports `RxOk` for it (R286). -/
def State.streamGood (s : State) (p i : Nat) : Bool :=
  match s.rxLane p i with
  | none => false
  | some l => (s.laneRun l).partnerOk

/-- The block of R286: the widest aligned block of good streams within `w` streams, the lowest where several qualify. Gives its
width code and first stream; the argument counts width codes down. -/
def goodBlock (good : Nat → Bool) (streams : Nat) : Nat → Option (Nat × Nat)
  | 0 => if good 0 ∧ 1 ≤ streams then some (0, 0) else ((List.range streams).find? good).map (fun i => (0, i))
  | w + 1 =>
    let n := 2 ^ (w + 1)
    match (List.range (streams / n)).find? (fun b => (List.range n).all (fun i => good (b * n + i))) with
    | some b => some (w + 1, b * n)
    | none => goodBlock good streams w

/-- Takes every stream of a block on the lane that carries it: states and streams of lanes in use (R297). -/
def State.takeStreams (s : State) (p : Nat) : List Nat → State
  | [] => s
  | i :: is =>
    (match s.rxLane p i with
      | none => s
      | some l =>
        let s1 := (s.lput laneRxState l 2).lput laneRxStream l i
        if isSpare l then
          let k := s.lfld laneLinkSpare l
          let s2 := if s1.lfld laneRxState (ownLane p i) = 5 then s1 else s1.lput laneRxState (ownLane p i) 3
          s2.setSteer { s2.steer p with rxOnSpare := (s2.steer p).rxOnSpare.filter (fun (e : Nat × Nat) => decide (e.1 ≠ i)) ++ [(i, k)] }
        else s1).takeStreams p is

/-! ## Spares (R289 to R294) -/

/-- A link spare is idle in the partner's direction: locked, and its marker shows 0x1F. -/
def State.spareIdle (s : State) (p k : Nat) : Bool :=
  match s.spareLane p k with
  | none => false
  | some l => s.lfld laneMarkerLock l = 1 && (s.laneRun l).shows = 0x1F && !(s.steer p).passes.any (fun c => decide (c.spare = k))

/-- A link spare that the partner can give: an idle one, else one that a calibration copy occupies (R301). -/
def State.spareFor (s : State) (p : Nat) : Option Nat :=
  let ks := (s.sparesOf p).map (·.2)
  match ks.find? (fun k => s.spareIdle p k) with
  | some k => some k
  | none => ks.find? (fun k => (s.steer p).passes.any (fun c => decide (c.spare = k)))

/-- Sends a steering command under a new tag (R291); the next markers carry it. A replacement takes its spare from what waits to be sent back. -/
def State.sendSteer (s : State) (p cmd lane spare : Nat) (replacement : Bool) : State × Nat :=
  let r := s.steer p
  let tag := (r.nextTag + 1) % 16
  (s.setSteer { r with
    nextTag := tag, req := some ⟨cmd, tag, lane, spare, replacement⟩
    backlog := ((match r.req with | some q => if q.cmd = 2 then [q] else [] | none => []) ++ r.backlog).filter
      (fun q => !(replacement && decide (q.spare = spare))) }, tag)

/-- The next command of the backlog is sent when the one before it has been answered. -/
def State.nextSteer (s : State) (p : Nat) : State :=
  let r := s.steer p
  match r.req, r.backlog with
  | none, q :: rest =>
    let tag := (r.nextTag + 1) % 16
    s.setSteer { r with nextTag := tag, req := some { q with tag := tag }, backlog := rest }
  | _, _ => s

/-- Counts at a lane (R388 block 0x02): 0 corrections, 1 losses of lock, 2 steers, 3 passes postponed, 4 windows skipped (log
entry 21). -/
def State.laneCount (s : State) (l n k : Nat) : State := s.count (ctrId 0x02 16 l n) k

/-- Abandons the calibration passes of a link (R23, R301): each stream is asked back onto its own lane, whose settings stay, and the receiver takes it
there when the lane shows it (R292). -/
def State.abandonPasses (s : State) (p : Nat) : State :=
  let r := s.steer p
  let s1 := r.passes.foldl (fun (s : State) (c : CalPass) => s.laneCount (ownLane p c.lane) 3 1) s
  let moved := r.passes.filter (fun c => c.stage = .copying || c.stage = .calibrating)
  let s2 := s1.setSteer { s1.steer p with
    passes := [], backlog := (s1.steer p).backlog ++ moved.map (fun c => ⟨2, 0, c.lane, c.spare, false⟩)
    req := match (s1.steer p).req with | some q => if q.cmd = 1 && !q.replacement then none else some q | none => none }
  s2.nextSteer p

/-- Fabric links of a tile, by lane-0 port. -/
def State.linksOfTile (s : State) (t : Nat) : List Nat :=
  ((List.range 18).map (fun i => 18 * t + i)).filter (fun p => decide (s.role p = roleFabric) && decide (s.lane0 p = p))

/-- Abandons the calibration passes of every link of a tile. -/
def State.abandonTile (s : State) (t : Nat) : State := (s.linksOfTile t).foldl (fun s p => s.abandonPasses p) s

end Sys2Proof.Machine
end

