-- ==== Sys2Proof/Machine/Quayline.lean ====
section
/-! DEFINITION. The Quayline link layer (R248 to R279): sequence, replay, credits, the error monitor, and the link states of
Table 10-6 as named operations. -/

namespace Sys2Proof.Machine

/-- Counts at a port (R388 block 0x01; log entry 21). -/
def State.portCount (s : State) (p n k : Nat) : State := s.count (ctrId 0x01 256 p n) k

/-! ## Sizes (R255, R265) -/

/-- Flits of a packet that starts a flit of its own (log entry 22). -/
def flitsOf (b : Nat) : Nat := (streamBytes b + 227) / 228

/-! ## Credits (R265) -/

/-- The transmitter may begin a packet of `b` bytes on a channel. -/
def QlPort.credit (r : QlPort) (vc b : Nat) : Bool :=
  let d := (tget 0 r.limits vc + 65536 - tget 0 r.consumed vc) % 65536
  unitsOf b ≤ d && d < 32768

/-! ## SDRAM channels and spill (R20, R263, R264) -/

/-- SDRAM channels in service. -/
def State.sdramUp (s : State) : List Nat := s.sdram.trained.filter (fun c => !s.sdram.outOfService.contains c)

/-- Ports that may spill at full rate at once (Table 1-3). -/
def spillLimit (channels : Nat) : Nat :=
  if channels < 4 then 0 else if channels < 6 then 1 else if channels < 9 then 2 else if channels < 12 then 3 else 4

/-- Of two links with entries in SDRAM, the one that keeps its grant before the other: it began to spill earlier, or at the same time with the lower
port. -/
def QlPort.spillsBefore (a b : QlPort) : Bool :=
  match a.spillFrom, b.spillFrom with
  | some x, some y => decide (x < y) || (decide (x = y) && decide (a.port < b.port))
  | some _, none => true
  | none, _ => false

/-- Ports that spill ahead of a link. -/
def State.spillingAhead (s : State) (p : Nat) : Nat :=
  ((s.quay.filter (fun r => decide (r.port ≠ p) && decide (0 < r.spilled) && r.spillsBefore (s.qlp p))).map
    (fun r => portsOfWidth (s.linkWidth r.port))).sum

/-- Spill is granted to a link: with those ahead of it, its ports stay within Table 1-3. When the limit falls, the links that began last lose their
grant and throttle (R20, R23). -/
def State.spillGranted (s : State) (p : Nat) : Bool :=
  s.fld portSpillEnable p = 1 && s.spillingAhead p + portsOfWidth (s.linkWidth p) ≤ spillLimit s.sdramUp.length

/-- On-die replay entries of a link, in flits (R263). -/
def State.onDie (s : State) (p : Nat) : Nat := 1024 * portsOfWidth (s.linkWidth p)

/-- Replay capacity of a link, in flits (R263). -/
def State.replayCap (s : State) (p : Nat) : Nat :=
  s.onDie p + (if s.spillGranted p then 65536 * portsOfWidth (s.linkWidth p) else 0)

/-- A packet of `b` bytes may begin on a link: Active, credit on its channel, and room for its flits (R263, R265). -/
def State.qlCanSend (s : State) (p vc b : Nat) : Bool :=
  s.ql p = qlActive && (s.qlp p).credit vc b && (s.qlp p).outstanding + flitsOf b ≤ s.replayCap p

/-- Sequence numbers of n flits from one on. -/
def seqsFrom (first n : Nat) : List Nat := (List.range n).map (fun i => (first + i) % 16777216)

/-- A packet leaves on a fabric link: units consumed, sequence numbers taken, its flits queued to be sent and kept for replay (R262, R265). -/
def State.qlSend (s : State) (p vc : Nat) (pk : Packet) : State :=
  let r := s.qlp p
  s.setQlp { r with
    consumed := tput 0 r.consumed vc ((tget 0 r.consumed vc + unitsOf pk.bytes) % 65536)
    replay := r.replay ++ [⟨r.nextSeq, flitsOf pk.bytes, pk⟩]
    sendQ := r.sendQ ++ seqsFrom r.nextSeq (flitsOf pk.bytes)
    nextSeq := (r.nextSeq + flitsOf pk.bytes) % 16777216 }

/-! ## Acknowledgement and replay (R260 to R262) -/

/-- A replay entry is covered by an `AckSeq` `n` flits past the last one. -/
def covered (acked n : Nat) (e : ReplayEntry) : Bool := (e.first + 33554432 - (acked + 1)) % 16777216 + e.flits ≤ n

/-- `AckSeq` of the partner advances; one that names no outstanding flit changes nothing (R262). -/
def State.qlAck (s : State) (p ackSeq : Nat) : State :=
  let r := s.qlp p
  let n := (ackSeq + 16777216 - r.acked) % 16777216
  if n = 0 || r.outstanding < n then s
  else
    let r' := { r with
      acked := ackSeq, replay := r.replay.filter (fun e => !covered r.acked n e), spilled := r.spilled - n
      spillFrom := if r.spilled ≤ n then none else r.spillFrom }
    s.setQlp { r' with throttled := r'.throttled && decide (s.onDie p ≤ r'.outstanding) }

/-- Resends every DATA flit from `AckSeq` + 1 in sequence order, and goes on with new ones (R261). -/
def State.resendFlits (s : State) (p : Nat) : State :=
  let r := s.qlp p
  s.setQlp { r with sendQ := seqsFrom (r.acked + 1) r.outstanding }

/-- The receiver opens a replay request, unless one is open or a steer is under way (R260, R293); the next flits carry it. -/
def State.openRequest (s : State) (p : Nat) : State :=
  let r := s.qlp p
  if r.reqOpen || r.steerDue.isSome then s
  else
    (s.setQlp { r with reqOpen := true, epoch := !r.epoch }).portCount p 49 1

/-! ## Timers -/

/-- Overlap of a pause with the time from `a` on. -/
def pauseAfter (a : Nat) (x : Nat × Nat) : Nat := x.2 - max a x.1

/-- Time that a credit timer started at `a` has run (R268, R293). -/
def State.creditRun (s : State) (p a : Nat) : Nat :=
  let r := s.qlp p
  let frozen := match r.frozenFrom with | some f => s.now - max a f | none => 0
  (s.now - a) - frozen - ((r.pauses.map (pauseAfter a)).sum)

/-- Credit timers freeze (R268, R293). -/
def State.freezeCredits (s : State) (p : Nat) : State :=
  let r := s.qlp p
  if r.frozenFrom.isSome then s else s.setQlp { r with frozenFrom := some s.now }

/-- Credit timers run again. -/
def State.thawCredits (s : State) (p : Nat) : State :=
  let r := s.qlp p
  match r.frozenFrom with
  | none => s
  | some f => s.setQlp { r with frozenFrom := none, pauses := (f, s.now) :: r.pauses.take 15 }

/-! ## Error monitor (R269) -/

/-- CRC-failed flits of the window. -/
def QlPort.errors (r : QlPort) : Nat := r.errSubs.sum

/-- One flit enters the monitor: its sub-window, the declaration, and the flits since it. -/
def monitorFlit (threshold : Nat) (bad : Bool) (r : QlPort) : QlPort :=
  let subs := if r.subFlits = 0 then (0 :: r.errSubs).take 16 else r.errSubs
  let subs := match subs with | [] => [bit bad] | x :: xs => (x + bit bad) :: xs
  let r1 := { r with errSubs := subs, subFlits := (r.subFlits + 1) % 1048576 }
  if r.ownDegraded then { r1 with declFlits := r.declFlits + 1 }
  else if threshold < r1.errors then { r1 with ownDegraded := true, declFlits := 0, overRuns := 0 }
  else r1

/-- The `Degraded` field follows both ends' declarations. A link that waits to rejoin runs `AutoRestoreMs` anew once it is no longer degraded
(R145). -/
def State.showDegraded (s : State) (p : Nat) : State :=
  let d := (s.qlp p).ownDegraded || (s.qlp p).partnerDegraded
  let s1 := s.put qlDegraded p (bit d)
  if s.fld qlDegraded p = 1 && !d && s.fabric.restoring.any (fun e => decide (e.1 = p)) then s1.startRestore p else s1

/-! ## The link states of Table 10-6 -/

/-- Grade 2 against a fabric port whose link goes down (R139, R259, R272): Table 14-3, a link event. -/
def State.linkRecord (s : State) (p block before after : Nat) : State :=
  s.fault { grade := 2, checker := checkerId block p, cls := cPort, sel := p,
            syn0 := before + after * 16 + ((s.qlp p).expected + 16777215) % 16777216 * 256, syn1 := (s.qlp p).errors,
            action := 9, key := 0 }

/-- Grade 0 record of a resize that failed (R271). -/
def State.resizeRecord (s : State) (p : Nat) : State :=
  s.fault { grade := 0, checker := checkerId 0x16 p, cls := cPort, sel := p,
            syn0 := s.ql p + s.ql p * 16 + ((s.qlp p).expected + 16777215) % 16777216 * 256, syn1 := (s.qlp p).errors,
            action := 0, key := 0 }

/-- A failure of the port begins (R139), unless one is being handled. -/
def QlPort.fails (r : QlPort) : QlPort := if r.failure = 0 then { r with failure := 1 } else r

/-- A link leaves Active or Retrain for good: partial packets are discarded, timers stop, lanes wait for a new bring-up (R256, R272). -/
def State.linkLost (s : State) (p after : Nat) : State :=
  let r := s.qlp p
  let s1 := if r.rxOpen.isSome then s.portCount p 132 1 else s
  let s2 := s1.setQlp { r with
    rxOpen := none, reqOpen := false, throttled := false, initDue := none, retrainDue := none, resizeDue := none, drainDue := none
    steerDue := none, frozenFrom := none, aligned := false, wanted := none, byWindow := false, target := none, heardAt := none
    partnerHeard := false, failedAt := none, sendQ := [], answer := none, initsSent := 0 }
  let ran := s.ql p = qlActive || s.ql p = qlRetrain || s.ql p = qlResize
  let s3 := (if ran then s2.addSat portLinkDownCount p 1 else s2).setQl p after
  s3.setSteer { s3.steer p with training := false, req := none, backlog := [], answer := none, passes := [], rxOnSpare := [] }

/-- A link goes to Held for 10 ms (R270, R272). From Active or Retrain it is a failure of the port, whose replay contents are re-sent
(R141). -/
def State.toHeld (s : State) (p block : Nat) : State :=
  let st := s.ql p
  let s0 := s.linkRecord p block st qlHeld
  let s1 := s0.linkLost p qlHeld
  let r := s1.qlp p
  let r := if st = qlActive || st = qlRetrain then r.fails else r
  s1.setQlp { r with heldDue := some (s.now + 10000000) }

/-- A link goes Down and stays: its port is disabled or out of service (R272, R426). -/
def State.toDown (s : State) (p : Nat) : State :=
  let s1 := s.linkLost p qlDown
  (s1.setQlp { s1.qlp p with heldDue := none }).stopLanes p

/-- A fast retrain starts: new DATA stops, lanes retrain, INIT follows with `Resume` 1, and the port counts as failed (R139, R270). -/
def State.fastRetrain (s : State) (p : Nat) : State :=
  if s.ql p ≠ qlActive && s.ql p ≠ qlResize then s
  else
    let r := (s.qlp p).fails
    let s1 := s.setQlp { r with
      retrainDue := some (s.now + 10000), resume := true, heardAt := none, partnerHeard := false, aligned := false, steerDue := none
      resizeDue := none, target := none, sendQ := [], answer := none, initsSent := 0 }
    let s2 := ((s1.freezeCredits p).addSat portRetrainCount p 1).portCount p 128 1
    (s2.setQl p qlRetrain).retrainLanes p

/-- The width and rate codes of a link whose lanes aligned (R286, Table 10-7). -/
def State.setRun2 (s : State) (p width rate : Nat) : State :=
  (((s.put qlActiveWidth p width).put qlActiveRate p rate).put portNegWidth p width).put portNegRate p rate

/-- The record that an INIT flit of this end carries (Table 10-5). -/
def State.initMsg (s : State) (p : Nat) : InitMsg :=
  let r := s.qlp p
  ⟨true, s.fld qlActiveRate p, s.fld qlActiveWidth p, p, s.fabricId, r.resume, r.heardAt.isSome, r.nextSeq,
    (r.expected + 16777215) % 16777216, r.nonce⟩

/-- A new bring-up reaches Init: sequence and credit state start again, and a nonce is drawn (R258, R259, R269). -/
def State.beginInit (s : State) (p : Nat) : State :=
  let r := s.qlp p
  let s1 := s.draw.setQlp { r with
    nextSeq := 0, acked := 0xFFFFFF, replay := [], spilled := 0, throttled := false, expected := 0, reqOpen := false
    replayRuns := 0, rxOpen := none, limits := [], consumed := [], advertised := [], errSubs := [], subFlits := 0, declFlits := 0
    sendQ := [], answer := none, spillFrom := none, rxLimit := [], rxFreed := [], rxReturned := [], initsSent := 0, partnerAck := 0xFFFFFF
    rxPool := s.fld qlRxPoolUnits p * portsOfWidth (s.linkWidth p)
    overRuns := 0, ownDegraded := false, partnerDegraded := false, nonce := s.freeVal.toNat % 4294967296, resume := false
    heardAt := none, partnerHeard := false, initDue := some (s.now + 1000000), heldDue := none, pauses := [], frozenFrom := none }
  (s1.setQl p qlInit).showDegraded p

/-- Nanoseconds of a flit at a rate and width code (Table 10-10). -/
def flitNs (rate width : Nat) : Nat := (if rate = 6 then 16 else 32) / streamsOf width

/-- A link enters Active (R258, R259, R271, R272): after a new bring-up with fresh counts, after a retrain or resize with a replay from
the partner's `AckSeq` + 1. A request for a resize that a retrain cut short is sent again (R278). A failed port waits to rejoin; any other carries packets
at once, and what its return restores is told (R145). -/
def State.enterActive (s : State) (p partnerAck : Nat) : State :=
  let st := s.ql p
  let r := s.qlp p
  let s1 := s.setQlp { r with
    initDue := none, retrainDue := none, resizeDue := none, heardAt := none, partnerHeard := false, target := none
    byWindow := if st = qlResize then false else r.byWindow
    carry := if st = qlResize && !r.byWindow then 0 else r.carry
    failure := if r.failure = 4 then 0 else r.failure }
  let s2 := ((if st = qlResize then s1.leaversOff p else s1).setQl p qlActive).thawCredits p
  let s3 := if r.resume then (s2.qlAck p partnerAck).resendFlits p else s2
  let s4 := if st = qlResize then
      (if r.byWindow then s3.addSat qlWindowsRun p 1 else s3.put qlResizeResult p 1)
    else s3
  if r.failure = 1 then s4
  else if s4.fabric.failed.contains p then s4.startRestore p else s4.restoreFound

/-- A resize starts at both ends (R271). -/
def State.enterResize (s : State) (p rate width : Nat) (own : Bool) : State :=
  let r := s.qlp p
  let s1 := s.setQlp { r with
    wanted := none, byWindow := own && r.byWindow, target := some (rate, width), resizeDue := some (s.now + 8000), resume := true
    aligned := false, heardAt := none, partnerHeard := false, sendQ := [], answer := none, initsSent := 0 }
  ((s1.freezeCredits p).setQl p qlResize).retrainLanes p

/-! ## Re-send (R141) -/

/-- A packet of a failed port's replay buffer re-enters the core as though it had arrived on that port: `Resend` is set, and it is
sprayed with the arrival level it had (R141). -/
def State.reenter (s : State) (p : Nat) (e : ReplayEntry) : State :=
  match e.pk.hdr with
  | none => s
  | some h =>
    let pk := { e.pk with
      hdr := some { h with resend := true }, ingress := p,
      group := s.groupOf p e.pk.outLevel e.pk.kind e.pk.req, pool := 3, idxs := [], written := e.pk.cells, resent := true, redBy := [], redNow := [] }
    let n := s.nextHop h.dstDev h.dstPort pk.arr pk.cells (isCxl pk.req)
    let s1 := n.1.count (ctrId 0x09 16 h.dstDev 6) 1
    match n.2 with
    | none => s1.noPath pk h.dstDev h.dstPort
    | some (q, l) =>
      let queue := s1.queueFor p q pk.flowClass (pk.req = .lighterAck)
      s1.enter { pk with egress := q, queue := queue, acctQueue := queue, outLevel := l } []

/-- Re-sends a list of entries, oldest first. -/
def State.reenters (s : State) (p : Nat) : List ReplayEntry → State
  | [] => s
  | e :: es => (s.reenter p e).reenters p es

/-- The entries in SDRAM, the oldest `n` flits (R264): those that begin among them. -/
def spilledEntries (n : Nat) : List ReplayEntry → List ReplayEntry
  | [] => []
  | e :: es => if n = 0 then [] else e :: spilledEntries (n - e.flits) es

/-- The entries on die. -/
def onDieEntries (n : Nat) (es : List ReplayEntry) : List ReplayEntry := es.drop (spilledEntries n es).length

end Sys2Proof.Machine
end

