-- ==== Sys2Proof/Machine/Slots.lean ====
section
/-! DEFINITION. Slot channels and feeds (R367 to R387): their images, the admission queue, and switching off. -/

namespace Sys2Proof.Machine

/-! ## State of a channel -/

/-- States of a slot channel (Table 15-2). -/
def slOff : Nat := 0
def slDwell : Nat := 1
def slWaiting : Nat := 2
def slRamping : Nat := 3
def slOn : Nat := 4
def slRetryWait : Nat := 5
def slLatched : Nat := 6
def slOutOfService : Nat := 7

/-- A slot channel beside its image. -/
def State.slotRun (s : State) (n : Nat) : SlotRun :=
  (s.slots.runs.find? (fun r => decide (r.slot = n))).getD
    { slot := n, offAt := 0, request := false, rampDue := none, perstDue := none, faultDue := none, gateDue := none, onAt := 0,
      held := none, kept := false, latchRec := none, taken := [], frac := 0 }

/-- Writes a slot channel's state. -/
def State.setSlotRun (s : State) (r : SlotRun) : State :=
  { s with slots := { s.slots with runs := s.slots.runs.filter (fun (q : SlotRun) => decide (q.slot ≠ r.slot)) ++ [r] } }

/-- A feed's samples. -/
def State.feedRun (s : State) (f : Nat) : FeedRun :=
  (s.slots.feeds.find? (fun r => decide (r.feed = f))).getD ⟨f, []⟩

/-- Writes a feed's samples. -/
def State.setFeedRun (s : State) (r : FeedRun) : State :=
  { s with slots := { s.slots with feeds := s.slots.feeds.filter (fun (q : FeedRun) => decide (q.feed ≠ r.feed)) ++ [r] } }

/-- A limit field of words 0 and 1 in force: that of the image, or over a device reset the one that protected the slot before (R385). -/
def State.lim (s : State) (f : Fld) (n : Nat) : Nat :=
  match (s.slotRun n).held with
  | none => s.fld f n
  | some w => bitsOf (if f.word = 0 then w.1 else w.2) f.lo f.width

/-- The state of a slot channel. -/
def State.slotSt (s : State) (n : Nat) : Nat := s.fld slotState n

/-- A channel in Ramping or On: its gate is driven. -/
def State.slotLive (s : State) (n : Nat) : Bool := s.slotSt n = slRamping || s.slotSt n = slOn

/-- The dwell of a slot has elapsed (R369). -/
def State.dwellOver (s : State) (n : Nat) : Bool :=
  decide ((s.slotRun n).offAt + s.lim slotDwellMs n * 1000000 ≤ s.now)

/-- Counts at a slot or feed (R388 block 0x0C; log entry 21): trips by cause 0 to 3, power-ons 4, presence changes 5, attention
requests 6, reverse blocks 7. -/
def State.slotCount (s : State) (n k : Nat) : State := s.count (ctrId 0x0C 16 n k) 1

/-! ## The budget (R383, R384) -/

/-- All slots. -/
def allSlots : List Nat := List.range 64

/-- The sum of the grant test without the head (R383, `CommittedW`). -/
def State.committedW (s : State) : Nat :=
  (allSlots.map (fun n => if s.slotSt n = slOn then s.lim slotSteadyW n else if s.slotSt n = slRamping then s.lim slotInrushW n else 0)).sum

/-- Slots in a state. -/
def State.slotsIn (s : State) (st : Nat) : Nat := (allSlots.filter (fun n => decide (s.slotSt n = st))).length

/-- Slots of the budget rule. -/
def State.budgetSlots (s : State) : List Nat :=
  allSlots.filter (fun n => s.slotSt n = slWaiting || s.slotSt n = slRamping || s.slotSt n = slOn)

/-- The budget rule (R383). -/
def State.budgetRule (s : State) (boardW : Nat) : Bool :=
  let ns := s.budgetSlots
  boardW = 0 ||
    (ns.map (fun n => s.lim slotSteadyW n)).sum + (ns.map (fun n => s.lim slotInrushW n - s.lim slotSteadyW n)).foldl max 0 ≤ boardW

/-- The budget as it stands. -/
def State.budgetHolds (s : State) : Bool := s.budgetRule (s.fld budBoardW 0)

/-! ## Queueing and switching off (R369, R370) -/

/-- A request leads to Waiting: the slot joins the admission queue. -/
def State.slotJoin (s : State) (n : Nat) : State :=
  let s1 := (s.put slotState n slWaiting).setSlotRun { s.slotRun n with request := false }
  { s1 with slots := { s1.slots with queue := s1.slots.queue.filter (fun x => decide (x ≠ n)) ++ [n] } }

/-- A pending request leads to Waiting where the channel is Off or its dwell is over, and `Present` is 1. -/
def State.slotTry (s : State) (n : Nat) : State :=
  if s.slotSt n = slOff && (s.slotRun n).request && s.fld slotPresent n = 1 then s.slotJoin n else s

/-- The gate goes off and SPn_PERST_N low: timers stop, the queue is left, and the dwell starts. -/
def State.slotGateOff (s : State) (n : Nat) : State :=
  let live := s.slotLive n
  let r := { s.slotRun n with
    offAt := if live then s.now else (s.slotRun n).offAt
    rampDue := none, perstDue := none, faultDue := none, gateDue := none, held := none, kept := false }
  let s1 := (((s.put slotPowerGood n 0).put slotFaultTimerRunning n 0).put slotInLimit n 0).setSlotRun r
  let s2 := { s1 with slots := { s1.slots with queue := s1.slots.queue.filter (fun x => decide (x ≠ n)) } }
  if live then (if h : n < 64 then
    (s2.emit (.pin (.perst ⟨n, h⟩) false)).emit (.pin (.gate ⟨n, h⟩) false)
    else s2)
  else s2

/-- Sets an output pin of a slot. -/
def State.slotPin (s : State) (mk : SlotId → OutPin) (n : Nat) (level : Bool) : State :=
  if h : n < 64 then s.emit (.pin (mk ⟨n, h⟩) level) else s

/-- `SLOTPWR` off (Table 15-2): SPn_PERST_N low at once; the gate 100 µs later if On and at once otherwise; `RetryCount` 0; Dwell. -/
def State.slotOffNow (s : State) (n : Nat) (request : Bool) : State :=
  let st := s.slotSt n
  let s0 := if (s.slotRun n).request = request then s else s.setSlotRun { s.slotRun n with request := request }
  if st = slOn then
    let s1 := (((s0.put slotPowerGood n 0).put slotRetryCount n 0).put slotState n slDwell).put slotFaultTimerRunning n 0
    (s1.slotPin .perst n false).setSlotRun { s1.slotRun n with
      gateDue := some (s.now + 100000), perstDue := none, rampDue := none, faultDue := none, held := none, kept := false, offAt := s.now + 100000 }
  else if st = slWaiting || st = slRamping || st = slRetryWait then
    ((s0.slotGateOff n).put slotRetryCount n 0).put slotState n slDwell
  else s0

/-- Grade 5 switches every channel off (R356, R385). -/
def State.slotsOff (s : State) : List Nat → State
  | [] => s
  | n :: ns =>
    (if s.slotLive n || s.slotSt n = slWaiting || s.slotSt n = slRetryWait then
      let s1 := (s.slotGateOff n).put slotState n slDwell
      s1.setSlotRun { s1.slotRun n with request := false }
     else s.setSlotRun { s.slotRun n with request := false }).slotsOff ns

end Sys2Proof.Machine
end

