-- ==== Sys2Proof/Machine/Views.lean ====
section
/-! DEFINITION. Resets of views, of their functions and of bindings (R313, R314), and what the ends of edge links do (R306). -/

namespace Sys2Proof.Machine

/-! ## Function-level reset of the EB9144's own functions (Table 12-7) -/

/-- Registers of BAR0 that a reset of the management function returns to their cold values: both Tally queues, mirror and export, the
MSI-X table (Table 12-7). -/
def mgmtReg (off : Nat) : Bool :=
  (0x1000 ≤ off && off < 0x1060) || (0x114 ≤ off && off < 0x140) || (0x20000 ≤ off && off < 0x20808)

/-- A program came from a queue of a view. -/
def srcOfView (v : Nat) : ProgSrc → Bool
  | .queue (.admin w) => w.val = v
  | .queue (.fm w) => w.val = v
  | _ => false

/-- A queue belongs to a view. -/
def queueView (v : Nat) : QueueId → Bool
  | .admin w => w.val = v
  | .fm w => w.val = v
  | .mgmt => false

/-- Queue, mirror and export registers of a view's management function take their cold-reset values, and its accepted programs get no descriptor
(Table 12-7). -/
def State.mgmtRegsReset (s : State) (v : ViewId) : State :=
  { s with
    regs := s.regs.filter (fun e => !(decide (e.1 / 2097152 = v.val) && mgmtReg (e.1 % 2097152)))
    tally := { s.tally with
      progs := s.tally.progs.map (fun p => if srcOfView v.val p.src then { p with silent := true } else p)
      fwdOut := s.tally.fwdOut.map (fun f => if queueView v.val f.q then { f with silent := true } else f) }
    log := { s.log with
      exportJobs := s.log.exportJobs.filter (fun j => decide (j.view ≠ v))
      mirrorQ := s.log.mirrorQ.filter (fun m => decide (m.1 ≠ v)) } }

/-- Reset of the management function of a view (Table 12-7): its registers, and coordination memory as Table 8-5. -/
def State.mgmtReset (s : State) (v : ViewId) : State := (s.mgmtRegsReset v).cmViewReset v

/-- A queue pair enters Error with no completion owed; the completion queues it names enter state 2 (Table 12-7). -/
def State.qpSilentError (s : State) (q : Nat) : State :=
  let s1 := s.qpToError q
  let s2 := s1.setRun { s1.run q with wrs := [], msgs := [] }
  let overflow := fun (s : State) (c : Nat) => if s.fld cqState c = 1 then s.put cqState c 2 else s
  let s3 := if s.fld qpLog2SqEntries q ≠ 0 then overflow s2 (s.fld qpSendCq q) else s2
  if s.fld qpLog2RqEntries q ≠ 0 then overflow s3 (s.fld qpRecvCq q) else s3

/-- The same for a list of queue pairs. -/
def State.qpsSilentError (s : State) : List Nat → State
  | [] => s
  | q :: qs => (s.qpSilentError q).qpsSilentError qs

/-- Reset of the Lighter physical function of a view: the queue pairs of tenant 0 whose `HostView` is the view (Table 12-7). -/
def State.ltPfReset (s : State) (v : Nat) : State :=
  s.qpsSilentError (s.qpsUsed.filter (fun q => decide (s.fld qpTenantId q = 0) && decide (s.fld qpHostView q = v)))

/-- Reset of the Lighter virtual function of a tenant (Table 12-7). -/
def State.ltVfReset (s : State) (t : Nat) : State :=
  s.qpsSilentError (s.qpsUsed.filter (fun q => decide (s.fld qpTenantId q = t)))

/-- Tenants whose virtual function stands in a view (R309). -/
def State.vfsOf (s : State) (v : Nat) : List Nat :=
  (s.selsOf cTenant).filter (fun t => decide (t ≠ 0) && decide (s.fld tenState t ≠ 0) && decide (s.fld tenHomeView t = v))

/-- Resets the virtual functions of a list of tenants. -/
def State.ltVfResets (s : State) : List Nat → State
  | [] => s
  | t :: ts => (s.ltVfReset t).ltVfResets ts

/-- Key of a function's configuration space (R307). -/
def fnKey : ViewFn → Nat
  | .upstream => 0
  | .management => 1
  | .lighterPf => 2
  | .lighterVf t => 3 + t.val

/-- Configuration registers of one function of a view take their default values. -/
def State.cfgClear (s : State) (v fn : Nat) : State :=
  { s with cfg := s.cfg.filter (fun e => decide (e.1 / 1024 ≠ v * 65536 + fn)) }

/-- A slot whose host has not yet seen a change. -/
def VSlot.quiet (x : VSlot) : VSlot := { x with presenceChanged := false, activeChanged := false, attention := false }

/-- Every configuration register of a view takes its default value, and no virtual port is named any more (R314 step 1). -/
def State.cfgClearView (s : State) (v : Nat) : State :=
  { s with
    cfg := s.cfg.filter (fun e => decide (e.1 / 1024 / 65536 ≠ v))
    pcie := { s.pcie with
      named := s.pcie.named.filter (fun e => decide (e.1 ≠ v))
      vslots := s.pcie.vslots.map (fun e => if e.1 / 256 = v then (e.1, e.2.quiet) else e) |>.filter (fun e => decide (e.2 ≠ .empty))
      tideLatch := s.pcie.tideLatch.filter (fun e => decide (e.1 ≠ v))
      resets := s.pcie.resets.filter (fun r => decide (r.view ≠ v)) } }

/-- The function is in a function-level reset: no request with its requester ID leaves (R313). -/
def State.fnResetting (s : State) (v : Nat) (f : ViewFn) : Bool :=
  s.pcie.resets.any (fun r => decide (r.view = v) && decide (r.fn = f))

/-! ## Reset of a binding (R314 step 4) -/

/-- Resets the function or logical device of one binding word: a function-level reset, or the CXL reset of a single logical device. At
home its entries are closed with Completer Abort and its generation rises; elsewhere BIND_RESET asks the home device. -/
def State.bindingReset (s : State) (v sel i : Nat) : State :=
  let w := s.bindW sel i
  let slot := sel % 65536
  if isHome sel then
    if slot < 16384 then ((s.emit (.flr slot (bLd w))).closeFn slot (bLd w)).bumpGen sel i else s
  else if h : slot < 16384 ∧ v < 96 then
    s.sendMsg (sel / 65536) (.bindReset ⟨⟨slot, h.1⟩, bLd w, v, s.fabricId⟩)
  else s

/-- Resets a list of bindings. -/
def State.bindingResets (s : State) (v : Nat) : List (Nat × Nat) → State
  | [] => s
  | e :: es => (s.bindingReset v e.1 e.2).bindingResets v es

/-! ## Reset of a view (R314) -/

/-- A snapshot whose buffer is being written to a host that is gone is abandoned (Table 16-6). -/
def State.snapsLost (s : State) (v : Nat) : State :=
  let gone := s.counters.jobs.filter (fun j => decide (j.view = v) && (j.issuerDev = s.fabricId || j.issuerDev = 0xFFFF) && s.base snapState j.set.val = 3)
  let s1 := gone.foldl (fun s j => (s.put snapState j.set.val 0).addSat snapAbandoned j.set.val 1) s
  { s1 with counters := { s1.counters with jobs := s1.counters.jobs.filter (fun j => !gone.any (fun i => decide (i.set = j.set))) } }

/-- The four steps of R314 for view `v` whose host port is `p`: writes under way into its host are lost (R244), and packets on their way to the host
are turned away (R193). The containment of its host port leaves tracked writes to go on (Table 8-5). -/
def State.viewReset (s : State) (v : ViewId) (p : Nat) (contained : Bool) : State :=
  let s1 := ((s.cfgClearView v.val).mgmtRegsReset v).snapsLost v.val
  let s2 := (((if contained then s1.cmPortContained v else s1.cmViewReset v).ltPfReset v.val).ltVfResets (s1.vfsOf v.val)).ltLost v.val
  let s3 := ((s2.closeLink p).failQueued p).fault
    { grade := 2, checker := checkerId 0x16 p, cls := cPort, sel := p, syn0 := s.fld portLinkState p, syn1 := 0, action := 9,
      key := 0 }
  let s4 := s3.bindingResets v.val (s3.viewBindings v.val)
  { s4 with pcie := { s4.pcie with
      dpcs := s4.pcie.dpcs.filter (fun d => decide (d.view ≠ v.val)), inL2 := s4.pcie.inL2.filter (fun w => decide (w ≠ v.val)) } }

/-! ## Ends of edge links (R306, R426, Table 12-2) -/

/-- An edge link stands: it has a data link layer, in L0, L0p, L1 or Recovery (Table 12-2). -/
def State.edgeStands (s : State) (p : Nat) : Bool := s.edgeLinkUp p || decide (s.fld portLinkState p = 5)

/-- The lanes of an edge link. -/
def State.edgeLanes (s : State) (p : Nat) : List Nat := (s.streams p).map (ownLane p)

/-- An edge link enters Detect: its lanes wake by grants (R22, R306). -/
def State.edgeDetect (s : State) (p : Nat) : State := (s.put portLinkState p 0).askGrants (s.edgeLanes p)

/-- An edge link goes to a state without a link: its lanes stop and its status fields follow. -/
def State.edgeDown (s0 : State) (p st : Nat) : State :=
  let was := s0.edgeStands p
  let s := s0.lanesOff (s0.edgeLanes p)
  let s1 := ((((((s.put portLinkState p st).put portDllActive p 0).put portFlitMode p 0).put portCxlMem p 0).put portNegRate p 0).put
    portNegWidth p 0).put portL1Sub p 0
  let s2 := if was then s1.addSat portLinkDownCount p 1 else s1
  if st = 0 ∧ s.role p = roleDevice then s2.askGrants (s.edgeLanes p) else s2

/-- A host link goes down, for whatever cause: the link state, and the reset of its view (R306, R314). -/
def State.hostDown (s : State) (p st : Nat) (contained : Bool) : State :=
  let was := s.edgeStands p
  let s1 := s.edgeDown p st
  match s.viewOfPort p with
  | none => s1
  | some v => if h : v < 96 then (if was then s1.viewReset ⟨v, h⟩ p contained else s1) else s1

/-- The same without a containment of its port. -/
def State.hostLinkDown (s : State) (p st : Nat) : State := s.hostDown p st false

/-- Writes of other devices' hosts that no link partner has acknowledged are lost with a device port's link; their sources hear of them as of others that
are discarded (R204; log entry 95). -/
def State.farLost (s : State) (p : Nat) : State :=
  let gone := s.cms.far.filter (fun (e : Nat × FabHdr) => decide (e.2.dstPort = p))
  let s1 : State := { s with cms := { s.cms with far := s.cms.far.filter (fun (e : Nat × FabHdr) => decide (e.2.dstPort ≠ p)) } }
  gone.foldl (fun s e => s.notice e.2) s1

/-- A device port's link goes down: entries of requests sent onto it are closed with Completer Abort, Grade 2 against the port (Table
5-10, R3), and every view that holds a function below sees its virtual link inactive (R149, R315). Packets that wait for the link wait on. -/
def State.deviceLinkDown (s : State) (p st : Nat) : State :=
  let was := s.edgeStands p
  let s1 := s.edgeDown p st
  if !was then s1
  else
    let s2 := (((s1.closeLink p).failLeaving p).farLost p).fault
      { grade := 2, checker := checkerId 0x16 p, cls := cPort, sel := p, syn0 := s.fld portLinkState p, syn1 := 0, action := 9,
        key := 0 }
    (s2.fnsBelow p).foldl (fun s f => s.tellViews f (.dll false)) s2

/-- An edge link in whatever role goes to a state without a link. -/
def State.edgeLinkDown (s : State) (p st : Nat) : State :=
  if s.role p = roleHost then s.hostLinkDown p st else if s.role p = roleDevice then s.deviceLinkDown p st else s

/-- Every host port may train: DEV_READY is high and PERST_N is high (R306). -/
def State.hostsMayTrain (s : State) : Bool := s.power.phase = .ready && s.power.perstN

/-- `PerstHeld` of every host port follows PERST_N and DEV_READY (Table 12-2). -/
def State.showPerst (s : State) : List Nat → State
  | [] => s
  | p :: ps => (s.put portPerstHeld p (bit (!s.hostsMayTrain))).showPerst ps

/-- All ports. -/
def allPorts : List Nat := List.range 144

/-- `PerstHeld` of every host port. -/
def State.showHosts (s : State) : State := s.showPerst (allPorts.filter (fun p => s.role p = roleHost))

/-- Every host link goes down (R306, R342, R355). -/
def State.hostsDown (s : State) : List Nat → State
  | [] => s
  | p :: ps => (if s.role p = roleHost && s.lane0 p = p then s.hostLinkDown p 0 else s).hostsDown ps

/-- Every fabric link goes Down without a record, its lanes stopped (R342, R355). -/
def State.fabricsDown (s : State) : List Nat → State
  | [] => s
  | p :: ps => (if s.role p = roleFabric && s.lane0 p = p then s.toDown p else s).fabricsDown ps

/-- Every device link goes down (R356). -/
def State.devicesDown (s : State) : List Nat → State
  | [] => s
  | p :: ps => (if s.role p = roleDevice && s.lane0 p = p then s.deviceLinkDown p 0 else s).devicesDown ps

end Sys2Proof.Machine
end

