-- ==== Sys2Proof/Machine/Actions.lean ====
section
/-! DEFINITION. What the EB9144 does about a fault: containment (R353), escalation of lasting faults (Table 14-5), halt (R355), latch
(R356), and release (R354); and taking a port out of service and back (R426, Table 1-8). -/

namespace Sys2Proof.Machine

/-! ## Ports back in service (R145, R426) -/

/-- An enabled port begins to bring its link up: a fabric port trains blind (R285); an edge port enters Detect, a host port once it may
(R306). -/
def State.portBringUp (s : State) (p : Nat) : State :=
  if s.role p = roleFabric then
    (if s.ql p = qlDown then s.startTraining p
     else s.setQlp { s.qlp p with drainDue := none })
  else if s.role p = roleDevice then s.edgeDetect p
  else if s.role p = roleHost then s.put portLinkState p 0
  else s

/-- A disabled port is enabled (R426 action 0). -/
def State.portEnable (s : State) (p : Nat) : State :=
  ({ s with lanes := { s.lanes with disabled := s.lanes.disabled.filter (fun q => decide (q ≠ p)) } } : State).portBringUp p

/-- A port returns to the enabled state and its paths are reinstated (R145, R426 action 5). -/
def State.portBack (s : State) (p : Nat) : State :=
  let s1 : State := { s with lanes := { s.lanes with
      disabled := s.lanes.disabled.filter (fun q => decide (q ≠ p))
      outOfService := s.lanes.outOfService.filter (fun q => decide (q ≠ p)) } }
  let s2 := s1.portBringUp p
  if s.role p = roleFabric then s2.reinstatePort p else s2

/-! ## Containment (R353) -/

/-- AER of every virtual port that holds the function of a slot, or one logical device of it (R360); that of another device hears of it there (log
entry 93). -/
def State.aerHolders (s : State) (slot ld : Nat) (e : AerError) : State :=
  (List.range 17).foldl (fun s i =>
    let w := s.bindW (homeSel slot) i
    if !bBound w || !bMatched w || !(ld = 0xFF || bLd w = ld) then s
    else if bViewDev w = s.fabricId then s.emit (.aer (bView w) (bVport w) e)
    else s.emit (.aerFar (bViewDev w) 0x7F slot (bLd w) e)) s

/-- A function, or one logical device of it, is contained: buffered stores to it are discarded, and its holders see an Uncorrectable
Internal Error (R353, R360, Table 8-5). -/
def State.containFn (s : State) (id slot ld : Nat) : State :=
  let s1 := s.contain id (if ld = 0xFF then .obj cFunction (homeSel slot) else .logical slot ld)
  (s1.discardAll (s1.cms.tracked.filter (fun t => t.goesTo s.fabricId slot ld))).aerHolders slot ld .uncorrectableInternal

/-- A device port is contained: every function below it with it, its outstanding entries closed with Completer Abort and the packets in its queues
turned away, Surprise Down at every virtual port below (R118, R353, R360). -/
def State.containDevice (s : State) (id p : Nat) : State :=
  let s1 := ((s.contain id (.port p)).closeReqs .completerAbort (s.openReqs.filter (fun r => decide (r.port = p)))).failQueued p
  let fns := s1.fnsBelow p
  let s2 := s1.discardAll (s1.cms.tracked.filter (fun t => fns.any (fun f => t.goesTo s.fabricId f 0xFF)))
  fns.foldl (fun s f => s.aerHolders f 0xFF .surpriseDown) s2

/-- A host port is contained: its link goes down, which its host sees, and its view is reset, its buffered stores as Table 8-5 sets out (R353,
R360). -/
def State.containHost (s : State) (id p st : Nat) : State :=
  let s1 := s.contain id (.port p)
  match s1.viewOfPort p with
  | none => s1.edgeDown p st
  | some v => if h : v < 96 then (s1.edgeDown p st).viewReset ⟨v, h⟩ p true else s1

/-- A port is contained by its role (R353). -/
def State.containPort (s : State) (id p : Nat) : State :=
  if s.role p = roleHost then s.containHost id p 0
  else if s.role p = roleDevice then s.containDevice id p
  else if s.role p = roleFabric then
    let s1 := s.contain id (.port p)
    if s1.ql p = qlHeld || s1.ql p = qlDown then s1.withdrawPort p
    else
      let st := s1.ql p
      let s2 := s1.linkLost p qlHeld
      let r := if st = qlActive || st = qlRetrain then (s2.qlp p).fails else s2.qlp p
      (s2.setQlp { r with heldDue := some (s.now + 10000000) }).withdrawPort p
  else s.contain id (.port p)

/-- A pair is contained at its source edge (R138). -/
def State.containPair (s : State) (id syn0 : Nat) : State :=
  s.contain id (.pair (syn0 % 4096) (syn0 / 4096 % 256) (syn0 / 1048576 % 4096) (syn0 / 4294967296 % 256))

/-- An object is contained by its class (R353). A route is never contained; a queue pair enters Error and a completion queue has overflowed, and each
stays contained until its own exit (R58, Table 14-5). -/
def State.containObj (s : State) (id cls sel : Nat) : State :=
  if cls = cFunction then s.containFn id (sel % 65536) 0xFF
  else if cls = cCmWindow then (s.contain id (.obj cls sel)).cmWindowContained sel
  else if cls = cQueuePair then (s.contain id (.obj cls sel)).qpToError sel
  else if cls = cRoute then s
  else s.contain id (.obj cls sel)

/-- The containment that a record's `Action` names (Table 14-4). -/
def State.containBy (s : State) (id : Nat) (e : FEvent) : State :=
  if e.action = 2 then s.containObj id e.cls e.sel
  else if e.action = 3 then s.containPort id e.sel
  else if e.action = 4 then s.containPair id e.syn0
  else s

/-! ## Ports that stop (R426, Tables 1-8, 4-8 and 10-6) -/

/-- A fabric link stops: its paths are withdrawn; an Active link drains, any other stops at once, and what its replay buffer keeps is re-sent
(R139 to R141, Table 10-6). -/
def State.fabricStop (s : State) (p : Nat) : State :=
  if s.ql p = qlActive then
    let s1 := s.withdrawPort p
    s1.setQlp { s1.qlp p with drainDue := some (s.now + 1000000) }
  else if s.ql p = qlResize then
    let s1 := (s.withdrawPort p).toDown p
    (s1.setQlp { s1.qlp p with replay := [], spilled := 0, spillFrom := none }).reenters p (s1.qlp p).replay
  else s.toDown p

/-- Marks a port out of service. -/
def State.markOut (s : State) (p : Nat) : State :=
  { s with lanes := { s.lanes with outOfService := s.lanes.outOfService ++ [p] } }

/-- A port goes out of service under a record (Table 4-8, Table 14-5): an edge port is contained by it. -/
def State.portOutBy (s : State) (id p : Nat) : State :=
  let s1 := s.markOut p
  if s.role p = roleFabric then s1.fabricStop p
  else if s.role p = roleHost then s1.containHost id p 11
  else if s.role p = roleDevice then (s1.containDevice id p).deviceLinkDown p 11
  else s1

/-- A port goes out of service (R426 action 4, Table 1-8). The packets that wait for an edge port are handled as a Grade 2 containment of the port
(Table 4-8). -/
def State.portOut (s : State) (p : Nat) : State :=
  if s.lanes.outOfService.contains p then s
  else if s.role p = roleHost ∨ s.role p = roleDevice then
    let r := s.record { grade := 2, checker := checkerId 0x16 p, cls := cPort, sel := p, syn0 := s.fld portLinkState p, syn1 := 0, action := 3, key := 0 }
    r.1.portOutBy r.2.1 p
  else s.portOutBy 0 p

/-- A port is disabled (R426 action 1). -/
def State.portDisable (s : State) (p : Nat) : State :=
  let s1 := { s with lanes := { s.lanes with disabled := s.lanes.disabled ++ [p] } }
  if s.role p = roleFabric then s1.fabricStop p else s1.edgeLinkDown p 8

/-! ## Halt and latch (R355, R356) -/

/-- Everything pending reaches SDRAM: logbook entries and fault records (R72, R355). -/
def State.flushLogs (s : State) : State :=
  { s with
    log := { s.log with pendingCopy := [] }
    faults := { s.faults with recs := s.faults.recs.map (fun r => { r with logged := true }) } }

/-- Grade 4: DEV_READY falls, host and fabric links go down, pending writes complete, SDRAM enters self-refresh; a restart follows 10 ms
later unless `HaltHold` is 1 (R355). -/
def State.halt (s : State) : State :=
  if s.running || s.power.phase = .starting then
    let s1 := (s.emit (.pin .devReady false)).hostsDown allPorts
    let s2 := (s1.fabricsDown allPorts).flushLogs
    let s3 : State := { s2 with
      sdram := { s2.sdram with selfRefresh := true }
      power := { s2.power with
        phase := .halted, haltDue := if s2.fld devHaltHold 0 = 1 then none else some (s2.now + 10000000) } }
    s3.showHosts
  else s

/-- Grade 5: DEV_READY falls, every link goes down, every slot channel goes off, the Tallyman stops; the cause stays to be read over the
management port (R356). -/
def State.latch (s : State) (cause sensor : Nat) : State :=
  if s.power.phase = .latched || s.power.phase = .off then s
  else
    let s1 := (s.emit (.pin .devReady false)).hostsDown allPorts
    let s2 := ((s1.fabricsDown allPorts).devicesDown allPorts).slotsOff allSlots
    let s3 : State := { s2 with
      tally := { s2.tally with progs := [], fwdOut := [], fwdIn := [], base := [] }
      power := { s2.power with phase := .latched, latchCause := cause, latchSensor := sensor, haltDue := none } }
    s3.showHosts

/-- Cause code of a Grade 5 event by its checker block (R356): lockstep 3, fuses 2; of the monitors a rail, from instance 256 up,
gives 4 and a sensor 1 (R402, R414). -/
def latchCauseOf (checker : Nat) : Nat :=
  if checker / 65536 = 0x0E then 3 else if checker / 65536 = 0x14 then 2 else if 256 ≤ checker % 65536 then 4 else 1

/-! ## Escalation (Table 14-5) -/

/-- Writes the record of an escalation, with `Lasting` set and `RelatedId` naming the event's record (R352). -/
def State.escalated (s : State) (e : FEvent) (related grade action : Nat) : State × Nat :=
  let lk := match leakSource e with | some k => s.leakCount k | none => 0
  let n := s.newRec { e with grade := grade, action := action } true false lk related
  (n.1.notify, n.2)

/-- A lasting fault of a bank retires it (R115, R116): Grade 3, or Grade 4 where fewer cells than reserves and floors would stay. -/
def State.retireBank (s : State) (e : FEvent) (id b : Nat) : State :=
  if s.fld bankState b ≤ 1 then
    let left := if s.fld bankState b = 0 then s.inService - 2048 else s.inService
    if left < s.reserves + s.floors then (s.escalated { e with cls := cBufferBank, sel := b } id 4 12).1.halt
    else
      let n := s.escalated { e with cls := cBufferBank, sel := b } id 3 10
      ((n.1.put bankRetiring b 1).put bankState b 1).contain n.2 (.resource (checkerId 0x04 b))
  else s

/-- A port is taken out of service for a lasting fault (Table 14-5): Grade 2 against the port. -/
def State.retirePort (s : State) (e : FEvent) (id p : Nat) : State :=
  let n := s.escalated { e with cls := cPort, sel := p } id 2 3
  let q := n.1.lane0 p
  let s1 := (n.1.contain n.2 (.port p)).contain n.2 (.resource e.checker)
  if s1.lanes.outOfService.contains q then s1 else s1.portOutBy n.2 q

/-- An SDRAM channel leaves service, its contents migrating first, if at least 4 channels remain (R26, Table 14-5). -/
def State.retireChannel (s : State) (e : FEvent) (id c : Nat) : State :=
  if s.sdramUp.contains c ∧ !s.sdram.migrating.contains c ∧ 5 ≤ s.sdramUp.length - s.sdram.migrating.length then
    let n := s.escalated { e with cls := cSdramChannel, sel := c } id 3 10
    let s1 := n.1.contain n.2 (.resource (checkerId 0x0D c))
    { s1 with sdram := { s1.sdram with migrating := s1.sdram.migrating ++ [c] } }
  else (s.escalated { e with cls := cSdramChannel, sel := c } id 3 11).1

/-- A lane whose corrections became lasting is replaced by an idle spare routed to its link, if there is one (Table 14-5, R293). -/
def State.retireLane (s : State) (e : FEvent) (id : Nat) : State :=
  let l := laneOfSel e.sel
  match s.linkOfLane l with
  | some (p, some i) =>
    match ((s.sparesOf p).map (·.2)).find? (fun k => s.spareIdle p k) with
    | some k =>
      if s.role p = roleFabric && s.ql p = qlActive && (s.steer p).req.isNone && s.lfld laneRxState l = 2 then
        (((s.escalated e id 0 8).1.sendSteer p 1 i k true).1).laneCount l 2 1
      else (s.escalated e id 0 0).1
    | none => (s.escalated e id 0 0).1
  | _ => (s.escalated e id 0 0).1

/-- The escalation of a source that has just become lasting (Table 14-5). -/
def State.escalate (s : State) (e : FEvent) (id : Nat) : State :=
  let b := e.checker / 65536
  let i := e.checker % 65536
  if b = 0x01 then s.retireLane e id
  else if b = 0x04 then s.retireBank e id (i / 4)
  else if b = 0x03 ∨ b = 0x05 ∨ b = 0x06 ∨ b = 0x0C then (if i < 144 then s.retirePort e id i else s)
  else if b = 0x0D then s.retireChannel e id (i / 2)
  else if b = 0x09 then
    if i = 16 then
      let s1 := (s.escalated e id 3 11).1
      { s1 with lighter := { s1.lighter with xlates := [] } }
    else
      let n := s.escalated e id 3 10
      let s1 := n.1.contain n.2 (.resource e.checker)
      { s1 with lighter := { s1.lighter with cached := ctxFit s1.ctxRoom s1.lighter.cached } }
  else if b = 0x0B then
    let n := s.escalated { e with cls := cCmWindow, sel := i } id 1 2
    n.1.containObj n.2 cCmWindow i
  else if b = 0x18 then (s.escalated e id 3 11).1
  else (s.escalated e id 4 12).1.halt

/-- An event as the fault collector takes it (R348 to R356): recorded, contained as its `Action` says, escalated if its source just became
lasting; Grade 4 halts and Grade 5 latches. -/
def State.raise (s : State) (e : FEvent) : State :=
  let r := s.record e
  let s1 := r.1.containBy r.2.1 e
  let s2 := if r.2.2 then s1.escalate e r.2.1 else s1
  if e.grade = 4 then s2.halt
  else if e.grade = 5 then s2.latch (latchCauseOf e.checker) (e.checker % 256)
  else s2

/-- An event whose `Syndrome` holds what its command does not carry, such as check values: those words are free (log entry 1). -/
def State.raiseOpen (s : State) (e : FEvent) : State :=
  (s.draw.draw).raise { e with syn0 := s.freeVal.toNat, syn1 := s.draw.freeVal.toNat }

/-! ## Release (R354) -/

/-- A function takes new identifiers at the release of what its removal contained (R192): its views hear that it is present (R149, R184). -/
def State.takeIdents (s : State) (slot : Nat) : State :=
  let sel := homeSel slot
  match s.tenancy.newIds.find? (fun e => decide (e.1 = slot)) with
  | some (_, v, d) =>
    if s.isContained (.obj cFunction sel) then s
    else
      let s1 := ((s.put fnVendorId sel v).put fnDeviceId sel d).put fnState sel 1
      ({ s1 with tenancy := { s1.tenancy with newIds := s1.tenancy.newIds.filter (fun e => decide (e.1 ≠ slot)) } } : State).tellViews slot (.presence true)
  | none => s

/-- Lifts what one containment or retirement of a record did, beside the entry itself (Tables 4-7a, 14-5, R192). -/
def State.liftOne (s : State) : ContTarget → State
  | .resource c =>
    let k := c / 65536
    let b := c % 65536
    if k = 0x04 then
      let s1 := if s.fld bankState b = 4 then (s.put bankTestResult b 0).put bankState b 2 else s
      s1.put bankRetiring b 0
    else if (k = 0x03 ∨ k = 0x05 ∨ k = 0x06 ∨ k = 0x0C) ∧ s.lanes.outOfService.contains (s.lane0 b) = true then s.portBack (s.lane0 b)
    else s
  | .obj cls sel => if cls = cFunction then s.takeIdents (sel % 65536) else s
  | _ => s

/-- Lifts a list. -/
def State.liftAll (s : State) : List (Nat × ContTarget) → State
  | [] => s
  | c :: cs => (s.liftOne c.2).liftAll cs

/-- Slots that a record latched leave Latched for Dwell (Table 15-2). -/
def State.unlatchSlots (s : State) (id : Nat) : List Nat → State
  | [] => s
  | n :: ns =>
    (if s.slotSt n = slLatched && (s.slotRun n).latchRec = some id then
      let s1 := (s.put slotRetryCount n 0).put slotState n slDwell
      s1.setSlotRun { s1.slotRun n with latchRec := none }
     else s).unlatchSlots id ns

/-- `Release` of a record (R354): the containments and retirements that it caused or carries forward. -/
def State.release (s : State) (id : Nat) : State :=
  let mine := s.faults.contained.filter (fun c => decide (c.1 = id))
  let s1 := s.uncontain (fun c => decide (c.1 = id))
  let s2 := (s1.liftAll mine).unlatchSlots id allSlots
  { s2 with faults := { s2.faults with recs := s2.faults.recs.map (fun r =>
      if r.id = id ∧ (r.action = 2 ∨ r.action = 3 ∨ r.action = 4) then { r with isOpen := false } else r) } }

/-- A link of a contained host or device port has returned, which is an exit of its containment (Table 14-5). -/
def State.linkReturned (s : State) (p : Nat) : State := s.exitOf (.port p)

end Sys2Proof.Machine
end

