-- ==== Sys2Proof/Machine/Sdram.lean ====
section
/-! DEFINITION. Attached SDRAM: where its structures stand (R25), the order in which its request classes are served (R21), and the requests of replay
spill (R20, R264) and of the Lighter contexts (R245). The requests of the logs and of telemetry stand with their blocks. -/

namespace Sys2Proof.Machine

/-! ## What stands where (R25) -/

/-- The structures of Table 1-6. -/
inductive SdramStruct where
  | logbook | queuePairs | regions | completionQueues | spill | faultLog | telemetry
  deriving DecidableEq, Repr

/-- Bytes of a structure's element: an entry, a context, a flit, a record (Table 1-6; R264 for spill, R398 for telemetry). -/
def sdramUnit : SdramStruct → Nat
  | .logbook => 128 | .queuePairs => 512 | .regions => 64 | .completionQueues => 64 | .spill => 256 | .faultLog => 64 | .telemetry => 144

/-- Bytes of a structure (Table 1-6). Spill has 16 MiB for each port with `SpillEnable`, completion-queue contexts 64 B for each enabled queue, telemetry
what its rings are configured for. -/
def State.sdramSize (s : State) : SdramStruct → Nat
  | .logbook => 134217728
  | .queuePairs => 536870912
  | .regions => 268435456
  | .completionQueues => 64 * ((s.selsOf cCompletionQueue).filter (fun c => decide (s.fld cqState c = 1))).length
  | .spill => 16777216 * ((s.selsOf cPort).filter (fun p => decide (s.fld portSpillEnable p = 1))).length
  | .faultLog => 4194304
  | .telemetry => ((List.range 8).map (fun r => if s.fld (ringEnable.up (2 * r)) 0 = 1 then 2 ^ s.fld (ringLog2StageMiB.up (2 * r)) 0 * 1048576 else 0)).sum

/-- The structures that outlive a device reset (Table 1-6). -/
def survivesReset : SdramStruct → Bool
  | .logbook => true | .faultLog => true | _ => false

/-- The channel that holds a byte of a structure: 4 KiB granules over the channels in service in turn, from the first on (R25; DEDUCED which granule begins,
log entry 100). While a channel's contents migrate it still holds its share (R26). -/
def State.sdramChannel (s : State) (byte : Nat) : Option Nat := s.sdramUp[byte / 4096 % s.sdramUp.length]?

/-- The channel of element i of a structure. -/
def State.sdramOf (s : State) (k : SdramStruct) (i : Nat) : Option Nat := s.sdramChannel (sdramUnit k * i)

/-- Class of a structure's requests (R21): 0 the logs, 1 spill, 2 the Lighter's, 3 telemetry. -/
def sdramClass : SdramStruct → Nat
  | .logbook => 0 | .faultLog => 0 | .spill => 1 | .queuePairs => 2 | .regions => 2 | .completionQueues => 2 | .telemetry => 3

/-- Counts one access to element i of a structure at its channel: reads by class from 0, writes from 4 (Table 16-1; log entry 21). -/
def State.sdramAccess (s : State) (k : SdramStruct) (i : Nat) (write : Bool) : State :=
  match s.sdramOf k i with
  | none => s
  | some c => s.count (ctrId 0x0D 32 c (sdramClass k + 4 * bit write)) 1

/-! ## The order of service (R21) -/

/-- A logbook entry waits for its copy (R71), or a fault record for its place in the fault log (R350): both before every other class. -/
def State.logsWait (s : State) : Bool := !s.log.pendingCopy.isEmpty || s.faults.recs.any (fun r => !r.logged)

/-- A link has filled its on-die replay entries and is granted spill (R264). -/
def State.wantsSpill (s : State) (p : Nat) : Bool :=
  s.role p = roleFabric && s.ql p = qlActive && s.fld portSpillEnable p = 1
  && decide (s.onDie p ≤ (s.qlp p).outstanding - (s.qlp p).spilled) && s.spillGranted p

/-- Spill is backlogged. -/
def State.spillWaits (s : State) : Bool := s.quay.any (fun r => s.wantsSpill r.port)

/-- The Lighter classes are backlogged: a context or a region entry is on its way. -/
def State.lighterWaits (s : State) : Bool := !s.lighter.missing.isEmpty

/-- The turn of spill, which alternates with the Lighter classes while both are backlogged. -/
def State.spillTurn (s : State) : Bool := !s.logsWait && (!s.lighterWaits || !s.sdram.spillTurn)

/-- The turn of the Lighter classes. -/
def State.lighterTurn (s : State) : Bool := !s.logsWait && (!s.spillWaits || s.sdram.spillTurn)

/-- Telemetry is served last. -/
def State.telemetryTurn (s : State) : Bool := !s.logsWait && !s.spillWaits && !s.lighterWaits

/-- Notes which of the two sharing classes was served. -/
def State.served (s : State) (spill : Bool) : State := { s with sdram := { s.sdram with spillTurn := spill } }

/-! ## Requests -/

/-- `REPLAY_SPILL` (R20, R264): the on-die entries are full; with a grant the oldest 16 flits go to SDRAM in their turn, without one the port
throttles. -/
def execReplaySpill (p : PortId) (s : State) : Host.Outcome State Fault Refusal :=
  let r := s.qlp p.val
  if !(s.running && s.role p.val = roleFabric && s.lane0 p.val = p.val) || s.fld portSpillEnable p.val ≠ 1 || s.ql p.val ≠ qlActive
      || r.outstanding - r.spilled < s.onDie p.val then .next s
  else if s.spillGranted p.val then
    .next (if s.spillTurn then
      ((s.setQlp { r with
        spilled := r.spilled + 16, throttled := false
        spillFrom := match r.spillFrom with | some t => some t | none => some s.now }).served true).sdramAccess .spill (65536 * p.val + r.spilled) true
    else s)
  else if r.throttled then .next s
  else .next ((s.setQlp { r with throttled := true }).portCount p.val 130 1)

/-- The structure and element of a context. -/
def ctxPlace : LtCtx → SdramStruct × Nat
  | .qp q => (.queuePairs, q.val)
  | .region i => (.regions, i.val)
  | .cq c => (.completionQueues, c.val)

/-- `CONTEXT_MISS_FILL` (R245): the context arrives in the turn of the Lighter classes, and what waited for it goes on. -/
def execContextMissFill (c : LtCtx) (s : State) : Host.Outcome State Fault Refusal :=
  let k := ctxKey c
  .next (if s.lighter.missing.contains k && s.lighterTurn then ((s.ctxFilled k).served false).sdramAccess (ctxPlace c).1 (ctxPlace c).2 false else s)

end Sys2Proof.Machine
end

