-- ==== Sys2Proof/Machine/Links.lean ====
section
/-! DEFINITION. The commands of the Quayline link (R248 to R279): flits, replay, bring-up, timers and resizes. -/

namespace Sys2Proof.Machine

/-- A fabric link, named by its lane-0 port, of a device that runs. -/
def State.fabricLink (s : State) (p : Nat) : Bool := s.running && s.role p = roleFabric && s.lane0 p = p

/-! ## Receiving flits (R248, R249, R253, R282) -/

/-- The physical lane on which a stream is received now. -/
def State.laneNow (s : State) (p i : Nat) : Nat :=
  match (s.linkLanes p).find? (fun l => decide (s.lfld laneRxStream l = i)) with
  | some l => l
  | none => ownLane p i

/-- One corrected symbol: counted at the lane that carries its byte, and a Grade 0 event of the lane's corrections (R249, R253, Table 14-6). -/
def State.corrected (s : State) (p w i : Nat) : State :=
  let l := s.laneNow p ((s.qlp p).block + laneOfByte w i)
  (s.laneCount l 0 1).raiseOpen
    { grade := 0, checker := checkerId 0x01 p, cls := cLane, sel := selOfLane l, syn0 := 0, syn1 := 0, action := 1, key := 0 }

/-- Corrections of one flit. -/
def State.correctedAll (s : State) (p w : Nat) : List Nat → State
  | [] => s
  | i :: is => (s.corrected p w i).correctedAll p w is

/-- Descrambles what each stream of a link brought, from stream `k` on (R282). -/
def descrambleAll : Nat → List (List PamLevel) → List (Nat × Nat) → List (List Byte) × List (Nat × Nat)
  | _, [], sts => ([], sts)
  | k, l :: ls, sts =>
    let d := scramble (BitVec.ofNat 31 (tget 0 sts k)) (pamBytes l)
    let r := descrambleAll (k + 1) ls (tput 0 sts k d.2.toNat)
    (d.1 :: r.1, r.2)

/-- The 256 bytes that the streams of a link bring in one flit time, collected into a flit; the descramblers go on (R249, R282). -/
def State.collect (s : State) (p : Nat) (lanes : List (List PamLevel)) : State × List Byte :=
  let r := s.qlp p
  let d := descrambleAll r.block lanes r.rxS
  (s.setQlp { r with rxS := d.2 }, flitOfLanes lanes.length d.1)

/-- Symbols arrive on every lane that carries the link, and no other. -/
def State.lanesFit (s : State) (p : Nat) (lanes : List (List PamLevel)) : Bool :=
  flitWf lanes && decide (lanes.length = streamsOf (s.fld qlActiveWidth p))

/-- The error monitor takes one flit, unless a steer is under way (R269, R293). -/
def State.monitor (s : State) (p : Nat) (bad : Bool) : State :=
  let r := s.qlp p
  if r.steerDue.isSome then s
  else (s.setQlp (monitorFlit (s.fld qlErrThreshold p) bad r)).showDegraded p

/-- A replay starts at `AckSeq` + 1, or the eighth in a row from there starts a fast retrain instead (R261). -/
def State.startReplay (s : State) (p : Nat) (epoch : Bool) : State :=
  let r := s.qlp p
  let from_ := (r.acked + 1) % 16777216
  let runs := if r.replayRuns ≠ 0 && r.replayFrom = from_ then r.replayRuns + 1 else 1
  let s1 := s.setQlp { r with actedEpoch := epoch, replayFrom := from_, replayRuns := runs }
  if 8 ≤ runs then (s1.setQlp { s1.qlp p with replayRuns := 0 }).fastRetrain p else s1.resendFlits p

/-- Link control of a good flit but for `LinkCmd` (R257, R261, R265, R268). -/
def State.linkControl (s : State) (p : Nat) (c : LinkCtl) : State :=
  let s1 := s.qlAck p c.ackSeq
  let r := s1.qlp p
  let s2 := s1.setQlp { r with
    limits := if c.creditVc < 13 then tput 0 r.limits c.creditVc c.creditCount else r.limits
    advertised := if c.creditVc < 13 then tput 0 r.advertised c.creditVc s.now else r.advertised
    partnerDegraded := c.degraded }
  let s3 := ({ s2 with fabric := { s2.fabric with
      remoteLevel := tput 0 s2.fabric.remoteLevel (p * 4 + c.congHop) c.congLevel } } : State).showDegraded p
  if c.replayReq && c.replayEpoch ≠ (s3.qlp p).actedEpoch then s3.startReplay p c.replayEpoch else s3

/-- Sequence checks of a good IDLE or DATA flit, and the packet stream (R255, R256, R260). A flit that breaks the stream's rules is not accepted, and comes
again after the retrain (DEDUCED, log entry 101). -/
def State.takeFlit (s : State) (p : Nat) (f : RxFlit) : State :=
  let r := s.qlp p
  if f.typ = 0 then (if f.seq = r.expected then s else s.openRequest p)
  else
    let d := (f.seq + 16777216 - r.expected) % 16777216
    if d = 0 then
      let other := match r.rxOpen with | some e => decide (e.1 ≠ f.vc) | none => false
      let left := match r.rxOpen with | some e => e.2 | none => 0
      match (if other then StreamEnd.badLead else streamRead 58 left f.payload) with
      | .badLead => s.fastRetrain p
      | .idle => s.setQlp { r with expected := (r.expected + 1) % 16777216, reqOpen := false, rxOpen := none }
      | .left n => s.setQlp { r with expected := (r.expected + 1) % 16777216, reqOpen := false, rxOpen := some (f.vc, n) }
    else if 8388608 ≤ d then s
    else s.openRequest p

/-! ### Resize commands in link control (R271, R278) -/

/-- The order of two ends whose requests cross: the lower (`FabricId`, `Port`) stands (R278). -/
def State.ownStands (s : State) (p : Nat) : Bool :=
  let a := s.fabricId * 256 + p
  let b := s.fld qlPartnerDevice p * 256 + s.fld qlPartnerPort p
  a < b

/-- A `RESIZE_REQ`: answered by ACK where the width and rate fit, and also where they are the link's own, as a calibration window asks (R271, R295); the
next flit carries the answer. -/
def State.resizeAsked (s : State) (p arg : Nat) : State :=
  let r := s.qlp p
  if r.wanted.isSome && s.ownStands p then s
  else
    let rate := arg / 16
    let width := arg % 16
    let fits := width ≤ s.cfgWidth p && (rate = 5 || rate = 6) && rate ≤ s.fld portMaxRate p
    let same := rate = s.fld qlActiveRate p && width = s.fld qlActiveWidth p
    s.setQlp { r with answer := some (if fits || same then (2, arg) else (3, 0)) }

/-- A `RESIZE_ACK`: the resize starts at this end (R271). -/
def State.resizeAcked (s : State) (p arg : Nat) : State :=
  match (s.qlp p).wanted with
  | none => s
  | some (rate, width) => if arg = rate * 16 + width then s.enterResize p rate width true else s

/-- A `RESIZE_NAK`: the link stays at its settings (R271). -/
def State.resizeRefused (s : State) (p : Nat) : State :=
  let r := s.qlp p
  if r.wanted.isSome then
    let s1 := s.setQlp { r with wanted := none, byWindow := false }
    if r.byWindow then s1 else (s1.put qlResizeResult p 2).resizeRecord p
  else s

/-- `LinkCmd` of a good flit (Table 10-4). -/
def State.linkCmd (s : State) (p : Nat) (c : LinkCtl) : State :=
  if s.ql p ≠ qlActive then s
  else if c.cmd = 1 then s.resizeAsked p c.arg
  else if c.cmd = 2 then s.resizeAcked p c.arg
  else if c.cmd = 3 then s.resizeRefused p
  else s

/-- A good flit in Active: link control, then its sequence and stream, then the link command. INIT flits change nothing there (R258). -/
def State.goodFlit (s : State) (p : Nat) (f : RxFlit) : State :=
  if f.typ = 2 then s
  else
    let s1 := s.linkControl p f.ctl
    (if s1.ql p = qlActive then s1.takeFlit p f else s1).linkCmd p f.ctl

/-- `FLIT_RECEIVED` (R253, R257, R260): the lanes of an Active link bring a flit. -/
def execFlitReceived (p : PortId) (lanes : List (List PamLevel)) (s : State) : Host.Outcome State Fault Refusal :=
  if !s.fabricLink p.val || s.ql p.val ≠ qlActive || !s.lanesFit p.val lanes then .next s
  else
    let c := s.collect p.val lanes
    let fixed := match flitDecode c.2 with | some d => d.2 | none => []
    let f := rxFlit c.2
    let s1 := (c.1.monitor p.val f.isNone).correctedAll p.val lanes.length fixed
    .next (match f with
      | none => (s1.portCount p.val 48 1).openRequest p.val
      | some f => s1.goodFlit p.val f)

/-- `REPLAY_REQUEST_RECEIVED` (R261): a transmitter sees `ReplayReq` 1 with an epoch it has not acted on. -/
def execReplayRequestReceived (p : PortId) (epoch : Bool) (ackSeq : Nat) (s : State) : Host.Outcome State Fault Refusal :=
  if !s.fabricLink p.val || s.ql p.val ≠ qlActive || (s.qlp p.val).actedEpoch = epoch then .next s
  else .next ((s.qlAck p.val (ackSeq % 16777216)).startReplay p.val epoch)

/-! ## Bring-up (R258, R259) -/

/-- A mismatch or a duplicate ID holds the link with a Grade 2 record (R259, R272). -/
def State.initFails (s : State) (p : Nat) : State := s.toHeld p 0x16

/-- The nonces of this device's own ports. -/
def State.ownNonce (s : State) (n : Nat) : Bool := s.quay.any (fun r => decide (r.nonce = n))

/-- The partner's first valid INIT (R259). -/
def State.firstInit (s : State) (p : Nat) (m : InitMsg) : State :=
  let r := s.qlp p
  if m.rate ≠ s.fld qlActiveRate p || m.width ≠ s.fld qlActiveWidth p || m.resume ≠ r.resume then s.initFails p
  else
    let mine := m.fabricId = s.fabricId
    if mine && !s.ownNonce m.nonce then s.initFails p
    else
      let s1 := ((s.put qlPartnerDevice p m.fabricId).put qlPartnerPort p m.port).put qlSelfLoop p (bit mine)
      s1.setQlp { s1.qlp p with heardAt := some s.now, partnerHeard := m.heard, partnerAck := m.ackSeq }

/-- An end enters Active once it has received a valid INIT with `Heard` 1 and sent 16 with `Heard` 1 (R258). -/
def State.initDone (s : State) (p : Nat) : State :=
  let r := s.qlp p
  if r.partnerHeard && decide (16 ≤ r.initsSent) then s.enterActive p r.partnerAck else s

/-- A valid INIT (R258, R259). -/
def State.initTaken (s : State) (p : Nat) (m : InitMsg) : State :=
  let r := s.qlp p
  match r.heardAt with
  | none => s.firstInit p m
  | some _ => (s.setQlp { r with partnerHeard := r.partnerHeard || m.heard, partnerAck := m.ackSeq }).initDone p

/-- `INIT_RECEIVED` (R258, R259): in Init, Retrain or Resize once the lanes are aligned. -/
def execInitReceived (p : PortId) (lanes : List (List PamLevel)) (s : State) : Host.Outcome State Fault Refusal :=
  let st := s.ql p.val
  if !s.fabricLink p.val || !(s.qlp p.val).aligned || !(st = qlInit || st = qlRetrain || st = qlResize) || !s.lanesFit p.val lanes then .next s
  else
    let c := s.collect p.val lanes
    .next (match rxFlit c.2 with
      | none => c.1.portCount p.val 48 1
      | some f => if f.typ = 2 ∧ (initOf f.payload).valid = true then c.1.initTaken p.val (initOf f.payload) else c.1)

/-! ## Timers of the link (R268 to R272) -/

/-- A packet of a channel waits for credit at a fabric port; the times since when. -/
def State.creditWaits (s : State) (p vc : Nat) : List Nat :=
  (s.core.pkts.filter (fun k => decide (k.egress = p) && decide (k.loc = .linked) && decide (vcOf k.outLevel k.kind k.req = vc)
    && !(s.qlp p).credit vc k.bytes)).map (·.linkedAt)

/-- `CREDIT_TIMEOUT` (R268): the timer runs from the later of the channel's last advertisement and the packet's arrival in its queue. -/
def execCreditTimeout (p : PortId) (vc : Fin 13) (s : State) : Host.Outcome State Fault Refusal :=
  let r := s.qlp p.val
  let waits := s.creditWaits p.val vc.val
  let due := waits.any (fun t =>
    decide (s.fld qlCreditTimeoutUs p.val * 1000 ≤ s.creditRun p.val (max t (tget 0 r.advertised vc.val))))
  if s.fabricLink p.val && s.ql p.val = qlActive && r.frozenFrom.isNone && due then .next (s.toHeld p.val 0x16) else .next s

/-- `ERROR_WINDOW_END` (R269): 2^24 flits have passed since the declaration or the window before. -/
def execErrorWindowEnd (p : PortId) (s : State) : Host.Outcome State Fault Refusal :=
  let r := s.qlp p.val
  if !(s.fabricLink p.val && s.ql p.val = qlActive && r.ownDegraded && decide (16777216 ≤ r.declFlits)) then .next s
  else if r.errors ≤ s.fld qlErrThreshold p.val then
    .next ((s.setQlp { r with ownDegraded := false, overRuns := 0, declFlits := 0 }).showDegraded p.val)
  else
    let s1 := s.setQlp { r with overRuns := r.overRuns + 1, declFlits := r.declFlits - 16777216 }
    .next (if 3 ≤ r.overRuns + 1 then s1.toHeld p.val 0x01 else s1)

/-- `FAST_RETRAIN_START` (R270): a retrain event on an Active link. -/
def execFastRetrainStart (p : PortId) (s : State) : Host.Outcome State Fault Refusal :=
  .next (if s.fabricLink p.val && s.ql p.val = qlActive then s.fastRetrain p.val else s)

/-- `RETRAIN_TIMEOUT` (R270, R272): 10 µs in Retrain. -/
def execRetrainTimeout (p : PortId) (s : State) : Host.Outcome State Fault Refusal :=
  let r := s.qlp p.val
  match r.retrainDue with
  | none => .next s
  | some due =>
    if !s.fabricLink p.val || s.ql p.val ≠ qlRetrain || s.now < due then .next s
    else
      let recent := match r.failedAt with | some t => decide (s.now < t + 1000000) | none => false
      if recent then .next (s.toHeld p.val 0x16)
      else
        let s1 := s.setQlp { r with
          failedAt := some s.now, retrainDue := some (s.now + 10000), aligned := false, heardAt := none, partnerHeard := false, initsSent := 0 }
        .next (s1.retrainLanes p.val)

/-- `INIT_TIMEOUT` (R272): 1 ms in Init; the lane bring-up starts again. -/
def execInitTimeout (p : PortId) (s : State) : Host.Outcome State Fault Refusal :=
  match (s.qlp p.val).initDue with
  | none => .next s
  | some due =>
    if !s.fabricLink p.val || s.ql p.val ≠ qlInit || s.now < due then .next s
    else .next (((s.linkLost p.val qlDown).addSat qlFailedAttempts p.val 1).startTraining p.val)

/-- `HELD_TIMER_EXPIRY` (R272): 10 ms in Held on an enabled port. -/
def execHeldTimerExpiry (p : PortId) (s : State) : Host.Outcome State Fault Refusal :=
  match (s.qlp p.val).heldDue with
  | none => .next s
  | some due =>
    if !s.fabricLink p.val || s.ql p.val ≠ qlHeld || s.now < due || !s.portEnabled p.val then .next s
    else .next (((s.setQlp { s.qlp p.val with heldDue := none }).setQl p.val qlDown).startTraining p.val)

/-! ## Width and rate change (R271) -/

/-- `RESIZE_REQ_RECEIVED` (R271, R278). -/
def execResizeReqReceived (p : PortId) (arg : BitVec 8) (s : State) : Host.Outcome State Fault Refusal :=
  .next (if s.fabricLink p.val && s.ql p.val = qlActive then s.resizeAsked p.val arg.toNat else s)

/-- `RESIZE_ACK_RECEIVED` (R271). -/
def execResizeAckReceived (p : PortId) (arg : BitVec 8) (s : State) : Host.Outcome State Fault Refusal :=
  .next (if s.fabricLink p.val && s.ql p.val = qlActive then s.resizeAcked p.val arg.toNat else s)

/-- `RESIZE_NAK_RECEIVED` (R271). -/
def execResizeNakReceived (p : PortId) (s : State) : Host.Outcome State Fault Refusal :=
  .next (if s.fabricLink p.val && s.ql p.val = qlActive then s.resizeRefused p.val else s)

/-- `RESIZE_PAUSE_TIMEOUT` (R271, R272): 8 µs in Resize; the link retrains at its old settings. -/
def execResizePauseTimeout (p : PortId) (s : State) : Host.Outcome State Fault Refusal :=
  let r := s.qlp p.val
  match r.resizeDue with
  | none => .next s
  | some due =>
    if !s.fabricLink p.val || s.ql p.val ≠ qlResize || s.now < due then .next s
    else
      let s1 := s.setQlp { r with byWindow := false }
      let s2 := if r.byWindow then s1 else (s1.put qlResizeResult p.val 3).resizeRecord p.val
      .next (s2.fastRetrain p.val)

/-! ## Drain, failure and re-send (R139 to R141, R264, R272) -/

/-- `LINK_DRAIN_END` (R272): nothing is queued toward the port and every replay entry is acknowledged, or 1 ms has passed; what is
unacknowledged is re-sent. -/
def execLinkDrainEnd (p : PortId) (s : State) : Host.Outcome State Fault Refusal :=
  let r := s.qlp p.val
  match r.drainDue with
  | none => .next s
  | some due =>
    let empty := (s.queuedTo p.val).isEmpty && r.replay.isEmpty
    if !s.fabricLink p.val || s.ql p.val ≠ qlActive || !(empty || decide (due ≤ s.now)) then .next s
    else
      let s1 := s.toDown p.val
      .next ((s1.setQlp { s1.qlp p.val with replay := [], spilled := 0, spillFrom := none }).reenters p.val r.replay)

/-- `FABRIC_PORT_FAILURE` (R139, R140): the paths of a failed port are withdrawn. -/
def execFabricPortFailure (p : PortId) (s : State) : Host.Outcome State Fault Refusal :=
  if !s.fabricLink p.val || (s.qlp p.val).failure ≠ 1 then .next s
  else
    let s1 := (s.setQlp { s.qlp p.val with failure := 2 }).withdrawPort p.val
    .next (if s1.ql p.val = qlActive then s1.startRestore p.val else s1)

/-- `REPLAY_RESEND` (R141): the on-die replay contents of a failed port are re-sent. -/
def execReplayResend (p : PortId) (s : State) : Host.Outcome State Fault Refusal :=
  let r := s.qlp p.val
  if !s.fabricLink p.val || r.failure ≠ 2 then .next s
  else .next ((s.setQlp { r with failure := 3 }).reenters p.val (onDieEntries r.spilled r.replay))

/-- `SPILLED_RESEND` (R141): then the entries spilled to SDRAM; a link that is down drops its entries once they are read (R264). -/
def execSpilledResend (p : PortId) (s : State) : Host.Outcome State Fault Refusal :=
  let r := s.qlp p.val
  if !s.fabricLink p.val || r.failure ≠ 3 then .next s
  else
    let up := s.ql p.val = qlActive || s.ql p.val = qlRetrain || s.ql p.val = qlResize
    let r1 := { r with failure := if s.ql p.val = qlActive then 0 else 4 }
    let s1 := (List.range (r.spilled / 16)).foldl (fun s i => s.sdramAccess .spill (65536 * p.val + 16 * i) false) s
    .next ((s1.setQlp (if up then r1 else { r1 with replay := [], spilled := 0, spillFrom := none })).reenters p.val (spilledEntries r.spilled r.replay))

end Sys2Proof.Machine
end

