-- ==== Sys2Proof/Machine/Steering.lean ====
section
/-! DEFINITION. The commands of the lanes (R283 to R300): markers, bring-up, steering onto spares, calibration and tests. -/

namespace Sys2Proof.Machine

/-! ## Grants and alignment (R22, R285, R286) -/

/-- `LANE_GRANT` (R22): the lane that has waited longest takes a grant, at most `LanesPer2us` in any 2 µs; its transmitter starts. -/
def execLaneGrant (s : State) : Host.Outcome State Fault Refusal :=
  match s.lanes.waiting with
  | [] => .next s
  | l :: ls =>
    if !s.running || s.fld budLanesPer2us 0 ≤ s.recentGrants then .next s
    else
      let s1 := { s with lanes := { s.lanes with
          waiting := ls, grants := s.now :: s.lanes.grants.filter (fun t => decide (s.now < t + 2000)) } }
      let s2 := s1.setLaneRun { s1.laneRun l with granted := true }
      .next (match s2.linkOfLane l with
        | some (p, some i) =>
          if s2.role p = roleFabric then
            match s2.txSpareOf p i with
            | some _ => s2.lput laneTxState l 3
            | none => (s2.lput laneTxState l 2).lput laneTxStream l i
          else s2.lput laneTxState l 2
        | some (p, none) =>
          match (s2.steer p).moves.find? (fun m => decide (m.spare = s2.lfld laneLinkSpare l) && decide (m.stage = 2)) with
          | some m => (s2.lput laneTxState l 2).lput laneTxStream l m.lane
          | none => s2.lput laneTxState l 1
        | none => s2)

/-- A bring-up attempt fails: counted, `NoPartner` after eight in a row, and a new attempt begins at step 1 (R285). -/
def State.attemptFails (s : State) (p : Nat) : State :=
  let s1 := s.addSat qlFailedAttempts p 1
  (if 8 ≤ s1.fld qlFailedAttempts p then s1.put qlNoPartner p 1 else s1).startTraining p

/-- `BRING_UP_ATTEMPT_FAIL` (R285): a step misses the attempt limit. -/
def execBringUpAttemptFail (p : PortId) (s : State) : Host.Outcome State Fault Refusal :=
  .next (if s.fabricLink p.val && (s.steer p.val).training && s.ql p.val = qlDown then s.attemptFails p.val else s)

/-- The lanes of a link come to run at a rate code (Table 11-5). -/
def State.setRates (s : State) (rate : Nat) : List Nat → State
  | [] => s
  | l :: ls => (s.lput laneRateCode l rate).setRates rate ls

/-- `LANES_ALIGNED` (R286): the good set has stayed unchanged for two marker intervals. A width below `MinWidth` fails the attempt. -/
def execLanesAligned (p : PortId) (good : BitVec 16) (s : State) : Host.Outcome State Fault Refusal :=
  let st := s.ql p.val
  let w := s.aimWidth p.val
  let waits := (st = qlDown && (s.steer p.val).training) || ((st = qlRetrain || st = qlResize) && !(s.qlp p.val).aligned)
  let seen := (List.range 16).all (fun i => good.getLsbD i = (decide (i < streamsOf w) && s.streamGood p.val i))
  if !s.fabricLink p.val || !waits || !seen then .next s
  else
    match goodBlock (s.streamGood p.val) (streamsOf w) w with
    | none => .next (if st = qlDown then s.attemptFails p.val else s)
    | some (width, first) =>
      if width < s.fld qlMinWidth p.val then .next (if st = qlDown then s.attemptFails p.val else s)
      else
        let rate := s.aimRate p.val
        let s1 := (s.takeStreams p.val ((List.range (streamsOf width)).map (first + ·))).setRun2 p.val width rate
        let s2 := (s1.setRates rate (s1.linkLanes p.val)).setQlp { s1.qlp p.val with aligned := true, block := first }
        if st = qlDown then
          let s3 := ((s2.put qlFailedAttempts p.val 0).put qlNoPartner p.val 0).setSteer { s2.steer p.val with training := false }
          .next (s3.beginInit p.val)
        else .next s2

/-! ## Receiving markers (R284, R291 to R294) -/

/-- Patterns found one after the other: two of them 65,552 bytes apart give marker lock, which stays while not two in a row are missing (R284). The clock
of the model counts whole nanoseconds: an interval may differ by 2 (DEDUCED, log entry 99). -/
def marksFound (iv : Nat) (r : LaneRun) (now : Nat) : Nat :=
  let gap := now - r.lastMark
  if r.found = 0 then 1
  else if iv ≤ gap + 2 && gap ≤ iv + 2 then 2
  else if 2 ≤ r.found && 2 * iv ≤ gap + 2 && gap ≤ 2 * iv + 2 then 2
  else 1

/-- A marker is found on a lane: alignment, where its `MarkCrc` holds the stream that it shows (R284), and the descrambler of that stream starts again
(R282). -/
def State.markerFound (s : State) (p l : Nat) (m : MarkerIn) : State :=
  let r := s.laneRun l
  let found := marksFound (s.interval p) r s.now
  let shows := if m.crcOk then m.markLane % 32 else r.shows
  let s1 := s.setLaneRun { r with
    found := found, lastMark := s.now
    lastCount := if m.crcOk then m.markCount % 128 else (r.lastCount + 1) % 128
    shows := shows, partnerOk := if m.crcOk then m.rxOk else r.partnerOk }
  let q := s1.qlp p
  let s2 := if shows < 16 then s1.setQlp { q with rxS := tput 0 q.rxS shows (scramLoad shows).toNat } else s1
  (s2.lput laneLocked l 1).lput laneMarkerLock l (bit (2 ≤ found))

/-- Takes a stream from link spare `k` (R292): the own lane reads `st`. -/
def State.takeFromSpare (s : State) (p i k st : Nat) : State :=
  match s.spareLane p k with
  | none => s
  | some sp =>
    let own := ownLane p i
    let s1 := (((s.lput laneRxState sp 2).lput laneRxStream sp i).lput laneRxState own st).lput laneRxStream own 0x1F
    s1.setSteer { s1.steer p with rxOnSpare := (s1.steer p).rxOnSpare.filter (fun (e : Nat × Nat) => decide (e.1 ≠ i)) ++ [(i, k)] }

/-- Takes a stream back from its own lane (R292); its spare becomes idle. -/
def State.takeFromOwn (s : State) (p i : Nat) : State :=
  let own := ownLane p i
  let s1 := (s.lput laneRxState own 2).lput laneRxStream own i
  let s2 := match (s.steer p).rxOnSpare.find? (fun (e : Nat × Nat) => decide (e.1 = i)) with
    | none => s1
    | some e =>
      match s1.spareLane p e.2 with
      | none => s1
      | some sp => if s1.lfld laneRxStream sp = i then (s1.lput laneRxState sp 1).lput laneRxStream sp 0x1F else s1
  s2.setSteer { s2.steer p with rxOnSpare := (s2.steer p).rxOnSpare.filter (fun (e : Nat × Nat) => decide (e.1 ≠ i)) }

/-- A replaced lane is a Grade 0 record against the lane (R293). -/
def State.replacedRecord (s : State) (p l : Nat) : State :=
  s.raise { grade := 0, checker := checkerId 0x16 p, cls := cLane, sel := selOfLane l, syn0 := 0, syn1 := 0, action := 8, key := 0 }

/-- The replacement stream has reached the spare (R293): the lane failed, the spare keeps the stream, and the receiver asks for one more
replay. -/
def State.replacementDone (s : State) (p i k : Nat) : State :=
  let own := ownLane p i
  let s1 := (s.takeFromSpare p i k 5).laneCount own 2 1
  let s2 := s1.setQlp { s1.qlp p with steerDue := none, reqOpen := false }
  let s3 := (s2.setSteer { s2.steer p with req := none }).thawCredits p
  ((s3.openRequest p).replacedRecord p own).abandonTile (tileOf own)

/-- When both moves of a lane on its way out of service have completed, both states read 6 (R298). -/
def State.leaveDone (s : State) (p i : Nat) : State :=
  let l := ownLane p i
  let r := s.laneRun l
  let txDone := (s.steer p).moves.any (fun m => decide (m.lane = i) && decide (m.stage = 2))
  let rxDone := (s.steer p).rxOnSpare.any (fun (e : Nat × Nat) => decide (e.1 = i))
  if (r.leavingTx || r.leavingRx) && txDone && rxDone then
    ((s.lput laneRxState l 6).lput laneTxState l 6).setLaneRun { r with leavingTx := false, leavingRx := false }
  else s

/-- The spare whose marker shows a stream (R292). -/
def State.spareShowing (s : State) (p i : Nat) : Option Nat :=
  ((s.sparesOf p).find? (fun (e : Nat × Nat) => decide (s.lfld laneMarkerLock e.1 = 1) && decide ((s.laneRun e.1).shows = i))).map (·.2)

/-- The own lane of a stream is released: the stream is taken from the spare that shows it, and a pass that waited for it calibrates (R292,
Table 11-3). -/
def State.ownReleased (s : State) (p i : Nat) : State :=
  if s.lfld laneRxState (ownLane p i) ≠ 2 then s
  else match s.spareShowing p i with
    | none => s
    | some k =>
      let s1 := s.takeFromSpare p i k 3
      s1.setSteer { s1.steer p with
        passes := (s1.steer p).passes.map (fun c => if c.lane = i ∧ c.stage = .copying then { c with stage := .calibrating } else c) }

/-- The own lane of a stream shows it again: it is taken there (R292). A pass that asked for it has ended; one that did not was abandoned by the partner
and counts as postponed (Tables 11-3 and 11-7). -/
def State.ownBack (s : State) (p i : Nat) : State :=
  let l := ownLane p i
  if s.lfld laneRxState l ≠ 3 || (s.laneRun l).leavingRx then s
  else
    let s1 := s.takeFromOwn p i
    match (s.steer p).passes.find? (fun c => decide (c.lane = i)) with
    | none => s1
    | some c =>
      let rest := (s1.steer p).passes.filter (fun d => decide (d ≠ c))
      if c.stage = .returning then
        (s1.lput laneCalPasses l (min 65535 (s.lfld laneCalPasses l + 1))).setSteer { s1.steer p with
          passes := rest, lastPass := tput 0 (s1.steer p).lastPass c.spare s.now }
      else (s1.setSteer { s1.steer p with passes := rest }).laneCount l 3 1

/-- What a lane's marker shows moves streams and calibration passes on (R292, R293, Table 11-3). -/
def State.laneShows (s : State) (p l : Nat) (shown : Nat) : State :=
  if isSpare l then
    let k := s.lfld laneLinkSpare l
    if 16 ≤ shown then s
    else
      let own := ownLane p shown
      if (s.laneRun own).leavingRx && s.lfld laneRxState own = 2 then ((s.takeFromSpare p shown k 3).leaveDone p shown)
      else if (s.qlp p).steerDue.isSome && s.lfld laneLocked own = 0 && (s.lfld laneRxState own = 2 || s.lfld laneRxState own = 3) then
        s.replacementDone p shown k
      else if (s.laneRun own).shows = 0x1E then s.ownReleased p shown
      else s
  else
    match s.linkOfLane l with
    | some (_, some i) => if shown = 0x1E then s.ownReleased p i else if shown = i then s.ownBack p i else s
    | _ => s

/-- A steering command of the partner, acted on once per tag (R291). A replacement drives a calibration copy off its spare (R301). -/
def State.steerAsked (s : State) (p : Nat) (m : MarkerIn) : State :=
  let r := s.steer p
  if r.acted = some m.steerTag then s
  else
    let i := m.steerLane
    let k := m.steerSpare
    let there := (s.spareLane p k).isSome && decide (i < streamsOf (s.linkWidth p))
    let held := r.moves.find? (fun x => decide (x.spare = k) && decide (x.stage ≠ 5))
    if m.steerCmd = 1 then
      let ok := there && (match held with
        | none => m.replacement || !s.tileReplaced (p / 18)
        | some x => m.replacement && !x.replacement)
      if ok then
        s.setSteer { r with
          acted := some m.steerTag, answer := some (m.steerTag, true)
          moves := r.moves.map (fun x => if x.spare = k then { x with stage := 5 } else x) ++ [⟨i, k, m.replacement, 0, 0⟩] }
      else s.setSteer { r with acted := some m.steerTag, answer := some (m.steerTag, false) }
    else
      s.setSteer { r with
        acted := some m.steerTag, answer := some (m.steerTag, true)
        moves := r.moves.map (fun x => if x.lane = i ∧ x.stage ≤ 2 then { x with stage := 3 } else x) }

/-- The partner's answer to this end's command (R291, R293, Table 11-3). -/
def State.steerAnswered (s : State) (p : Nat) (tag : Nat) (ack : Bool) : State :=
  let r := s.steer p
  match r.req with
  | none => s
  | some q =>
    if q.tag ≠ tag then s
    else
      let s1 := (s.setSteer { r with req := none }).nextSteer p
      if q.cmd ≠ 1 then s1
      else if q.replacement then
        if ack || (s.qlp p).steerDue.isNone then s1 else (s1.thawCredits p).fastRetrain p
      else if ack then
        s1.setSteer { s1.steer p with
          passes := (s1.steer p).passes.map (fun c => if c.tag = tag ∧ c.stage = .requested then { c with stage := .copying } else c) }
      else
        (s1.setSteer { s1.steer p with passes := (s1.steer p).passes.filter (fun c => decide (c.tag ≠ tag)) }).laneCount (ownLane p q.lane) 3 1

/-- `MARKER_RECEIVED` (R283, R284): 16 unscrambled bytes with the marker pattern arrive on a lane of a fabric link. -/
def execMarkerReceived (l : LaneId) (symbols : List PamLevel) (s : State) : Host.Outcome State Fault Refusal :=
  let bytes := pamBytes symbols
  if !markerWf symbols || bytes.take 6 ≠ markPattern then .next s
  else match s.linkOfLane l.val with
    | none => .next s
    | some (p, _) =>
      if !s.fabricLink p || !s.portEnabled p then .next s
      else
        let m := markOf bytes
        let s1 := s.markerFound p l.val m
        if !m.crcOk || s1.lfld laneMarkerLock l.val = 0 then .next s1
        else
          let s2 := if s1.ql p = qlActive || s1.ql p = qlResize then s1.laneShows p l.val (m.markLane % 32) else s1
          .next (if m.steerCmd = 1 || m.steerCmd = 2 then s2.steerAsked p m
            else if m.steerCmd = 3 then s2.steerAnswered p m.steerTag true
            else if m.steerCmd = 4 then s2.steerAnswered p m.steerTag false
            else s2)

/-! ## Loss of lock (R293, R23) -/

/-- `LANE_LOSS_OF_LOCK` (R293): a released lane or an idle spare fails nothing; a lane that carries a stream asks for a spare, else the
link retrains. -/
def execLaneLossOfLock (l : LaneId) (s : State) : Host.Outcome State Fault Refusal :=
  if !s.running || s.lfld laneLocked l.val = 0 then .next s
  else
    let s1 := ((s.lput laneLocked l.val 0).lput laneMarkerLock l.val 0).laneCount l.val 1 1
    let s2 := s1.setLaneRun { s1.laneRun l.val with found := 0, shows := 0x1F, partnerOk := false }
    match s.linkOfLane l.val with
    | none => .next s2
    | some (p, _) =>
      let i := s.lfld laneRxStream l.val
      if i = 0x1F || s.role p ≠ roleFabric || s.ql p ≠ qlActive then .next s2
      else if (s2.qlp p).steerDue.isSome then .next ((s2.thawCredits p).fastRetrain p)
      else
        match s2.spareFor p with
        | none => .next ((s2.abandonTile (tileOf l.val)).fastRetrain p)
        | some k =>
          let s3 := (s2.abandonTile (tileOf l.val)).sendSteer p 1 i k true
          let s4 := s3.1.setQlp { s3.1.qlp p with steerDue := some (s.now + 60000) }
          .next (s4.freezeCredits p)

/-- `STEER_LIMIT_EXPIRY` (R293): 60 µs have passed; a fast retrain follows. -/
def execSteerLimitExpiry (p : PortId) (s : State) : Host.Outcome State Fault Refusal :=
  match (s.qlp p.val).steerDue with
  | none => .next s
  | some due =>
    if !s.fabricLink p.val || s.ql p.val ≠ qlActive || s.now < due then .next s
    else .next (((s.setSteer { s.steer p.val with req := none }).thawCredits p.val).fastRetrain p.val)

/-! ## Sending markers (R283, R290, R291) -/

/-- One move of a stream at this end's marker boundary (R290). -/
def State.moveStep (s : State) (p : Nat) (m : TxMove) : State × Option TxMove :=
  let own := ownLane p m.lane
  match s.spareLane p m.spare with
  | none => (s, none)
  | some sp =>
    let release := fun (s : State) => (s.lput laneTxState own 3).lput laneTxStream own 0x1F
    if m.stage = 5 then ((s.lput laneTxState own 2).lput laneTxStream own m.lane, none)
    else if m.stage = 0 then
      let s1 := (s.lput laneTxState sp 2).lput laneTxStream sp m.lane
      if m.replacement then (release s1, some { m with stage := 2 }) else (s1, some { m with stage := 1, left := 2 })
    else if m.stage = 1 then
      if m.left ≤ 1 then (release s, some { m with stage := 2 }) else (s, some { m with left := m.left - 1 })
    else if m.stage = 3 then
      ((s.lput laneTxState own 2).lput laneTxStream own m.lane, some { m with stage := 4, left := 2 })
    else if m.stage = 4 then
      if m.left ≤ 1 then ((s.lput laneTxState sp 1).lput laneTxStream sp 0x1F, none) else (s, some { m with left := m.left - 1 })
    else (s, some m)

/-- Every move at the boundary. -/
def State.moveSteps (s : State) (p : Nat) : List TxMove → State × List TxMove
  | [] => (s, [])
  | m :: ms =>
    let r := s.moveStep p m
    let t := r.1.moveSteps p ms
    (t.1, (match r.2 with | some x => [x] | none => []) ++ t.2)

/-- The marker of one lane (Table 11-2). -/
def State.markerOf (s : State) (p l : Nat) (count : Nat) (cmd tag spare lane : Nat) (repl : Bool) : MarkerIn :=
  let tx := s.lfld laneTxStream l
  let shown := if tx = 0x1F then (if isSpare l then 0x1F else 0x1E) else tx
  ⟨true, shown, decide (tx < 16) && (s.rxLane p tx).isSome, count, tag, cmd, repl, spare, lane⟩

/-- The markers of every lane that transmits, unscrambled; the end of a marker loads its lane's scrambler (R282, R283). -/
def State.sendMarkers (s : State) (p count cmd tag spare lane : Nat) (repl : Bool) : List Nat → State
  | [] => s
  | l :: ls =>
    let m := s.markerOf p l count cmd tag spare lane repl
    let r := s.laneRun l
    (if r.granted then (s.setLaneRun { r with txS := scramLoad m.markLane }).emit (.symbols l ((markBytes m).flatMap pamSymbols)) else s).sendMarkers
      p count cmd tag spare lane repl ls

/-- `TX_MARKER_BOUNDARY` (R250, R283, R290, R291): after 65,536 bytes of each lane streams move, and one marker goes out on each lane with the answer or the
command of the interval; an answer goes before a command. The first byte after it is byte 0 of a flit. -/
def execTxMarkerBoundary (p : PortId) (s : State) : Host.Outcome State Fault Refusal :=
  if !s.fabricLink p.val || !s.portEnabled p.val || decide ((s.qlp p.val).laneBytes < 65536) then .next s
  else
    let r := s.steer p.val
    let m := s.moveSteps p.val r.moves
    let count := (r.markCount + 1) % 128
    let s1 := m.1.setSteer { r with moves := m.2, markCount := count, answer := none }
    let s2 := (m.2.map (·.lane)).foldl (fun s i => s.leaveDone p.val i) s1
    let s3 := s2.setQlp { s2.qlp p.val with laneBytes := 0 }
    let ls := s3.linkLanes p.val
    .next (match r.answer with
      | some (tag, ok) => s3.sendMarkers p.val count (if ok then 3 else 4) tag 0 0 false ls
      | none =>
        match r.req with
        | some q => s3.sendMarkers p.val count q.cmd q.tag q.spare q.lane q.replacement ls
        | none => s3.sendMarkers p.val count 0 0 0 0 false ls)

/-! ## Rolling calibration (R294) -/

/-- `CALIBRATION_PASS_DUE` (R294): at least 100 µs after the last pass on the spare, the next stream in ascending order asks to move. -/
def execCalibrationPassDue (p : PortId) (k : Fin 4) (s : State) : Host.Outcome State Fault Refusal :=
  let r := s.steer p.val
  let t := p.val / 18
  let ok := s.fabricLink p.val && s.ql p.val = qlActive && s.fld qlLiveCal p.val = 1 && !s.tileReplaced t && !s.tilePaused t
    && s.spareIdle p.val k.val && r.req.isNone && (match r.lastPass.find? (fun (e : Nat × Nat) => decide (e.1 = k.val)) with
      | some e => decide (e.2 + 100000 ≤ s.now) | none => true)
  if !ok then .next s
  else
    let n := streamsOf (s.linkWidth p.val)
    let i := r.nextStream % n
    if s.lfld laneRxState (ownLane p.val i) ≠ 2 then .next (s.setSteer { r with nextStream := (i + 1) % n })
    else
      let q := s.sendSteer p.val 1 i k.val false
      .next (q.1.setSteer { q.1.steer p.val with
        nextStream := (i + 1) % n
        passes := r.passes ++ [⟨k.val, i, .requested, q.2, s.now + 4 * s.interval p.val⟩] })

/-- `CALIBRATION_REQUEST_TIMEOUT` (Table 11-3): no answer within 4 marker intervals; the pass is postponed. -/
def execCalibrationRequestTimeout (p : PortId) (k : Fin 4) (s : State) : Host.Outcome State Fault Refusal :=
  let r := s.steer p.val
  match r.passes.find? (fun c => decide (c.spare = k.val) && c.stage = .requested) with
  | none => .next s
  | some c =>
    if !s.running || s.now < c.due then .next s
    else
      let s1 := s.setSteer { r with
        passes := r.passes.filter (fun d => decide (d ≠ c))
        req := match r.req with | some q => if q.tag = c.tag then none else some q | none => none }
      .next (s1.laneCount (ownLane p.val c.lane) 3 1)

/-- `CALIBRATION_END` (Table 11-3, Table 11-6): at least 150 milli-UI and 8 mV on each side return the stream; less keeps it on the
spare for good. -/
def execCalibrationEnd (p : PortId) (k : Fin 4) (horizontal vertical : Nat) (s : State) : Host.Outcome State Fault Refusal :=
  let r := s.steer p.val
  match r.passes.find? (fun c => decide (c.spare = k.val) && c.stage = .calibrating) with
  | none => .next s
  | some c =>
    if !s.running then .next s
    else if 150 ≤ horizontal ∧ 8 ≤ vertical then
      let q := s.sendSteer p.val 2 c.lane k.val false
      .next (q.1.setSteer { q.1.steer p.val with
        passes := r.passes.map (fun d => if d = c then { d with stage := .returning, tag := q.2 } else d) })
    else
      let l := ownLane p.val c.lane
      let s1 := (s.lput laneRxState l 5).lput laneCalFailures l (min 65535 (s.lfld laneCalFailures l + 1))
      let s2 := s1.setSteer { r with
        passes := r.passes.filter (fun d => decide (d ≠ c)), lastPass := tput 0 r.lastPass k.val s.now }
      .next ((s2.replacedRecord p.val l).abandonTile (tileOf l))

/-! ## Calibration windows (R295) -/

/-- How many windows of a port have opened by a tide count. -/
def State.windowIndex (s : State) (p : Nat) : Nat :=
  let period := 2 ^ s.fld qlCalPeriodLog2 p
  (s.tide + period - s.fld qlCalPhase p * 65536) / period

/-- Windows of a port counted so far; before the first, those that lie at or before tide 0. -/
def State.windowSeen (s : State) (p : Nat) : Nat :=
  match s.lanes.windows.find? (fun (e : Nat × Nat) => decide (e.1 = p)) with
  | some e => e.2
  | none => if s.fld qlCalPhase p = 0 then 1 else 0

/-- Counts a port's windows up to now. -/
def State.windowTaken (s : State) (p : Nat) : State :=
  let rest := s.lanes.windows.filter (fun (e : Nat × Nat) => decide (e.1 ≠ p))
  { s with lanes := { s.lanes with windows := rest ++ [(p, s.windowIndex p)] } }

/-- A fabric link has lanes that only windows recalibrate: without a routed spare, or in a tile that has had a replacement (R295). -/
def State.needsWindow (s : State) (p : Nat) : Bool :=
  (s.sparesOf p).isEmpty || s.tileReplaced (p / 18)

/-- One pass or window completed on each lane of a list (Table 11-5, `CalPasses`). -/
def State.calPassed (s : State) : List Nat → State
  | [] => s
  | l :: ls => (s.lput laneCalPasses l (min 65535 (s.lfld laneCalPasses l + 1))).calPassed ls

/-- A window skipped, at the port, at its lanes and in the tide unit (Table 16-1). -/
def State.windowSkipped (s : State) (p : Nat) : State :=
  (s.linkLanes p).foldl (fun s l => s.laneCount l 4 1) ((s.addSat qlWindowsSkipped p 1).count (ctrId 0x12 64 0 3) 1)

/-- `CALIBRATION_WINDOW` (R295): a port's window opens at its tide instant. -/
def execCalibrationWindow (p : PortId) (s : State) : Host.Outcome State Fault Refusal :=
  if !s.running || s.lane0 p.val ≠ p.val || s.role p.val = roleOff || s.fld qlCalWindows p.val = 0
      || s.windowIndex p.val ≤ s.windowSeen p.val then .next s
  else
    let s1 := s.windowTaken p.val
    if s.role p.val = roleFabric then
      if !s.needsWindow p.val then .next s1
      else if s.ql p.val ≠ qlActive || (s.qlp p.val).wanted.isSome then .next (s1.windowSkipped p.val)
      else
        let rate := s.fld qlActiveRate p.val
        let width := s.fld qlActiveWidth p.val
        .next (s1.setQlp { s1.qlp p.val with wanted := some (rate, width), byWindow := true })
    else if s.fld portLinkState p.val = 3 then
      .next ((((s1.addSat portRetrainCount p.val 1).portCount p.val 128 1).addSat qlWindowsRun p.val 1).calPassed
        ((s.streams p.val).map (ownLane p.val)))
    else .next (s1.windowSkipped p.val)

/-! ## Tests and measurements (R298 to R300) -/

/-- Taps of a PRBS generator by pattern code: the exponents of its polynomial (R299). -/
def prbsTaps (code : Nat) : List Nat :=
  match code with
  | 1 => [7, 6] | 2 => [9, 5] | 3 => [13, 12, 2, 1] | 4 => [15, 14] | 5 => [23, 18] | 6 => [31, 28] | _ => []

/-- The next bit of a pattern from the bits before it, the newest first: the sum of the bits at the exponents' distances. Every state bit is set at the
start. -/
def prbsNext (code : Nat) (bits : List Bool) : Bool := (prbsTaps code).foldl (fun a t => a != bits.getD (t - 1) true) false

/-- n bits of a pattern, the oldest first, and the last 31, newest first. -/
def prbsRun (code : Nat) : Nat → List Bool → List Bool × List Bool
  | 0, bits => ([], bits)
  | n + 1, bits =>
    let b := prbsNext code bits
    let r := prbsRun code n ((b :: bits).take 31)
    (b :: r.1, r.2)

/-- One received bit at the checker, which synchronises itself: `CheckLock` after 64 correct predictions in a row, and counts while locked (R299). -/
def State.checkBit (s : State) (l code : Nat) (b : Bool) : State :=
  let r := s.laneRun l
  let full := (prbsTaps code).all (fun t => decide (t ≤ r.checkBits.length))
  let right := full && b = prbsNext code r.checkBits
  let n := if right then r.checkRun + 1 else 0
  let locked := s.lfld laneCheckLock l = 1
  let s1 := s.setLaneRun { r with checkBits := (b :: r.checkBits).take 31, checkRun := min n 64 }
  if locked then (if right then s1 else s1.lput laneErrorBits l (min 281474976710655 (s.lfld laneErrorBits l + 1))).lput laneCheckedBits l
      (min 281474976710655 (s.lfld laneCheckedBits l + 1))
  else if 64 ≤ n then s1.lput laneCheckLock l 1 else s1

/-- Received bits in order. -/
def State.checkBitsIn (s : State) (l code : Nat) : List Bool → State
  | [] => s
  | b :: bs => (s.checkBit l code b).checkBitsIn l code bs

/-- `PRBS_CHECK_LOCK` (R299): unscrambled symbols arrive on a lane under test: its checker takes them, and the far-end loop sends them out again. -/
def execPrbsCheckLock (x : PrbsIn) (s : State) : Host.Outcome State Fault Refusal :=
  let l := x.lane.val
  let s1 := if s.lfld laneTxState l = 4 && s.lfld laneLoop l = 3 then s.emit (.symbols l x.symbols) else s
  .next (if !s.running || x.symbols.isEmpty then s
    else if s.lfld laneRxState l = 4 && s.lfld laneCheckPattern l ≠ 0 then
      s1.checkBitsIn l (s.lfld laneCheckPattern l) (x.symbols.flatMap pamBits)
    else s1)

/-- `MARGIN_DONE` (R300): an eye measurement ends. -/
def execMarginDone (l : LaneId) (left right : BitVec 16) (up down : BitVec 8) (s : State) : Host.Outcome State Fault Refusal :=
  if s.running && (s.laneRun l.val).measuring then
    let s1 := (((s.lput laneMarginLeft l.val left.toNat).lput laneMarginRight l.val right.toNat).lput laneMarginUp l.val up.toNat).lput
      laneMarginDown l.val down.toNat
    .next ((s1.lput laneMarginDone l.val 1).setLaneRun { s1.laneRun l.val with measuring := false })
  else .next s

/-- A lane leaves service (R298): onto an idle spare in each direction; an idle spare stops serving its link; any other lane takes its
port out of service. -/
def State.laneOut (s : State) (l : Nat) : State :=
  match s.linkOfLane l with
  | none => (s.lput laneRxState l 6).lput laneTxState l 6
  | some (p, none) =>
    if s.lfld laneRxStream l = 0x1F && s.lfld laneTxStream l = 0x1F then
      ((s.laneOff l).lput laneRxState l 6).lput laneTxState l 6
    else ((s.portOut p).lput laneRxState l 6).lput laneTxState l 6
  | some (p, some i) =>
    let free := ((s.sparesOf p).map (·.2)).find? (fun k =>
      (s.spareIdle p k || (s.steer p).passes.any (fun c => decide (c.spare = k)))
        && !(s.steer p).moves.any (fun m => decide (m.spare = k) && m.replacement))
    match free with
    | some k =>
      if s.role p = roleFabric && s.ql p = qlActive
          && (s.lfld laneRxState l = 2 || (s.lfld laneRxState l = 3 && (s.steer p).passes.any (fun c => decide (c.lane = i)))) then
        let s1 := s.abandonTile (tileOf l)
        let q := s1.sendSteer p 1 i k true
        let s2 := q.1.setSteer { q.1.steer p with
          moves := (q.1.steer p).moves.map (fun m => if m.spare = k then { m with stage := 5 } else m) ++ [⟨i, k, true, 0, 0⟩] }
        s2.setLaneRun { s2.laneRun l with leavingTx := true, leavingRx := true }
      else ((s.portOut p).lput laneRxState l 6).lput laneTxState l 6
    | none => ((s.portOut p).lput laneRxState l 6).lput laneTxState l 6

/-- `TargetState` 0 reverses it (R298). -/
def State.laneBack (s : State) (l : Nat) : State :=
  let r := { s.laneRun l with leavingTx := false, leavingRx := false }
  match s.linkOfLane l with
  | none => (s.lput laneRxState l 0).lput laneTxState l 0
  | some (_, none) => ((((s.setLaneRun r).lput laneRxState l 0).lput laneTxState l 0).askGrants [l]).laneAcquire l
  | some (p, some i) =>
    if (s.steer p).moves.any (fun m => decide (m.lane = i)) then
      let k := (((s.steer p).rxOnSpare.find? (fun (e : Nat × Nat) => decide (e.1 = i))).map (·.2)).getD 0
      let s1 := ((s.setLaneRun r).lput laneRxState l 3).lput laneTxState l 3
      let q := s1.sendSteer p 2 i k true
      q.1.setSteer { q.1.steer p with
        moves := (q.1.steer p).moves.map (fun m => if m.lane = i then { m with stage := 3 } else m) }
    else (((s.setLaneRun r).lput laneRxState l 0).lput laneTxState l 0).portBack p

end Sys2Proof.Machine
end

