-- ==== Sys2Proof/Machine/Transmit.lean ====
section
/-! DEFINITION. What the lanes send as time passes: DATA, IDLE and INIT flits (R248 to R258), their bytes on the lanes (R249, R281, R282,
R285), the timestamps of tide messages (R276, R287), and the patterns of lanes under test (R299). -/

namespace Sys2Proof.Machine

/-! ## Tide messages (R276, R287, R329) -/

/-- The device serves tide: its state is Locked or Holdover (R329). -/
def State.servesTide (s : State) : Bool := s.fld tideState 0 = 2 || s.fld tideState 0 = 3

/-- The `Holdover` bit that a server passes on (R329). -/
def State.passesHoldover (s : State) : Bool := s.fld tideState 0 = 3 || s.sourceHoldover

/-- Fixed transmit delay of a rate code, in ns (Table 11-6). -/
def txDelay (rate : Nat) : Nat := if rate = 6 then 14 else 22

/-- Fixed receive delay of a rate code, in ns (Table 11-6). -/
def rxDelay (rate : Nat) : Nat := if rate = 6 then 22 else 38

/-- Timestamp of a tide message whose flit leaves now: the count at the lane-0 ball (R276, R287). -/
def State.txStamp (s : State) (p : Nat) : Nat := unsigned 64 ((s.tide : Int) + txDelay (s.fld qlActiveRate p))

/-- The lane that brings stream 0 of a link's block, against whose deskew offset received timestamps are corrected (R287). -/
def State.rxSkew (s : State) (p : Nat) : Nat :=
  match (s.linkLanes p).find? (fun k => decide (s.lfld laneMarkerLock k = 1)) with
  | none => 0
  | some k => skewNs (s.interval p) (s.laneRun k) (s.laneRun (s.laneNow p (s.qlp p).block))

/-- Timestamp of a tide message that arrives now (R276, R287). -/
def State.rxStamp (s : State) (p : Nat) : Nat :=
  unsigned 64 ((s.tide : Int) - rxDelay (s.fld qlActiveRate p) - s.rxSkew p)

/-- A packet holds the TIDE_FOLLOW of an exchange. -/
def followsTide (id : Nat) (pk : Packet) : Bool :=
  match pk.body with | .msg (.tideFollow i _ _ _ _) => decide (i = id) | _ => false

/-- The TIDE_FOLLOW of a TIDE_SYNC whose flit leaves now. -/
def State.followOf (s : State) (p id : Nat) : FabricMsg :=
  .tideFollow id (word (s.txStamp p)) s.tideLocked s.passesHoldover (s.fld tideSource 0)

/-- TIDE_SYNC leaves: its TIDE_FOLLOW goes directly after it with t1; where it was replayed, the one that waits takes the new t1 (R276, Table
10-9). -/
def State.syncLeaves (s : State) (p id : Nat) : State :=
  let m := s.followOf p id
  let fresh := fun (k : Packet) => { k with body := .msg m, image := msgBytes id m }
  let mine := fun (k : Packet) => followsTide id k && decide (k.egress = p)
  if s.core.pkts.any mine || (s.qlp p).replay.any (fun e => mine e.pk) then
    let s1 := s.setQlp { s.qlp p with replay := (s.qlp p).replay.map (fun e => if mine e.pk then { e with pk := fresh e.pk } else e) }
    { s1 with core := { s1.core with pkts := s1.core.pkts.map (fun k => if mine k then fresh k else k) } }
  else s.sendLocal p m

/-- A tide message's first flit leaves: t1 of TIDE_SYNC, t3 of TIDE_DREQ. -/
def State.tideLeaves (s : State) (p : Nat) (b : Body) : State :=
  match b with
  | .msg (.tideSync id) => s.syncLeaves p id
  | .msg (.tideDreq id) => { s with clock := { s.clock with dreq := some (id, s.txStamp p) } }
  | _ => s

/-! ## Flits (R248, R254, R255, R257) -/

/-- The link control of the next flit, and what advances with it: the channel and hop level in turn, and the limit that it advertises (R257, R266). -/
def State.ctlNext (s : State) (p : Nat) : State × LinkCtl :=
  let r := s.qlp p
  let vc := r.rot % 13
  let hop := r.rot % 4
  let cells := ((s.inBuffer.filter (fun k => decide (k.ingress = p) && decide (k.group / 3 = hop))).map (·.cells)).sum
  let cmd := match r.answer with
    | some a => a
    | none => match r.wanted with | some w => (1, w.1 * 16 + w.2) | none => (0, 0)
  (s.setQlp { r with rot := (r.rot + 1) % 52, rxLimit := tput 0 r.rxLimit vc (r.raised s.now vc) },
    { ackSeq := (r.expected + 16777215) % 16777216, creditCount := r.raised s.now vc % 65536, creditVc := vc, congHop := hop
      congLevel := min 15 (cells / 4096), replayReq := r.reqOpen, replayEpoch := r.epoch, degraded := r.ownDegraded, cmd := cmd.1, arg := cmd.2 })

/-- The replay entry that holds a sequence number. -/
def QlPort.entryOf (r : QlPort) (q : Nat) : Option ReplayEntry :=
  r.replay.find? (fun e => decide ((q + 16777216 - e.first) % 16777216 < e.flits))

/-- Sequence numbers still to be sent: what has been acknowledged since is not. -/
def QlPort.toSend (r : QlPort) : List Nat := r.sendQ.dropWhile (fun q => (r.entryOf q).isNone)

/-- The packet's egress has paused (R110). -/
def State.pausedAt (s : State) (p id : Nat) : Bool :=
  s.core.egress.any (fun e => decide (e.port = p) && decide (e.pkt = id) && e.paused)

/-- The packet's bytes as they go out, marked where it is poisoned (R111). -/
def Packet.bytesOut (pk : Packet) : List Byte := if pk.poison then padTo pk.bytes (Config.marked pk.image) else pk.image

/-- Payload of flit `k` of a packet (R255). -/
def Packet.payload (pk : Packet) (k : Nat) : List Byte :=
  let h := pk.hdr.getD ⟨0, 0, 0, 0, 0, 0, 0, 0, 0, false, false, 0⟩
  ((streamOf h pk.kind pk.bytesOut).drop (228 * k)).take 228

/-- The DATA flit whose turn it is: its sequence number, entry and place in the packet. While a cut-through packet pauses there is none (R255). -/
def State.dataNext (s : State) (p : Nat) : Option (Nat × ReplayEntry × Nat) :=
  let r := s.qlp p
  match r.toSend with
  | [] => none
  | q :: _ =>
    match r.entryOf q with
    | none => none
    | some e => if s.pausedAt p e.pk.id then none else some (q, e, (q + 16777216 - e.first) % 16777216)

/-- The next flit of an Active link: a DATA flit in its turn, else an IDLE flit with the sender's next sequence number (R254, R257). -/
def State.activeFlit (s : State) (p : Nat) : State × List Byte :=
  let c := s.ctlNext p
  let r := c.1.qlp p
  match s.dataNext p with
  | some (q, e, k) =>
    let vc := vcOf e.pk.outLevel e.pk.kind e.pk.req
    let s1 := c.1.setQlp { r with sendQ := r.toSend.drop 1 }
    (if k = 0 then s1.tideLeaves p e.pk.body else s1, flitBytes (flitHead q vc 1) c.2.word (e.pk.payload k))
  | none => (c.1, flitBytes (flitHead (r.toSend.head?.getD r.nextSeq) 0 0) c.2.word [])

/-- The answer to a resize request has gone out: after an ACK the link stops sending DATA and retrains at the new settings (R271). -/
def State.answered (s : State) (p : Nat) : State :=
  match (s.qlp p).answer with
  | none => s
  | some (cmd, arg) => if cmd = 2 then s.enterResize p (arg / 16) (arg % 16) false else s.setQlp { s.qlp p with answer := none }

/-- An INIT flit has gone out: those with `Heard` 1 count (R258). -/
def State.initSent (s : State) (p : Nat) : State :=
  let r := s.qlp p
  (if r.heardAt.isSome then s.setQlp { r with initsSent := r.initsSent + 1 } else s).initDone p

/-! ## Bytes on the lanes (R249, R281, R282, R285) -/

/-- Bytes go out on a lane, scrambled (R281, R282). -/
def State.sendBytes (s : State) (l : Nat) (bs : List Byte) : State :=
  let r := s.laneRun l
  let d := scramble r.txS bs
  (s.setLaneRun { r with txS := d.2 }).emit (.symbols l (d.1.flatMap pamSymbols))

/-- What a lane of a link sends of a flit over streams `first` to `first` + w − 1: its stream's share, and zero bytes where it carries none. -/
def State.laneBytesOf (s : State) (l first w n : Nat) (flit : List Byte) : List Byte :=
  let i := s.lfld laneTxStream l
  if !flit.isEmpty && decide (first ≤ i) && decide (i < first + w) then laneShare w (i - first) flit else List.replicate n 0

/-- `n` bytes of stream go out on every lane of a list that transmits. -/
def State.sendLanes (s : State) (first w n : Nat) (flit : List Byte) : List Nat → State
  | [] => s
  | l :: ls =>
    let st := s.lfld laneTxState l
    (if (s.laneRun l).granted && (st = 1 || st = 2 || st = 3) then s.sendBytes l (s.laneBytesOf l first w n flit) else s).sendLanes first w n flit ls

/-- A flit with every bit of its CRC-64 inverted, under a parity that agrees (R361). -/
def spoilFlit (f : List Byte) : List Byte :=
  let c := f.take 240 ++ ((f.drop 240).take 8).map (fun b => ~~~b)
  c ++ fecBytes c

/-- A flit as it is sent: an injection on the link's CRC spoils it (R361, Table 14-6). -/
def State.flitOut (s : State) (p : Nat) (f : List Byte) : State × List Byte :=
  if !f.isEmpty && s.injects (checkerId 0x01 p) then ((s.takeInjection (checkerId 0x01 p)).1, spoilFlit f) else (s, f)

/-- `n` bytes of each lane of a link go out: a flit, or zero bytes (R249, R285). -/
def State.putOut (s : State) (p w n : Nat) (flit : List Byte) : State :=
  let f := s.flitOut p flit
  let s1 := f.1.sendLanes (s.qlp p).block w n f.2 (s.linkLanes p)
  let s2 := s1.setQlp { s1.qlp p with laneBytes := (s1.qlp p).laneBytes + n }
  if flit.isEmpty then s2 else s2.emit (.flit p f.2)

/-- Width code at which a link's flits go out: as it runs, or as it is being brought up. -/
def State.sendWidth (s : State) (p : Nat) : Nat :=
  if s.ql p = qlActive || s.ql p = qlInit || (s.qlp p).aligned then s.fld qlActiveWidth p else s.aimWidth p

/-- One flit time of a fabric link: a flit, INIT flits while it comes up, or zero bytes before Init and in a retrain (R254, R258, R285). A marker is due
after 65,536 bytes, and nothing else goes out before it (R250). -/
def State.flitSlot (s : State) (p : Nat) : State :=
  let w := streamsOf (s.sendWidth p)
  let n := 256 / w
  let room := 65536 - (s.qlp p).laneBytes
  if room < n then (if room = 0 then s else s.putOut p w room [])
  else if s.ql p = qlActive then
    let f := s.activeFlit p
    (f.1.putOut p w n f.2).answered p
  else if s.ql p = qlInit || (s.qlp p).aligned then (s.putOut p w n (initFlit (s.initMsg p))).initSent p
  else s.putOut p w n []

/-- The flit time of a link has passed (Table 10-10). -/
def State.slotNow (s : State) (p : Nat) : Bool := s.now % flitNs (s.aimRate p) (s.sendWidth p) = 0

/-- Links whose transmitters run: enabled in the fabric role (R285). -/
def State.sendingLinks (s : State) : List Nat :=
  (s.lanes.steers.map (·.port)).filter (fun p => decide (s.role p = roleFabric) && decide (s.lane0 p = p) && s.portEnabled p)

/-- Flit times of a list of links. -/
def State.flitSlots (s : State) : List Nat → State
  | [] => s
  | p :: ps => (if s.slotNow p then s.flitSlot p else s).flitSlots ps

/-! ## Marker lock and lanes under test (R284, R299) -/

/-- Marker lock is lost when two successive markers are missing from their place (R284; the tolerance of log entry 99). -/
def State.marksMissed (s : State) : List Nat → State
  | [] => s
  | l :: ls =>
    let r := s.laneRun l
    let iv := match s.linkOfLane l with | some (p, _) => s.interval p | none => markerNs (s.lfld laneRateCode l)
    (if s.lfld laneMarkerLock l = 1 && decide (r.lastMark + 2 * iv + 2 < s.now) then (s.lput laneMarkerLock l 0).setLaneRun { r with found := 0 }
     else s).marksMissed ls

/-- A nanosecond of a pattern generator: 128 bits at 128 GT/s, else 64 (R299). A near-end loop brings them to the lane's own checker; the serial one, and no
other, keeps the ball at common mode. -/
def State.testLane (s : State) (l : Nat) : State :=
  let code := s.lfld laneGenPattern l
  if s.lfld laneTxState l ≠ 4 || code = 0 || s.lfld laneLoop l = 3 then s
  else
    let r := s.laneRun l
    let d := prbsRun code (if s.lfld laneRateCode l = 6 then 128 else 64) r.genBits
    let s1 := s.setLaneRun { r with genBits := d.2 }
    let loop := s.lfld laneLoop l
    let s2 := if (loop = 1 || loop = 2) && s.lfld laneRxState l = 4 && s.lfld laneCheckPattern l ≠ 0
      then s1.checkBitsIn l (s.lfld laneCheckPattern l) d.1 else s1
    if loop = 1 then s2 else s2.emit (.symbols l ((pieces 8 d.1.length d.1).flatMap (fun b => pamSymbols (byteOfBits b))))

/-- Lanes under test. -/
def State.testLanes (s : State) : List Nat → State
  | [] => s
  | l :: ls => (s.testLane l).testLanes ls

/-- One nanosecond of the lanes. -/
def State.lanesTick (s : State) : State :=
  let ls := s.lanes.runs.map (·.lane)
  ((s.flitSlots s.sendingLinks).marksMissed ls).testLanes ls

end Sys2Proof.Machine
end

