-- ==== Sys2Proof/Machine/SlotRows.lean ====
section
/-! DEFINITION. Slot channels, feeds and the budget (R367 to R387): their commands and the instructions that act on them. -/

namespace Sys2Proof.Machine

/-- The slot-power die has power: it protects slots in every phase but off (R355, R356, R385). -/
def State.slotDie (s : State) : Bool := s.power.phase ≠ .off

/-- A Grade 0 event of a slot, counted only (R373, R377; Table 14-3, a monitor). -/
def State.slotRecord (s : State) (n measured limit : Nat) : State :=
  s.raise { grade := 0, checker := checkerId 0x17 n, cls := cSlot, sel := n, syn0 := measured, syn1 := limit, action := 0, key := 0 }

/-! ## Presence and attention (R369, R377) -/

/-- Every view that holds a function of the device port of a slot sees a change (R149, R377). -/
def State.tellSlot (s : State) (n : Nat) (k : PresenceKind) : State :=
  if s.fld slotPort n = 255 then s
  else (s.fnsBelow (s.fld slotPort n)).foldl (fun s f => s.tellViews f k) s

/-- `PRESENCE_DEBOUNCED` (R369): SPn_PRSNT_N has stayed low for 100 ms. -/
def execPresenceDebounced (n : SlotId) (s : State) : Host.Outcome State Fault Refusal :=
  if s.slotDie && s.fld slotPresent n.val = 0 then
    let s1 := (((s.put slotPresent n.val 1).slotCount n.val 5).slotRecord n.val 1 0).tellSlot n.val (.presence true)
    .next (if s.fld slotAutoOn n.val = 1 then
        (s1.setSlotRun { s1.slotRun n.val with request := true }).slotTry n.val
      else s1)
  else .next s

/-- `PRESENCE_LOST` (R369, R370): SPn_PRSNT_N rises. -/
def execPresenceLost (n : SlotId) (s : State) : Host.Outcome State Fault Refusal :=
  if s.slotDie && s.fld slotPresent n.val = 1 then
    let st := s.slotSt n.val
    let s1 := s.put slotPresent n.val 0
    let s2 := if st = slWaiting || st = slRamping || st = slOn || st = slRetryWait then
        (((s1.slotGateOff n.val).put slotRetryCount n.val 0).put slotLastFault n.val 5).put slotState n.val slDwell
      else s1
    let s3 := s2.setSlotRun { s2.slotRun n.val with request := false, offAt := s.now }
    .next (((s3.slotCount n.val 5).slotRecord n.val 0 0).tellSlot n.val (.presence false))
  else .next s

/-- `ATTENTION_REQUEST` (R377): a falling edge that the EB9144 did not cause, after 10 ms high. -/
def execAttentionRequest (n : SlotId) (s : State) : Host.Outcome State Fault Refusal :=
  .next (if s.slotDie && s.fld slotAttnOut n.val = 0 then (s.slotCount n.val 6).tellSlot n.val .attention else s)

/-! ## Switching on (R369 to R371, R383) -/

/-- `DWELL_ELAPSED` (R370): Dwell ends in Waiting or Off, RetryWait in Waiting. No retry follows a trip during a halt (R385). -/
def execDwellElapsed (n : SlotId) (s : State) : Host.Outcome State Fault Refusal :=
  if !s.slotDie || !s.dwellOver n.val || (s.slotRun n.val).gateDue.isSome then .next s
  else if s.slotSt n.val = slDwell then
    .next (if (s.slotRun n.val).request && s.fld slotPresent n.val = 1 then s.slotJoin n.val else s.put slotState n.val slOff)
  else if s.slotSt n.val = slRetryWait && s.running && s.fld slotPresent n.val = 1 && decide (10000 < s.fld slotInputMv n.val) then
    .next (s.slotJoin n.val)
  else .next s

/-- The slot at the head of the queue may be granted (R383). -/
def State.slotMayStart (s : State) (n : Nat) : Bool :=
  s.slotsIn slRamping < s.fld budSlotOnsMax 0
    && (s.fld budBoardW 0 = 0 || s.committedW + s.lim slotInrushW n ≤ s.fld budBoardW 0)

/-- The ramp of a slot starts: `GateUa` into the gate, and the ramp timer (R370). -/
def State.slotStart (s : State) (n : Nat) : State :=
  let s1 := (s.put slotState n slRamping).setSlotRun { s.slotRun n with
    rampDue := some (s.now + s.lim slotRampLimitMs n * 1000000), perstDue := none }
  let s2 := { s1 with slots := { s1.slots with queue := s1.slots.queue.filter (fun x => decide (x ≠ n)) } }
  (s2.slotPin .gate n true).slotCount n 4

/-- `SLOT_GRANT` (R383): the slot at the head of the queue, which no later slot passes. -/
def execSlotGrant (s : State) : Host.Outcome State Fault Refusal :=
  match s.slots.queue with
  | [] => .next s
  | n :: _ => .next (if s.running && s.slotMayStart n then s.slotStart n else s)

/-- The comparison of R371 holds but for the breaker, which ends the state it is made in. -/
def State.powerGoodNow (s : State) (n : Nat) : Bool :=
  s.fld slotInputMv n ≤ s.fld slotOutputMv n + 10 * s.lim slotPgoodDropTenMv n && s.fld slotFaultTimerRunning n = 0

/-- `POWER_GOOD` (R370, R371): a ramping slot is On, and SPn_PERST_N follows `PerstDelayMs` later; a slot that is On shows power-good
again. -/
def execPowerGood (n : SlotId) (s : State) : Host.Outcome State Fault Refusal :=
  if !s.slotDie || !s.powerGoodNow n.val then .next s
  else if s.slotSt n.val = slRamping then
    .next (((s.put slotPowerGood n.val 1).put slotState n.val slOn).setSlotRun { s.slotRun n.val with
      rampDue := none, perstDue := some (s.now + s.lim slotPerstDelayMs n.val * 1000000), onAt := s.now })
  else if s.slotSt n.val = slOn then .next (s.put slotPowerGood n.val 1)
  else .next s

/-- A timer of a slot has ended. -/
def State.dueNow (s : State) (t : Option Nat) : Bool := match t with | some d => decide (d ≤ s.now) | none => false

/-- `PERST_DELAY_END` (R370, R385): SPn_PERST_N is released. -/
def execPerstDelayEnd (n : SlotId) (s : State) : Host.Outcome State Fault Refusal :=
  .next (if s.slotDie && s.slotSt n.val = slOn && s.dueNow (s.slotRun n.val).perstDue then
    (s.slotPin .perst n.val true).setSlotRun { s.slotRun n.val with perstDue := none }
  else s)

/-- `ORDERLY_OFF_GATE` (R370): 100 µs after SPn_PERST_N fell. -/
def execOrderlyOffGate (n : SlotId) (s : State) : Host.Outcome State Fault Refusal :=
  .next (if s.slotDie && s.dueNow (s.slotRun n.val).gateDue then
    ((s.put slotInLimit n.val 0).slotPin .gate n.val false).setSlotRun { s.slotRun n.val with gateDue := none, offAt := s.now }
  else s)

/-! ## Protection (R372 to R374) -/

/-- A trip (R373): off, counted, then a retry or the latch, which contains the slot's device port. -/
def State.slotTrip (s : State) (n cause measured limit : Nat) : State :=
  let s1 := (((s.slotGateOff n).addSat slotTrips n 1).put slotLastFault n cause).slotCount n cause
  let e : FEvent :=
    { grade := 0, checker := checkerId 0x17 n, cls := cSlot, sel := n, syn0 := measured, syn1 := limit, action := 0, key := 0 }
  if s.fld slotRetryCount n < s.lim slotRetryLimit n then
    ((s1.put slotRetryCount n (s.fld slotRetryCount n + 1)).put slotState n slRetryWait).raise e
  else
    let r := (s1.put slotState n slLatched).record { e with grade := 2, action := 3 }
    let s2 := r.1.setSlotRun { r.1.slotRun n with request := false, latchRec := some r.2.1 }
    if s.fld slotPort n = 255 then s2 else s2.containPort r.2.1 (s.fld slotPort n)

/-- The fault timer starts: the current is held at `LimitMa` (R371, R372). -/
def State.limitEnter (s : State) (n : Nat) : State :=
  (((s.put slotInLimit n 1).put slotFaultTimerRunning n 1).put slotPowerGood n 0).setSlotRun { s.slotRun n with
    faultDue := some (s.now + s.lim slotFaultTimerUs n * 1000) }

/-- `CURRENT_LIMIT_ENTER` (R372). -/
def execCurrentLimitEnter (n : SlotId) (milliAmps : Nat) (s : State) : Host.Outcome State Fault Refusal :=
  .next (if s.slotDie && s.slotLive n.val && s.fld slotInLimit n.val = 0 && decide (s.lim slotLimitMa n.val ≤ milliAmps) then
    s.limitEnter n.val
  else s)

/-- `CURRENT_LIMIT_EXIT` (R372): below 95% of `LimitMa` for 10 ticks. -/
def execCurrentLimitExit (n : SlotId) (milliAmps : Nat) (s : State) : Host.Outcome State Fault Refusal :=
  if s.slotDie && s.fld slotInLimit n.val = 1 && decide (milliAmps * 100 < 95 * s.lim slotLimitMa n.val) then
    let s1 := ((s.put slotInLimit n.val 0).put slotFaultTimerRunning n.val 0).setSlotRun { s.slotRun n.val with faultDue := none }
    .next (if s1.slotSt n.val = slOn && s1.powerGoodNow n.val then s1.put slotPowerGood n.val 1 else s1)
  else .next s

/-- `FAULT_TIMER_EXPIRY` (R372). -/
def execFaultTimerExpiry (n : SlotId) (s : State) : Host.Outcome State Fault Refusal :=
  .next (if s.slotDie && s.slotLive n.val && s.dueNow (s.slotRun n.val).faultDue then
    s.slotTrip n.val 1 0 (s.lim slotFaultTimerUs n.val * 1000)
  else s)

/-- `BREAKER_FIRE` (R373): the current reaches `LimitMa` × `BreakerQuarters` ÷ 4. -/
def execBreakerFire (n : SlotId) (milliAmps : Nat) (s : State) : Host.Outcome State Fault Refusal :=
  .next (if s.slotDie && s.slotLive n.val
      && decide (s.lim slotLimitMa n.val * s.lim slotBreakerQuarters n.val ≤ 4 * milliAmps) then
    s.slotTrip n.val 2 milliAmps (s.lim slotLimitMa n.val * s.lim slotBreakerQuarters n.val / 4)
  else s)

/-- `RAMP_LIMIT_TIMEOUT` (R370). -/
def execRampLimitTimeout (n : SlotId) (s : State) : Host.Outcome State Fault Refusal :=
  .next (if s.slotDie && s.slotSt n.val = slRamping && s.dueNow (s.slotRun n.val).rampDue then
    s.slotTrip n.val 3 0 (s.lim slotRampLimitMs n.val * 1000000)
  else s)

/-- The slot whose record an undervoltage joins: one record serves the slots that a feed event affects together (R374). -/
def State.uvSlot (s : State) (n : Nat) : Nat :=
  match s.faults.recs.find? (fun (r : FaultRec) => r.isOpen && decide (r.grade = 0) && decide (r.checker / 65536 = 0x17)
      && decide (r.cls = cSlot) && decide (r.syn1 = 9000)) with
  | some r => r.sel
  | none => n

/-- `INPUT_UNDERVOLTAGE` (R370, R374): no trip, and no retry spent. -/
def execInputUndervoltage (n : SlotId) (s : State) : Host.Outcome State Fault Refusal :=
  .next (if s.slotDie && s.slotLive n.val then
    (((s.slotGateOff n.val).put slotLastFault n.val 4).put slotState n.val slRetryWait).slotRecord (s.uvSlot n.val)
      (s.fld slotInputMv n.val) 9000
  else s)

/-- `RETRY_COUNT_RESET` (R373): On for 10 s without a trip. -/
def execRetryCountReset (n : SlotId) (s : State) : Host.Outcome State Fault Refusal :=
  .next (if s.slotDie && s.slotSt n.val = slOn && decide ((s.slotRun n.val).onAt + 10000000000 ≤ s.now) then
    s.put slotRetryCount n.val 0
  else s)

/-! ## Service and self-test (Tables 15-2, 15-3, 1-8) -/

/-- `TargetState` 2 (Table 15-2): as off, then OutOfService. -/
def State.slotOutNow (s : State) (n : Nat) : State :=
  (s.slotOffNow n false).put slotState n slOutOfService

/-- `TargetState` 0: OutOfService goes to Dwell. -/
def State.slotBackNow (s : State) (n : Nat) : State :=
  if s.slotSt n = slOutOfService then (s.put slotTest n 0).put slotState n slDwell else s

/-- `Test` ← 1 in OutOfService starts the self-test (R378). -/
def State.slotTestStart (s : State) (n : Nat) : State :=
  if s.slotSt n = slOutOfService then (s.put slotTest n 1).put slotTestResult n 3 else s

/-- `SLOT_TEST_END` (R378). -/
def execSlotTestEnd (n : SlotId) (pass : Bool) (s : State) : Host.Outcome State Fault Refusal :=
  .next (if s.slotDie && s.fld slotTest n.val = 1 && s.fld slotTestResult n.val = 3 then
    (s.put slotTest n.val 0).put slotTestResult n.val (if pass then 1 else 2)
  else s)

/-- A commit sets `AutoOn` to 1: a request arises where the slot is present, Off or in Dwell, with none pending (R369). For a slot that stayed
powered over a device reset it is how the base configuration switches it on, kept for BaseDone (R385; DEDUCED, log entry 65). -/
def State.slotAutoOnNow (s : State) (n : Nat) : State :=
  if s.fld slotPresent n = 1 && (s.slotSt n = slOff || s.slotSt n = slDwell) && !(s.slotRun n).request then
    (s.setSlotRun { s.slotRun n with request := true }).slotTry n
  else if (s.slotRun n).kept then
    s.setSlotRun { s.slotRun n with request := true }
  else s

/-! ## SLOTPWR and BUDGET (R379, R384) -/

/-- The ranges of Table 15-3 in words 0 and 1, and R368. -/
def slotRangesOk (w0 w1 : Word) : Bool :=
  let lim := bitsOf w0 0 16
  let ft := bitsOf w0 16 16
  let sh := bitsOf w0 32 8
  let ga := bitsOf w0 40 8
  let br := bitsOf w0 48 5
  100 ≤ lim && lim ≤ 8000 && 100 ≤ ft && ft ≤ 50000 && 5 ≤ sh && sh ≤ 100 && 10 ≤ ga && ga ≤ 250 && 8 ≤ br && br ≤ 16
  && bitsOf w1 56 8 ≤ 120 && bitsOf w1 48 8 ≤ 120 && 100 ≤ bitsOf w1 32 16 && bitsOf w1 32 16 ≤ 10000
  && 1 ≤ bitsOf w1 16 16 && bitsOf w1 16 16 ≤ 1000 && 1 ≤ bitsOf w1 8 8 && 10 ≤ bitsOf w1 0 8 && bitsOf w1 0 8 ≤ 100
  && 50000 ≤ lim * sh && lim * br * sh ≤ 8000000

/-- A slot counts in the budget rule. -/
def State.slotCounts (s : State) (n : Nat) : Bool := s.budgetSlots.contains n

/-- The budget rule with a slot counted as though it were queued (R379). -/
def State.budgetWith (s : State) (n : Nat) : Bool :=
  s.slotCounts n || ({ s.put slotState n slWaiting with slots := s.slots } : State).budgetHolds

/-- A timer that a new limit moves. -/
def moveDue (old new : Nat) : Option Nat → Option Nat
  | none => none
  | some d => some (d + new - old)

/-- New limits (R379): `GateUa` serves the next ramp, and every other field applies at once. -/
def State.slotLimitsDone (s1a s : State) (n : Nat) : State :=
  let r := s.slotRun n
  let s1 := s1a.setSlotRun { r with held := none }
  let s2 := s1.setSlotRun { r with
    held := none
    rampDue := moveDue (s.lim slotRampLimitMs n * 1000000) (s1.lim slotRampLimitMs n * 1000000) r.rampDue
    perstDue := moveDue (s.lim slotPerstDelayMs n * 1000000) (s1.lim slotPerstDelayMs n * 1000000) r.perstDue
    faultDue := moveDue (s.lim slotFaultTimerUs n * 1000) (s1.lim slotFaultTimerUs n * 1000) r.faultDue }
  if s2.slotLive n && s2.fld slotInLimit n = 0 && s2.fld slotCurrentMa n < 32768 && s2.lim slotLimitMa n ≤ s2.fld slotCurrentMa n then
    s2.limitEnter n
  else s2

/-- `SLOTPWR` action 3 writes words 0 and 1. -/
def State.slotLimits (s : State) (n : Nat) (w0 w1 : Word) : State :=
  ((s.putWord cSlot n 0 (setBits w0 53 7 0)).putWord cSlot n 1 w1).slotLimitsDone s n

/-- What action 1 does to a slot that may start (R379). On a slot that stayed powered over a device reset it keeps the request for
BaseDone (R385). -/
def State.slotOnNow (s : State) (n : Nat) : State :=
  if s.slotCounts n then
    (if (s.slotRun n).kept then s.setSlotRun { s.slotRun n with request := true } else s)
  else if (s.slotRun n).request then s
  else (s.setSlotRun { s.slotRun n with request := true }).slotTry n

/-- The slot an instruction's result shows: word 3. -/
def slotDone (s : State) (n : Nat) (acted : Bool) : OpRes :=
  opDst s (if acted then [okey cSlot n] else []) (s.effWord cSlot n 3)

/-- `SLOTPWR` (R379). -/
def State.opSlotpwr (s : State) (n : Nat) (r : ObjReq) : OpRes :=
  let a := r.b 1 0 2
  if r.blk.length ≠ (if a = 3 then 4 else 2) then opBad s .badop
  else if a = 3 then
    let t := s.slotLimits n (r.w 2) (r.w 3)
    if !slotRangesOk (r.w 2) (r.w 3) then opBad s .badop
    else if s.slotCounts n && !t.budgetHolds then opBad s .nores
    else slotDone t n true
  else if a = 0 then
    let t := s.slotOffNow n false
    slotDone t n (decide (t ≠ s))
  else if s.slotSt n = slLatched || s.slotSt n = slOutOfService || s.fld slotPresent n = 0 then opBad s .conflict
  else if !s.budgetWith n then opBad s .nores
  else if a = 1 then
    let t := s.slotOnNow n
    slotDone t n (decide (t ≠ s) && !s.slotCounts n)
  else
    let t := if s.slotSt n = slOn then s.slotOffNow n true else s.slotOnNow n
    slotDone t n (decide (t ≠ s))

/-- `BUDGET` (R384). -/
def State.opBudget (s : State) (r : ObjReq) : OpRes :=
  let lanes := r.b 1 8 16
  let ons := r.b 1 0 8
  let bw := r.b 2 0 16
  if lanes < 1 || 608 < lanes || ons < 1 || 64 < ons || !s.budgetRule bw then opBad s .badop
  else opOk (((s.put budLanesPer2us 0 lanes).put budSlotOnsMax 0 ons).put budBoardW 0 bw) [okey cBudget 0]

/-- Word 2 of the budget, as reads show it (Table 15-5). -/
def State.budgetWord2 (s : State) : Word :=
  word (min s.committedW 65535 * 281474976710656 + s.slotsIn slRamping * 1099511627776 + s.slotsIn slWaiting * 4294967296
    + min s.lanes.waiting.length 65535)

/-! ## Feeds (R380, R381) -/

/-- A feed conducts. -/
def State.feedOn (s : State) (f : Nat) : Bool := s.fld feedState f = 1

/-- `FEED_REVERSE_BLOCK` (R380): the bus exceeds the input by 10 mV. -/
def execFeedReverseBlock (f : Fin 2) (inputMv busMv : Nat) (s : State) : Host.Outcome State Fault Refusal :=
  .next (if s.slotDie && s.feedOn f.val && decide (inputMv + 10 ≤ busMv) then
    (((s.put feedState f.val 2).addSat feedReverseBlocks f.val 1).slotCount (64 + f.val) 7).raise
      { grade := 0, checker := checkerId 0x17 (64 + f.val), cls := cFeed, sel := f.val, syn0 := busMv - inputMv, syn1 := 10,
        action := 0, key := 0 }
  else s)

/-- `FEED_INPUT_OUT_OF_RANGE` (R380): 10 µs outside `UvMv` to `OvMv`. -/
def execFeedInputOutOfRange (f : Fin 2) (inputMv : Nat) (s : State) : Host.Outcome State Fault Refusal :=
  .next (if s.slotDie && (s.fld feedState f.val = 1 || s.fld feedState f.val = 2)
      && (decide (inputMv < s.fld feedUvMv f.val) || decide (s.fld feedOvMv f.val < inputMv)) then s.put feedState f.val 0
  else s)

/-- `FEED_CONDUCTION_START` (R380): the three conditions hold. -/
def execFeedConductionStart (f : Fin 2) (inputMv busMv : Nat) (s : State) : Host.Outcome State Fault Refusal :=
  .next (if s.slotDie && s.fld feedTargetState f.val = 0 && decide (s.fld feedUvMv f.val ≤ inputMv)
      && decide (inputMv ≤ s.fld feedOvMv f.val) && decide (busMv < inputMv) then s.put feedState f.val 1
  else s)

/-- `TargetState` of a feed (R381): 2 takes it out of service, 0 returns it; its input decides when it conducts again. -/
def State.feedTarget (s : State) (f v : Nat) : State :=
  if v = 2 then s.put feedState f 3 else if s.fld feedState f = 3 then s.put feedState f 0 else s

/-! ## Measurement (R382) -/

/-- One conversion of a slot channel: `PeakMa`, `EnergyUj` and the samples of the next publication. A product for 10 µs is in 10 pJ. -/
def State.slotSample (s : State) (x : SlotSample) : State :=
  let n := x.slot.val
  let r := s.slotRun n
  let ma := signed 16 (x.milliAmps % 65536)
  let e := r.frac + ma * (x.outMv % 65536 : Nat)
  let s1 := if 0 ≤ ma then s.put slotPeakMa n (max (s.fld slotPeakMa n) ma.toNat) else s
  let s2 := s1.put slotEnergyUj n (unsigned 48 (s1.fld slotEnergyUj n + e / 100000))
  s2.setSlotRun { r with taken := ((ma, x.outMv % 65536, x.inMv % 65536) :: r.taken).take 100, frac := e % 100000 }

/-- Conversions of slots. -/
def State.slotSamples (s : State) : List SlotSample → State
  | [] => s
  | x :: xs => (s.slotSample x).slotSamples xs

/-- Conversions of feeds. -/
def State.feedSamples (s : State) : List FeedSample → State
  | [] => s
  | x :: xs =>
    let r := s.feedRun x.feed.val
    (s.setFeedRun { r with
      taken := ((x.tenMilliAmps % 65536, x.inMv % 65536, x.busMv % 65536) :: r.taken).take 100 }).feedSamples xs

/-- `MEASUREMENT_SAMPLE` (R382): every 10 µs. -/
def execMeasurementSample (slots : List SlotSample) (feeds : List FeedSample) (s : State) : Host.Outcome State Fault Refusal :=
  .next (if s.slotDie then (s.slotSamples slots).feedSamples feeds else s)

/-- Publishes the means of a slot channel's last 100 samples, once it has taken so many. -/
def State.slotPublish (s : State) (n : Nat) : State :=
  let xs := (s.slotRun n).taken
  if xs.length < 100 then s
  else
    (((s.put slotCurrentMa n (unsigned 16 ((xs.map (fun x => x.1)).sum / 100))).put slotOutputMv n
      ((xs.map (fun x => x.2.1)).sum / 100)).put slotInputMv n ((xs.map (fun x => x.2.2)).sum / 100)).put slotPowerMw n
      (unsigned 32 ((xs.map (fun x => x.1 * (x.2.1 : Int))).sum / 100000))

/-- Publishes the means of a feed's last 100 samples, once it has taken so many. -/
def State.feedPublish (s : State) (f : Nat) : State :=
  let xs := (s.feedRun f).taken
  if xs.length < 100 then s
  else
    ((s.put feedCurrentTenMa f ((xs.map (fun x => x.1)).sum / 100)).put feedInputMv f ((xs.map (fun x => x.2.1)).sum / 100)).put
      feedBusMv f ((xs.map (fun x => x.2.2)).sum / 100)

/-- `MEASUREMENT_PUBLISH` (R382): every 1 ms, the means of the last 100 samples. -/
def execMeasurementPublish (s : State) : Host.Outcome State Fault Refusal :=
  .next (if s.slotDie then ([0, 1].foldl (fun s f => s.feedPublish f) (allSlots.foldl (fun s n => s.slotPublish n) s)) else s)

end Sys2Proof.Machine
end

