-- ==== Sys2Proof/Machine/Switch.lean ====
section
/-! DEFINITION. The switch core (R92 to R118) and the egress scheduler (R157 to R159): packets in, packets out. -/

namespace Sys2Proof.Machine

/-! ## Where a packet goes (R121, R122, R186) -/

/-- A packet as it stands after parsing: its kind, class and credit group. -/
def State.parsed (s : State) (p : Nat) (x : PacketIn) : Packet :=
  let k := kindOf x.req
  let h := match x.hdr with | some h => h.hop | none => 0
  { id := s.core.nextPkt, ingress := p, group := s.groupOf p h k x.req, kind := k, req := x.req, body := if k = .completion then .cpl x.status else .plain
    image := x.image, tc := x.tc % 8, flowClass := flowClassOf x.req x.tc, egress := 255, queue := 4, acctQueue := 4, arr := 0, outLevel := 0
    tenant := 0, hdr := none, dest := .agent, view := 0x7F, viewDev := s.fabricId, srcSlot := 16384, srcLd := 0xFF, requester := x.requester
    tag := x.tag, pool := 3, idxs := [], poison := x.poison, cutThrough := false, written := min x.written (cellsOf x.image.length)
    writtenAt := s.now, yellow := false, cm := false, resent := false, ecrcBad := x.ecrcBad, ide := x.ide, loc := .ingress, linkedAt := s.now
    redBy := [], redNow := [], unreached := 0, dests := [] }

/-- A packet that enters at an edge port, attributed (R180): a host's to the owner of its view, a function's to the tenant that it is bound to. -/
def State.arrived (s : State) (p : Nat) (x : PacketIn) : Packet :=
  let b := s.parsed p x
  if s.role p = roleHost then
    match s.viewOfPort p with
    | some v => { b with tenant := s.fld viewOwnerTenant v, view := v }
    | none => b
  else
    let w := s.bindW (homeSel x.slot) (ldIndex x.ld)
    if x.slot < 16384 ∧ bBound w = true then { b with tenant := bTenant w, srcSlot := x.slot, srcLd := x.ld } else b

/-- A packet toward a binding of a view: to the function's device port here, or across the fabric to the port that the confirmation named
(R184, R186). None until the binding is `Matched`, and for an IDE packet whose device port does not pass IDE (R322). -/
def State.toBinding (s : State) (b : Packet) (sel i bar off len : Nat) : Option Packet :=
  let w := s.bindW sel i
  let port := s.base fnPort sel
  let b := { b with dest := .fn (sel % 65536) (bLd w) bar off len }
  if !bMatched w then none
  else if isHome sel then
    if b.ide && s.fld portIdeDirect port = 0 then none else some { b with egress := port }
  else some { b with hdr := some (s.edgeHdr b.ingress (sel / 65536) port b.flowClass b.tenant) }

/-- A request of a host (R180, R186). -/
def State.fromHost (s : State) (p : Nat) (x : PacketIn) : Option Packet :=
  match s.viewOfPort p with
  | none => none
  | some v =>
    let b := s.arrived p x
    if x.req = .broadcast then
      match x.dests with
      | [] => none
      | d :: ds => some { b with egress := d.val, dests := d :: ds, dest := .host }
    else match x.target with
      | .vport k bar off len =>
        match s.vportBinding v k with
        | none => none
        | some e => s.toBinding b e.1 e.2 bar off len
      | _ => none

/-- A request of a function toward its host: the port that the binding notice carried (R184, R186). -/
def State.toHost (s : State) (b : Packet) (slot i : Nat) : Option Packet :=
  let w := s.bindW (homeSel slot) i
  let b := { b with dest := .host }
  if !bMatched w then none
  else if bViewDev w = s.fabricId then
    (if s.portOfView (bView w) = 255 then none else some { b with egress := s.portOfView (bView w) })
  else
    some { b with hdr := some (s.edgeHdr b.ingress (bViewDev w) (tget 255 s.tenancy.bindPort (slot * 32 + i)) b.flowClass b.tenant) }

/-- The binding behind virtual port `k` of the view that holds a function: in a view of this device any; in a view of another device one of this
device's functions (R186; log entry 74). -/
def State.peerBinding (s : State) (w : Word) (k : Nat) : Option (Nat × Nat) :=
  if bViewDev w = s.fabricId then s.vportBinding (bView w) k
  else
    ((s.selsOf cFunction).filter isHome).findSome? (fun sel => ((List.range 17).find? (fun i =>
      let u := s.bindW sel i
      bBound u && bMatched u && decide (bView u = bView w) && decide (bViewDev u = bViewDev w) && decide (bVport u = k))).map (fun i => (sel, i)))

/-- A request of a function below a device port (R180, R186): the memory of its host, or a peer of the same view. With P2P Request
Redirect, which a view of this device has in its configuration space, a peer request goes to the host; so does one for a peer that only the
view's own device knows (log entry 74). -/
def State.fromDevice (s : State) (p : Nat) (x : PacketIn) : Option Packet :=
  let sel := homeSel x.slot
  let i := ldIndex x.ld
  let w := s.bindW sel i
  if x.slot < 16384 ∧ s.fld fnPort sel = p ∧ s.fld fnState sel = 1 ∧ bBound w = true ∧ !(x.ide && s.fld portIdeDirect p = 0) then
    let b := s.arrived p x
    match x.target with
    | .host => s.toHost b x.slot i
    | .peer k bar off len =>
      if x.ide || !bMatched w then none
      else if bViewDev w = s.fabricId && s.p2pRedirect (bView w) (bVport w) then s.toHost b x.slot i
      else match s.peerBinding w k with
        | none => if bViewDev w = s.fabricId then none else s.toHost b x.slot i
        | some e => s.toBinding b e.1 e.2 bar off len
    | _ => none
  else none

/-- A packet from a fabric port as its header gives it. -/
def State.fromFabric (s : State) (p : Nat) (x : PacketIn) (h : FabHdr) : Packet :=
  { s.parsed p x with
    hdr := some h, arr := h.hop + 1, tenant := h.tenant, view := x.view, viewDev := h.srcDev, srcSlot := x.slot, srcLd := x.ld }

/-- A packet from a fabric port that ends at this device (R122). -/
def State.fromFabricHere (s : State) (p : Nat) (x : PacketIn) (h : FabHdr) : Option Packet :=
  let b := { s.fromFabric p x h with egress := h.dstPort }
  match x.target with
  | .fn slot ld bar off len =>
    if x.ide && h.dstPort < 144 && s.fld portIdeDirect h.dstPort = 0 then none else some { b with dest := .fn slot ld bar off len }
  | .host => some { b with dest := .host }
  | _ => some { b with dest := .agent }

/-! ## Cut-through (R96, R109) -/

/-- Lane rate of a rate code, in units of 0.5 GT/s (Table 2-9). -/
def rateUnits (code : Nat) : Nat :=
  match code with | 0 => 5 | 1 => 10 | 2 => 16 | 3 => 32 | 4 => 64 | 5 => 128 | _ => 256

/-- Current raw rate of a port's link: in sixteenths of a byte per nanosecond. -/
def State.rawRate (s : State) (p : Nat) : Nat :=
  if s.role p = roleFabric then rateUnits (s.fld qlActiveRate p) * streamsOf (s.fld qlActiveWidth p)
  else rateUnits (s.fld portNegRate p) * streamsOf (s.fld portNegWidth p)

/-- Cells to be written before a cut-through egress begins. -/
def cutCells (n ri re : Nat) : Nat := if re ≤ ri then 1 else (n * (re - ri) + re - 1) / re

/-- The ingress link has stalled inside a packet: its egress pauses, or waits to send it again (R110, R321). -/
def State.stalled (s : State) (id : Nat) : Bool :=
  s.core.egress.any (fun e => decide (e.pkt = id) && e.paused) || s.pcie.nullified.any (fun (e : Nat × Nat) => decide (e.2 = id))

/-- Cells of a packet written by now: they follow at the rate of the ingress link. -/
def State.writtenNow (s : State) (pk : Packet) : Nat :=
  if s.stalled pk.id then pk.written
  else min pk.cells (pk.written + (s.now - pk.writtenAt) * s.rawRate pk.ingress / 1024)

/-- When the last cell of a packet is written, at the present rate. -/
def State.writtenBy (s : State) (pk : Packet) : Nat :=
  pk.writtenAt + ((pk.cells - pk.written) * 1024 + s.rawRate pk.ingress - 1) / s.rawRate pk.ingress

/-- A packet leaves store-and-forward whatever its cells (R109, R320). -/
def State.storesForward (s : State) (pk : Packet) : Bool :=
  pk.ingress = 255 || pk.egress = 255 || pk.req = .broadcast || s.fld portStoreForward pk.egress = 1
  || (s.role pk.ingress ≠ roleFabric && s.fld portEcrcCheck pk.ingress = 1)

/-- When a packet joined its list: at once where it may leave cut-through, else with its last cell (R96). -/
def State.joinedAt (s : State) (pk : Packet) : Nat :=
  if s.storesForward pk && decide (pk.written < pk.cells) then max pk.linkedAt (s.writtenBy pk) else pk.linkedAt

/-- Enough of a packet at the head of its list is written for its egress to begin, at the rates of this instant (R109). -/
def State.begins (s : State) (pk : Packet) : Bool :=
  let n := s.writtenNow pk
  n = pk.cells || (!s.storesForward pk && decide (cutCells pk.cells (s.rawRate pk.ingress) (s.rawRate pk.egress) ≤ n))

/-! ## Reception (R92, R100, R147, R317, R320) -/

/-- A packet turned away where it enters: its credits go back, since it takes no cells (R106). -/
def State.refuseIn (s : State) (pk : Packet) (st : CplStatus) : State := (s.refuse pk st).returnCredits pk

/-- ECRC check failed (R320): EP, AER at the requester's own port, counted and recorded. -/
def State.ecrcFails (s : State) (p : Nat) (pk : Packet) : State :=
  let s1 := s.addSat portEcrcFailures p 1
  let s2 := s1.aerRequester ⟨pk.tenant, s.fabricId, pk.view, pk.srcSlot, pk.srcLd⟩ .ecrc
  s2.raiseOpen { grade := 0, checker := checkerId 0x01 p, cls := cPort, sel := p, syn0 := 0, syn1 := 0, action := 5, key := 0 }

/-- A packet from a fabric port: to this device, or onward at a higher hop level (R122, R127). -/
def State.fabricIn (s : State) (p : Nat) (x : PacketIn) (h : FabHdr) (cells : List CellIdx) : State :=
  if h.dstDev = s.fabricId then
    match s.fromFabricHere p x h with
    | none => s.refuseIn (s.fromFabric p x h) .unsupportedRequest
    | some pk =>
      let queue := s.queueFor p pk.egress pk.flowClass (pk.req = .lighterAck)
      s.enter { pk with queue := queue, acctQueue := queue } cells
  else
    let b := s.fromFabric p x h
    let r := s.nextHop h.dstDev h.dstPort b.arr b.cells (isCxl b.req)
    match r.2 with
    | none => (s.noPath b h.dstDev h.dstPort).returnCredits b
    | some (q, l) =>
      let queue := r.1.queueFor p q b.flowClass (b.req = .lighterAck)
      r.1.enter { b with egress := q, queue := queue, acctQueue := queue, outLevel := l } cells

/-- A completion without an entry, or of another generation, is discarded and counted at its function (R148). An error completion is recorded
too (Table 5-10), and so is one whose function no entry names, which no counter could count. -/
def State.lateCompletion (s : State) (p dev slot : Nat) (success : Bool) : State :=
  let s1 := s.countLate dev slot
  if success && decide (slot < 16384) then s1
  else s1.raise { grade := 0, checker := checkerId 0x16 p, cls := cPort, sel := p, syn0 := 0, syn1 := 0, action := 15, key := 0 }

/-- The tenant of a completion that enters at a port: of the function that answers, or of the host's view (R180). -/
def State.cplTenant (s : State) (p : Nat) (r : ReqEntry) : Nat :=
  if s.role p = roleHost then (match s.viewOfPort p with | some v => s.fld viewOwnerTenant v | none => 0)
  else
    let w := s.bindW (homeSel r.slot) (ldIndex r.ld)
    if r.slot < 16384 ∧ bBound w = true then bTenant w else 0

/-- A completion as it goes back to the requester of an entry, with the original tag (R94, R146). -/
def State.cplPacket (s : State) (p : Nat) (c : CompletionIn) (r : ReqEntry) : Packet :=
  let x : PacketIn := { kind := .completion, req := c.req, image := c.image, status := c.status, tc := r.tc, target := .host, requester := r.requester
                        tag := r.origTag, slot := r.slot, ld := r.ld, view := 0x7F, ecrcBad := false, poison := c.poison, ide := false, hdr := none
                        written := c.written, dests := [] }
  let b := { s.parsed p x with tenant := s.cplTenant p r, view := r.view, srcSlot := r.slot, srcLd := r.ld, dest := .host }
  if r.origDev = s.fabricId then { b with egress := r.origPort }
  else { b with hdr := some (s.edgeHdr p r.origDev r.origPort b.flowClass b.tenant) }

/-- A completion, an NDR or a DRS enters on an edge link: matched by its tag to the entry of a request sent there, which it frees, it goes through the
core to the original requester (R94, R146, R148). The device's error completion is forwarded as it is and recorded (Table 5-10). -/
def State.completionIn (s : State) (p : Nat) (c : CompletionIn) : State :=
  let back := fun (s : State) (pk : Packet) => s.returnCredits pk
  match (s.reqTable p false).find? (fun r => decide (r.tag = c.tag)) with
  | none => back (s.lateCompletion p s.fabricId 16384 (c.status = .success)) (s.cplPacket p c (s.inEntry (s.ownPkt c.req .plain [] 0 0)))
  | some r =>
    let pk := s.cplPacket p c r
    if r.gen ≠ s.genNow r.slot r.far r.ld then back (s.lateCompletion p s.fabricId r.slot (c.status = .success)) pk
    else
      let s1 := (s.dropReq r.id).goOn pk c.cells
      if c.status = .success then s1
      else s1.raise { grade := 0, checker := checkerId 0x16 p, cls := cPort, sel := p, syn0 := r.requester * 65536 + r.origTag, syn1 := 0, action := 0
                      key := 0 }

/-- Lighter packets and management messages come on fabric ports alone. -/
def edgeReq (r : ReqType) : Bool :=
  match r with
  | .lighterData | .lighterResp | .lighterAck | .mgmtMsg => false
  | _ => true

/-- A port takes packets: its link is up, and a contained host port takes none until its link returns (R353). -/
def State.takesPackets (s : State) (p : Nat) : Bool :=
  s.running && s.lane0 p = p && s.linkUp p && !(s.role p = roleHost && s.isContained (.port p))

/-- `PACKET_RECEIVED` (R92): a packet on a port's link. -/
def execPacketReceived (p : PortId) (x : PacketIn) (cells : List CellIdx) (s : State) : Host.Outcome State Fault Refusal :=
  if !packetWf x.image.length then .next s
  else if !s.takesPackets p.val then .next s
  else
    let g := (s.parsed p.val x).group
    let c := (s.count (ctrId 0x01 256 p.val g) 1).count (ctrId 0x01 256 p.val (16 + g)) x.image.length
    if s.role p.val = roleFabric then
      match x.hdr with
      | none => .next s
      | some h => .next (c.fabricIn p.val x h cells)
    else if !edgeReq x.req then .next s
    else if kindOf x.req = .completion then .next (c.completionIn p.val ⟨x.req, x.tag, x.status, x.image, x.poison, x.written, cells⟩)
    else
      match (if s.role p.val = roleHost then s.fromHost p.val x else s.fromDevice p.val x) with
      | none => .next (c.refuseIn (s.arrived p.val x) .unsupportedRequest)
      | some pk =>
        if x.ecrcBad && s.fld portEcrcCheck p.val = 1 then .next ((c.ecrcFails p.val pk).goOn { pk with poison := true } cells)
        else .next (c.goOn pk cells)

/-- `HELD_PACKET_REEVALUATE` (R102): a packet held at ingress, or by the internal agent (R100). -/
def execHeldPacketReevaluate (pkt : Nat) (cells : List CellIdx) (s : State) : Host.Outcome State Fault Refusal :=
  match s.pkt pkt with
  | none => .next s
  | some pk => .next (if s.running && pk.loc = .ingress && pk.pool = 3 then s.evaluate pk cells else s)

/-! ## What an egress may send (R97, R107, R108, R146, R157) -/

/-- A later kind may pass an earlier one that waits for credits (Table 4-5). Packets of one kind keep their order (R107; log entry 104). -/
def passes (later earlier : PktKind) : Bool :=
  match later, earlier with
  | .posted, .posted => false
  | .posted, _ => true
  | .nonPosted, .posted => false
  | .nonPosted, .nonPosted => false
  | .nonPosted, _ => true
  | .completion, .posted => false
  | .completion, .completion => false
  | .completion, _ => true
  | .unordered, .unordered => false
  | .unordered, _ => true

/-- A linked packet leaves by an egress (a broadcast by each of its targets). -/
def Packet.leavesBy (pk : Packet) (c : Nat) : Bool :=
  pk.loc = .linked && (if pk.dests.isEmpty then decide (pk.egress = c) else pk.dests.any (fun d => decide (d.val = c)))

/-- Its queue at that egress. -/
def State.queueAt (s : State) (pk : Packet) (c : Nat) : Nat :=
  if pk.egress = c then pk.queue else s.queueFor pk.ingress c pk.flowClass false

/-- The egress link has no credits for a packet: of its virtual channel on a fabric port (R265), of its kind on an edge port. The internal agent
always accepts. -/
def State.starves (s : State) (starved : List PktKind) (c : Nat) (pk : Packet) : Bool :=
  if c = 255 then false
  else if s.role c = roleFabric then !(s.qlp c).credit (vcOf pk.outLevel pk.kind pk.req) pk.bytes
  else starved.contains pk.kind

/-- The egress takes a packet now: it has credits, on a fabric port the link is Active with replay room (R263), on an edge port the link is in L0 or
L0p (R323). A port that nothing goes out on takes every packet, for its gate to turn away (R193). -/
def State.sendable (s : State) (starved : List PktKind) (c : Nat) (pk : Packet) : Bool :=
  if c = 255 then true
  else if s.role c = roleFabric then s.qlCanSend c (vcOf pk.outLevel pk.kind pk.req) pk.bytes
  else s.edgeDead c || ((s.fld portLinkState c = 3 || s.fld portLinkState c = 4) && !starved.contains pk.kind)

/-- The first packet of a virtual output queue that may leave: earlier ones wait for credits and Table 4-5 lets it pass them. One at the head that is not
written far enough holds the list. -/
def State.firstFree (s : State) (starved : List PktKind) (c : Nat) (before : List Packet) : List Packet → Option Packet
  | [] => none
  | pk :: rest =>
    if before.all (fun e => passes pk.kind e.kind) && s.sendable starved c pk && s.begins pk then some pk
    else if s.starves starved c pk then s.firstFree starved c (pk :: before) rest
    else none

/-- Inserts a packet behind those that joined no later. -/
def State.insertJoined (s : State) (pk : Packet) : List Packet → List Packet
  | [] => [pk]
  | k :: ks => if s.joinedAt k ≤ s.joinedAt pk then k :: s.insertJoined pk ks else pk :: k :: ks

/-- Packets linked for an egress and queue, in the order in which they joined (R96). -/
def State.linkedFor (s : State) (c q : Nat) : List Packet :=
  (s.core.pkts.filter (fun k => k.leavesBy c && decide (s.queueAt k c = q) && decide (s.joinedAt k ≤ s.now))).foldl
    (fun l k => s.insertJoined k l) []

/-- Places of ingress ports after the last one served (R97). -/
def rrPlace (last ing : Nat) : Nat := (ing + 256 - last) % 256

/-- The candidate that comes first in round-robin order. -/
def rrFirst (last : Nat) : List Packet → Option Packet
  | [] => none
  | k :: ks =>
    match rrFirst last ks with
    | none => some k
    | some j => if rrPlace last k.ingress ≤ rrPlace last j.ingress then some k else some j

/-- The packet that an egress queue would send: by ingress port in round-robin order (R97). -/
def State.pick (s : State) (starved : List PktKind) (c q : Nat) : Option Packet :=
  let ks := s.linkedFor c q
  let ings := (ks.map (·.ingress)).eraseDups
  rrFirst (tget 0 s.core.lastIngress (c * 16 + q)) (ings.filterMap (fun i => s.firstFree starved c [] (ks.filter (fun k => decide (k.ingress = i)))))

/-- Selector of an egress queue. -/
def sqSel (p q : Nat) : Nat := q * 256 + p

/-- Shaper tokens of a queue are above zero, or its shaper is off (R159): whole bytes, and the units of 1/1,024 byte beside them (R164). The internal agent
is not shaped. -/
def State.shaperOpen (s : State) (c q : Nat) : Bool :=
  let t := signed 32 (s.fld sqShapeTokens (sqSel c q))
  c = 255 || q < 2 || s.fld sqShapeKbps (sqSel c q) = 0 || decide (0 < t) || (t = 0 && decide (1000000 ≤ tget 0 s.core.shaperFrac (sqSel c q)))

/-- The head of a queue that is eligible but for the scheduler's own turn (R157). -/
def State.eligible (s : State) (starved : List PktKind) (c q : Nat) : Option Packet :=
  if s.shaperOpen c q then s.pick starved c q else none

/-! ## The scheduler (R157, R158) -/

/-- Weight and burst of a weighted queue; the internal agent's are the cold-reset ones (R100). -/
def State.weightOf (s : State) (c q : Nat) : Nat := if c = 255 then 1 else s.fld sqWeight (sqSel c q)
def State.burstOf (s : State) (c q : Nat) : Nat := if c = 255 then 66 else s.fld sqBurstCells (sqSel c q)

/-- A queue's deficit, and writing it. -/
def State.deficit (s : State) (c q : Nat) : Nat := if c = 255 then 66 else s.fld sqDeficitCells (sqSel c q)
def State.setDeficit (s : State) (c q n : Nat) : State := if c = 255 then s else s.put sqDeficitCells (sqSel c q) n

/-- The round pointer of an egress. -/
def State.roundPtr (s : State) (c : Nat) : Nat := tget 4 s.core.pointer c

/-- A visit has begun at the pointer. -/
def State.midVisit (s : State) (c : Nat) : Bool := s.core.midVisit.contains c

/-- Queues after `q` in round order. -/
def roundAfter (q : Nat) : List Nat := (List.range 12).map (fun i => 4 + (q - 4 + 1 + i) % 12)

/-- Moves the pointer to the next queue with weight. -/
def State.nextQueue (s : State) (c : Nat) : State :=
  let q := ((roundAfter (s.roundPtr c)).find? (fun q => decide (0 < s.weightOf c q))).getD (s.roundPtr c)
  { s with core := { s.core with pointer := tput 4 s.core.pointer c q, midVisit := s.core.midVisit.filter (fun x => decide (x ≠ c)) } }

/-- Step 1 of a visit (R158). -/
def State.visit (s : State) (c q : Nat) : State :=
  let quantum := s.weightOf c q * 66
  let sum := s.deficit c q + quantum
  let cap := if (s.linkedFor c q).isEmpty then s.burstOf c q - quantum else s.burstOf c q + 65
  let s1 := s.setDeficit c q (min sum cap)
  let s2 := if cap < sum ∧ c < 144 then s1.count (ctrId 0x04 16 (c * 16 + q) 5) 1 else s1
  { s2 with core := { s2.core with midVisit := s2.core.midVisit ++ [c] } }

/-- Visits until one sends a packet: the state with its deficit taken, and the packet and queue. A visit under way goes on though its queue has lost its
weight (R161). The second argument bounds the visits. -/
def State.drr (starved : List PktKind) (c : Nat) : Nat → State → Option (State × Packet × Nat)
  | 0, _ => none
  | fuel + 1, s =>
    let q := s.roundPtr c
    if !s.midVisit c && s.weightOf c q = 0 then State.drr starved c fuel (s.nextQueue c)
    else
      let s1 := if s.midVisit c then s else s.visit c q
      match s1.eligible starved c q with
      | none => State.drr starved c fuel (s1.nextQueue c)
      | some pk =>
        if pk.cells ≤ s1.deficit c q then some (s1.setDeficit c q (s1.deficit c q - pk.cells), pk, q)
        else State.drr starved c fuel (s1.nextQueue c)

/-- A weighted queue can be visited: it has weight, or its visit is under way. -/
def State.visits (s : State) (c q : Nat) : Bool := 0 < s.weightOf c q || (s.midVisit c && s.roundPtr c = q)

/-- The scheduler's choice: the eligible strict queue with the lowest number, else the weighted group (R157). -/
def State.choose (s : State) (starved : List PktKind) (c : Nat) : Option (State × Packet × Nat) :=
  match [0, 1, 2, 3].find? (fun q => (s.eligible starved c q).isSome) with
  | some q => (s.eligible starved c q).map (fun pk => (s, pk, q))
  | none =>
    if (List.range 12).any (fun i => (s.eligible starved c (4 + i)).isSome && s.visits c (4 + i)) then State.drr starved c 26 s
    else none

/-! ## Leaving (R97, R110 to R112, R188) -/

/-- The queue pair that a Lighter packet goes to (Table 9-10). -/
def Packet.dstQp (pk : Packet) : Nat := bitsAt (leNat (pk.image.take 8)) 24 20

/-- The target that a fault of a packet is raised against: the function, a Lighter queue pair of this device, else the flow at its egress (R111). -/
def targetEvent (s : State) (pk : Packet) (checker action : Nat) : FEvent :=
  let e : FEvent := { grade := 1, checker := checker, cls := cPort, sel := pk.egress, syn0 := 0, syn1 := 0, action := action, key := 0 }
  match pk.dest with
  | .fn slot _ _ _ _ => if slot < 16384 ∧ pk.egress < 144 ∧ s.role pk.egress ≠ roleFabric then { e with cls := cFunction, sel := homeSel slot } else e
  | .agent => if pk.egress = 255 ∧ isLighter pk.req = true then { e with cls := cQueuePair, sel := pk.dstQp } else e
  | _ => e

/-- The same against a flow of the fabric, at its edge port of this device: its `Syndrome` names the flow (R349, Table 14-3). None where the
target is an object of this device, or the packet has no fabric header. -/
def flowTarget (s : State) (pk : Packet) (checker action : Nat) : Option FEvent :=
  match pk.hdr with
  | none => none
  | some h =>
    if (targetEvent s pk checker action).cls ≠ cPort then none
    else
      let sel := if h.dstDev = s.fabricId then h.dstPort else if h.srcDev = s.fabricId then h.srcPort else pk.egress
      some { grade := 1, checker := checker, cls := cPort, sel := sel, syn0 := flowSyn (hdrFlow h) h.gen, syn1 := h.seq, action := action
             key := 52 }

/-- The column of the buffer that an error stands in (Table 14-6), and the cell whose bank holds it. -/
def errorPlace : CellError → Option (Nat × Nat)
  | .none => none
  | .corrected cell column => some (column, cell)
  | .data cell _ _ => some (0, cell)
  | .tag cell _ => some (1, cell)
  | .descriptor _ => some (2, 0)

/-- `Syndrome` of a SECDED word of the buffer (Table 14-3): the word's address, then the code's syndrome with bit 8 for an uncorrectable one, and from
bit 16 on the cell's tag, or what fits of the descriptor. -/
def Packet.secdedSyn (pk : Packet) (e : CellError) : Nat × Nat :=
  let cellAt := fun i => match pk.idxs[i]? with | some c => c.val | none => 0
  match e with
  | .none => (0, 0)
  | .corrected cell _ => (8 * cellAt cell, 65536 * pk.cellTag cell)
  | .data cell w syn => (8 * cellAt cell + w, syn.toNat + 256 + 65536 * pk.cellTag cell)
  | .tag cell syn => (cellAt cell, syn.toNat + 256 + 65536 * pk.cellTag cell)
  | .descriptor syn => (cellAt 0, syn.toNat + 256 + 65536 * (pk.descriptor noCell % 281474976710656))

/-- The bank of a cell of a packet. -/
def Packet.bankAt (pk : Packet) (cell : Nat) : Nat := match pk.idxs[cell]? with | some c => bankOfCell c | none => 0

/-- An uncorrectable word of a packet (R111): counted at the bank that holds it, raised at Grade 1 against the target. -/
def State.uncorrectable (s : State) (pk : Packet) (e : CellError) (column cell action : Nat) : State :=
  let b := pk.bankAt cell
  let c := checkerId 0x04 (b * 4 + column)
  let s1 := (s.addSat bankUncorrectable b 1).count (ctrId 0x0E 4 b 1) 1
  match flowTarget s pk c action with
  | some f => s1.raise f
  | none => s1.raiseOpen { targetEvent s pk c action with syn0 := (pk.secdedSyn e).1, syn1 := (pk.secdedSyn e).2 }

/-- A corrected single-bit error: Grade 0 against the bank (R111). -/
def State.bitCorrected (s : State) (pk : Packet) (e : CellError) (column cell : Nat) : State :=
  let b := pk.bankAt cell
  ((s.addSat bankCorrected b 1).count (ctrId 0x0E 4 b 0) 1).raiseOpen
    { grade := 0, checker := checkerId 0x04 (b * 4 + column), cls := cBufferBank, sel := b, syn0 := (pk.secdedSyn e).1, syn1 := (pk.secdedSyn e).2
      action := 1, key := 0 }

/-- A packet's copy in a replay buffer follows it. -/
def State.inReplay (s : State) (pk : Packet) : State :=
  { s with quay := s.quay.map (fun (r : QlPort) => { r with
      replay := r.replay.map (fun (e : ReplayEntry) => if e.pk.id = pk.id then { e with pk := pk } else e) }) }

/-- Marks a packet to leave with EP. -/
def State.poisonPkt (s : State) (pk : Packet) : State :=
  let k := { pk with poison := true }
  (s.setPkt k).inReplay k

/-- What a buffer read meets (R111). Behind a bad tag the cells cannot be reached: their bytes leave as zeros. A bad descriptor leaves the chain of tags whole
(DEDUCED, log entry 103). -/
def State.cellError (s : State) (id : Nat) (e : CellError) : State :=
  match s.pkt id, errorPlace e with
  | some pk, some (column, cell) =>
    if pk.cells ≤ cell then s
    else match e with
    | .none => s
    | .corrected .. => if column < 3 then s.bitCorrected pk e column cell else s
    | .data .. =>
      if pk.cutThrough && decide (cell ≠ 0) then s.uncorrectable pk e 0 cell 6
      else (s.poisonPkt pk).uncorrectable pk e 0 cell (if pk.req = .mgmtMsg then 15 else 5)
    | .tag .. =>
      let n := 64 * (cell + 1)
      (s.poisonPkt { pk with unreached := pk.cells - (cell + 1), image := padTo pk.bytes (pk.image.take n) }).uncorrectable pk e 1 cell
        (if pk.req = .mgmtMsg then 15 else 5)
    | .descriptor .. => (s.poisonPkt pk).uncorrectable pk e 2 0 (if pk.req = .mgmtMsg then 15 else 5)
  | _, _ => s

/-- The lowest tag that no entry of a port uses. -/
def State.ownTag (s : State) (p : Nat) : Nat :=
  let used := (s.reqTable p false).map (·.tag)
  ((List.range (used.length + 1)).find? (fun t => !used.contains t)).getD 0

/-- The entry of a request sent onto an edge link (R146, R319). -/
def State.outEntry (s : State) (c : Nat) (pk : Packet) : ReqEntry :=
  let slot := match pk.dest with | .fn k _ _ _ _ => k | _ => pk.srcSlot
  let ld := match pk.dest with | .fn _ l _ _ _ => l | _ => pk.srcLd
  { id := 0, port := c, inbound := false, tag := if s.fld portIdeDirect c = 1 then pk.tag else s.ownTag c, requester := pk.requester,
    origTag := pk.tag, origDev := match pk.hdr with | some h => h.srcDev | none => s.fabricId
    origPort := match pk.hdr with | some h => h.srcPort | none => pk.ingress
    req := pk.req, flow := match pk.hdr with | some h => hdrFlow h | none => ⟨s.fabricId, pk.ingress, s.fabricId, c, pk.flowClass⟩
    view := pk.view, slot := slot, ld := ld, far := 0, gen := s.genNow slot 0 ld, due := s.now + s.fld portCplTimeoutMs c * 1000000, cm := false
    closed := false }

/-- The entry of the port's own request that a completion answers (R148): one that the internal agent closed takes the agent's own completion, any other
those of the link or the fabric. -/
def State.ownEntry (s : State) (c : Nat) (pk : Packet) : Option ReqEntry :=
  (s.reqTable c true).find? (fun r => decide (r.tag = pk.tag) && decide (r.requester = pk.requester) && r.closed = decide (pk.ingress = 255))

/-- A CXL.mem write was lost: an uncorrectable error at the virtual port that holds the logical device (R151). -/
def State.cmpLost (s : State) (pk : Packet) (r : ReqEntry) : State :=
  match pk.body with
  | .cpl .cxlCmp =>
    let w := s.bindW r.far (ldIndex r.ld)
    if r.view < 96 ∧ bBound w = true then s.emit (.aer r.view (bVport w) .uncorrectableInternal) else s
  | _ => s

/-- A posted write of a Lighter function that its host port turns away: its bytes count as discarded (R244). -/
def State.ltTurned (s : State) (pk : Packet) : State :=
  match pk.body with
  | .ltWrite .. => { s with lighter := { s.lighter with runs := s.lighter.runs.map (fun r =>
      { r with
        lost := r.lost + ((r.placed.filter (fun x => decide (x.id = pk.id))).map (·.bytes)).sum
        placed := r.placed.filter (fun x => decide (x.id ≠ pk.id)) }) } }
  | _ => s

/-- A completion at the gate of its port (R148). -/
def State.cplGate (s : State) (c : Nat) (pk : Packet) : State × Bool :=
  let s0 := s.dropPkt pk.id
  match s.ownEntry c pk with
  | some r =>
    if !r.closed && decide (r.gen ≠ s.genNow r.slot r.far r.ld) then (s0.lateCompletion c (pk.fromDev s.fabricId) pk.srcSlot true, false)
    else ((s.dropReq r.id).cmpLost pk r, true)
  | none => (s0.lateCompletion c (pk.fromDev s.fabricId) pk.srcSlot (match pk.body with | .cpl st => st = .success | _ => true), false)

/-- A configuration write that starts a function-level reset of the function below a gate slot: bit 15 of its Device Control (R310, R313; log entry
12). -/
def Packet.startsFlr (pk : Packet) (slot off : Nat) : Bool :=
  pk.req = .config && decide (off = 4 * Config.capReg (16 + slot)) && decide (leNat ((pk.image.drop 12).take 4) / 32768 % 2 = 1)

/-- A request enters the table of the port that sends it on. -/
def State.enterOut (s : State) (c : Nat) (pk : Packet) : State := if pk.answered then s.addReq (s.outEntry c pk) else s

/-- The gate stage of an edge port (R188): passed with its entry, or turned away with its cells freed. A reset that is
passed to a function closes its entries (R313). -/
def State.gateStage (s : State) (c : Nat) (pk : Packet) : State × Bool :=
  let who : Asker := ⟨pk.tenant, pk.viewDev, pk.view, pk.srcSlot, pk.srcLd⟩
  if s.edgeDead c then ((s.ltTurned pk).failPkt pk, false)
  else if pk.kind = .completion then s.cplGate c pk
  else
    match pk.dest with
    | .fn slot ld bar off len =>
      let x : Access := ⟨pk.req, bar, off, len⟩
      match s.fnGate slot ld who x with
      | .pass =>
        let s1 := (if pk.startsFlr slot off then s.closeFn slot ld else s).enterOut c pk
        ((s1.count (ctrId 0x06 8 slot 0) 1).count (ctrId 0x06 8 slot 1) pk.bytes, true)
      | g => ((s.dropPkt pk.id).gateRefuse pk slot g who x, false)
    | _ => (s.enterOut c pk, true)

/-- Counters of an egress queue as a packet leaves it (Table 16-1), a yellow one at each queue that it leaves (R167). -/
def State.countLeave (s : State) (c q : Nat) (pk : Packet) : State :=
  let e := c * 16 + q
  if 144 ≤ c then s
  else
    let s1 := ((s.count (ctrId 0x04 16 e 0) 1).count (ctrId 0x04 16 e 1) pk.cells).count (ctrId 0x04 16 e (6 + kindCode pk.kind)) 1
    let s2 := if pk.yellow then (s1.count (ctrId 0x04 16 e 2) 1).count (ctrId 0x04 16 e 3) pk.bytes else s1
    (s2.count (ctrId 0x01 256 c (64 + channelOf pk.kind pk.req)) 1).count (ctrId 0x01 256 c (80 + channelOf pk.kind pk.req)) pk.bytes

/-- A packet begins to leave: shaper, round-robin place, counters, credits and the header's hop level. -/
def State.leave (s : State) (c q : Nat) (pk : Packet) : State :=
  let s1 : State := { s with core := { s.core with
    lastIngress := tput 0 s.core.lastIngress (c * 16 + q) (pk.ingress % 256 + 1)
    egress := s.core.egress ++ [⟨c, pk.id, false⟩] } }
  let s2 := if c < 144 ∧ 2 ≤ q ∧ s.fld sqShapeKbps (sqSel c q) ≠ 0 then
      s1.put sqShapeTokens (sqSel c q) (unsigned 32 (signed 32 (s.fld sqShapeTokens (sqSel c q)) - (pk.bytes : Nat)))
    else s1
  let s3 := s2.countLeave c q pk
  let ds := pk.dests.filter (fun d => decide (d.val ≠ c))
  let hdr := if c < 144 ∧ s.role c = roleFabric then pk.hdr.map (fun h => { h with hop := pk.outLevel }) else pk.hdr
  let k := { pk with
    loc := if ds.isEmpty then .leaving else .linked
    dests := ds, cutThrough := decide (s.writtenNow pk < pk.cells), hdr := hdr }
  let s4 := s3.setPkt k
  if c < 144 ∧ s.role c = roleFabric then
    let s5 := s4.qlSend c (vcOf pk.outLevel pk.kind pk.req) k
    match k.hdr with
    | some h => if s.role pk.ingress ≠ roleFabric ∨ pk.ingress = 255 then s5.count (ctrId 0x09 16 h.dstDev 0) 1 else s5
    | none => s5
  else match k.hdr with
    | some h => s4.count (ctrId 0x09 16 h.srcDev 1) 1
    | none => s4

/-- A nullified packet is sent again whole, ahead of every other of its port, once written and with the link in L0 (R321). -/
def State.resendNullified (s : State) (p id : Nat) : State :=
  match s.pkt id with
  | none => { s with pcie := { s.pcie with nullified := s.pcie.nullified.filter (fun e => decide (e ≠ (p, id))) } }
  | some pk =>
    if pk.written < pk.cells || s.fld portLinkState p ≠ 3 then s
    else { s with
      pcie := { s.pcie with nullified := s.pcie.nullified.filter (fun e => decide (e ≠ (p, id))) }
      core := { s.core with egress := s.core.egress ++ [⟨p, id, false⟩] } }

/-- Number of an egress in the core: the internal agent is 255. -/
def egressCode (p : EgressId) : Nat := if p.val = 144 then 255 else p.val

/-- A port is free to begin a packet (R97). -/
def State.egressFree (s : State) (c : Nat) : Bool := !s.core.egress.any (fun e => decide (e.port = c))

/-- `EGRESS_PACKET_BEGIN` (R97, R157, R158, R188): a free egress begins its next packet. -/
def execEgressPacketBegin (p : EgressId) (x : EgressTry) (s : State) : Host.Outcome State Fault Refusal :=
  let c := egressCode p
  if !s.running || !s.egressFree c then .next s
  else match s.pcie.nullified.find? (fun (e : Nat × Nat) => decide (e.1 = c)) with
    | some e => .next (s.resendNullified c e.2)
    | none =>
      match s.choose x.starved c with
      | none => .next s
      | some (s1, pk, q) =>
        if c = 255 ∨ s.role c = roleFabric then .next ((s1.leave c q pk).cellError pk.id x.err)
        else
          let g := s1.gateStage c pk
          .next (if g.2 then (g.1.leave c q pk).cellError pk.id x.err else g.1)

/-- The packet an egress is sending. -/
def State.sending (s : State) (c : Nat) : Option (Egress × Packet) :=
  match s.core.egress.find? (fun e => decide (e.port = c)) with
  | none => none
  | some e => (s.pkt e.pkt).map (fun pk => (e, pk))

/-- `CROSSBAR_CRC_SECOND_READ` (R112): counted at Grade 0, with the check value received, which no rule gives, and the one computed (Table 14-3); a
second failure is an uncorrectable data word of that cell. -/
def execCrossbarSecondRead (p : EgressId) (cell : Nat) (ok : Bool) (s : State) : Host.Outcome State Fault Refusal :=
  let c := egressCode p
  match s.sending c with
  | none => .next s
  | some (_, pk) =>
    if !s.running || pk.cells ≤ cell then .next s
    else
      let s1 := (s.draw.count (ctrId 0x0E 4 (pk.bankAt cell) 2) 1).raiseOpen
        { grade := 0, checker := checkerId 0x05 (if c = 255 then 144 else c), cls := cPort, sel := c, syn0 := s.freeVal.toNat % 65536
          syn1 := (cellCrc (pk.cellTag cell) (pk.cellBytes cell)).toNat, action := 1, key := 0 }
      .next (if ok then s1 else s1.cellError pk.id (.data cell 0 0))

/-! ## Pauses (R110, R321) -/

/-- Marks an egress as paused or not. -/
def State.setPaused (s : State) (c : Nat) (b : Bool) : State :=
  { s with core := { s.core with egress := s.core.egress.map (fun e => if e.port = c then { e with paused := b } else e) } }

/-- `CUT_THROUGH_PAUSE` (R110): the ingress link stalls inside a cut-through packet. -/
def execCutThroughPause (p : EgressId) (s : State) : Host.Outcome State Fault Refusal :=
  let c := egressCode p
  match s.sending c with
  | none => .next s
  | some (e, pk) =>
    let n := s.writtenNow pk
    .next (if s.running && pk.cutThrough && !e.paused && decide (c < 144) && decide (n < pk.cells) then
      ((s.setPkt { pk with written := n, writtenAt := s.now }).setPaused c true).count (ctrId 0x01 256 c 129) 1
    else s)

/-- More cells of a packet are written. -/
def State.moreCells (s : State) (pk : Packet) (n : Nat) : State := s.setPkt { pk with written := min pk.cells (pk.written + n), writtenAt := s.now }

/-- `CUT_THROUGH_RESUME` (R110): the paused packet's cells arrive; a nullified one becomes whole (R321). -/
def execCutThroughResume (p : EgressId) (cells : Nat) (s : State) : Host.Outcome State Fault Refusal :=
  let c := egressCode p
  if !s.running then .next s
  else match s.sending c with
    | some (e, pk) => .next (if e.paused then (s.moreCells pk cells).setPaused c false else s)
    | none =>
      match s.pcie.nullified.find? (fun (e : Nat × Nat) => decide (e.1 = c)) with
      | none => .next s
      | some e => match s.pkt e.2 with
        | none => .next s
        | some pk => .next (s.moreCells pk cells)

/-- `TLP_NULLIFY` (R321): on an edge port the paused TLP is nullified, to be sent again whole. -/
def execTlpNullify (p : PortId) (s : State) : Host.Outcome State Fault Refusal :=
  match s.sending p.val with
  | none => .next s
  | some (e, pk) =>
    if s.running && e.paused && (s.role p.val = roleHost || s.role p.val = roleDevice) then
      let s1 := (s.addSat portNullified p.val 1).count (ctrId 0x01 256 p.val 131) 1
      .next { s1 with
        pcie := { s1.pcie with nullified := s1.pcie.nullified ++ [(p.val, pk.id)] }
        core := { s1.core with egress := s1.core.egress.filter (fun e => decide (e.port ≠ p.val)) } }
    else .next s

/-! ## Cells return (R98, R100, R113) -/

/-- Cells that no packet reaches, after a bad tag. -/
def State.orphanCells (s : State) (cells : List CellIdx) : State :=
  { s with core := { s.core with orphans := s.core.orphans ++ cells.map (fun (c : CellIdx) => (c.val, 0)) } }

/-- What a packet does once it has left whole by an edge port or for the internal agent: a presence message and the posted writes of a Lighter
function or a management function take effect at the host (R149, R215, R226, R312), none of a function in reset (R313); a write of another device's host waits for the link partner's acknowledgement (R204). A
poisoned management message is discarded by its receiver (R111). -/
def State.gone (s : State) (c : Nat) (pk : Packet) : State :=
  if c = 255 then (if pk.req = .mgmtMsg && pk.poison then s else s.emit (.toAgent pk))
  else if s.role c = roleFabric then s
  else match pk.body with
    | .presence m => s.slotEvent m.view.val m.k m.kind
    | .ltWrite v t a data => s.emit (.lighterWrite v t a data)
    | .ltMsix v t vec => s.emit (.msixLighter v t vec)
    | .hostWrite v a ws => if s.mgmtQuiet v then s else s.emit (.hostWrite v a ws)
    | .mgmtMsix v vec => if s.mgmtQuiet v then s else s.emit (.msix v vec)
    | _ =>
      let s1 := s.emit (.sent c pk pk.poison)
      match pk.hdr with
      | some h =>
        if s.role c = roleDevice ∧ pk.req = .memWrite ∧ h.srcDev ≠ s.fabricId then
          { s1 with cms := { s1.cms with far := s1.cms.far ++ [(pk.id, h)] } }
        else s1
      | none => s1

/-- `PACKET_CELLS_FREED` (R100): the last egress read completes; a broadcast keeps its cells until its last target has read them. -/
def execPacketCellsFreed (p : EgressId) (s : State) : Host.Outcome State Fault Refusal :=
  let c := egressCode p
  match s.sending c with
  | none => .next s
  | some (e, pk) =>
    if !s.running || e.paused || decide (s.writtenNow pk < pk.cells) then .next s
    else
      let s1 := { s with core := { s.core with egress := s.core.egress.filter (fun x => decide (x.port ≠ c)) } }
      let s2 := s1.gone c pk
      .next (if !pk.dests.isEmpty || s1.core.egress.any (fun x => decide (x.pkt = pk.id)) then s2.setPkt { pk with written := pk.cells }
        else (s2.dropPkt pk.id).orphanCells (pk.idxs.drop (pk.cells - pk.unreached)))

/-- `FREE_LIST_AUDIT_PASS` (R113): cells that have stayed unreached for two full passes return. -/
def execFreeListAuditPass (s : State) : Host.Outcome State Fault Refusal :=
  if !s.running then .next s
  else
    let os := s.core.orphans.map (fun (o : Nat × Nat) => (o.1, o.2 + 1))
    let back := os.filter (fun (o : Nat × Nat) => decide (2 ≤ o.2))
    let s1 := back.foldl (fun (s : State) o => s.count (ctrId 0x0E 4 (o.1 / 2048) 3) 1) s
    .next { s1 with core := { s1.core with orphans := os.filter (fun (o : Nat × Nat) => decide (o.2 < 2)) } }

/-! ## Banks (R114, R115) -/

/-- `BANK_TEST_END` (R115). -/
def execBankTestEnd (b : BankId) (pass : Bool) (s : State) : Host.Outcome State Fault Refusal :=
  .next (if s.running && s.fld bankState b.val = 3 then
    ((s.put bankTestResult b.val (if pass then 1 else 2)).put bankTest b.val 0).put bankState b.val 2
  else s)

/-- `BANK_DRAINED` (R115): the last cell of a draining bank is freed. -/
def execBankDrained (b : BankId) (s : State) : Host.Outcome State Fault Refusal :=
  .next (if s.running && s.fld bankState b.val = 1 && s.bankUse b.val = 0 then
    if s.fld bankRetiring b.val = 1 then (s.put bankRetiring b.val 0).put bankState b.val 4 else s.put bankState b.val 2
  else s)

/-- `TargetState` ← 2 (Table 4-7a): draining, or refused where the shared pool would fall below 262,144 cells. -/
def State.bankOut (s : State) (b : Nat) : Option State :=
  if s.fld bankState b ≠ 0 then some s
  else if s.sharedPool < 262144 + 2048 then none
  else some (s.put bankState b 1)

/-- `TargetState` ← 0 (Table 4-7a): refused while retiring, testing or retired, and after a failed test. -/
def State.bankBack (s : State) (b : Nat) : Option State :=
  let st := s.fld bankState b
  if st = 0 then some s
  else if (st = 1 ∧ s.fld bankRetiring b = 0) ∨ (st = 2 ∧ s.fld bankTestResult b ≠ 2) then
    some (s.put bankState b 0)
  else none

/-- `Test` ← 1: only in Out of service (Table 4-7a). -/
def State.bankTestStart (s : State) (b : Nat) : Option State :=
  if s.fld bankState b = 2 then some (((s.put bankTest b 1).put bankTestResult b 3).put bankState b 3) else none

/-! ## Weights (R129, R131) -/

/-- `CONGESTION_UPDATE` (R129): every 1 µs. -/
def execCongestionUpdate (s : State) : Host.Outcome State Fault Refusal :=
  .next (if s.running then
    { s with fabric := { s.fabric with congestion := s.levelsOf (s.selsOf cPathGroup) (fun _ _ => true) s.fabric.congestion } }
  else s)

/-- `EQUAL_WEIGHT_PERIOD_END` (R131): 100 µs after a group became active. -/
def execEqualWeightPeriodEnd (g : Fin 16384) (s : State) : Host.Outcome State Fault Refusal :=
  let t := tget 0 s.fabric.coldUntil g.val
  .next (if s.running && decide (t ≠ 0) && decide (t ≤ s.now) then
    { s with fabric := { s.fabric with
        coldUntil := tput 0 s.fabric.coldUntil g.val 0, congestion := s.levelsOf [g.val] (fun _ _ => true) s.fabric.congestion } }
  else s)

end Sys2Proof.Machine
end

