-- ==== Sys2Proof/Machine/FabricRows.lean ====
section
/-! DEFINITION. Fabric forwarding (R132 to R152): flows and the reorder unit, withdrawals, completions, and the messages that bind
functions across devices (R149, R184, R204, R314). -/

namespace Sys2Proof.Machine

/-! ## Send records (R132) -/

/-- `SEND_RECORD_SILENCE_CLOSE` (R132): nothing sent for 5 ms. -/
def execSendRecordSilenceClose (flow : FlowKey) (s : State) : Host.Outcome State Fault Refusal :=
  match s.sendRec flow with
  | none => .next s
  | some r =>
    .next (if s.running && decide (r.lastAt + 5000000 ≤ s.now) then
      { s with fabric := { s.fabric with send := s.fabric.send.filter (fun q => decide (q.flow ≠ flow)) } }
    else s)

/-! ## The reorder unit (R133 to R135) -/

/-- Counts at a fabric peer (R388 block 0x09; log entry 21): 0 sent, 1 delivered, 2 duplicates, 3 stale discards, 4 teardowns, 5 reorder
waits, 6 re-sent. -/
def State.peerCount (s : State) (dev n : Nat) : State := s.count (ctrId 0x09 16 dev n) 1

/-- The receive record of a flow. -/
def State.recvRec (s : State) (f : FlowKey) : Option RecvRec := s.fabric.recv.find? (fun r => decide (r.flow = f))

/-- Writes a receive record. -/
def State.setRecv (s : State) (r : RecvRec) : State :=
  { s with fabric := { s.fabric with recv := s.fabric.recv.filter (fun q => decide (q.flow ≠ r.flow)) ++ [r] } }

/-- Packets held in every receive record together (R135). -/
def State.heldPackets (s : State) : Nat := (s.fabric.recv.map (fun r => r.held.length)).sum

/-- A birth less another, as a signed 32-bit difference (R133). -/
def birthDiff (a b : Nat) : Int := signed 32 ((a + 4294967296 - b % 4294967296) % 4294967296)

/-- An event against a flow at this edge (R137, R349). -/
def flowEvent (h : FabHdr) (port action : Nat) : FEvent :=
  { grade := 1, checker := checkerId 0x16 port, cls := cPort, sel := port, syn0 := flowSyn (hdrFlow h) h.gen, syn1 := h.seq,
    action := action, key := 52 }

/-- Links a packet into its list: delivery (R96, R133). -/
def State.deliver (s : State) (pk : Packet) : State := s.movePkt { pk with loc := .linked, linkedAt := s.now }

/-- Delivers held packets that follow in sequence. The first argument bounds them. -/
def State.deliverNext : Nat → State → RecvRec → State × RecvRec
  | 0, s, r => (s, r)
  | fuel + 1, s, r =>
    match r.held.find? (fun e => decide (e.1 = r.expected)) with
    | none => (s, r)
    | some e =>
      let s1 := match s.pkt e.2 with | some pk => s.deliver pk | none => s
      let birth := match s.pkt e.2 with | some pk => (pk.hdr.map (·.birth)).orElse (fun _ => r.lastBirth) | none => r.lastBirth
      State.deliverNext fuel s1 { r with
        expected := (r.expected + 1) % 16777216, lastBirth := birth, held := r.held.filter (fun x => decide (x ≠ e)) }

/-- End of a gap timer that starts now (R133, R136). -/
def State.gapEnd (s : State) : Option Nat := some (s.now + s.fld devGapLimitUs 0 * 1000)

/-- Discards held packets, counted as stale. -/
def State.dropHeldPkts (s : State) (dev : Nat) : List (Nat × Nat) → State
  | [] => s
  | e :: es => ((s.dropPkt e.2).peerCount dev 3).dropHeldPkts dev es

/-- A packet that needs a record or a slot and finds none stays in the buffer, unlinked; each such wait is counted once (R135). -/
def State.reorderWaits (s : State) (pk : Packet) (dev : Nat) : State :=
  if pk.loc = .reorderIn then (s.peerCount dev 5).setPkt { pk with loc := .reorderWait } else s

/-- Rows of Table 5-5 for a live record whose generation is the packet's. -/
def State.inSequence (s : State) (pk : Packet) (h : FabHdr) (r : RecvRec) : State :=
  let r := { r with lastAt := s.now }
  let d := (h.seq + 16777216 - r.expected) % 16777216
  let old := match r.lastBirth with | some l => decide (birthDiff h.birth l ≤ -2) | none => false
  if old || decide (8388608 ≤ d) || r.held.any (fun e => decide (e.1 = h.seq)) then ((s.dropPkt pk.id).peerCount h.srcDev 2).setRecv r
  else if d = 0 then
    let n := State.deliverNext (r.held.length + 1) (s.deliver pk) { r with
      expected := (r.expected + 1) % 16777216, lastBirth := some h.birth }
    n.1.setRecv { n.2 with gapDue := if n.2.held.isEmpty then none else s.gapEnd }
  else if 1572864 ≤ s.heldPackets then (s.reorderWaits pk h.srcDev).setRecv r
  else
    (s.setPkt { pk with loc := .reorderHeld }).setRecv { r with
      held := r.held ++ [(h.seq, pk.id)], gapDue := if r.gapDue.isSome then r.gapDue else s.gapEnd }

/-- `REORDER_PACKET_ARRIVAL` (R133): an ordered packet at its destination edge. -/
def execReorderPacketArrival (pkt : Nat) (s : State) : Host.Outcome State Fault Refusal :=
  match s.pkt pkt with
  | none => .next s
  | some pk =>
    match pk.hdr with
    | none => .next s
    | some h =>
      if !s.running || !(pk.loc = .reorderIn || pk.loc = .reorderWait) then .next s
      else match s.recvRec (hdrFlow h) with
        | none =>
          if h.birthValid && s.tideLocked && decide (10000000 < birthDiff (birthOf s.tide) h.birth * 1024) then
            .next (((s.dropPkt pkt).peerCount h.srcDev 3).raise (flowEvent h h.dstPort 15))
          else if 262144 ≤ s.fabric.recv.length then .next (s.reorderWaits pk h.srcDev)
          else .next (s.inSequence pk h ⟨hdrFlow h, h.gen, 0, none, [], none, s.now⟩)
        | some r =>
          if r.gen = h.gen then .next (s.inSequence pk h r)
          else if (match r.lastBirth with | some l => decide (0 < birthDiff h.birth l) | none => true) then
            .next ((s.dropHeldPkts h.srcDev r.held).inSequence pk h { r with gen := h.gen, expected := 0, held := [], gapDue := none })
          else .next (((s.dropPkt pkt).peerCount h.srcDev 3).setRecv { r with lastAt := s.now })

/-- Discards the held packets of a torn-down flow; a non-posted request gets Completer Abort (R137, R151). -/
def State.tearHeld (s : State) (dev : Nat) : List (Nat × Nat) → State
  | [] => s
  | e :: es =>
    let s1 := match s.pkt e.2 with
      | some pk => s.turnAway pk .completerAbort
      | none => s
    ((s1.dropPkt e.2).peerCount dev 3).tearHeld dev es

/-- The missing packet has arrived and is handled first (Table 5-11). -/
def State.gapFills (s : State) (r : RecvRec) : Bool :=
  s.core.pkts.any (fun k => k.loc = .reorderIn && (match k.hdr with
    | some h => decide (hdrFlow h = r.flow) && decide (h.gen = r.gen) && decide (h.seq = r.expected) | none => false))

/-- `GAP_TIMER_EXPIRY` (R137): the destination edge tears the flow down. -/
def execGapTimerExpiry (flow : FlowKey) (s : State) : Host.Outcome State Fault Refusal :=
  match s.recvRec flow with
  | none => .next s
  | some r =>
    if s.running && !s.gapFills r && (match r.gapDue with | some t => decide (t ≤ s.now) | none => false) then
      let s1 := { s with fabric := { s.fabric with recv := s.fabric.recv.filter (fun q => decide (q.flow ≠ flow)) } }
      let s2 := (s1.tearHeld flow.srcDev r.held).peerCount flow.srcDev 4
      .next ((s2.sendMsg flow.srcDev (.teardown ⟨flow.srcPort, flow.dstPort, flow.cls, r.gen⟩)).raise
        (pairEvent flow r.gen flow.dstPort 15))
    else .next s

/-- `RECEIVE_RECORD_SILENCE_FREE` (R133): Open, and no packet for 10 ms. -/
def execReceiveRecordSilenceFree (flow : FlowKey) (s : State) : Host.Outcome State Fault Refusal :=
  match s.recvRec flow with
  | none => .next s
  | some r =>
    .next (if s.running && r.held.isEmpty && decide (r.lastAt + 10000000 ≤ s.now) then
      { s with fabric := { s.fabric with recv := s.fabric.recv.filter (fun q => decide (q.flow ≠ flow)) } }
    else s)

/-- `TEARDOWN_RECEIVED` (R137, R138): at the source edge the send record closes, the flow's requests are aborted, and the pair is
contained. -/
def execTeardownReceived (dstDev : Nat) (m : TeardownMsg) (s : State) : Host.Outcome State Fault Refusal :=
  if !s.running then .next s
  else
    let f : FlowKey := ⟨s.fabricId, m.srcPort, dstDev, m.dstPort, m.cls⟩
    let s1 := { s with fabric := { s.fabric with
        send := s.fabric.send.filter (fun q => decide (q.flow ≠ f)) } }
    let s2 := s1.closeReqs .completerAbort (s1.openReqs.filter (fun r => r.inbound && decide (r.flow = f)))
    let s3 := (s2.discardAll (s2.cms.tracked.filter (fun t => decide (t.flow = f)))).peerCount dstDev 4
    .next (s3.raise (pairEvent f m.gen m.srcPort 4))

/-! ## Withdrawals (R140, R145) -/

/-- One entry of a WITHDRAW message that arrived on a port. -/
def State.withdrawEntry (s : State) (p : Nat) (e : WithdrawEntry) : State :=
  let x := (p, e.dev % 4096, e.level % 4)
  if e.restore then
    ({ s with fabric := { s.fabric with exclusions := s.fabric.exclusions.filter (fun y => decide (y ≠ x)) } } : State).restoreFound
  else if s.fabric.exclusions.contains x then s
  else
    let before := s.primaries
    ({ s with fabric := { s.fabric with exclusions := s.fabric.exclusions ++ [x] } } : State).withdrawLost before

/-- `WITHDRAW_MESSAGE_RECEIVED` (R140, R145): its entries are applied in order. -/
def execWithdrawMessageReceived (p : PortId) (entries : List WithdrawEntry) (s : State) : Host.Outcome State Fault Refusal :=
  .next (if s.fabricLink p.val && s.ql p.val = qlActive then entries.foldl (fun s e => s.withdrawEntry p.val e) s else s)

/-- `AUTO_RESTORE_EXPIRY` (R145): the link has run for `AutoRestoreMs`; a degraded one runs on. -/
def execAutoRestoreExpiry (p : PortId) (s : State) : Host.Outcome State Fault Refusal :=
  match s.fabric.restoring.find? (fun e => decide (e.1 = p.val)) with
  | none => .next s
  | some e =>
    if !s.fabricLink p.val || s.ql p.val ≠ qlActive || decide (s.now < e.2) then .next s
    else .next (if s.fld qlDegraded p.val = 1 then s.startRestore p.val else s.reinstatePort p.val)

/-! ## Completions (R146 to R150) -/

/-- `COMPLETION_RECEIVED` (R94, R146, R148): a completion, an NDR or a DRS on an edge link goes through the core to the original requester. -/
def execCompletionReceived (p : PortId) (c : CompletionIn) (s : State) : Host.Outcome State Fault Refusal :=
  .next (if packetWf c.image.length && s.takesPackets p.val && s.role p.val ≠ roleFabric && kindOf c.req = .completion then s.completionIn p.val c
    else s)

/-- `COMPLETION_TIMEOUT` (R319): the timer of a request sent onto a link. -/
def execCompletionTimeout (p : PortId) (tag : Nat) (s : State) : Host.Outcome State Fault Refusal :=
  match s.fabric.reqs.find? (fun r => decide (r.port = p.val) && !r.inbound && decide (r.tag = tag) && decide (r.due ≤ s.now)) with
  | none => .next s
  | some r =>
    if !s.running then .next s
    else
      let e : FEvent := { grade := 1, checker := checkerId 0x16 p.val, cls := cPort, sel := p.val, syn0 := r.requester * 65536 + r.origTag,
                          syn1 := s.fld portCplTimeoutMs p.val * 1000000, action := 0, key := 0 }
      let e := if r.slot < 16384 then { e with cls := cFunction, sel := homeSel r.slot } else e
      let s1 := if r.slot < 16384 then s.count (ctrId 0x06 8 r.slot 4) 1 else s
      .next ((s1.closeReq .completerAbort r).raise e)

/-- The data of a request is back at this device: it is delivered, though the limit has come (Table 5-11). -/
def State.dataBack (s : State) (r : ReqEntry) : Bool :=
  s.core.pkts.any (fun k => k.kind = .completion && decide (k.ingress ≠ 255) && decide (k.egress = r.port) && decide (k.tag = r.origTag)
    && decide (k.requester = r.requester))

/-- `REMOTE_CM_READ_TIMEOUT` (R150): no data for 50 µs. -/
def execRemoteCmReadTimeout (entry : Nat) (s : State) : Host.Outcome State Fault Refusal :=
  match s.openReqs.find? (fun r => decide (r.id = entry) && r.cm && decide (r.due ≤ s.now) && !s.dataBack r) with
  | none => .next s
  | some r =>
    .next (if s.running then
      (s.closeReq .completerAbort r).raise
        { grade := 1, checker := checkerId 0x16 r.port, cls := cPort, sel := r.port, syn0 := flowSyn r.flow r.gen, syn1 := 0, action := 0
          key := 52 }
    else s)

/-- `EDGE_LINK_DOWN_CLOSE` (R3, Table 5-10): a single-attached edge link goes down. -/
def execEdgeLinkDownClose (p : PortId) (s : State) : Host.Outcome State Fault Refusal :=
  .next (if s.running && s.lane0 p.val = p.val && s.edgeStands p.val then s.edgeLinkDown p.val 0 else s)

/-- `DELIVERY_RECEIVED` (R204): tracked writes of a flow up to a sequence number are visible. -/
def execDeliveryReceived (dstDev : Nat) (m : TeardownMsg) (latestSeq : Nat) (s : State) : Host.Outcome State Fault Refusal :=
  let f : FlowKey := ⟨s.fabricId, m.srcPort, dstDev, m.dstPort, m.cls⟩
  .next (if s.running then
    { s with cms := { s.cms with tracked := s.cms.tracked.filter (fun t =>
        !(decide (t.flow = f) && (match t.seq with
          | some q => decide ((latestSeq + 16777216 - q) % 16777216 < 8388608) | none => false))) } }
  else s)

/-! ## Messages of bindings (R149, R184, R314) -/

/-- `PRESENCE_MESSAGE_RECEIVED` (R149): applied to the virtual downstream port. -/
def execPresenceMessageReceived (m : PresenceMsg) (s : State) : Host.Outcome State Fault Refusal :=
  .next (if s.running && m.view.val < 96 then s.slotEvent m.view.val m.k m.kind else s)

/-- The logical device suits the function (R183). -/
def State.ldSuits (s : State) (sel ld : Nat) : Bool := if s.fld fnMld sel = 1 then ld < 16 else ld = 0xFF

/-- `BIND_NOTICE_RECEIVED` (R184): the home device matches and confirms, or counts a mismatch. -/
def execBindNoticeReceived (m : BindNotice) (s : State) : Host.Outcome State Fault Refusal :=
  if !s.running then .next s
  else
    let sel := homeSel m.slot.val
    let i := ldIndex m.ld
    let w := s.bindW sel i
    if (m.ld = 0xFF ∨ m.ld < 16) ∧ bBound w = true ∧ bSide w = 1 ∧ bView w = m.hostView ∧ bVport w = m.vport ∧ bTenant w = m.tenant
        ∧ s.ldSuits sel m.ld = true then
      let s1 := (s.put (fnMatched.up i) sel 1).put (fnViewDevice.up i) sel m.viewDev
      let s2 := { s1 with tenancy := { s1.tenancy with
          bindPort := tput 255 s1.tenancy.bindPort (m.slot.val * 32 + i) m.hostPort } }
      .next (s2.sendMsg m.viewDev (.bindConfirm ⟨m.slot, m.ld, s.fld fnPort sel, s.fld fnState sel⟩))
    else
      .next ((s.count (ctrId 0x06 8 m.slot.val 6) 1).raise
        { grade := 0, checker := checkerId 0x16 0xFF, cls := cFunction, sel := sel, syn0 := 0, syn1 := 0, action := 15, key := 0 })

/-- `BIND_CONFIRM_RECEIVED` (R184): the view-side record is `Matched`, and holds the home device's port. -/
def execBindConfirmReceived (homeDev : Nat) (m : BindConfirm) (s : State) : Host.Outcome State Fault Refusal :=
  let sel := homeDev % 4096 * 65536 + m.slot.val
  let i := ldIndex m.ld
  let w := s.bindW sel i
  if s.running && (m.ld = 0xFF || decide (m.ld < 16)) && bBound w && decide (homeDev % 4096 ≠ s.fabricId) then
    let s1 := (s.put (fnMatched.up i) sel 1).put fnPort sel m.port
    .next (if m.fnState = 1 then s1.slotEvent (bView w) (bVport w) (.presence true) else s1)
  else .next s

/-- `BIND_RESET_RECEIVED` (R314): the home device resets the binding. -/
def execBindResetReceived (m : BindResetMsg) (s : State) : Host.Outcome State Fault Refusal :=
  let sel := homeSel m.slot.val
  let i := ldIndex m.ld
  let w := s.bindW sel i
  .next (if s.running && (m.ld = 0xFF || decide (m.ld < 16)) && bBound w && bMatched w && decide (bView w = m.hostView)
      && decide (bViewDev w = m.viewDev) then
    s.bindingReset m.hostView sel i
  else s)

end Sys2Proof.Machine
end

