-- ==== Sys2Proof/Machine/TenancyRows.lean ====
section
/-! DEFINITION. Tenants and functions (R174, R190, R192): resets, removal and enumeration. -/

namespace Sys2Proof.Machine

/-! ## Tenant reset (R190) -/

/-- Bound words of home records that name a tenant: slot and word. -/
def State.tenantBindings (s : State) (t : Nat) : List (Nat × Nat) :=
  ((s.selsOf cFunction).filter isHome).flatMap (fun sel =>
    ((s.boundOf sel).filter (fun i => decide (bTenant (s.bindW sel i) = t))).map (fun i => (sel % 65536, i)))

/-- Issues the reset of one function or logical device of a tenant: entries closed, generation raised (R190 step 1). -/
def State.issueReset (s : State) (t slot i : Nat) : State :=
  let ld := bLd (s.bindW (homeSel slot) i)
  if h : slot < 16384 then
    let s1 := ((s.emit (.flr slot ld)).closeFn slot ld).bumpGen (homeSel slot) i
    { s1 with tenancy := { s1.tenancy with
        flrs := s1.tenancy.flrs ++ [⟨⟨slot, h⟩, ld, t, s.now + 100000000, s.now + 1000000000⟩] } }
  else s

/-- Issues a list of resets. -/
def State.issueResets (s : State) (t : Nat) : List (Nat × Nat) → State
  | [] => s
  | e :: es => (s.issueReset t e.1 e.2).issueResets t es

/-- Views whose host acts for a tenant. -/
def State.viewsOwned (s : State) (t : Nat) : List Nat := s.viewsOpen.filter (fun v => decide (s.fld viewOwnerTenant v = t))

/-- A tenant reset begins (R190): `State` 3, functions, queue pairs, and the buffered stores of its views (Table 8-5). -/
def State.tenantResetStart (s : State) (t : TenantId) (prog : Nat) : State :=
  let prev := s.fld tenState t.val
  let s1 := (s.put tenState t.val 3).issueResets t.val (s.tenantBindings t.val)
  let s2 := (s1.qpsUsed.filter (fun q => decide (s1.fld qpTenantId q = t.val))).foldl (fun s q => s.qpToError q) s1
  let s3 := (s2.viewsOwned t.val).foldl (fun s v => if h : v < 96 then s.cmViewReset ⟨v, h⟩ else s) s2
  { s3 with tenancy := { s3.tenancy with resets := s3.tenancy.resets ++ [⟨t, prev, prog, false⟩] } }

/-- The reset of a function or logical device is complete. -/
def State.resetDone (s : State) (g : GateSlot) (ld : Nat) : State :=
  { s with tenancy := { s.tenancy with flrs := s.tenancy.flrs.filter (fun f => !(decide (f.slot = g) && decide (f.ld = ld))) } }

/-- `FLR_COMPLETION_POLL` (R190): a Vendor ID read from 100 ms on; a successful completion ends the wait. -/
def execFlrCompletionPoll (g : GateSlot) (success : Bool) (s : State) : Host.Outcome State Fault Refusal :=
  .next (if s.running && success && s.tenancy.flrs.any (fun f => decide (f.slot = g) && decide (f.ld = 0xFF) && decide (f.readAt ≤ s.now)) then
    s.resetDone g 0xFF
  else s)

/-- `LOGICAL_DEVICE_RESET_COMPLETE` (R190). -/
def execLogicalDeviceResetComplete (g : GateSlot) (ld : Fin 16) (s : State) : Host.Outcome State Fault Refusal :=
  .next (if s.running && s.tenancy.flrs.any (fun f => decide (f.slot = g) && decide (f.ld = ld.val)) then s.resetDone g ld.val else s)

/-- `FLR_TIMEOUT` (R190): 1,000 ms after the issue the function is contained at Grade 1, and the tenant reset fails. -/
def execFlrTimeout (g : GateSlot) (ld : Nat) (s : State) : Host.Outcome State Fault Refusal :=
  match s.tenancy.flrs.find? (fun f => decide (f.slot = g) && decide (f.ld = ld) && decide (f.deadline ≤ s.now)) with
  | none => .next s
  | some f =>
    if !s.running then .next s
    else
      let s1 := s.resetDone g ld
      let s2 := { s1 with tenancy := { s1.tenancy with
          resets := s1.tenancy.resets.map (fun (r : TenReset) => if r.tenant.val = f.tenant then { r with failed := true } else r) } }
      let r := s2.record { grade := 1, checker := checkerId 0x16 (s2.fld fnPort (homeSel g.val)), cls := cFunction, sel := homeSel g.val,
                           syn0 := ld, syn1 := 1000000000, action := 2, key := 8 }
      .next (r.1.containFn r.2.1 g.val ld)

/-! ## Removal and enumeration (R181, R192) -/

/-- One function of a port that lost presence (R192). -/
def State.fnRemoved (s : State) (p slot : Nat) : State :=
  let sel := homeSel slot
  let s1 := (s.put fnState sel 2).raise
    { grade := 1, checker := checkerId 0x16 p, cls := cFunction, sel := sel, syn0 := 0, syn1 := 0, action := 2, key := 0 }
  ((s1.closeFn slot 0xFF).bumpGens sel).tellViews slot (.presence false)

/-- The slots of a device port start their retry counts anew (R192). -/
def State.retriesAnew (s : State) (p : Nat) : List Nat → State
  | [] => s
  | n :: ns => (if s.fld slotPort n = p then s.put slotRetryCount n 0 else s).retriesAnew p ns

/-- `DEVICE_PORT_PRESENCE_LOSS` (R192). -/
def execDevicePortPresenceLoss (p : PortId) (s : State) : Host.Outcome State Fault Refusal :=
  .next (if s.running && s.role p.val = roleDevice then
    (((s.fnsBelow p.val).filter (fun f => s.fld fnState (homeSel f) = 1)).foldl (fun s f => s.fnRemoved p.val f) s).retriesAnew p.val allSlots
  else s)

/-- Takes the identity that enumeration found at a slot. -/
def State.fnTakes (s : State) (p slot bus devfn : Nat) (f : FnIdent) : State :=
  let sel := homeSel slot
  ((((s.put fnVendorId sel f.vendor).put fnDeviceId sel f.device).put fnPort sel p).put fnRoutingId sel (bus * 256 + devfn)).put fnMld sel
    (bit f.mld)

/-- The extents of a function's BARs, as enumeration found them (R188; log entry 94). -/
def State.barsFound (s : State) (slot : Nat) : Nat → List Nat → State
  | _, [] => s
  | i, n :: ns =>
    ({ s with tenancy := { s.tenancy with bars := tput 0 s.tenancy.bars (slot * 8 + i) n } } : State).barsFound slot (i + 1) ns

/-- The containments of a function that has come back, and of its logical devices, are lifted (R192). -/
def State.fnLift (s : State) (slot : Nat) : State :=
  (List.range 16).foldl (fun s ld => s.exitOf (.logical slot ld)) (s.exitOf (.obj cFunction (homeSel slot)))

/-- Identifiers that wait for a release are forgotten. -/
def State.forgetIds (s : State) (slot : Nat) : State :=
  { s with tenancy := { s.tenancy with newIds := s.tenancy.newIds.filter (fun e => decide (e.1 ≠ slot)) } }

/-- What enumeration finds at a gate slot (R192): the same function again, another one, one where there was none, or none any more. -/
def State.enumerated (s : State) (p slot bus devfn : Nat) (found : Option FnIdent) : State :=
  let sel := homeSel slot
  let st := s.fld fnState sel
  match found with
  | none => if st = 2 then (s.put fnState sel 0).forgetIds slot else s
  | some f =>
    let s0 := s.barsFound slot 0 (f.bars.take 6)
    if st = 2 then
      if s.fld fnVendorId sel = f.vendor % 65536 ∧ s.fld fnDeviceId sel = f.device % 65536 then
        (((s0.put fnState sel 1).forgetIds slot).fnLift slot).tellViews slot (.presence true)
      else
        { s0 with tenancy := { s0.tenancy with newIds := (s0.forgetIds slot).tenancy.newIds ++ [(slot, f.vendor % 65536, f.device % 65536)] } }
    else if st = 0 then ((s0.fnTakes p slot bus devfn f).put fnState sel 1).tellViews slot (.presence true)
    else s

/-- `FUNCTION_ENUMERATED` (R181, R192): what stands at a bus and device-function number below a device port. A function beyond the port's slots is not
exposed. -/
def execFunctionEnumerated (p : PortId) (bus devfn : Nat) (found : Option FnIdent) (s : State) : Host.Outcome State Fault Refusal :=
  let off := (bus - 1) * 256 + devfn % 256
  if !s.running || s.role p.val ≠ roleDevice || s.lane0 p.val ≠ p.val || !s.edgeLinkUp p.val || bus = 0 then .next s
  else if s.fld portSlotCount p.val ≤ off then
    .next (match found with
      | none => s
      | some _ => s.raise { grade := 0, checker := checkerId 0x16 p.val, cls := cPort, sel := p.val, syn0 := bus * 256 + devfn % 256
                            syn1 := 0, action := 0, key := 0 })
  else .next (s.enumerated p.val (s.fld portSlotBase p.val + off) bus (devfn % 256) found)

end Sys2Proof.Machine
end

