-- ==== Sys2Proof/Machine/Hosts.lean ====
section
/-! DEFINITION. Host and device ports and the functions of a view (R303 to R324). -/

namespace Sys2Proof.Machine

/-! ## PERST_N and links (R306, R315, R323) -/

/-- `PERST_N_CHANGE` (R306): a rise lets host ports train; a fall acts as a link down on each. -/
def execPerstNChange (level : Bool) (s : State) : Host.Outcome State Fault Refusal :=
  if s.power.perstN = level then .next s
  else
    let s1 := ({ s with power := { s.power with perstN := level } } : State).showHosts
    .next (if level then s1 else s1.hostsDown allPorts)

/-- A host port may enter Detect: PERST_N and DEV_READY are high and a view names it (R306). -/
def State.hostMayDetect (s : State) (p : Nat) : Bool := s.hostsMayTrain && (s.viewOfPort p).isSome && s.portEnabled p

/-- `HOST_PORT_DETECT` (R306). -/
def execHostPortDetect (p : PortId) (s : State) : Host.Outcome State Fault Refusal :=
  .next (if s.role p.val = roleHost && s.lane0 p.val = p.val && s.hostMayDetect p.val && s.fld portLinkState p.val = 0 then
    s.edgeDetect p.val
  else s)

/-- What a link that trains may settle on: within `MaxRate`, `Width` and `CxlEnable`, FLIT mode at 64 and 128 GT/s alone (Table 12-1). -/
def State.settles (s : State) (p rate width : Nat) (flit cxlMem : Bool) : Bool :=
  decide (rate ≤ s.fld portMaxRate p) && decide (width ≤ s.cfgWidth p) && flit = decide (5 ≤ rate)
  && (!cxlMem || s.fld portCxlEnable p = 1)

/-- A link may reach L0 from its state: a host link where it may train. L2 ends so too (R324). -/
def State.mayReachL0 (s : State) (p : Nat) : Bool :=
  let l := s.fld portLinkState p
  s.running && s.lane0 p = p && s.portEnabled p && !((s.edgeLanes p).any (fun x => s.lanes.waiting.contains x))
  && (l ≤ 2 || l = 5 || l = 7 || l = 9)
  && (s.role p = roleDevice || (s.role p = roleHost && s.hostMayDetect p))

/-- The first lanes of a link at a width code. -/
def State.lanesOfWidth (s : State) (p w : Nat) : List Nat := (s.edgeLanes p).take (streamsOf w)

/-- A lane carries stream `i` of an edge link (R297). The equalisation procedure of PCI Express sets its taps (R288), which the spec gives
no values for: they are free within the ranges of Table 11-5 (log entry 86). -/
def State.edgeLaneUp (s : State) (rate l i : Nat) : State :=
  let keep := fun x => x = 5 || x = 6 || x = 4
  let v := s.freeVal.toNat
  let pre := v % 17
  let post := v / 32 % (min 24 (28 - pre) + 1)
  let s1 := if keep (s.lfld laneRxState l) then s.draw else s.draw.lput laneRxState l 2
  let s2 := if keep (s.lfld laneTxState l) then s1 else s1.lput laneTxState l 2
  let s3 := (((s2.lput laneRxStream l i).lput laneTxStream l i).lput laneLocked l 1).lput laneRateCode l rate
  ((((s3.lput laneTxPre l pre).lput laneTxPost l post).lput laneTxMain l (64 - pre - post)).lput laneCtleCode l (v / 1024 % 32)).lput
    laneDfeTap1 l (v / 32768 % 256)

/-- The lanes of an edge link that reaches L0, stream by stream. -/
def State.edgeLanesUp (s : State) (rate i : Nat) : List Nat → State
  | [] => s
  | l :: ls => (s.edgeLaneUp rate l i).edgeLanesUp rate (i + 1) ls

/-- The status fields of a link in L0 (Table 12-2). -/
def State.showL0 (s : State) (p rate width : Nat) (flit cxlMem : Bool) : State :=
  let s1 := ((s.put portLinkState p 3).put portDllActive p 1).put portFlitMode p (bit flit)
  let s2 := ((((s1.put portCxlMem p (bit cxlMem)).put portNegRate p rate).put portNegWidth p width).put portL1Sub p 0).edgeLanesUp rate 0
    (s.lanesOfWidth p width)
  { s2 with pcie := { s2.pcie with trainedWidth := tput 0 s2.pcie.trainedWidth p width } }

/-- `LINK_UP_L0` (R315): a link reaches L0. It leaves a containment of its port (Table 14-5); after L2 its view is reset (R324); below a
device port every view sees the virtual link active. -/
def execLinkUpL0 (p : PortId) (rate width : Nat) (flit cxlMem : Bool) (s : State) : Host.Outcome State Fault Refusal :=
  if !(s.mayReachL0 p.val && s.settles p.val rate width flit cxlMem) then .next s
  else
    let s1 := (s.showL0 p.val rate width flit cxlMem).linkReturned p.val
    if s.role p.val = roleDevice then .next ((s1.fnsBelow p.val).foldl (fun s f => s.tellViews f (.dll true)) s1)
    else match s.viewOfPort p.val with
      | none => .next s1
      | some v => .next (if h : v < 96 then (if s.pcie.inL2.contains v then s1.viewReset ⟨v, h⟩ p.val false else s1) else s1)

/-- Lanes return their grants. -/
def State.dropGrants (s : State) (ls : List Nat) : State := ls.foldl (fun s l => s.setLaneRun { s.laneRun l with granted := false }) s

/-- `L1_EXIT` (R323): the lanes take grants anew; the link enters Recovery, from which it reaches L0. -/
def execL1Exit (p : PortId) (s : State) : Host.Outcome State Fault Refusal :=
  .next (if s.running && s.lane0 p.val = p.val && (s.role p.val = roleHost || s.role p.val = roleDevice) && s.fld portLinkState p.val = 6 then
    ((((s.put portLinkState p.val 5).put portL1Sub p.val 0).addSat portRetrainCount p.val 1).dropGrants (s.edgeLanes p.val)).askGrants
      (s.edgeLanes p.val)
  else s)

/-- A register of the upstream port of the view whose host link port `p` is (R305): its link control registers hold what the host set for ASPM and
L0p (log entry 82). -/
def State.hostCtl (s : State) (p r : Nat) : Nat :=
  match s.viewOfPort p with
  | none => 0
  | some v => s.cfgReg v (fnKey .upstream) (Config.capReg r)

/-- Where L0p takes a link of width code `w` (R323): a device port's halves below 25% of its capacity over the last 16 µs and doubles above 50%; a
host port's moves to the target width that the host set, when the host enabled L0p (bits 4 and 7:5; log entry 82). -/
def State.l0pWish (s : State) (p w utilPercent : Nat) : Nat :=
  if s.role p = roleDevice then
    (if s.fld portL0pEnable p ≠ 1 then w else if utilPercent < 25 then w - 1 else if 50 < utilPercent then w + 1 else w)
  else
    let c := s.hostCtl p 7
    if c / 16 % 2 = 0 then w else if c / 32 % 8 < w then w - 1 else if w < c / 32 % 8 then w + 1 else w

/-- `L0P_WIDTH_CHANGE` (R323): the width halves at once and never below ×1; it doubles, up to the width that training gave, once each lane has its
grant, and traffic goes on at the narrow width meanwhile. -/
def execL0pWidthChange (p : PortId) (utilPercent : Nat) (s : State) : Host.Outcome State Fault Refusal :=
  let l := s.fld portLinkState p.val
  let w := s.fld portNegWidth p.val
  let wish := s.l0pWish p.val w utilPercent
  let full := tget 0 s.pcie.trainedWidth p.val
  .next (if !(s.running && s.lane0 p.val = p.val && (s.role p.val = roleHost || s.role p.val = roleDevice) && (l = 3 || l = 4)) then s
    else if wish < w then
      ((s.put portNegWidth p.val wish).put portLinkState p.val 4).dropGrants ((s.lanesOfWidth p.val w).drop (streamsOf wish))
    else if w < wish ∧ w < full then
      (if (s.lanesOfWidth p.val wish).all (fun x => (s.laneRun x).granted) then
        (s.put portNegWidth p.val wish).put portLinkState p.val (if wish = full then 3 else 4)
      else s.askGrants (s.lanesOfWidth p.val wish))
    else s)

/-- ASPM L1 is enabled on an edge link: by its port's image at a device port, by the host at a host port (R305). -/
def State.aspmOn (s : State) (p : Nat) : Bool :=
  if s.role p = roleDevice then s.fld portAspmL1 p = 1 else s.role p = roleHost && s.hostCtl p 6 / 2 % 2 = 1

/-- The L1 substate that an edge link may reach: L1.2, L1.1 or L1.0 (Table 12-2). The host's own settings have bits 2 and 3 of its register
(log entry 82). -/
def State.l1Depth (s : State) (p : Nat) : Nat :=
  if s.role p = roleDevice then (if s.fld portL12Enable p = 1 then 2 else if s.fld portL11Enable p = 1 then 1 else 0)
  else (if s.hostCtl p 8 / 4 % 2 = 1 then 2 else if s.hostCtl p 8 / 8 % 2 = 1 then 1 else 0)

/-- An edge link has nothing to send. -/
def State.edgeIdle (s : State) (p : Nat) : Bool := s.core.pkts.all (fun k => !(decide (k.egress = p) && (k.loc = .linked || k.loc = .leaving)))

/-- An edge link with ASPM L1 enabled and nothing to send may enter L1 in any nanosecond: when it does is settled with its link partner by PCI
Express, and free here (Table 12-1; log entry 82). -/
def State.entersL1 (s : State) (p : Nat) : State :=
  let l := s.fld portLinkState p
  if s.lane0 p = p && (l = 3 || l = 4) && s.aspmOn p && s.edgeIdle p && Config.l1Entry p s.now then
    (s.put portLinkState p 6).put portL1Sub p (s.l1Depth p)
  else s

/-- L1 entries of one nanosecond. -/
def State.l1Tick (s : State) : State :=
  if s.running then allPorts.foldl (fun s p => s.entersL1 p) s else s

/-! ## Resets (R313, R314, R324) -/

/-- A function of the view exists (R307, R309). -/
def State.fnExists (s : State) (v : Nat) : ViewFn → Bool
  | .lighterVf t => decide (t.val ≠ 0) && (s.fld tenState t.val = 1 || s.fld tenState t.val = 2) && decide (s.fld tenHomeView t.val = v)
  | _ => true

/-- `HOST_LINK_DOWN_VIEW_RESET` (R314): a hot reset or link down of a host port. -/
def execHostLinkDownViewReset (p : PortId) (s : State) : Host.Outcome State Fault Refusal :=
  .next (if s.running && s.role p.val = roleHost && s.lane0 p.val = p.val && s.edgeStands p.val then s.hostLinkDown p.val 0 else s)

/-- The effect of a function-level reset (Table 12-7), with the function's configuration registers at their defaults. -/
def State.fnReset (s : State) (v : ViewId) (f : ViewFn) : State :=
  let s1 := s.cfgClear v.val (fnKey f)
  match f with
  | .upstream => s
  | .management => s1.mgmtReset v
  | .lighterPf => s1.ltPfReset v.val
  | .lighterVf t => s1.ltVfReset t.val

/-- `FUNCTION_LEVEL_RESET` (R313): bridges have none. -/
def execFunctionLevelReset (v : ViewId) (f : ViewFn) (s : State) : Host.Outcome State Fault Refusal :=
  if s.viewLive v.val && s.fnExists v.val f && f ≠ .upstream then
    let s1 := s.fnReset v f
    .next { s1 with pcie := { s1.pcie with
        resets := s1.pcie.resets.filter (fun r => !(decide (r.view = v.val) && decide (r.fn = f))) ++ [⟨v.val, f, s.now + 2000000⟩] } }
  else .next s

/-- `FLR_END` (R313): within 2 ms. -/
def execFlrEnd (v : ViewId) (f : ViewFn) (s : State) : Host.Outcome State Fault Refusal :=
  .next (if s.fnResetting v.val f then
    { s with pcie := { s.pcie with resets := s.pcie.resets.filter (fun r => !(decide (r.view = v.val) && decide (r.fn = f))) } }
  else s)

/-- `SECONDARY_BUS_RESET` (R314): only what is bound behind the virtual port. -/
def execSecondaryBusReset (v : ViewId) (k : Fin 256) (s : State) : Host.Outcome State Fault Refusal :=
  match s.vportBinding v.val k.val with
  | none => .next s
  | some e => .next (if s.viewLive v.val then s.bindingReset v.val e.1 e.2 else s)

/-- `PME_TURN_OFF` (R324): the held stores drain, PME_TO_Ack answers, and the host link enters L2, its view's state kept. -/
def execPmeTurnOff (v : ViewId) (s : State) : Host.Outcome State Fault Refusal :=
  if s.viewLive v.val then
    let s1 := (s.drainBuffer v).emit (.pmeToAck v.val)
    let p := s.portOfView v.val
    let s2 := (s1.put portLinkState p 7).put portDllActive p 0
    .next { s2 with pcie := { s2.pcie with inL2 := s2.pcie.inL2.filter (fun w => decide (w ≠ v.val)) ++ [v.val] } }
  else .next s

/-! ## DPC (R316) -/

/-- The device port of a binding of this device, or the view's host port for one that another device holds. -/
def State.dpcPort (s : State) (v sel : Nat) : Nat := if isHome sel then s.base fnPort sel else s.portOfView v

/-- What DPC contains behind a binding. -/
def dpcTarget (sel ld : Nat) : ContTarget :=
  if isHome sel then (if ld = 0xFF then .obj cFunction sel else .logical (sel % 65536) ld)
  else if ld = 0xFF then .obj cFunction sel else .logical sel ld

/-- Entries that concern what is bound: by its slot here, or sent toward it across the fabric from the view's port. -/
def State.dpcReqs (s : State) (v sel ld : Nat) : List ReqEntry :=
  if isHome sel then s.fnReqs (sel % 65536) ld
  else s.openReqs.filter (fun r => r.inbound && decide (r.port = s.portOfView v) && decide (r.far = sel) && decide (r.ld = ld))

/-- `DPC_TRIGGER` (R316): contained at Grade 1 without AER, entries closed, posted requests to it discarded, the virtual link down. -/
def execDpcTrigger (v : ViewId) (k : Fin 256) (useUr : Bool) (s : State) : Host.Outcome State Fault Refusal :=
  match s.vportBinding v.val k.val with
  | none => .next s
  | some e =>
    if !s.viewLive v.val || s.inDpc v.val k.val then .next s
    else
      let ld := bLd (s.bindW e.1 e.2)
      let t := dpcTarget e.1 ld
      let r := s.record { grade := 1, checker := checkerId 0x16 (s.dpcPort v.val e.1), cls := cFunction, sel := e.1, syn0 := k.val
                          syn1 := v.val, action := 2, key := 8 }
      let own := !r.1.faults.contained.contains (r.2.1, t)
      let s1 := (r.1.contain r.2.1 t).closeReqs (if useUr then .unsupportedRequest else .completerAbort) (s.dpcReqs v.val e.1 ld)
      let dev := if isHome e.1 then s.fabricId else e.1 / 65536
      let s2 := s1.discardAll (s1.cms.tracked.filter (fun (x : Tracked) => x.goesTo dev (e.1 % 65536) ld))
      let s3 : State := { s2 with pcie := { s2.pcie with dpcs := s2.pcie.dpcs ++ [⟨v.val, k.val, if own then r.2.1 else 0, e.1, e.2⟩] } }
      .next (s3.slotEvent v.val k.val (.dll false))

/-- The virtual link of a binding may show active: its device port's data link layer is (R315). -/
def State.dllOf (s : State) (sel : Nat) : Bool := !isHome sel || s.fld portDllActive (s.base fnPort sel) = 1

/-- `DPC_RELEASE` (R316): the function is reset, the containment of the DPC alone is lifted, the virtual link shows up. -/
def execDpcRelease (v : ViewId) (k : Fin 256) (s : State) : Host.Outcome State Fault Refusal :=
  match s.pcie.dpcs.find? (fun d => decide (d.view = v.val) && decide (d.k = k.val)) with
  | none => .next s
  | some d =>
    if !s.viewLive v.val then .next s
    else
      let s1 := s.bindingReset v.val d.sel d.word
      let t := dpcTarget d.sel (bLd (s.bindW d.sel d.word))
      let s2 := s1.uncontain (fun c => decide (c.1 = d.recId) && decide (c.2 = t))
      let s3 : State := { s2 with
        faults := { s2.faults with recs := closeRec d.recId s2.faults.recs }
        pcie := { s2.pcie with dpcs := s2.pcie.dpcs.filter (fun x => decide (x ≠ d)) } }
      .next (if s3.dllOf d.sel then s3.notify.slotEvent v.val k.val (.dll true) else s3.notify)

/-! ## Configuration (R307 to R310) -/

/-- Device ID, class code and header type of the EB9144's own functions (Table 12-3). -/
def cfgIdent : ViewFn → Nat × Nat × Nat
  | .upstream => (0x9145, 0x060400, 1)
  | .management => (0x9144, 0x058000, 0)
  | .lighterPf => (0x914A, 0x020700, 0)
  | .lighterVf _ => (0x914B, 0x020700, 0)

/-- Bits `lo` to `lo + w - 1` of a register replaced. -/
def putBits (n lo w x : Nat) : Nat := n - n / 2 ^ lo % 2 ^ w * 2 ^ lo + x % 2 ^ w * 2 ^ lo

/-- Slot Status of a virtual port (R315), at the bits that PCI Express gives them (PRESUMED, log entry 110). -/
def VSlot.status (x : VSlot) : Nat := bit x.attention + 8 * bit x.presenceChanged + 64 * bit x.present + 256 * bit x.activeChanged

/-- A write of 1 clears the changes and the attention of a slot. -/
def VSlot.clear (x : VSlot) (w : Nat) : VSlot :=
  { x with
    attention := x.attention && w % 2 = 0, presenceChanged := x.presenceChanged && w / 8 % 2 = 0
    activeChanged := x.activeChanged && w / 256 % 2 = 0 }

/-- The slot that a virtual port shows, by its function number. -/
def State.vslot (s : State) (v fn : Nat) : VSlot := tget .empty s.pcie.vslots (v * 256 + (fn - 16384))

/-- What R307, R308, R315 and R323 fix of a function's capabilities: slot, link, SR-IOV and MSI-X registers, laid out as PCI Express lays them out
(PRESUMED, log entry 110). -/
def State.cfgCaps (s : State) (v fn devId reg n : Nat) : Nat :=
  let is := fun (r : Nat) => decide (reg = Config.capReg r)
  if devId = 0x9146 ∧ is 9 = true then putBits (putBits n 0 7 0x61) 18 1 1
  else if devId = 0x9146 ∧ is 3 = true then putBits n 16 16 (s.vslot v fn).status
  else if devId = 0x9146 ∧ is 10 = true then putBits n 29 1 (bit (s.vslot v fn).active)
  else if (devId = 0x9145 ∨ devId = 0x9146) ∧ is 15 = true then putBits n 15 3 6
  else if devId = 0x9144 ∧ is 11 = true then putBits n 16 16 8191
  else if devId = 0x9144 ∧ is 12 = true then 2 + 65536
  else if devId = 0x9144 ∧ is 13 = true then putBits n 16 16 0x914B
  else if devId = 0x9144 ∧ is 14 = true then putBits n 16 11 3
  else if (devId = 0x914A ∨ devId = 0x914B) ∧ is 14 = true then putBits n 16 11 2047
  else n

/-- Capabilities of a function in a view (Table 12-4). -/
inductive Capability where
  | pm | msi (vectors : Nat) | msix (vectors : Nat) | pciExpress | aer | ari | secondaryPcie | dataLinkFeature | phys16 | phys32 | phys64
  | margining | flitLogging | cxlDvsec | acs | dpc | sriov | ats | pasid | ptm
  deriving DecidableEq, Repr

/-- The capabilities of the view's own functions, and no others (Table 12-4); `cxl` is `CxlEnable` of the host port. -/
def fnCaps (cxl : Bool) : ViewFn → List Capability
  | .upstream => [.pm, .pciExpress, .aer, .ari, .secondaryPcie, .dataLinkFeature, .phys16, .phys32, .phys64, .margining, .flitLogging]
      ++ (if cxl then [.cxlDvsec] else [])
  | .management => [.pm, .msix 4, .pciExpress, .aer, .ari, .sriov, .ats, .pasid, .ptm]
  | .lighterPf => [.pm, .msix 2048, .pciExpress, .aer, .ari, .ats, .pasid]
  | .lighterVf _ => [.msix 2048, .pciExpress, .ari, .ats]

/-- The capabilities of a virtual downstream port (Table 12-4); `ld` says that it holds a logical device. -/
def vportCaps (ld : Bool) : List Capability := [.pm, .msi 1, .pciExpress, .aer, .acs, .dpc] ++ (if ld then [.cxlDvsec] else [])

/-- A configuration register as its host reads it: vendor and device ID, class and revision, header type and subsystem vendor as Table
12-3 sets them, those of `cfgCaps`, and any other as capReg's log entry says. -/
def State.cfgRead (s : State) (v fn : Nat) (ident : Nat × Nat × Nat) (reg : Nat) : BitVec 32 :=
  let raw := match tget none s.cfg (cfgKey v fn reg) with
    | some n => Config.cfgSeen (cfgKey 0 fn reg) (BitVec.ofNat 32 n)
    | none => Config.cfgReset (cfgKey 0 fn reg)
  let n := raw.toNat
  if reg = 0 then BitVec.ofNat 32 (ident.1 * 65536 + 0x1D4E)
  else if reg = 2 then BitVec.ofNat 32 (ident.2.1 * 256 + 0xA1)
  else if reg = 3 then BitVec.ofNat 32 (n - n / 65536 % 128 * 65536 + ident.2.2 * 65536)
  else if reg = 11 ∧ ident.2.2 = 0 then BitVec.ofNat 32 (n - n % 65536 + 0x1D4E)
  else BitVec.ofNat 32 (s.cfgCaps v fn ident.1 reg n)

/-- A configuration write to a function of the view. -/
def State.cfgWrite (s : State) (v fn reg : Nat) (w : BitVec 32) : State :=
  { s with cfg := tput none s.cfg (cfgKey v fn reg) (some w.toNat) }

/-- A register number of configuration space. -/
def cfgReg1024 (reg : Nat) : Nat := reg % 1024

/-- A request to one of the EB9144's own functions or to a virtual downstream port, as `fn` numbers it. A write of D3hot to the
management function first drains its held stores (Table 8-5); one to a virtual port's Slot Status clears what it names. -/
def State.cfgOwn (s : State) (v : ViewId) (fn : Nat) (ident : Nat × Nat × Nat) (c : CfgReq) : State :=
  let reg := cfgReg1024 c.reg
  if c.write then
    let s1 := if fn = fnKey .management ∧ reg = Config.capReg 5 ∧ c.value.toNat % 4 = 3 then s.drainBuffer v else s
    let s2 := if ident.1 = 0x9146 ∧ reg = Config.capReg 3 then
        { s1 with pcie := { s1.pcie with
            vslots := tput .empty s1.pcie.vslots (v.val * 256 + (fn - 16384)) ((s1.vslot v.val fn).clear (c.value.toNat / 65536)) } }
      else s1
    (s2.cfgWrite v.val fn reg c.value).hostReply v.val c.tag .config .success []
  else s.hostReply v.val c.tag .config .success (leBytes 4 (s.cfgRead v.val fn ident reg).toNat)

/-- Function number of what is bound behind virtual port `k`, for the BAR values kept per view (R310). -/
def boundFn (k : Nat) : Nat := 20480 + k

/-- BAR values are kept per view for this binding: `IdeDirect` of its device port is 0. For a binding that another device holds they
always are. -/
def State.keepsBars (s : State) (sel : Nat) : Bool := !isHome sel || s.fld portIdeDirect (s.base fnPort sel) = 0

/-- A configuration request as a packet of the view's host: its data, if any, behind the header that PCI Express lays out (log entry 1). -/
def State.cfgPacket (s : State) (k : Nat) (c : CfgReq) : PacketIn :=
  { kind := .nonPosted, req := .config, image := s.tlpHead 12 ++ (if c.write then leBytes 4 c.value.toNat else [])
    status := .success, poison := false, tc := 0, target := .vport k 0 (cfgReg1024 c.reg * 4) 4, requester := 0,
    tag := c.tag, slot := 16384, ld := 0xFF, view := 0x7F, ecrcBad := false, ide := false, hdr := none, written := 1, dests := [] }

/-- A request to the function bound behind a virtual port (R310): the BARs are the view's own; everything else is forwarded. -/
def State.cfgBound (s : State) (v : ViewId) (k : Nat) (e : Nat × Nat) (c : CfgReq) : State :=
  let reg := cfgReg1024 c.reg
  if 4 ≤ reg ∧ reg ≤ 9 ∧ s.keepsBars e.1 = true then
    if c.write then (s.cfgWrite v.val (boundFn k) reg c.value).hostReply v.val c.tag .config .success []
    else s.hostReply v.val c.tag .config .success (leBytes 4
      (match tget none s.cfg (cfgKey v.val (boundFn k) reg) with
        | some n => Config.cfgSeen (cfgKey 0 (boundFn k) reg) (BitVec.ofNat 32 n)
        | none => Config.cfgReset (cfgKey 0 (boundFn k) reg)).toNat)
  else
    match s.draw.fromHost (s.portOfView v.val) (s.cfgPacket k c) with
    | none => s.hostReply v.val c.tag .config .unsupportedRequest []
    | some pk => s.draw.goOn pk []

/-- The function of a view that a routing ID names, counted from N:0 (Table 12-3). -/
def fnAt (off : Nat) : Option ViewFn :=
  if off = 0 then some .upstream else if off = 1 then some .management else if off = 2 then some .lighterPf
  else if h : off - 2 < 8192 then some (.lighterVf ⟨off - 2, h⟩) else none

/-- A request to virtual downstream port `k`: one that holds a binding, or that its host has named in a hot-plug event, responds (R307). -/
def State.cfgVport (s : State) (v : ViewId) (k : Nat) (c : CfgReq) (ur : State) : State :=
  if (1 ≤ k ∧ k ≤ 255) ∧ ((s.vportBinding v.val k).isSome = true ∨ s.pcie.named.contains (v.val, k) = true) then
    let s1 := s.cfgOwn v (vportFn k) (0x9146, 0x060400, 1) c
    if c.write && decide (cfgReg1024 c.reg = Config.capReg 3) && !s.pcie.named.contains (v.val, k) then
      { s1 with pcie := { s1.pcie with named := s1.pcie.named ++ [(v.val, k)] } }
    else s1
  else ur

/-- `CONFIG_REQUEST` (R307, R309, R310). -/
def execConfigRequest (v : ViewId) (c : CfgReq) (s : State) : Host.Outcome State Fault Refusal :=
  let ur := s.hostReply v.val c.tag .config .unsupportedRequest []
  if !s.viewLive v.val then .next s
  else match c.target with
    | .routing off => .next (match fnAt off with
      | some f => if s.fnExists v.val f then s.cfgOwn v (fnKey f) (cfgIdent f) c else ur
      | none => ur)
    | .secondary dev fn => .next (if dev < 32 ∧ fn < 8 then s.cfgVport v (dev * 8 + fn + 1) c ur else ur)
    | .bound k => .next (match s.vportBinding v.val k with
      | none => ur
      | some e => s.cfgBound v k e c)

/-! ## Requests that nothing serves, and messages (R311, R317, R318) -/

/-- The request wants a completion (R317). -/
def urWantsCpl (r : UrReq) : Bool :=
  match r.kind with
  | .memoryNoBar => r.nonPosted
  | .vdmType0 | .vdmType1 => false
  | .ioRequest | .translationRequest | .atomicElsewhere => true

/-- `UNSUPPORTED_REQUEST` (R317): a completion to a non-posted request; a posted one is an Unsupported Request error of the view's
upstream port; a Type 1 vendor-defined message goes silently. -/
def execUnsupportedRequest (v : ViewId) (r : UrReq) (s : State) : Host.Outcome State Fault Refusal :=
  .next (if !s.viewLive v.val then s
    else if urWantsCpl r then s.hostReply v.val r.tag (if r.kind = .ioRequest then .io else .memRead) .unsupportedRequest []
    else match r.kind with
      | .vdmType1 => s
      | _ => s.emit (.aer v.val 0 .unsupportedRequest))

/-- `TIDE_NOW_READ` (R311): 8 bytes give one coherent value; 4 bytes at 0x10 latch the upper half, and 4 bytes at 0x14 return it. A read of
any other size returns what the manual does not state. -/
def execTideNowRead (v : ViewId) (upper : Bool) (size tag : Nat) (s : State) : Host.Outcome State Fault Refusal :=
  if !s.viewLive v.val then .next s
  else if size = 8 ∧ upper = false then .next (s.hostReply v.val tag .memRead .success (leBytes 8 s.tide))
  else if size = 4 ∧ upper = false then
    .next (({ s with pcie := { s.pcie with tideLatch := tput 0 s.pcie.tideLatch v.val (s.tide / 4294967296 % 4294967296) } } : State).hostReply v.val tag .memRead .success (leBytes 4 s.tide))
  else if size = 4 then .next (s.hostReply v.val tag .memRead .success (leBytes 4 (tget 0 s.pcie.tideLatch v.val)))
  else .next (s.draw.hostReply v.val tag .memRead .success (leBytes (min size 8) s.freeVal.toNat))

/-- `MCTP_MESSAGE` (R30, R318, R356): a Tally message joins the management-port queue; a control message reads the version, which after
a latch holds the cause; in a view without a granted queue messages are discarded and counted. -/
def execMctpMessage (m : MctpIn) (s : State) : Host.Outcome State Fault Refusal :=
  let heard := match m.viaView with | none => true | some v => s.viewLive v.val
  let granted := match m.viaView with | none => true | some v => s.fmGranted v.val
  if !heard || s.power.phase = .off then .next s
  else if !granted then .next { s with pcie := { s.pcie with mctpDropped := s.pcie.mctpDropped + 1 } }
  else if m.control then
    .next (if s.power.phase = .latched then
        s.emit (.mctpControl m.viaView (BitVec.ofNat 32 (s.power.latchCause % 256 + s.power.latchSensor % 256 * 256)))
      else s.draw.emit (.mctpControl m.viaView (BitVec.ofNat 32 s.freeVal.toNat)))
  else if m.msgType = 0x7E ∧ m.vendor = 0x1D4E ∧ s.running = true then
    .next { s with tally := { s.tally with mgmtQ := s.tally.mgmtQ ++ [⟨m.viaView, m.desc, m.code⟩] } }
  else .next s

end Sys2Proof.Machine
end

