-- ==== Sys2Proof/Machine/Log.lean ====
section
/-! DEFINITION. The logbook (R65 to R76): its entries, who may read them, and mirroring and export. -/

namespace Sys2Proof.Machine

/-- Code of a status (Table 2-6). -/
def stCode : Status → Nat
  | .ok => 0 | .late => 1 | .denied => 2 | .noobj => 3 | .conflict => 4 | .nores => 5 | .aborted => 6 | .alreadyCommitted => 7
  | .badop => 8 | .timeout => 9 | .faulted => 10 | .notide => 11

/-- What an entry says beside its number, tide and epoch (Table 3-1). -/
structure EntryIn where
  issuerSeq : Nat
  issuerDev : Nat
  failWord : Nat
  view : Nat
  mirror : Bool
  trans : Bool
  source : Nat
  level : Nat
  kind : Nat
  status : Nat
  crc : Nat
  length : Nat
  kindData : Nat
  /-- Objects changed, as class and selector keys. -/
  objs : List Nat
  /-- References that count as no change: an INJECT's checker (R42). They follow the objects changed, as far as the eight places go (DESIGN CHOICE, log
  entry 106). -/
  refs : List Nat
  noteValue : Word
  noteImm : Nat
  deriving DecidableEq, Repr

/-- An entry of the EB9144 itself (Reset, BaseDone). -/
def ownEntryIn (kind kindData status : Nat) : EntryIn :=
  ⟨0, 0xFFFF, 0, 0x7F, false, false, 5, 0, kind, status, 0, 0, kindData, [], [], 0, 0⟩

/-- Class and selector of a reference word (Table 3-1). -/
def refWord (k : Nat) : Word := word (k / 4294967296 % 4096 * 4294967296 + k % 4294967296)

/-- A bit for every class among a list of objects. -/
def classMask (ks : List Nat) : Nat := ((List.range 32).map (fun c => if ks.any (fun k => decide (k / 4294967296 = c)) then 2 ^ c else 0)).sum

/-- The 16 words of an entry (Table 3-1). The checkers of `INJECT` instructions take the references that the changed objects leave free (DESIGN CHOICE,
log entry 106). -/
def entryWords (seq tide epoch : Word) (locked : Bool) (e : EntryIn) : List Word :=
  let w2 := epoch.toNat % 4294967296 * 4294967296 + e.issuerSeq % 4294967296
  let many := decide (8 < e.objs.length)
  let w3 := e.issuerDev % 65536 * 281474976710656 + e.failWord % 65536 * 4294967296 + e.view % 128 * 16777216 + bit many * 8388608
    + bit locked * 4194304 + bit e.mirror * 2097152 + bit e.trans * 1048576 + e.source % 8 * 65536 + e.level % 4 * 4096
    + e.kind % 16 * 256 + e.status % 256
  let w4 := e.crc % 4294967296 * 4294967296 + e.length % 65536 * 65536 + e.objs.length % 65536
  let w5 := e.kindData % 4294967296 * 4294967296 + classMask e.objs
  let refs := (((e.objs ++ e.refs).map refWord) ++ List.replicate 8 0).take 8
  let ws := [seq, tide, word w2, word w3, word w4, word w5] ++ refs ++ [e.noteValue]
  ws ++ [word (crc32 ((ws.flatMap wordBytes) ++ (wordBytes (word e.noteImm)).take 4) * 4294967296 + e.noteImm % 4294967296)]

/-- Fields of an entry's word 3. -/
def eSource (e : LogEntry) : Nat := bitsOf (e.words.getD 3 0) 16 3
def eView (e : LogEntry) : Nat := bitsOf (e.words.getD 3 0) 24 7
def eKind (e : LogEntry) : Nat := bitsOf (e.words.getD 3 0) 8 4
def eMirror (e : LogEntry) : Bool := bitsOf (e.words.getD 3 0) 21 1 = 1

/-- The management function of a view may read an entry (R74). -/
def State.mayReadEntry (s : State) (v : Nat) (e : LogEntry) : Bool :=
  s.fmGranted v || (eSource e ≤ 1 && decide (eView e = v)) || eKind e = 3 || eKind e = 4

/-- Mode of a view's mirror (Table 3-4). -/
def State.mirrorMode (s : State) (v : Nat) : Nat := s.regBits v 0x114 8 2

/-- The mirror of a view takes an entry (R75). -/
def State.mirrors (s : State) (v : Nat) (e : LogEntry) : Bool :=
  (s.mirrorMode v = 1 || (s.mirrorMode v = 2 && (eMirror e || eKind e = 3 || eKind e = 4))) && s.mayReadEntry v e

/-- Views whose mirror takes an entry. -/
def State.mirrorsFor (s : State) (e : LogEntry) : List (ViewId × Nat) :=
  ((List.finRange 96).filter (fun v => s.mirrors v.val e)).map (fun v => (v, e.seq))

/-- Counters of the Tallyman and the logbook (Table 16-1; log entry 21): 0 to 11 programs by status, 12 commits, 13 conflicts, 14 parked programs, 15
entries written, 16 mirror skips. -/
def State.tallyCount (s : State) (n : Nat) : State := s.count (ctrId 0x0F 256 0 n) 1

/-- The logbook ring holds 1,048,576 entries (R70). -/
def ringEntries : Nat := 1048576

/-- Writes an entry: the next number, the ring, the copy to SDRAM and the mirrors to follow, and 2 µs to the next (R66 to R71, R75). -/
def State.logEntry (s : State) (e : EntryIn) : State :=
  let seq := s.log.head + 1
  let n : LogEntry := ⟨seq, entryWords (word seq) (word s.tide) s.log.epoch s.tideLocked e⟩
  { s.tallyCount 15 with log := { s.log with
      entries := (n :: s.log.entries).take ringEntries
      head := seq
      pendingCopy := s.log.pendingCopy ++ [seq]
      mirrorQ := s.log.mirrorQ ++ s.mirrorsFor n
      nextAt := s.now + 2000 } }

/-- The next entry may be written now (R70). -/
def State.logReady (s : State) : Bool := s.log.nextAt ≤ s.now

/-- `LOGBOOK_OLDEST` (Table 3-4). -/
def State.logOldest (s : State) : Nat := s.log.head + 1 - s.log.entries.length

/-- A retained entry. -/
def State.entry (s : State) (seq : Nat) : Option LogEntry := s.log.entries.find? (fun e => decide (e.seq = seq))

/-- What the on-die tail holds: words 0 to 10 of the newest 32,768 entries (R71). Words 11 to 15 stand in SDRAM alone once copied. -/
def State.onDieTail (s : State) : List (Nat × List Word) := (s.log.entries.take 32768).map (fun e => (e.seq, e.words.take 11))

/-- An entry whose copy to SDRAM has been written (R71). -/
def State.inSdram (s : State) (seq : Nat) : Bool := (s.entry seq).isSome && !s.log.pendingCopy.contains seq

/-- One posted write of a view's management function into its host's memory: on this device, or across the fabric to the device of the view, whose
internal agent passes it on (R59; DESIGN CHOICE, log entry 105). -/
def State.hostPiece (s : State) (dev v addr : Nat) (ws : List Word) : State :=
  let data := ws.flatMap (fun w => leBytes 8 w.toNat)
  if dev = s.fabricId ∨ dev = 0xFFFF then s.mgmtPost v (.hostWrite v addr ws) data
  else
    let pk := s.ownPkt .memWrite (.hostWrite v addr ws) (s.tlpHead 16 ++ data) 0 0
    s.draw.originate { pk with view := v, viewDev := dev, hdr := some (s.edgeHdr 255 dev 255 0 0) }

/-- Words cut where a 4 KiB block of host memory ends, which no write crosses (Max_Payload_Size, Table 12-1). -/
def hostPieces : Nat → Nat → List Word → List (Nat × List Word)
  | 0, _, _ => []
  | _ + 1, _, [] => []
  | n + 1, a, w :: ws =>
    let k := (4096 - a % 4096) / 8 - 1
    (a, w :: ws.take k) :: hostPieces n (a + 8 * (k + 1)) (ws.drop k)

/-- Writes words of a view's management function into its host's memory, in ascending order. -/
def State.hostWrite (s : State) (dev v addr : Nat) (ws : List Word) : State :=
  (hostPieces ws.length addr ws).foldl (fun s e => s.hostPiece dev v e.1 e.2) s

/-! ## Mirror and export (R75, R76) -/

/-- Sets `Error` of LB_MIRROR_STATUS. -/
def State.mirrorError (s : State) (v : Nat) : State := s.setRegBits v 0x120 1 1 1

/-- `LB_MIRROR_CTRL_WRITE` (R75): taken whole or ignored whole. With `Mode` 0, entries admitted and not yet mirrored are dropped and do not count in
`Skipped` (DESIGN CHOICE, log entry 115). -/
def execLbMirrorCtrlWrite (v : ViewId) (value : BitVec 32) (s : State) : Host.Outcome State Fault Refusal :=
  let w := word value.toNat
  let m := bitsOf w 8 2
  let l := bitsOf w 0 5
  let was := s.mirrorMode v.val
  let keep := m * 256 + l
  if !s.viewLive v.val then .next s
  else if m = 0 then
    let s1 := ((s.setReg v.val 0x114 (word keep)).setRegBits v.val 0x120 0 1 0)
    .next { s1 with log := { s1.log with mirrorQ := s1.log.mirrorQ.filter (fun e => decide (e.1 ≠ v)) } }
  else if m = 3 ∨ l < 8 ∨ 20 < l ∨ (was ≠ 0 ∧ l ≠ s.regBits v.val 0x114 0 5) then .next (s.mirrorError v.val)
  else
    let s1 := (s.setReg v.val 0x114 (word keep)).setRegBits v.val 0x120 0 1 1
    .next (if was = 0 then s1.setRegBits v.val 0x120 16 16 0 else s1)

/-- `LB_MIRROR_BASE_WRITE` (R75): only while `Mode` is 0. -/
def execLbMirrorBaseWrite (v : ViewId) (value : Word) (s : State) : Host.Outcome State Fault Refusal :=
  if !s.viewLive v.val then .next s
  else if s.mirrorMode v.val ≠ 0 then .next (s.mirrorError v.val)
  else .next (s.setReg v.val 0x118 (word (value.toNat / 4096 * 4096)))

/-- `LOGBOOK_SDRAM_COPY` (R71): the oldest pending copy is written, ahead of all other SDRAM traffic. -/
def execLogbookSdramCopy (s : State) : Host.Outcome State Fault Refusal :=
  match s.log.pendingCopy with
  | [] => .next s
  | n :: rest =>
    if s.power.phase = .off || s.sdram.selfRefresh then .next s
    else .next { s.sdramAccess .logbook (n % ringEntries) true with log := { s.log with pendingCopy := rest } }

/-- Address of a mirrored entry (R75). -/
def State.mirrorAddr (s : State) (v seq : Nat) : Nat := (s.reg v 0x118).toNat + 128 * (seq % 2 ^ s.regBits v 0x114 0 5)

/-- `MIRROR_WRITE` (R75): the oldest entry that a mirror has still to write goes out, or is dropped, counted and announced (R312). -/
def execMirrorWrite (v : ViewId) (delivered : Bool) (s : State) : Host.Outcome State Fault Refusal :=
  match s.log.mirrorQ.find? (fun e => decide (e.1 = v)) with
  | none => .next s
  | some e =>
    let s1 := { s with log := { s.log with mirrorQ := s.log.mirrorQ.erase e } }
    if !s.running then .next s
    else match (if delivered && s.viewUp v.val then s.entry e.2 else none) with
      | some n => .next (s1.hostWrite 0xFFFF v.val (s.mirrorAddr v.val e.2) n.words)
      | none =>
        let k := s.regBits v.val 0x120 16 16
        .next (if k = 65535 then s1.tallyCount 16 else ((s1.setRegBits v.val 0x120 16 16 (k + 1)).tallyCount 16).msix v.val 3)

/-- An export of a view. -/
def State.exportOf (s : State) (v : ViewId) : Option ExportJob := s.log.exportJobs.find? (fun j => decide (j.view = v))

/-- Replaces the export of a view. -/
def State.setExport (s : State) (j : ExportJob) : State :=
  { s with log := { s.log with exportJobs := s.log.exportJobs.map (fun x => if x.view = j.view then j else x) } }

/-- `LB_EXPORT_GO` (R76): a write of LB_EXPORT_CTRL; `Go` clears what the last export left in the status, and starts one, refused while one runs or
with `Count` out of range. -/
def execLbExportGo (v : ViewId) (value : BitVec 32) (s : State) : Host.Outcome State Fault Refusal :=
  let w := word value.toNat
  let count := bitsOf w 0 21
  if !s.viewLive v.val || bitsOf w 31 1 = 0 then .next s
  else
    let s0 := ((s.setRegBits v.val 0x138 30 1 0).setRegBits v.val 0x138 29 1 0).setRegBits v.val 0x138 27 1 0
    if (s.exportOf v).isSome || count = 0 || 1048576 < count then .next (s0.setRegBits v.val 0x138 28 1 1)
    else
      let first := (s.reg v.val 0x130).toNat
      let start := max first s.logOldest
      let s1 := ((s0.setRegBits v.val 0x138 0 21 0).setRegBits v.val 0x138 31 1 1).setRegBits v.val 0x138 30 1 (bit (first < s.logOldest))
      .next { s1 with log := { s1.log with
          exportJobs := s1.log.exportJobs ++ [⟨v, start, max start (min (first + count) (s.log.head + 1)), start, 0, s.now⟩] } }

/-- An export covers its next number: a permitted entry goes from SDRAM to the next 128-byte slot, others are passed (R74, R76). `none`: it cannot,
since the entry is overwritten, not yet in SDRAM, or its write could not be delivered. `LB_EXPORT_ADDR` counts as it stands when the entry is copied
(DESIGN CHOICE, log entry 106). -/
def State.exportOne (s : State) (j : ExportJob) : Option (State × ExportJob) :=
  let v := j.view.val
  match s.entry j.next with
  | none => none
  | some e =>
    if !s.mayReadEntry v e then some (s, { j with next := j.next + 1 })
    else if !s.inSdram j.next || !s.viewLive v || s.mgmtQuiet v then none
    else
      let s1 := s.hostWrite 0xFFFF v ((s.reg v 0x128).toNat + 128 * j.written) e.words
      some ((s1.setRegBits v 0x138 0 21 (j.written + 1)).sdramAccess .logbook (j.next % ringEntries) false,
        { j with next := j.next + 1, written := j.written + 1, due := s.now + 500 })

/-- An export covers up to `n` numbers, as long as it can. -/
def State.exportSome (j : ExportJob) : Nat → State → State × ExportJob
  | 0, s => (s, j)
  | n + 1, s => match s.exportOne j with
    | none => (s, j)
    | some r => State.exportSome r.2 n r.1

/-- The exports of one nanosecond: each covers a number when it is due, two in a microsecond (Table 3-5; DESIGN CHOICE, log entry 116). -/
def State.exportTick (s : State) : State :=
  s.log.exportJobs.foldl (fun s j =>
    if j.due ≤ s.now ∧ j.next < j.stop then (let r := State.exportSome j 1 s; r.1.setExport r.2) else s) s

/-- `EXPORT_END` (R76): the export has covered `covered` numbers. It ends at its count or at the head; earlier at an entry that the ring has
overwritten, or at a write that could not be delivered, as none can be while the host link is down. -/
def execExportEnd (v : ViewId) (covered : Nat) (undeliverable : Bool) (s : State) : Host.Outcome State Fault Refusal :=
  match s.exportOf v with
  | none => .next s
  | some j =>
    let r := State.exportSome j (j.start + covered - j.next) s
    let lost := undeliverable || !s.viewLive v.val
    let overrun := decide (j.start + covered < s.logOldest) && !lost
    let whole := decide (j.start + covered = j.stop)
    if !s.running || r.2.next ≠ j.start + covered || j.stop < r.2.next || !(whole || lost || overrun) then .next s
    else
      let s1 := { r.1 with log := { r.1.log with exportJobs := r.1.log.exportJobs.filter (fun x => decide (x.view ≠ v)) } }
      let s2 := ((s1.setRegBits v.val 0x138 31 1 0).setRegBits v.val 0x138 29 1 (bit (overrun && !whole))).setRegBits
        v.val 0x138 27 1 (bit (lost && !whole))
      .next (s2.msix v.val 3)

end Sys2Proof.Machine
end

