-- ==== Sys2Proof/Machine/Wear.lean ====
section
/-! DEFINITION. What each die measures of itself: sensors, and the wear gauge (R414, R423). Dies count 0 the core die, 1 to 8 the lane
tiles, 9 the slot-power die, as words 32 to 41 of the `Device` image do (DEDUCED, log entry 24). -/

namespace Sys2Proof.Machine

/-- Sensors of a die (R414): 16 on the core die, 4 on a lane tile, 2 on the slot-power die. -/
def sensorsOf (die : Nat) : Nat := if die = 0 then 16 else if die < 9 then 4 else if die = 9 then 2 else 0

/-- `WearMargin`, in units of 0.5%, rounded down (R423). -/
def wearMarginOf (shift : Nat) : Nat := 200 * (30000 - shift) / 30000

/-- A record of the wear gauge. The spec names no instance for it: the die's first sensor stands for the die (DESIGN CHOICE, log
entry 28). -/
def wearEvent (die grade margin limit : Nat) : FEvent := ⟨grade, checkerId 0x13 (die * 16), 0, 0, margin, limit, 0, 0⟩

/-- `TempNow` of a die, and `TempPeak` with it (Table 17-14). -/
def State.tempIs (s : State) (die : Nat) (temp : Int) : State :=
  let t := max (-32768) (min 32767 temp)
  let s1 := s.put (wearTempNow.up die) 0 (unsigned 16 t)
  if signed 16 (s.base (wearTempPeak.up die) 0) < t then s1.put (wearTempPeak.up die) 0 (unsigned 16 t) else s1

/-- One die's comparison (R423): its fields, and a record when `WearLow` or `WearOut` is first set. -/
def State.measureDie (s : State) (die : Nat) (r : DieReading) : State :=
  let shift := min r.ppm 65535
  let m := wearMarginOf shift
  let wasLow := s.base (wearWearLow.up die) 0
  let wasOut := s.base (wearWearOut.up die) 0
  let s1 := (s.tempIs die r.temp).put (wearRingShiftPpm.up die) 0 shift
  let s2 := ((s1.put (wearWearMargin.up die) 0 m).put (wearWearLow.up die) 0 (bit (m < 20))).put (wearWearOut.up die) 0 (bit (m = 0))
  let s3 := if m < 20 ∧ wasLow = 0 then s2.raise (wearEvent die 0 m 20) else s2
  if m = 0 ∧ wasOut = 0 then s3.raise (wearEvent die 3 m 0) else s3

/-- The comparison of a list of dies, from die `i` on. -/
def State.measureFrom (s : State) (i : Nat) : List DieReading → State
  | [] => s
  | r :: rs => (s.measureDie i r).measureFrom (i + 1) rs

/-- The comparison of all ten dies. -/
def State.measureDies (s : State) (rs : List DieReading) : State := s.measureFrom 0 (rs.take 10)

end Sys2Proof.Machine
end

