-- ==== Sys2Proof/Machine/Clocks.lean ====
section
/-! DEFINITION. Tide time (R276, R327 to R331), clock inputs (R335), and resets, start-up and power (R340 to R345, R385, R406). -/

namespace Sys2Proof.Machine

/-! ## Serving and following tide (R276, R328, R329) -/

/-- Fabric ports on which tide is served: every Active one but the source's own. -/
def State.tidePorts (s : State) : List Nat :=
  (s.selsOf cPort).filter (fun p => s.fabricUp p && decide (s.lane0 p = p) && !(s.fld tideSource 0 = 3 && s.fld tideSourcePort 0 = p))

/-- TIDE_SYNC on each port of a list; TIDE_FOLLOW goes directly after each, when it has left (`State.tideLeaves`). -/
def State.sendTide (s : State) (id : Nat) : List Nat → State
  | [] => s
  | p :: ps => (s.sendLocal p (.tideSync id)).sendTide id ps

/-- 2^20 ns, the interval of exchanges and dialogues. -/
def tideInterval : Nat := 1048576

/-- `TIDE_SYNC_SEND` (R276): the count has crossed a multiple of 2^20. -/
def execTideSyncSend (s : State) : Host.Outcome State Fault Refusal :=
  if s.running && decide (s.clock.served < s.tide / tideInterval) then
    let s1 := { s with clock := { s.clock with served := s.tide / tideInterval, nextMsg := (s.clock.nextMsg + 1) % 65536 } }
    .next (if s.servesTide then s1.sendTide s.clock.nextMsg s.tidePorts else s1)
  else .next s

/-- Port `p` is the neighbour that tide is taken from. -/
def State.tideFrom (s : State) (p : Nat) : Bool :=
  s.running && s.fld tideSource 0 = 3 && s.fld tideSourcePort 0 = p && s.fabricUp p

/-- `TIDE_SYNC_RECEIVED` (R276): t2. -/
def execTideSyncReceived (p : PortId) (msgId : Nat) (s : State) : Host.Outcome State Fault Refusal :=
  .next (if s.tideFrom p.val then { s with clock := { s.clock with sync := some (msgId, s.rxStamp p.val), follow := none, dreq := none } } else s)

/-- `TIDE_FOLLOW_RECEIVED` (R276, R328): t1, answered by TIDE_DREQ, whose t3 is taken as it leaves. A second TIDE_FOLLOW of one exchange spoils it. -/
def execTideFollowReceived (p : PortId) (msgId : Nat) (t1 : Word) (lockedBit holdoverBit : Bool) (s : State) :
    Host.Outcome State Fault Refusal :=
  if !s.tideFrom p.val then .next s
  else
    let good := (match s.clock.sync with | some e => decide (e.1 = msgId) | none => false) && s.clock.follow.isNone
      && (lockedBit || holdoverBit)
    let s1 : State := { s with
      sourceHoldover := holdoverBit
      clock := { s.clock with
        sync := if good then s.clock.sync else none
        follow := if good then some (msgId, t1.toNat) else none
        dreq := none } }
    .next (s1.notify.sendLocal p.val (.tideDreq msgId))

/-- `TIDE_DREQ_RECEIVED` (R276): t4 goes back in TIDE_DRESP. -/
def execTideDreqReceived (p : PortId) (msgId : Nat) (s : State) : Host.Outcome State Fault Refusal :=
  .next (if s.running && s.servesTide && s.fabricUp p.val && s.lane0 p.val = p.val && !(s.fld tideSource 0 = 3 && s.fld tideSourcePort 0 = p.val)
    then s.sendLocal p.val (.tideDresp msgId (word (s.rxStamp p.val))) else s)

/-! ## Measurements (R331) -/

/-- Counters of the tide unit (Table 16-1): 0 measurements, 1 ignored measurements, 2 steps. -/
def State.tideCount (s : State) (n : Nat) : State := s.count (ctrId 0x12 64 0 n) 1

/-- The tide count steps by −o: at once, counted, and from the second step after a reset on recorded at Grade 0 (R331). The epoch under way
ends at the first boundary after the step (R164), and the crossings of R276 and R327 count anew from a step back. -/
def State.tideStep (s : State) (o : Int) : State :=
  let t := unsigned 64 ((s.tide : Int) - o)
  let first := decide (s.base tideSteps 0 = 0)
  let s1 : State := { s with
    tide := t
    core := { s.core with epoch := t / 1024, sampledEpoch := t / 1024 }
    clock := { s.clock with
      above := [], near := 0, slew := 0
      served := min s.clock.served (t / tideInterval), asked := min s.clock.asked (t / tideInterval) } }
  let s2 := (s1.addSat tideSteps 0 1).tideCount 2
  if first then s2
  else s2.raise { grade := 0, checker := checkerId 0x11 0, cls := cTideUnit, sel := 0, syn0 := unsigned 64 o, syn1 := s.fld tideStepThresholdNs 0
                  action := 0, key := 0 }

/-- Measurements in a row that agree within 100 ns with a new one, newest first. -/
def agreeing (o : Int) (os : List Int) : List Int := o :: os.takeWhile (fun x => decide ((x - o).natAbs ≤ 100))

/-- The unit locks (Table 13-2). -/
def State.tideLock (s : State) : State :=
  let s1 := ((s.put tideState 0 2).put tideEverLocked 0 1).put tideLockTide 0 s.tide
  s1.notify

/-- A measurement of offset `o`, positive where this device is ahead (Table 13-2). -/
def State.tideMeasure (s : State) (o : Int) : State :=
  let st := s.fld tideState 0
  let sat : Int := max (-2147483648) (min 2147483647 o)
  let s0 : State := { ((s.put tideOffsetNs 0 (unsigned 32 sat)).tideCount 0) with clock := { s.clock with firstEdge := false } }
  if st = 0 then s
  else if st = 1 ∧ s.fld tideEverLocked 0 = 0 ∧ s.clock.firstEdge = true then s0.tideStep o
  else if o.natAbs ≤ s.fld tideStepThresholdNs 0 then
    let near := if o.natAbs ≤ 20 then s.clock.near + 1 else 0
    let s1 : State := { s0 with clock := { s0.clock with above := [], near := near, slew := -o } }
    if st ≠ 2 ∧ 4 ≤ near then s1.tideLock else s1
  else
    let os := agreeing o s.clock.above
    if 3 ≤ os.length then s0.tideStep o
    else { (s0.tideCount 1) with clock := { s0.clock with above := os, near := 0 } }

/-- `TIDE_DRESP_RECEIVED` (R328): the offset of a valid exchange. -/
def execTideDrespReceived (p : PortId) (msgId : Nat) (t4 : Word) (s : State) : Host.Outcome State Fault Refusal :=
  match s.clock.sync, s.clock.follow, s.clock.dreq with
  | some a, some b, some c =>
    if s.tideFrom p.val && decide (a.1 = msgId) && decide (b.1 = msgId) && decide (c.1 = msgId) then
      let o := (signed 64 (unsigned 64 ((a.2 : Int) - b.2)) - signed 64 (unsigned 64 ((t4.toNat : Int) - c.2))) / 2
      let s1 : State := { s with clock := { s.clock with sync := none, follow := none, dreq := none } }
      .next (s1.tideMeasure o)
    else .next s
  | _, _, _ => .next s

/-- The whole second nearest to a count. -/
def nearestSecond (t : Nat) : Nat := (t + 500000000) / 1000000000 * 1000000000

/-- The second that a TIDE_PPS edge marks (R327): the first after the commit is `PpsSeconds`; a later one is that nearest to the count, less an offset that
edges before it have shown and no step has taken up (DEDUCED, log entry 111). -/
def State.ppsSecond (s : State) : Nat :=
  if s.clock.firstEdge then s.fld tidePpsSeconds 0 * 1000000000
  else nearestSecond (unsigned 64 ((s.tide : Int) - s.clock.above.headD 0))

/-- `TIDE_MEASUREMENT` (R327, R331): a TIDE_PPS edge, whose reference is the whole second, or a PTM dialogue, whose master time it carries.
Neighbour measurements come with TIDE_DRESP. -/
def execTideMeasurement (source : Nat) (reference : Word) (s : State) : Host.Outcome State Fault Refusal :=
  let src := s.fld tideSource 0
  if !s.running || src ≠ source then .next s
  else if source = 1 then
    .next (s.tideMeasure (signed 64 (unsigned 64 ((s.tide : Int) - s.ppsSecond))))
  else if source = 2 && s.edgeLinkUp (s.fld tideSourcePort 0) then
    .next (s.tideMeasure (signed 64 (unsigned 64 ((s.tide : Int) - (reference.toNat + s.fld tidePtmOffset 0 : Nat)))))
  else .next s

/-- The source of a locked unit is lost (Table 13-2). -/
def State.tideLost (s : State) : State :=
  if s.fld tideState 0 = 2 then
    let s1 := ((s.put tideState 0 3).addSat tideSourceLosses 0 1).addSat tideHoldoverEntries 0 1
    ({ s1 with clock := { s1.clock with above := [], near := 0, slew := 0, sync := none, follow := none, dreq := none } } : State).notify
  else s

/-- `TIDE_SOURCE_LOSS` (R331). -/
def execTideSourceLoss (s : State) : Host.Outcome State Fault Refusal :=
  .next (if s.running && s.fld tideSource 0 ≠ 0 then s.tideLost else s)

/-- A commit changed `Source` or `SourcePort` (Table 13-2). -/
def State.tideSourceChanged (s : State) : State :=
  let s1 : State := { s with
    sourceHoldover := false
    clock := { s.clock with above := [], near := 0, slew := 0, sync := none, follow := none, dreq := none, firstEdge := true } }
  let st := s.fld tideState 0
  let s2 :=
    if s.fld tideSource 0 = 0 then
      (if st = 2 then (s1.put tideState 0 3).addSat tideHoldoverEntries 0 1
       else if s.fld tideEverLocked 0 = 1 then s1.put tideState 0 3 else s1.put tideState 0 0)
    else if st = 0 then s1.put tideState 0 1
    else if st = 2 then ((s1.put tideState 0 3).addSat tideSourceLosses 0 1).addSat tideHoldoverEntries 0 1
    else s1
  s2.notify

/-- `PTM_DIALOGUE_START` (R327): every 2^20 ns on the host port of the source. -/
def execPtmDialogueStart (s : State) : Host.Outcome State Fault Refusal :=
  let p := s.fld tideSourcePort 0
  match s.viewOfPort p with
  | none => .next s
  | some v =>
    if s.running && s.fld tideSource 0 = 2 && s.edgeLinkUp p && decide (s.clock.asked < s.tide / tideInterval) then
      .next (({ s with clock := { s.clock with asked := s.tide / tideInterval } } : State).emit (.ptmRequest v))
    else .next s

/-- One nanosecond of the tide counter and of the model's clock: a pending slew moves the count by one more or one less every 10,000 ns, 100 ppm
(R331). -/
def State.tideTick (s : State) : State :=
  let on := s.power.phase ≠ .off
  let adj : Int := if s.now % 10000 = 0 then (if 0 < s.clock.slew then 1 else if s.clock.slew < 0 then -1 else 0) else 0
  if on then
    { s with now := s.now + 1, tide := unsigned 64 ((s.tide : Int) + 1 + adj), clock := { s.clock with slew := s.clock.slew - adj } }
  else { s with now := s.now + 1 }

/-- TIDE_PPS_OUT is high: for 100 µs from each whole second of tide (R409). -/
def State.ppsOut (s : State) : Bool := s.tide % 1000000000 < 100000

/-! ## Clock inputs (R335) -/

/-- Lane-0 ports of a tile. -/
def State.portsOfTile (s : State) (t : Nat) : List Nat := allPorts.filter (fun p => decide (p / 18 = t) && decide (s.lane0 p = p))

/-- A port of a tile without a clock goes down as on a link loss. -/
def State.clockDown (s : State) (p : Nat) : State :=
  if s.role p = roleFabric then
    let st := s.ql p
    let s1 := s.linkLost p qlDown
    let r := s1.qlp p
    (s1.setQlp { (if st = qlActive || st = qlRetrain then r.fails else r) with heldDue := none }).stopLanes p
  else if s.role p = roleOff then s
  else s.edgeLinkDown p 0

/-- `CLOCK_INPUT_LOSS` (R335): 0 SYSCLK, 1 to 8 the REFCLKs, 9 TIDE_REF, 10 TIDE_PPS (Table 14-6). -/
def execClockInputLoss (i : Fin 11) (s : State) : Host.Outcome State Fault Refusal :=
  let s1 : State := { s with power := { s.power with lost := s.power.lost ++ [i.val] } }
  if s.power.phase = .off || s.power.phase = .latched || s.power.lost.contains i.val then .next s
  else if i.val = 0 then .next s1.halt
  else if 9 ≤ i.val then .next (if s.running && s.fld tideSource 0 = 1 then s.tideLost else s)
  else
    let s2 := (s.portsOfTile (i.val - 1)).foldl (fun s p => s.clockDown p) s1
    .next (if s.running then
      s2.raise { grade := 3, checker := checkerId 0x12 i.val, cls := 0, sel := 0, syn0 := 0, syn1 := 1000, action := 9, key := 0 }
    else s2)

/-- `REFCLK_RETURN` (R335): present for 1 ms; the tile's ports begin bring-up again. -/
def execRefclkReturn (t : Fin 8) (s : State) : Host.Outcome State Fault Refusal :=
  if s.power.lost.contains (t.val + 1) then
    let s1 : State := { s with power := { s.power with lost := s.power.lost.filter (fun x => decide (x ≠ t.val + 1)) } }
    .next ((s.portsOfTile t.val).foldl (fun s p => if s.portEnabled p then s.portBringUp p else s) s1)
  else .next s

/-! ## What a device reset keeps (Table 13-6) -/

/-- Image words of a slot that outlive a device reset: the live bits of word 3, and the measurements (R385). -/
def State.keepSlot (old s : State) (n : Nat) : State :=
  let w3 := old.baseWord cSlot n 3
  let live := bitsOf w3 57 7
  ((((s.put slotState n (live / 16)).put slotPresent n (live / 8)).put slotPowerGood n (live / 4)).put slotFaultTimerRunning n (live / 2)).put
    slotInLimit n live |>.putWords cSlot n 4 [old.baseWord cSlot n 4, old.baseWord cSlot n 5, old.baseWord cSlot n 6]

/-- Keeps the slots of a list. -/
def State.keepSlots (old s : State) : List Nat → State
  | [] => s
  | n :: ns => State.keepSlots old (State.keepSlot old s n) ns

/-- Lanes that a spare has replaced stay so. -/
def State.keepLanes (old s : State) : State :=
  ((old.selsOf cLane).filter (fun l => old.base laneRxState l = 5)).foldl (fun s l => s.put laneRxState l 5) s

/-- Retirements of Grade 3 that no release has lifted are applied again (R355). -/
def State.keepRetired (s : State) : List (Nat × ContTarget) → State
  | [] => s
  | (id, .resource c) :: cs =>
    let s1 := s.contain id (.resource c)
    (if c / 65536 = 0x04 then s1.put bankState (c % 65536) 4
     else if c / 65536 = 0x0D then
       { s1 with sdram := { s1.sdram with outOfService := s1.sdram.outOfService ++ [c % 65536] } }
     else s1).keepRetired cs
  | _ :: cs => s.keepRetired cs

/-- A slot over a device reset: its limits stay in force while it is powered, its requests and timers toward SPn_PERST_N end. -/
def State.runOver (s : State) (r : SlotRun) : SlotRun :=
  { r with
    request := false, perstDue := none, kept := s.slotLive r.slot
    held := if s.slotLive r.slot then
        (match r.held with | some w => some w | none => some (s.effWord cSlot r.slot 0, s.effWord cSlot r.slot 1))
      else none }

/-- SPn_PERST_N goes low with the reset at every powered slot, and SPn_ATTN is driven no more (R377, R385). -/
def State.slotsPerst (s : State) : List Nat → State
  | [] => s
  | n :: ns =>
    let s1 := if s.slotSt n = slOn then s.slotPin .perst n false else s
    (if s.fld slotAttnOut n = 1 then s1.slotPin .attn n true else s1).slotsPerst ns

/-- Every object and block as a device reset leaves it (R79, R89, Table 13-6). -/
def State.reinit (s : State) : State :=
  let runs := (allSlots.map s.slotRun).map s.runOver
  let t : State := { State.reset with
    pending := s.pending
    now := s.now
    tide := s.tide
    free := s.free
    out := s.out
    power := { s.power with baseSlot := 3, baseFailed := false, baseBegun := false, coreSpread := false, resetDue := none, resetProg := none, downAsked := false
                            haltDue := none, secCommit := none }
    vers := s.vers
    core := { State.reset.core with epoch := s.tide / 1024, sampledEpoch := s.tide / 1024 }
    clock := { State.reset.clock with served := s.tide / tideInterval, asked := s.tide / tideInterval, nextMsg := s.clock.nextMsg }
    log := { s.log with mirrorQ := [], exportJobs := [] }
    tally := { State.reset.tally with nextId := s.tally.nextId, nextFwdId := s.tally.nextFwdId }
    faults := { State.reset.faults with
      nextId := s.faults.nextId
      recs := s.faults.recs.map (fun r => if r.grade = 1 ∨ r.grade = 2 then { r with isOpen := false } else r) }
    sdram := { s.sdram with selfRefresh := true, migrating := [], outOfService := [] }
    slots := { runs := runs.filter (fun r => decide (r ≠ (State.reset.slotRun r.slot))), queue := s.slots.queue, feeds := s.slots.feeds } }
  (State.keepLanes s (State.keepSlots s t allSlots)).keepRetired s.faults.contained

/-- A device reset (R342): DEV_READY falls, host and fabric links go down, programs vanish, pending log writes complete, SDRAM enters
self-refresh; start-up goes on from step 2 unless DEV_RST_N holds it. -/
def State.deviceReset (s : State) (cause : Nat) (held : Bool) : State :=
  let s1 := if s.power.phase = .ready then s.emit (.pin .devReady false) else s
  let s2 := ((s1.hostsDown allPorts).fabricsDown allPorts).flushLogs
  let s3 := (s2.slotsPerst allSlots).reinit
  { s3 with power := { s3.power with phase := if held then .held else .starting, warm := true, cause := cause } }

/-- A reset that a program requested is due: the program has ended, or 1 ms has passed (R341). -/
def State.resetReady (s : State) : Bool :=
  match s.power.resetDue with
  | none => false
  | some t => decide (t ≤ s.now) || (match s.power.resetProg with
      | none => true
      | some i => !s.tally.progs.any (fun p => decide (p.id = i)))

/-- `DEVICE_RESET` (R342): the reset that a program requested, or DEV_RST_N low for 1 µs. -/
def execDeviceReset (s : State) : Host.Outcome State Fault Refusal :=
  let low : State := { s with power := { s.power with devRstN := false } }
  if s.running && s.resetReady then .next (s.deviceReset 2 false)
  else match s.power.phase with
    | .off => .next low
    | .latched => .next low
    | .held => .next low
    | .starting => .next (if s.power.warm then low.deviceReset 1 true else { low with power := { low.power with phase := .held } })
    | .managed => .next (low.deviceReset 1 true)
    | .ready => .next (low.deviceReset 1 true)
    | .halted => .next (low.deviceReset 1 true)
    | .down => .next (low.deviceReset 1 true)

/-- `HALT_RESTART_TIMEOUT` (R355): 10 ms after a halt. -/
def execHaltRestartTimeout (s : State) : Host.Outcome State Fault Refusal :=
  match s.power.haltDue with
  | none => .next s
  | some t => .next (if s.power.phase = .halted && decide (t ≤ s.now) then s.deviceReset 3 false else s)

/-- `DEV_RST_N_RISE` (R342): start-up goes on from step 2; after PWR_OK rose with the pin low it is the cold one (R425). -/
def execDevRstNRise (s : State) : Host.Outcome State Fault Refusal :=
  if s.power.devRstN then .next s
  else
    let s1 : State := { s with power := { s.power with devRstN := true } }
    .next (if s.power.phase = .held then { s1 with power := { s1.power with phase := .starting } } else s1)

/-! ## Power and cold start (R343, R406) -/

/-- What the boot flash and the fuses keep without power, with the levels of the input pins. -/
def State.unpowered (s : State) : State :=
  { State.reset with
    pending := s.pending
    now := s.now
    free := s.free
    out := s.out
    power := { State.reset.power with
      phase := .off, perstN := s.power.perstN, devRstN := s.power.devRstN, pwrOk := false, straps := s.power.straps
      secFloor := s.power.secFloor, seeds := s.power.seeds } }

/-- Every slot channel counts as switched off now (R369). -/
def State.slotsCold (s : State) : State :=
  { s with slots := { s.slots with runs := (allSlots.map (fun n => { s.slotRun n with offAt := s.now })).filter (fun r => decide (r.offAt ≠ 0)) } }

/-- `COLD_RESET` (R343, R369, R409, R425): PWR_OK rises; with DEV_RST_N low the start-up waits. -/
def execColdReset (straps : Straps) (s : State) : Host.Outcome State Fault Refusal :=
  if s.power.phase = .off then
    .next { s.unpowered.slotsCold with power := { s.unpowered.power with
      phase := if straps.devRstHigh then .starting else .held, devRstN := straps.devRstHigh, pwrOk := true, straps := straps } }
  else .next s

/-- `PWR_OK_FALL` (R406): never a device reset; everything but flash and fuses is lost, and DEV_READY and every slot's pins are low. -/
def execPwrOkFall (s : State) : Host.Outcome State Fault Refusal :=
  if s.power.phase = .off then .next s
  else
    let s1 := if s.power.phase = .ready then s.emit (.pin .devReady false) else s
    .next (s1.slotsOff allSlots).unpowered

/-- A bank that failed the test of step 4a is retired (R115, R343). -/
def State.badBank (s : State) (b : Nat) : State :=
  let n := s.newRec { grade := 3, checker := checkerId 0x04 (b * 4), cls := cBufferBank, sel := b, syn0 := 0, syn1 := 0, action := 10
                      key := 0 } false false 0 0
  (n.1.put bankState b 4).contain n.2 (.resource (checkerId 0x04 b))

/-- Retires a list of banks. -/
def State.badBankAll (s : State) : List BankId → State
  | [] => s
  | b :: bs => (s.badBank b.val).badBankAll bs

/-- Lanes that the seed copy in use lists as replaced start with their streams on spares (R345). -/
def State.replacedLanes (s : State) : List Seed → State
  | [] => s
  | e :: es => (if e.replaced then s.lput laneRxState e.lane 5 else s).replacedLanes es

/-- What a cold start finds and draws: banks, SDRAM, seeds, and the logbook's epoch, which is never zero (R66, R343, R345). -/
def State.coldFinds (s : State) (r : StartResult) : State :=
  let s1 : State := { s with
    sdram := { s.sdram with trained := r.trained.map (·.val) }
    power := { s.power with ignoreSeeds := r.ignoreSeeds } }
  let s2 := s1.badBankAll r.badBanks
  let s3 := if r.ignoreSeeds then s2 else s2.replacedLanes s2.power.seeds
  { s3.draw with log := { s3.log with epoch := word (s3.freeVal.toNat % 4294967295 + 1) } }

/-- `MANAGEMENT_PATH_READY` (R66, R70, R343): the Reset entry is written, at least 2 µs after the last one, and the management port takes Tally
programs. -/
def execManagementPathReady (r : StartResult) (s : State) : Host.Outcome State Fault Refusal :=
  if s.power.phase ≠ .starting || (r.fuseOk && !s.logReady) then .next s
  else if !r.fuseOk then
    .next (s.raise { grade := 5, checker := checkerId 0x14 0, cls := 0, sel := 0, syn0 := 0, syn1 := 0, action := 13, key := 0 })
  else
    let s1 := (if s.power.warm then s else s.coldFinds r).measureDies r.dies
    let s2 : State := { s1 with
      sdram := { s1.sdram with selfRefresh := false }
      power := { s1.power with phase := .managed }
      core := { s1.core with epoch := s1.tide / 1024, sampledEpoch := s1.tide / 1024 } }
    if s2.sdram.trained.length < 4 then
      .next (s2.raise { grade := 4, checker := checkerId 0x0D 0, cls := 0, sel := 0, syn0 := s2.sdram.trained.length, syn1 := 4, action := 12
                        key := 0 })
    else
      let s3 := s2.logEntry (ownEntryIn 3 s.power.cause 0)
      .next (if s.power.lost.contains 0 then
          ({ s3 with power := { s3.power with lost := s3.power.lost.filter (fun x => decide (x ≠ 0)) } } : State).newRec
            { grade := 4, checker := checkerId 0x12 0, cls := 0, sel := 0, syn0 := 0, syn1 := 0, action := 12, key := 0 } false false 0 0 |>.1
        else s3)

end Sys2Proof.Machine
end

