-- ==== Sys2Proof/Machine/Collector.lean ====
section
/-! DEFINITION. The fault collector's commands (R348 to R361): events, the closing of records, leaky counts, the fault log, lockstep and
the end of injections. -/

namespace Sys2Proof.Machine

/-- How many instances of a checker block have a checker (Table 14-6); for block 0x04 three of every four. -/
def checkerLimit (block : Nat) : Nat :=
  [0, 144, 16, 144, 5120, 144, 144, 6, 3, 17, 1, 64, 144, 24, 1, 1, 2, 1, 11, 277, 1, 16448, 256, 66, 1].getD block 0

/-- A checker ID exists (Table 14-6; the sensors and rails of block 0x13 are those of R414 and R402). -/
def checkerExists (c : Nat) : Bool :=
  let b := c / 65536
  let i := c % 65536
  decide (i < checkerLimit b) && (b ≠ 0x04 || i % 4 < 3) && (b ≠ 0x13 || 256 ≤ i || i % 16 < sensorsOf (i / 16))
    && (b ≠ 0x16 || i < 144 || i = 0xFF)

/-- A checker takes injections (Table 14-6, R361). -/
def checkerInjectable (c : Nat) : Bool := c / 65536 < 0x11 || c / 65536 = 0x18

/-- Syndrome bits that a merge must share (R351): 13 for a gate refusal, 40 for a pair. -/
def mergeKey (e : FaultIn) : Nat := if e.checker / 65536 = 0x15 then 13 else if e.action = 4 then 40 else 0

/-- The event of a checker's report. -/
def eventOf (e : FaultIn) : FEvent := ⟨e.grade, e.checker, e.cls, e.sel, e.syn0, e.syn1, e.action, mergeKey e⟩

/-- The device is powered and not latched: its collector takes events. -/
def State.collects (s : State) : Bool := s.power.phase ≠ .off && s.power.phase ≠ .latched

/-- Corrected and uncorrectable reads of a bank, in its image and its counters, and those of an SDRAM channel (R114, Table 16-1). -/
def State.bankError (s : State) (e : FaultIn) : State :=
  if e.checker / 65536 = 0x04 then
    let b := e.checker % 65536 / 4
    if e.grade = 0 then (s.addSat bankCorrected b 1).count (ctrId 0x0E 4 b 0) 1
    else (s.addSat bankUncorrectable b 1).count (ctrId 0x0E 4 b 1) 1
  else if e.checker / 65536 = 0x0D then s.count (ctrId 0x0D 32 (e.checker % 65536 / 2) (if e.checker % 2 = 1 then 10 else 8 + bit (e.grade ≠ 0))) 1
  else s

/-- A record's action contains an object, a port or a pair (R351); a copy carried forward takes over the containment (R350). -/
def State.holdsRec (s : State) (r : FaultRec) : Bool :=
  r.action = 2 || r.action = 3 || r.action = 4
  || (r.action = 14 && s.faults.contained.any (fun c => decide (c.1 = r.id) && (match c.2 with | .resource _ => false | _ => true)))

/-- Closes a record and tells the views (R351, R359). -/
def State.closeRecord (s : State) (id : Nat) : State :=
  ({ s with faults := { s.faults with recs := closeRec id s.faults.recs } } : State).notify

/-- `MERGE_QUIET_CLOSE` (R351): an open record that contains nothing closes `MergeQuietMs` after its last event. -/
def execMergeQuietClose (id : Nat) (s : State) : Host.Outcome State Fault Refusal :=
  match s.faults.recs.find? (fun r => decide (r.id = id)) with
  | none => .next s
  | some r =>
    if s.collects && r.isOpen && !s.holdsRec r && r.quietFrom + s.fld devMergeQuietMs 0 * 1000000 ≤ s.now then .next (s.closeRecord id)
    else .next s

/-- `LEAK_DECREMENT` (R352): a leak timer ends an interval; it stops at count 0. -/
def execLeakDecrement (checker : Nat) (s : State) : Host.Outcome State Fault Refusal :=
  match s.faults.leaks.find? (fun l => decide (l.source = checker)) with
  | none => .next s
  | some l =>
    if s.power.phase = .off || s.now < l.due then .next s
    else
      let ls := (s.faults.leaks.map (fun m => if m.source = checker then ⟨m.source, m.count - 1, m.due + s.leakInterval⟩ else m)).filter
        (fun m => decide (0 < m.count))
      .next { s with faults := { s.faults with leaks := ls } }

/-- `FAULT_LOG_WRITE` (R21, R350): the oldest record that stands on the die alone is written to SDRAM, once no logbook copy waits. -/
def execFaultLogWrite (s : State) : Host.Outcome State Fault Refusal :=
  match (s.faults.recs.filter (fun r => !r.logged)).getLast? with
  | none => .next s
  | some r =>
    if s.power.phase = .off || s.sdram.selfRefresh || !s.log.pendingCopy.isEmpty then .next s
    else .next { s.sdramAccess .faultLog (r.id % 65536) true with
      faults := { s.faults with recs := s.faults.recs.map (fun q => if q.id = r.id then { q with logged := true } else q) } }

/-- 24 hours in nanoseconds (R357). -/
def dayNs : Nat := 86400000000000

/-- A mismatch that was not injected lies less than 24 h before, in a record still in the fault log (R357). -/
def State.earlierMismatch (s : State) : Bool :=
  s.faults.recs.any (fun r => decide (r.checker / 65536 = 0x0E) && !r.injected && decide (s.tide < r.last + dayNs))

/-- `INJECTION_EXPIRY` (R361): injections not yet used when `InjectArmUntil` passes are cancelled. -/
def execInjectionExpiry (s : State) : Host.Outcome State Fault Refusal :=
  if s.power.phase = .off || s.tide < s.fld devInjectArmUntil 0 then .next s
  else .next { s with faults := { s.faults with injections := [] } }

end Sys2Proof.Machine
end

