-- ==== Sys2Proof/Machine/SchedRows.lean ====
section
/-! DEFINITION. What tide drives in scheduling and policing: refills of meters and shapers (R164), depth and delay samples (R170), and the
telemetry rings (R398). -/

namespace Sys2Proof.Machine

/-! ## Refills (R164, R165) -/

/-- A bucket in millionths of 1/1,024 byte: its tokens in bytes and the fraction beside its image. One epoch adds Rate × 0.128 × 10^−3 bytes, which are
Rate × 131,072 of them (R164; log entry 27). -/
def grains (tokens : Int) (frac : Nat) : Int := tokens * 1024000000 + (frac : Int)

/-- Fills a bucket of `size` bytes: its new level, and what overflows in units of 1/1,024 byte. The bucket holds whole units; the fraction below one is
carried on (R164). -/
def fillTo (size : Nat) (g : Int) : Int × Nat :=
  let units := g / 1000000
  let room : Int := (size : Int) * 1024
  if units ≤ room then (g, 0) else (room * 1000000 + g % 1000000, (units - room).toNat)

/-- Whole bytes of a level, and the fraction below one. -/
def levelBytes (g : Int) : Int := g / 1024000000
def levelFrac (g : Int) : Nat := (g % 1024000000).toNat

/-- A level of the C bucket, and of the E or P bucket, of a meter. Fractions stand at 2m and 2m + 1. -/
def State.levelC (s : State) (m : Nat) : Int := grains (s.fld meterTokensC m) (tget 0 s.core.meterFrac (2 * m))
def State.levelE (s : State) (m : Nat) : Int := grains (s.fld meterTokensEP m) (tget 0 s.core.meterFrac (2 * m + 1))

/-- Writes both levels of a meter. -/
def State.setLevels (s : State) (m : Nat) (c e : Int) : State :=
  let s1 := (s.put meterTokensC m (levelBytes c).toNat).put meterTokensEP m (levelBytes e).toNat
  { s1 with core := { s1.core with meterFrac := tput 0 (tput 0 s1.core.meterFrac (2 * m) (levelFrac c)) (2 * m + 1) (levelFrac e) } }

/-- The refill of a meter: mode 1 fills C and overflows into E; mode 2 fills C and P (R164, R165). -/
def State.refillMeter (s : State) (m : Nat) : State :=
  let mode := s.fld meterMode m
  let c := fillTo (s.fld meterCommittedBurstBytes m) (s.levelC m + (s.fld meterCirKbps m : Int) * 131072)
  let ebs := s.fld meterExcessBurstBytes m
  if mode = 1 then s.setLevels m c.1 (fillTo ebs (s.levelE m + (c.2 : Int) * 1000000)).1
  else if mode = 2 then s.setLevels m c.1 (fillTo ebs (s.levelE m + (s.fld meterPirKbps m : Int) * 131072)).1
  else s

/-- A meter counts an epoch in which it gave red to a packet that stood held (Table 6-3). -/
def State.countHeldEpoch (s : State) (m : Nat) : State :=
  if s.core.redSeen.contains m || s.core.pkts.any (fun k => decide (k.pool = 3) && k.redNow.contains m) then
    (s.addSat meterHeldEpochs m 1).count (ctrId 0x05 4 m 3) 1
  else s

/-- Refills every meter of a list. -/
def State.refillMeters (s : State) : List Nat → State
  | [] => s
  | m :: ms => ((s.countHeldEpoch m).refillMeter m).refillMeters ms

/-- A level of a queue's shaper. -/
def State.levelS (s : State) (q : Nat) : Int := grains (signed 32 (s.fld sqShapeTokens q)) (tget 0 s.core.shaperFrac q)

/-- The refill of a queue's shaper, capped at `BurstBytes` (R159, R161, R164); an epoch that ends with tokens at or below 0 is counted
(Table 16-1). -/
def State.refillShaper (s : State) (q : Nat) : State :=
  let rate := s.fld sqShapeKbps q
  if rate = 0 then s
  else
    let g := (fillTo (s.fld sqBurstBytes q) (s.levelS q + (rate : Int) * 131072)).1
    let s1 := if s.levelS q < 1000000 then s.count (ctrId 0x04 16 (q % 256 * 16 + q / 256) 4) 1 else s
    let s2 := s1.put sqShapeTokens q (unsigned 32 (levelBytes g))
    { s2 with core := { s2.core with shaperFrac := tput 0 s2.core.shaperFrac q (levelFrac g) } }

/-- Refills every shaper of a list. -/
def State.refillShapers (s : State) : List Nat → State
  | [] => s
  | q :: qs => (s.refillShaper q).refillShapers qs

/-- One boundary of 1,024 ns that tide has passed and that is not yet credited (R164). A step of the count moves the mark, so the first boundary after it
credits one epoch. -/
def State.epochEnd (s : State) : State :=
  let s1 := (s.refillMeters (s.selsOf cMeter)).refillShapers (s.selsOf cSchedQueue)
  { s1 with core := { s1.core with epoch := s1.core.epoch + 1, redSeen := [], epochWaits := false } }

/-- A command that may commit a `Meter` in this clock, which comes before the refill (Table 6-4). -/
def commitsMeter : Instr → Bool
  | .meter .. => true
  | .commit .. => true
  | .tenantCreate .. => true
  | .tenantDelete .. => true
  | .overlayApply .. => true
  | .overlayRemove .. => true
  | _ => false

/-- `METER_EPOCH_END` (R164, R171): an epoch that tide has passed ends; while a commit of this clock is still to come, at the end of the clock. -/
def execMeterEpochEnd (s : State) : Host.Outcome State Fault Refusal :=
  .next (if !s.running || decide (s.tide / 1024 ≤ s.core.epoch) then s
    else if s.pending.any commitsMeter then { s with core := { s.core with epochWaits := true } }
    else s.epochEnd)

/-! ## Samples and telemetry (R170, R398) -/

/-- Packets of an egress queue whose last cell has not been read: linked, leaving, or nullified and to be sent again (R170, R321). -/
def State.depthPkts (s : State) (p q : Nat) : List Packet :=
  s.core.pkts.filter (fun k => decide (s.queueAt k p = q)
    && (k.leavesBy p || s.core.egress.any (fun e => decide (e.port = p) && decide (e.pkt = k.id))
      || s.pcie.nullified.any (fun (e : Nat × Nat) => decide (e.1 = p) && decide (e.2 = k.id))))

/-- Image word 3 of a queue's sample: cells, and the time since the oldest was linked in units of 8 ns, saturating (R170). -/
def State.sampleWord (s : State) (p q : Nat) : Nat × Nat :=
  let ks := s.depthPkts p q
  let cells := min ((ks.map Packet.cells).sum) 4194303
  let oldest := ks.foldl (fun (t : Nat) k => min t k.linkedAt) s.now
  (cells, min ((s.now - oldest) / 8) 4294967295)

/-- Records the sample of a queue in words 3 and 4 (R170). -/
def State.sampleQueue (s : State) (p q : Nat) : State :=
  let w := s.sampleWord p q
  let c := sqSel p q
  (((s.put sqDepthCells c w.1).put sqHeadDelay c w.2).put sqMaxDepthCells c (max w.1 (s.base sqMaxDepthCells c))).put sqMaxHeadDelay c
    (max w.2 (s.base sqMaxHeadDelay c))

/-- Samples the queues of a port. -/
def State.sampleQueues (s : State) (p : Nat) : List Nat → State
  | [] => s
  | q :: qs => (s.sampleQueue p q).sampleQueues p qs

/-- A field of ring r's descriptor, in words 16 + 2r and 17 + 2r of the `Device` image (R397). -/
def ringFld (f : Fld) (r : Nat) : Fld := f.up (2 * r)

/-- Records that the staging of a ring holds: 2^`Log2StageMiB` MiB of 144 bytes each (Table 16-4). -/
def State.stageRoom (s : State) (r : Nat) : Nat := 2 ^ s.fld (ringFld ringLog2StageMiB r) 0 * 1048576 / 144

/-- Records of a ring in staging, oldest first. -/
def State.stagedOf (s : State) (r : Nat) : List Staged := s.counters.staged.filter (fun e => decide (e.ring = r))

/-- The record of a port's sample (R398). A record that is not kept takes no sequence number (log entry 25). -/
def State.stage (s : State) (r p : Nat) : State :=
  if s.fld (ringFld ringEnable r) 0 = 0 then s
  else if s.stageRoom r ≤ (s.stagedOf r).length then
    let s1 := s.addSat (ringFld ringLost r) 0 1
    { s1 with counters := { s1.counters with ringOverflow := r :: s1.counters.ringOverflow.filter (fun x => decide (x ≠ r)) } }
  else
    let seq := tget 0 s.counters.ringSeq r
    let lostBefore := s.counters.ringOverflow.contains r
    let ws := [word (s.core.epoch * 1024), word (seq % 4294967296 * 4294967296 + bit lostBefore * 256 + p)]
      ++ (List.range 16).map (fun q => s.baseWord cSchedQueue (sqSel p q) 3)
    { s.sdramAccess .telemetry (seq % s.stageRoom r) true with counters := { s.counters with
        staged := s.counters.staged ++ [⟨r, seq, ws⟩]
        ringSeq := tput 0 s.counters.ringSeq r (seq + 1)
        ringOverflow := s.counters.ringOverflow.filter (fun x => decide (x ≠ r)) } }

/-- A port samples at the end of epoch `e` (R170, Table 6-1). -/
def State.samplesAt (s : State) (p e : Nat) : Bool :=
  decide (s.fld portSampleLog2 p ≤ 20) && decide (e % 2 ^ s.fld portSampleLog2 p = 0)

/-- Samples every port of a list that is due. -/
def State.samplePorts (s : State) : List Nat → State
  | [] => s
  | p :: ps =>
    (if s.samplesAt p s.core.epoch then
      let s1 := s.sampleQueues p (List.range 16)
      if s1.fld portTelemetryOn p = 1 then s1.stage (s1.fld portTelemetryRing p) p else s1
     else s).samplePorts ps

/-- The epoch that ended last is sampled. -/
def State.sampleNow (s : State) : State :=
  let s1 := s.samplePorts (s.selsOf cPort)
  { s1 with core := { s1.core with sampledEpoch := s1.core.epoch, sampleWaits := false } }

/-- A last cell is read in this clock, which the sample no longer counts (Table 6-4). -/
def readsLast : Instr → Bool
  | .packetCellsFreed .. => true
  | _ => false

/-- `SAMPLE_INSTANT` (R170, R171): the epoch that ended last is sampled once, at the end of the clock where a last cell or the epoch's own end is still to
come in it. -/
def execSampleInstant (s : State) : Host.Outcome State Fault Refusal :=
  .next (if !s.running || (s.core.sampledEpoch = s.core.epoch && !s.core.epochWaits) then s
    else if s.core.epochWaits || s.pending.any readsLast then { s with core := { s.core with sampleWaits := true } }
    else s.sampleNow)

/-- What waited for the end of the clock (Table 6-4). -/
def State.clockEnd (s : State) : State :=
  let s1 := if s.core.epochWaits then s.epochEnd else s
  if s1.core.sampleWaits then s1.sampleNow else s1

/-- `TELEMETRY_HOST_WRITE` (R398): the oldest staged record of a ring goes to its place in the host ring, while the view's link is up and no
other class waits for the SDRAM (R21). -/
def execTelemetryHostWrite (r : Fin 8) (s : State) : Host.Outcome State Fault Refusal :=
  match (s.stagedOf r.val).head? with
  | none => .next s
  | some e =>
    let v := s.fld (ringFld ringHostView r.val) 0
    if s.viewLive v && !s.mgmtQuiet v && s.telemetryTurn then
      let s1 := s.hostWrite 0xFFFF v (s.fld (ringFld ringHostBase r.val) 0 * 4096 + 144 * (e.seq % 2 ^ s.fld (ringFld ringLog2HostRecords r.val) 0)) e.words
      .next { s1.sdramAccess .telemetry (e.seq % s.stageRoom r.val) false with counters := { s1.counters with staged := s1.counters.staged.erase e } }
    else .next s

end Sys2Proof.Machine
end

