-- ==== Sys2Proof/Machine/Package.lean ====
section
/-! DEFINITION. The package's own monitors: temperature, rails and wear (R402, R414, R423), the end of an SDRAM migration (R26), and the places of
the balls (R417 to R421). -/

namespace Sys2Proof.Machine

/-- `THERMAL_TRIP` (R414): 115 °C at a sensor, Grade 5 with cause 1, and THERM_TRIP_N low. -/
def execThermalTrip (die : Fin 10) (sensor : Fin 16) (s : State) : Host.Outcome State Fault Refusal :=
  if !s.collects || sensorsOf die.val ≤ sensor.val then .next s
  else .next ((s.emit (.pin .thermTripN false)).raise
    ⟨5, checkerId 0x13 (die.val * 16 + sensor.val), 0, 0, 920, 920, 13, 0⟩)

/-- `OVER_TEMPERATURE` (R414): a sensor above 100 °C, in units of 0.125 °C, Grade 0. -/
def execOverTemperature (die : Fin 10) (sensor : Fin 16) (temp : Nat) (s : State) : Host.Outcome State Fault Refusal :=
  if !s.collects || sensorsOf die.val ≤ sensor.val || temp ≤ 800 then .next s
  else
    let hot : Int := max (temp : Int) (signed 16 (s.base (wearTempNow.up die.val) 0))
    .next ((s.tempIs die.val hot).raise ⟨0, checkerId 0x13 (die.val * 16 + sensor.val), 0, 0, temp, 800, 0, 0⟩)

/-- Limits of a rail in units of 0.1 mV: operating minimum and maximum, latch below, latch above (Table 17-2). -/
def railLimits (rail : Nat) : Nat × Nat × Nat × Nat :=
  if rail = 0 then (7275, 7725, 6750, 8800)
  else if rail = 1 then (7760, 8240, 7200, 9300)
  else if rail ≤ 9 then (8245, 8755, 7650, 9800)
  else if rail ≤ 17 then (11640, 12360, 10800, 13800)
  else if rail = 18 then (10670, 11330, 9900, 12800)
  else if rail = 19 then (17100, 18900, 16200, 20500)
  else (31350, 34650, 29700, 37500)

/-- `RAIL_OUT_OF_RANGE` (R402): outside the operating range for 10 µs, or beyond a latch limit for 1 µs. -/
def execRailOutOfRange (rail : Fin 21) (latch : Bool) (milliVolts : Nat) (s : State) : Host.Outcome State Fault Refusal :=
  let l := railLimits rail.val
  let v := milliVolts * 10
  let beyond := decide (v < l.2.2.1) || decide (l.2.2.2 < v)
  let outside := decide (v < l.1) || decide (l.2.1 < v)
  if !s.collects then .next s
  else if latch then
    (if beyond then .next (s.raise ⟨5, checkerId 0x13 (256 + rail.val), 0, 0, v, if v < l.2.2.1 then l.2.2.1 else l.2.2.2, 13, 0⟩)
     else .next s)
  else if outside && !beyond then
    .next (s.raise ⟨0, checkerId 0x13 (256 + rail.val), 0, 0, v, if v < l.1 then l.1 else l.2.1, 0, 0⟩)
  else .next s

/-- `WEAR_GAUGE_COMPARISON` (R423): all ten dies, every 60 s. -/
def execWearGaugeComparison (dies : List DieReading) (s : State) : Host.Outcome State Fault Refusal :=
  if !diesWf dies then .next s
  else if !s.collects || s.power.phase = .starting then .next s
  else .next (s.measureDies dies)

/-- `SDRAM_MIGRATION_DONE` (R26, Table 1-3): the channel's contents stand in the others; it is released, and fewer ports may spill. -/
def execSdramMigrationDone (ch : Fin 12) (s : State) : Host.Outcome State Fault Refusal :=
  if s.running && s.sdram.migrating.contains ch.val then
    .next { s with sdram := { s.sdram with
      migrating := s.sdram.migrating.filter (fun c => decide (c ≠ ch.val))
      outOfService := s.sdram.outOfService ++ [ch.val] } }
  else .next s

/-! ## Balls (R417 to R421) -/

/-- A ball: row and column, both from 1 to 99. -/
structure Ball where
  row : Nat
  col : Nat
  deriving DecidableEq, Repr

/-- The 19 letters that name rows. -/
def rowLetters : List Char := ['A', 'B', 'C', 'D', 'E', 'F', 'G', 'H', 'J', 'K', 'L', 'M', 'N', 'P', 'T', 'U', 'V', 'W', 'Y']

/-- Name of a row (R417): one letter for rows 1 to 19, then blocks of 19 with A, B, C, D and E before the letter. -/
def rowName (r : Nat) : List Char :=
  let l := rowLetters.getD ((r - 1) % 19) 'A'
  if r ≤ 19 then [l] else [rowLetters.getD ((r - 1) / 19 - 1) 'A', l]

/-- A place of a lane region's pattern, depth row `e` and position `c`, on the package (R420). -/
def tileBall (tile e c : Nat) : Ball :=
  if tile = 0 then ⟨e, c⟩ else if tile = 1 then ⟨e, 42 + c⟩ else if tile = 2 then ⟨c, 100 - e⟩ else if tile = 3 then ⟨42 + c, 100 - e⟩
  else if tile = 4 then ⟨100 - e, 100 - c⟩ else if tile = 5 then ⟨100 - e, 58 - c⟩ else if tile = 6 then ⟨100 - c, e⟩ else ⟨58 - c, e⟩

/-- Depth row and slot of a transmit pair (R421). -/
def txPlace (i : Nat) : Nat × Nat := if i < 70 then (1 + i / 14, i % 14) else (7, i - 70)

/-- Depth row and slot of a receive pair (R421). -/
def rxPlace (i : Nat) : Nat × Nat := if i < 8 then (7, 6 + i) else (9 + (i - 8) / 14, (i - 8) % 14)

/-- The P ball of a pair in a slot of a depth row, or its N ball (R421). -/
def pairBall (tile : Nat) (pl : Nat × Nat) (neg : Bool) : Ball := tileBall tile pl.1 (3 * pl.2 + (if neg then 2 else 1))

/-- Balls of tile lane `i`, LN0 to LN71 and SL0 to SL3 as 72 to 75 (R421). -/
def laneBall (tile i : Nat) (tx neg : Bool) : Ball := pairBall tile (if tx then txPlace i else rxPlace i) neg

/-- VDDA_LANEt and VDDH_LANEt of a lane region: six balls each in depth row 15 (R421). -/
def laneSupplyBall (tile k : Nat) (high : Bool) : Ball := tileBall tile 15 (6 * k + (if high then 6 else 3))

/-- SPn_PRSNT_N (R418): row DG, or DH for the last four. -/
def presenceBall (n : Nat) : Ball := if n < 60 then ⟨83, 16 + n⟩ else ⟨84, 12 + n⟩

/-- The signals of row DH from column 16 on (Table 17-12). -/
def clockField : List String :=
  ["REFCLK0_P", "REFCLK0_N", "REFCLK1_P", "REFCLK1_N", "REFCLK2_P", "REFCLK2_N", "REFCLK3_P", "REFCLK3_N", "REFCLK4_P", "REFCLK4_N", "REFCLK5_P",
    "REFCLK5_N", "REFCLK6_P", "REFCLK6_N", "REFCLK7_P", "REFCLK7_N", "SYSCLK", "TIDE_REF", "TIDE_PPS", "TIDE_PPS_OUT", "CLK_GND0", "CLK_GND1",
    "CLK_GND2", "CLK_GND3", "PWR_OK", "DEV_RST_N", "DEV_READY", "PERST_N", "SMB_SCL", "SMB_SDA", "SMB_ALERT_N", "SMB_ADDR0", "SMB_ADDR1"]
  ++ ["SPI_SCK", "SPI_CS_N", "SPI_IO0", "SPI_IO1", "SPI_IO2", "SPI_IO3", "TCK", "TMS", "TDI", "TDO", "TRST_N", "TEST_MODE", "THERM_TRIP_N",
    "THERMD_P", "THERMD_N", "SLEW_SEL0", "SLEW_SEL1", "DNC0", "DNC1", "DNC2", "DNC3", "DNC4", "DNC5"]

/-- The signal at a ball of row DH, rows counted from 1 (R419). -/
def clockSignal (b : Ball) : Option String := if b.row = 84 ∧ 16 ≤ b.col then clockField[b.col - 16]? else none

end Sys2Proof.Machine
end

