-- ==== Sys2Proof/Machine/Counters.lean ====
section
/-! DEFINITION. Counters by ID and snapshots (R388 to R396). -/

namespace Sys2Proof.Machine

/-! ## The catalogue (Table 16-1) -/

/-- Counters of a block, and how many each of its objects has. -/
def ctrBlock (block : Nat) : Nat × Nat :=
  [(0, 1), (36864, 256), (9728, 16), (18432, 8), (36864, 16), (81920, 4), (131072, 8), (512, 8), (131072, 16), (65536, 16), (131072, 16),
    (65536, 4), (1056, 16), (384, 32), (5120, 4), (256, 256), (1024, 1024), (256, 256), (64, 64)].getD block (0, 1)

/-- Block, object index and number of a counter ID. -/
def ctrBlockOf (id : Nat) : Nat := id / 16777216
def ctrObjOf (id : Nat) : Nat := id % 16777216 / (ctrBlock (ctrBlockOf id)).2
def ctrNumOf (id : Nat) : Nat := id % 16777216 % (ctrBlock (ctrBlockOf id)).2

/-- An ID names a counter (R388). -/
def ctrExists (id : Nat) : Bool := id % 16777216 < (ctrBlock (ctrBlockOf id)).1

/-- The object of a counter, for its record (R390). Accounts and peers have no class: an account's port stands for it, and the device for
a peer (DESIGN CHOICE, log entry 29). -/
def ctrObject (id : Nat) : Nat × Nat :=
  let o := ctrObjOf id
  let b := ctrBlockOf id
  if b = 0x01 then (cPort, o) else if b = 0x02 then (cLane, selOfLane o) else if b = 0x03 then (cPort, o / 16)
  else if b = 0x04 then (cSchedQueue, sqSel (o / 16) (o % 16)) else if b = 0x05 then (cMeter, o)
  else if b = 0x06 then (cFunction, homeSel o) else if b = 0x07 then (cCmWindow, o) else if b = 0x08 ∨ b = 0x0A then (cTenant, o)
  else if b = 0x0B then (cPathGroup, o) else if b = 0x0C then (if o < 64 then (cSlot, o) else (cFeed, o - 64))
  else if b = 0x0D then (cSdramChannel, o) else if b = 0x0E then (cBufferBank, o) else if b = 0x12 then (cTideUnit, 0)
  else (0, 0)

/-- The image field that Table 16-1 names as the counter itself, with its object. -/
def ctrShown (id : Nat) : Option (Fld × Nat) :=
  let o := ctrObjOf id
  let n := ctrNumOf id
  let b := ctrBlockOf id
  if b = 0x05 then some ([meterGreenBytes, meterYellowBytes, meterRedHolds, meterHeldEpochs].getD n meterGreenBytes, o)
  else if b = 0x06 ∧ n = 2 then some (fnGateRefusals, homeSel o)
  else if b = 0x06 ∧ n = 3 then some (fnLateCompletions, homeSel o)
  else if b = 0x07 ∧ 2 ≤ n ∧ n ≤ 5 then some ([winScFailures, winAtomics, winDiscards, winGateRefusals].getD (n - 2) winScFailures, o)
  else none

/-- A counter and its flags become 0, and with it the field that shows it (R389). -/
def State.clearCounter (s : State) (id : Nat) : State :=
  match ctrShown id with
  | none => s.clearCtr id
  | some f => (s.clearCtr id).put f.1 f.2 0

/-- A counter as a snapshot shows it: value, `Saturated`, `Invalid` (Table 16-3). -/
def State.ctrWord (s : State) (id : Nat) : Word :=
  word (s.ctr id + bit (s.ctr id = ctrMax || s.counters.saturated.contains id) * 2 ^ 48 + bit (s.counters.invalid.contains id) * 2 ^ 49)

/-! ## Snapshot sets (R392 to R395) -/

/-- First counter and count of each range in use. -/
def State.snapRanges (s : State) (set : Nat) : List (Nat × Nat) :=
  (List.range (s.base snapRangeCount set)).map (fun k => (s.base (snapFirstCounter.up k) set, s.base (snapCount.up k) set))

/-- A range ends within its block, and holds at most 65,536 counters (R392). -/
def rangeOk (r : Nat × Nat) : Bool :=
  r.2 ≤ 65536 && (r.2 = 0 || decide (r.1 % 16777216 + r.2 ≤ (ctrBlock (ctrBlockOf r.1)).1))

/-- Counters that a set captures. -/
def State.snapTotal (s : State) (set : Nat) : Nat := ((s.snapRanges set).map (·.2)).sum

/-- The snapshot under way of a set. -/
def State.jobOf (s : State) (set : Fin 256) : Option SnapJob := s.counters.jobs.find? (fun j => decide (j.set = set))

/-- Replaces the job of a set. -/
def State.setJob (s : State) (j : SnapJob) : State :=
  { s with counters := { s.counters with jobs := s.counters.jobs.map (fun i => if i.set = j.set then j else i) } }

/-- Clears counters by ID where `clear` says so (R392, R394). -/
def State.takeCtrs (s : State) (clear : Bool) : List Nat → State
  | [] => s
  | i :: is => (if clear then s.clearCounter i else s).takeCtrs clear is

/-- IDs of a range. -/
def rangeIds (r : Nat × Nat) : List Nat := (List.range r.2).map (fun i => r.1 + i)

/-- A capture of some ranges at the present tick, as one unit (R394, R395): a counter that two ranges name is taken twice, then cleared. -/
def State.captureUnit (s : State) (j : SnapJob) (rs : List (Nat × Nat)) : State × SnapJob :=
  let ids := rs.flatMap rangeIds
  (s.takeCtrs (s.base snapClearOnRead j.set.val = 1) ids, { j with
    locked := if j.units.isEmpty then s.tideLocked else j.locked
    values := j.values ++ ids.map s.ctrWord
    units := j.units ++ [(s.tide, j.values.length, ids.length)] })

/-- The ranges of a set that hold counters. -/
def State.usedRanges (s : State) (j : SnapJob) : List (Nat × Nat) := (s.snapRanges j.set.val).filter (fun r => decide (0 < r.2))

/-- A capture now: the whole set if it is captured frozen, otherwise its next range, which is never larger than a unit (R394, R395). -/
def State.capture (s : State) (j : SnapJob) : State :=
  let rs := s.usedRanges j
  if j.frozen then
    let r := s.captureUnit j rs
    (r.1.setJob r.2).put snapState j.set.val 3
  else
    let r := s.captureUnit j ((rs.drop j.units.length).take 1)
    (r.1.setJob r.2).put snapState j.set.val (if r.2.units.length < rs.length then 2 else 3)

/-- `SNAPSHOT_CAPTURE` (R393 to R395): an armed set whose instant has come, or the next unit of one that is captured block by block. -/
def execSnapshotCapture (set : Fin 256) (s : State) : Host.Outcome State Fault Refusal :=
  match s.jobOf set with
  | none => .next s
  | some j =>
    let st := s.base snapState set.val
    .next (if !s.running || s.tide < j.instant || !(st = 1 || st = 2) then s else s.capture j)

/-- An armed set is captured at its tide instant, before anything else that the tick brings (R393, Table 16-6). -/
def State.captureTick (s : State) : State :=
  s.counters.jobs.foldl (fun s j =>
    if s.running && decide (j.instant ≤ s.tide) && s.base snapState j.set.val = 1 then s.capture j else s) s

/-- The buffer of a snapshot but for word 7 (Table 16-3): its first seven words, and the counters with their unit records. -/
def State.snapHead (s : State) (j : SnapJob) : List Word :=
  let w0 := j.set.val + bit j.frozen * 256 + bit j.wasLate * 512 + s.base snapClearOnRead j.set.val * 1024 + bit j.locked * 2048
    + j.values.length * 65536 + s.fabricId * 2 ^ 39 + j.units.length * 2 ^ 51
  let first := match j.units.head? with | some u => u.1 | none => 0
  let last := match j.units.getLast? with | some u => u.1 | none => 0
  [word w0, word j.instant, word first, word last, word (min (s.base snapCompleted j.set.val + 1) 4294967295), 0, 0]
def snapBody (j : SnapJob) : List Word :=
  j.values ++ j.units.flatMap (fun u => [word u.1, word (u.2.2 * 4294967296 + u.2.1)])

/-- `SNAPSHOT_BUFFER_WRITTEN` (R396): the buffer goes out, word 7 last; a write that cannot reach its host abandons the snapshot
(Table 16-6). -/
def execSnapshotBufferWritten (set : Fin 256) (delivered : Bool) (s : State) : Host.Outcome State Fault Refusal :=
  match s.jobOf set with
  | none => .next s
  | some j =>
    if !s.running || s.base snapState set.val ≠ 3 then .next s
    else
      let here := decide (j.issuerDev = s.fabricId) || decide (j.issuerDev = 0xFFFF)
      let ok := delivered && (!here || (s.viewUp j.view && !s.mgmtQuiet j.view))
      let s1 := ({ s with counters := { s.counters with jobs := s.counters.jobs.filter (fun i => decide (i.set ≠ set)) } } : State).put
        snapState set.val 0
      if ok then
        let s2 := (s1.hostWrite j.issuerDev j.view j.addr (s.snapHead j)).hostWrite j.issuerDev j.view (j.addr + 64) (snapBody j)
        let s3 := s2.hostWrite j.issuerDev j.view (j.addr + 56) [1]
        .next ((s3.addSat snapCompleted set.val 1).put snapLastCaptureTide set.val ((s.snapHead j).getD 2 0).toNat)
      else .next (s1.addSat snapAbandoned set.val 1)

/-- `COUNTER_UNCORRECTABLE` (R390): the counter restarts at 0 with `Invalid` set, and a Grade 1 record. -/
def execCounterUncorrectable (id : Nat) (s : State) : Host.Outcome State Fault Refusal :=
  if !s.collects || !ctrExists id then .next s
  else
    let full := decide (s.ctr id = ctrMax)
    let s1 := s.clearCounter id
    let s2 : State := { s1 with counters := { s1.counters with
      invalid := id :: s1.counters.invalid
      saturated := if full || s.counters.saturated.contains id then id :: s1.counters.saturated else s1.counters.saturated } }
    .next (s2.raiseOpen ⟨1, checkerId 0x18 0, (ctrObject id).1, (ctrObject id).2, 0, 0, 0, 0⟩)

end Sys2Proof.Machine
end

