-- ==== Sys2Proof/Machine/Images.lean ====
section
/-! DEFINITION. Object images as instructions see them (R56 to R59): which objects exist, what their words read as, which bits can be
written, and the rules that bind a written word. -/

namespace Sys2Proof.Machine

/-! ## What exists (R59) -/

/-- The fault record in a slot of the log's ring: `RecordId` modulo 65,536 (R350). -/
def State.recIn (s : State) (slot : Nat) : Option FaultRec := s.faults.recs.find? (fun r => decide (r.id % 65536 = slot))

/-- An object exists (R59). -/
def State.objExists (s : State) (cls sel : Nat) : Bool :=
  if cls = cTenant then s.fld tenState sel ≠ 0
  else if cls = cQueuePair then s.fld qpState sel ≠ 0
  else if cls = cCompletionQueue then s.fld cqState sel ≠ 0
  else if cls = cOverlay then s.overlays.any (fun o => decide (o.index = sel))
  else if cls = cFaultRecord then (s.recIn sel).isSome
  else if cls = cFunction then isHome sel || !(s.boundOf sel).isEmpty
  else true

/-! ## Reading (R57, R59, R87) -/

/-- The image of a stored overlay: its label; whether it is active, with the lengths of its lists; the scope list; and for each shadowed
word its object, its index, its mask and its value. The spec names these contents and no layout (DESIGN CHOICE, log entry 30). -/
def State.overlayImage (s : State) (o : Overlay) : List Word :=
  [o.label, word (bit (s.activeOverlay = some o.index) + o.scope.length * 65536 + o.shadow.length * 4294967296)]
  ++ o.scope.map refWord
  ++ o.shadow.flatMap (fun h => [refWord (h.key / 128), word (h.key % 128), h.mask, h.value])

/-- Words of an object's image. -/
def State.imageLen (s : State) (cls sel : Nat) : Nat :=
  if cls = cOverlay then (match s.overlays.find? (fun o => decide (o.index = sel)) with | some o => (s.overlayImage o).length | none => 0)
  else imageWords cls

/-- Virtual downstream ports bound in a view (Table 7-4). -/
def State.virtualPorts (s : State) (v : Nat) : Nat :=
  ((s.viewBindings v).filter (fun e => decide (bSide (s.bindW e.1 e.2) ≠ 1))).length

/-- `MemberLive` of a group (Table 5-4). -/
def State.memberLive (s : State) (g : Nat) : Word :=
  word (((s.membersOf g).map (fun m => if s.mLive g m then 2 ^ m else 0)).sum)

/-- Word 18 + j of a group: the congestion levels of sixteen members (Table 5-4). -/
def State.levelWord (s : State) (g j : Nat) : Word :=
  word (((List.range 16).map (fun i =>
    if 16 * j + i < s.fld grpMemberCount g then tget 0 s.fabric.congestion (g * 64 + 16 * j + i) * 16 ^ i else 0)).sum)

/-- A word of an object's image as a read returns it: base values (R87), with the fields that the blocks keep filled in. -/
def State.imageWord (s : State) (cls sel w : Nat) : Word :=
  let b := s.baseWord cls sel w
  if cls = cDevice then
    (if w = 9 then word (s.fabric.send.length % 524288 * 4294967296 + s.fabric.recv.length % 524288) else b)
  else if cls = cPathGroup then
    (if w = 0 then setBits b 7 1 (bit (s.coldStart sel)) else if w = 17 then s.memberLive sel
     else if 18 ≤ w then s.levelWord sel (w - 18) else b)
  else if cls = cHostView then setBits (setBits b 33 1 (bit (s.viewUp sel))) 40 8 (s.virtualPorts sel)
  else if cls = cTenant then
    (if w = 1 then setBits b 0 32 (s.useOf sel 0) else if w = 5 then setBits b 0 32 (s.useOf sel 4) else b)
  else if cls = cFunction then
    (if isHome sel then (if w = 0 then setBits b 3 1 (bit (s.fnContained (sel % 65536) 0xFF)) else b)
     else if w = 0 then word (bitsOf b 24 8 * 2 ^ 24) else if 1 ≤ w ∧ w ≤ 17 then b else 0)
  else if cls = cCmWindow then (if w = 0 then setBits b 63 1 (bit (s.objContained cCmWindow sel)) else b)
  else if cls = cBudget then (if w = 2 then s.budgetWord2 else b)
  else if cls = cBufferBank then (if w = 0 then setBits b 0 12 (s.bankUse sel) else b)
  else if cls = cOverlay then
    (match s.overlays.find? (fun o => decide (o.index = sel)) with | some o => (s.overlayImage o).getD w 0 | none => 0)
  else if cls = cFaultRecord then (match s.recIn sel with | some r => (recWords r).getD w 0 | none => 0)
  else if cls = cSdramChannel then
    (if w = 0 then word (bit (s.sdram.trained.contains sel) + bit (s.sdram.outOfService.contains sel) * 2
      + bit (s.sdram.migrating.contains sel) * 4) else b)
  else b

/-- The whole image of an object. -/
def State.image (s : State) (cls sel : Nat) : List Word := (List.range (s.imageLen cls sel)).map (fun w => s.imageWord cls sel w)

/-- A read of a word whose bits are free draws them. -/
def State.afterRead (s : State) (cls sel w : Nat) : State :=
  if cls = cLane ∧ (w = 5 ∨ w = 6) ∧ s.base laneCheckLock sel = 1 then s.draw else s

/-! ## Writable bits -/

/-- The bits from `lo` on of a field `width` wide. -/
def fieldBits (lo width : Nat) : Nat := (2 ^ width - 1) * 2 ^ lo

/-- The bits of an image word that `OWRITE` and `OCAS` can write: those with access RW or WO. 0 marks a read-only word. -/
def rwMask (cls w : Nat) : Nat :=
  if cls = cDevice then
    (if w = 0 then 0xFFF else if w = 8 then 0xFFFFFFFF else if w = 12 then 0xFFFF00000003 else if w = 13 then 0xFFFFFFFFFFFFFFFF
     else if w = 14 then 0xFFFFFFFFFF01
     else if 16 ≤ w ∧ w ≤ 31 then (if w % 2 = 0 then 0xFFFFFFFFFFFFF01F else 0xFF00000F00000000)
     else if 32 ≤ w ∧ w ≤ 41 then 0xFFFF00000000 else 0)
  else if cls = cPort then
    (if w = 2 then 0xFFF003F else if 16 ≤ w ∧ w ≤ 31 then 0x3FFFFF073FFFFF else if w = 32 then 1 else if w = 33 then 0x7FFF00001F0F
     else if 34 ≤ w ∧ w ≤ 37 then 0x0FFFFFFFFFFFFFFF else if w = 38 then 0x7FFF3FFF else if w = 40 then 0xFFFFFFFF00FF0000
     else if w = 42 then 0xFFFF3F0F0001 else if w = 44 then 0xF else 0)
  else if cls = cLane then
    (if w = 1 then 0x3FF0003 else if w = 2 then 0x1F1F00 else if w = 3 then 1 else if w = 4 then 0x2FF7 else if w = 7 then 0x8000000000000000
     else 0)
  else if cls = cRoute then (if w = 0 then 0x1FFFF else 0)
  else if cls = cPathGroup then (if w = 0 then 0x7F else if 1 ≤ w ∧ w ≤ 16 then 0x07FF07FF07FF07FF else 0)
  else if cls = cHostView then (if w = 0 then 0x1FF001FFF else 0)
  else if cls = cCmWindow then (if w = 0 then 0x10FFF0000003F else 0)
  else if cls = cMeter then
    (if w = 0 then 0x3FFFFFFFF else if w = 1 then 0xFFFFFFFF else if w = 2 then 0xFFFFFFFFFFFFFFFF else if w = 3 then 1 else 0)
  else if cls = cSchedQueue then
    (if w = 0 then 0xFFFFF000007FF else if w = 1 ∨ w = 2 then 0xFFFFFFFF else if w = 4 then 0x3FFFFFFFFFFFFF else 0)
  else if cls = cSlot then (if w = 2 then 0xFF3F else if w = 4 then 0xFFFF else 0)
  else if cls = cFeed then (if w = 0 then 0xFFFFFFFF00FF0003 else if w = 2 then 0xFFFF else 0)
  else if cls = cBudget then (if w = 0 then 0xFFFFFF else if w = 1 then 0xFFFF else 0)
  else if cls = cTideUnit then (if w = 0 then 0x3FF0FFFFFFFFFFFF else if w = 1 then 0xFFFFFFFFFFFFFFFF else 0)
  else if cls = cSdramChannel then (if w = 1 then 3 else 0)
  else if cls = cBufferBank then (if w = 1 then 7 else 0)
  else if cls = cSnapshotSet then (if w = 0 then 0x187F000000000000 else if 3 ≤ w ∧ w ≤ 66 then 0xFFFFFFFF0001FFFF else 0)
  else 0

/-- A mask covers some bit of a field, which the write then acts on (R57). -/
def covers (mask : Word) (f : Fld) : Bool := bitsOf mask f.lo f.width ≠ 0

/-- A field's bits in a word. -/
def Fld.of (f : Fld) (w : Word) : Nat := bitsOf w f.lo f.width

/-- Replaces a field's bits in a word. -/
def Fld.into (f : Fld) (w : Word) (v : Nat) : Word := setBits w f.lo f.width v

/-- What a written word stores: write-only bits store 0, fields that any write sets to a value take it, and test bits stay until the test
itself changes them. `old` is the word before, `v` the word with the written bits in place. -/
def storedWord (cls w : Nat) (old v mask : Word) : Word :=
  if cls = cDevice ∧ w = 12 then old
  else if cls = cDevice ∧ 32 ≤ w then (if covers mask wearTempPeak then wearTempPeak.into old (wearTempNow.of old) else old)
  else if cls = cMeter ∧ w = 3 then old
  else if cls = cSchedQueue ∧ w = 4 then
    (let a := if covers mask sqMaxDepthCells then sqMaxDepthCells.into old 0 else old
     if covers mask sqMaxHeadDelay then sqMaxHeadDelay.into a 0 else a)
  else if cls = cSlot ∧ w = 4 then (if covers mask slotPeakMa then slotPeakMa.into old 0 else old)
  else if cls = cSlot ∧ w = 2 then slotTest.into (slotClearEnergy.into v 0) (slotTest.of old)
  else if cls = cLane ∧ w = 4 then laneClearCheck.into v 0
  else if cls = cLane ∧ w = 7 then laneMarginGo.into v 0
  else if cls = cBufferBank ∧ w = 1 then bankTest.into v (bankTest.of old)
  else v

/-! ## Ranges and conditions -/

/-- BADOP unless a range holds. -/
def needs (b : Bool) : Status := if b then .ok else .badop

/-- A value lies in a range. -/
def inRange (n lo hi : Nat) : Bool := lo ≤ n && n ≤ hi

/-- A field that the write covers lies in a range. -/
def fieldIn (mask v : Word) (f : Fld) (lo hi : Nat) : Bool := !covers mask f || inRange (f.of v) lo hi

/-- The first status other than OK of a list. -/
def firstStatus : List Status → Status
  | [] => .ok
  | .ok :: ss => firstStatus ss
  | st :: _ => st

/-- A status unless a condition holds. -/
def must (b : Bool) (st : Status) : Status := if b then .ok else st

/-- MiB that the rings that run stage together (R397). -/
def State.stagedMiB (s : State) : Nat :=
  ((List.range 8).map (fun r => if s.fld (ringFld ringEnable r) 0 = 1 then 2 ^ s.fld (ringFld ringLog2StageMiB r) 0 else 0)).sum

/-- Rules of the `Device` image (R60, R61, R136, R341, R358, R397). -/
def deviceRule (s0 s1 : State) (w : Nat) (v mask : Word) : Status :=
  if w = 0 then
    must (!covers mask devFabricId || !allPorts.any (fun p => s0.role p = roleFabric && s0.ql p ≠ qlDown && s0.ql p ≠ qlHeld)) .conflict
  else if w = 8 then needs (fieldIn mask v devAutoRestoreMs 0 60000 && fieldIn mask v devGapLimitUs 50 2000)
  else if w = 12 then needs (rstKey.of v = 0x9144 && rstAction.of v ≠ 3)
  else if w = 13 then needs (decide (devInjectArmUntil.of v ≤ s1.tide + 60000000000))
  else if w = 14 then
    needs (fieldIn mask v devMergeQuietMs 1 60000 && fieldIn mask v devLeakyLimit 1 255 && fieldIn mask v devLeakyWindowS 1 3600)
  else if 16 ≤ w ∧ w ≤ 31 then
    let r := (w - 16) / 2
    let en := s0.fld (ringFld ringEnable r) 0
    let ring := if w % 2 = 0 then fieldIn mask v ringLog2HostRecords 8 20
      else fieldIn mask v ringHostView 0 95 && fieldIn mask v ringLog2StageMiB 0 10
    firstStatus [needs ring, must (en = 0 || (w % 2 = 1 && ringEnable.of v = 0)) .conflict,
      must (w % 2 = 0 || ringEnable.of v = 0 || decide (s1.stagedMiB ≤ 1024)) .nores]
  else .ok

/-- Slots of a range hold a binding (R181). -/
def State.rangeBound (s : State) (base count : Nat) : Bool :=
  (s.selsOf cFunction).any (fun f => isHome f && decide (base ≤ f % 65536) && decide (f % 65536 < base + count) && !(s.boundOf f).isEmpty)

/-- Two slot ranges overlap. -/
def overlapping (a n b m : Nat) : Bool := 0 < n && 0 < m && a < b + m && b < a + n

/-- A write leaves the shared pool at its minimum of 262,144 cells (R105). -/
def poolOk (s1 : State) : Bool := 262144 ≤ s1.sharedPool

/-- A tenant's shared meters stay within its quota, unless the write leaves their number as it was (R177). -/
def metersOk (s0 s1 : State) (p : Nat) : Bool := s0.sharedFits s1 (s1.portOwner p)

/-- Rules of the `Port` image (R105, R156, R177, R181, R267, R296, R305). -/
def portRule (s0 s1 : State) (p w : Nat) (v mask : Word) : Status :=
  if w = 2 then
    let moved := portIdeDirect.of v ≠ s0.fld portIdeDirect p
    firstStatus [needs (fieldIn mask v portCplTimeoutMs 1 4000),
      must (!moved || (!s0.linkUp p && !s0.rangeBound (s0.fld portSlotBase p) (s0.fld portSlotCount p))) .conflict]
  else if 16 ≤ w ∧ w ≤ 31 then
    let res := portReserveCells.of v
    let cap := portMaxCells.of v
    let either := covers mask portReserveCells || covers mask portMaxCells
    firstStatus [needs (fieldIn mask v portReserveCells 0 2621440 && (!either || cap = 0 || res + 66 ≤ cap)),
      must (!covers mask portReserveCells || poolOk s1) .nores]
  else if w = 33 then
    let m := portSharedMeter.of v
    let l := portSampleLog2.of v
    firstStatus [needs ((!covers mask portSharedMeter || m = 0 || inRange m 16384 20479)
        && (!covers mask portSampleLog2 || l ≤ 20 || l = 31)), must (metersOk s0 s1 p) .nores]
  else if 34 ≤ w ∧ w ≤ 37 then
    needs ((List.range 15).all (fun c => bitsOf mask (4 * c) 4 = 0 || 2 ≤ bitsOf v (4 * c) 4))
  else if w = 38 then
    let base := portSlotBase.of v
    let n := portSlotCount.of v
    firstStatus [needs (decide (base + n ≤ 16384)),
      must (!allPorts.any (fun q => decide (q ≠ p) && overlapping base n (s0.fld portSlotBase q) (s0.fld portSlotCount q))
        && !s0.linkUp p && !s0.rangeBound (s0.fld portSlotBase p) (s0.fld portSlotCount p) && !s0.rangeBound base n) .conflict]
  else if w = 40 then
    let pool := qlRxPoolUnits.of v
    firstStatus [needs (fieldIn mask v qlRxPoolUnits 2048 32767 && fieldIn mask v qlErrThreshold 1 65535
        && fieldIn mask v qlCreditTimeoutUs 1 255),
      must (!covers mask qlRxPoolUnits || decide (pool ≤ 2048) || s1.fld portSpillEnable p = 1) .conflict,
      must (!covers mask qlRxPoolUnits || decide (pool ≤ 2048) || poolOk s1) .nores]
  else if w = 42 then
    let per := qlCalPeriodLog2.of v
    let either := covers mask qlCalPeriodLog2 || covers mask qlCalPhase
    needs (fieldIn mask v qlCalPeriodLog2 26 40 && fieldIn mask v qlMinWidth 0 4
      && (!either || decide (qlCalPhase.of v < 2 ^ (per - 16))))
  else .ok

/-- A lane is out of service: its receiver or transmitter reads so, or tests (R297). -/
def State.laneIsOut (s : State) (l : Nat) : Bool :=
  s.lfld laneRxState l = 6 || s.lfld laneTxState l = 6 || s.lfld laneRxState l = 4 || s.lfld laneTxState l = 4

/-- A lane runs a loop or a pattern (R298, R299). -/
def State.laneTests (s : State) (l : Nat) : Bool :=
  s.lfld laneLoop l ≠ 0 || s.lfld laneGenPattern l ≠ 0 || s.lfld laneCheckPattern l ≠ 0

/-- The role of the port that a lane serves; off for a spare without a link. -/
def State.laneRole (s : State) (l : Nat) : Nat := match s.linkOfLane l with | some (p, _) => s.role p | none => roleOff

/-- Rules of the `Lane` image (R287, R297 to R299). -/
def laneRule (s0 : State) (sel w : Nat) (v mask : Word) : Status :=
  let l := laneOfSel sel
  if w = 1 then
    let t := laneTargetState.of v
    let p := laneLinkPort.of v
    firstStatus [needs ((!covers mask laneTargetState || t = 0 || t = 2) && (!covers mask laneLinkPort || p < 144 || p = 255)),
      must (!covers mask laneTargetState || t ≠ 0 || !s0.laneTests l) .conflict]
  else if w = 2 then
    firstStatus [needs (fieldIn mask v laneTxPre 0 16 && fieldIn mask v laneTxPost 0 24 && decide (laneTxPre.of v + laneTxPost.of v ≤ 28)),
      must (s0.laneRole l ≠ roleHost && s0.laneRole l ≠ roleDevice) .conflict]
  else if w = 4 then
    let setup := covers mask laneLoop || covers mask laneGenPattern || covers mask laneCheckPattern
    firstStatus [needs (fieldIn mask v laneLoop 0 3 && fieldIn mask v laneGenPattern 0 6 && fieldIn mask v laneCheckPattern 0 6),
      must (!setup || s0.laneIsOut l) .conflict]
  else .ok

/-- The members of a group, as `rd` shows its words: level and port of each (Table 5-4). -/
def memberList (rd : Nat → Word) (n : Nat) : List (Nat × Nat) :=
  (List.range n).map (fun m =>
    let b := bitsOf (rd (1 + m / 4)) (16 * (m % 4)) 16
    (b / 256 % 4, b % 256))

/-- Levels never fall from one member to the next, and a port appears more than once only at different levels (R125). -/
def membersOk : List (Nat × Nat) → Bool
  | [] => true
  | m :: ms => (match ms with | [] => true | n :: _ => decide (m.1 ≤ n.1)) && !ms.contains m && membersOk ms

/-- Rules of the `PathGroup` image (R125), on its members after the write. -/
def groupRule (rd : Nat → Word) : Status :=
  let n := grpMemberCount.of (rd 0)
  firstStatus [needs (decide (n ≤ 64)), must ((memberList rd n).all (fun m => m.2 < 144)) .noobj, needs (membersOk (memberList rd n))]

/-- Rules of the `HostView` image (R179). -/
def viewRule (s0 : State) (sel : Nat) (v mask : Word) : Status :=
  let p := viewPort.of v
  let moved := p ≠ s0.fld viewPort sel || viewOwnerTenant.of v ≠ s0.fld viewOwnerTenant sel
  let named := p = 255 || (decide (p < 144) && s0.role p = roleHost && decide (s0.lane0 p = p)
    && !(s0.viewsOpen.any (fun u => decide (u ≠ sel) && decide (s0.portOfView u = p))))
  firstStatus [must (!covers mask viewPort || named) .conflict, must (!moved || (!s0.viewUp sel && s0.virtualPorts sel = 0)) .conflict]

/-- Rules of `CmWindow` word 0 (R197). -/
def windowRule (s0 : State) (v mask : Word) : Status :=
  let d := winHomeDevice.of v
  must (!(covers mask winRemote || covers mask winHomeDevice) || winRemote.of v = 0 || (d ≠ s0.fabricId && s0.routeExists d)) .noobj

/-- The ranges of a meter's words 0 to 2 (Table 6-3). -/
def meterOk (rd : Nat → Word) : Bool :=
  let mode := meterMode.of (rd 0)
  let cir := meterCirKbps.of (rd 0)
  let pir := meterPirKbps.of (rd 1)
  let ebs := meterExcessBurstBytes.of (rd 2)
  let cbs := meterCommittedBurstBytes.of (rd 2)
  if mode = 0 then pir = 0
  else if mode = 1 then
    decide (64 ≤ cir) && pir = 0 && inRange cbs 4224 268435456 && (ebs = 0 || inRange ebs 4224 268435456)
  else if mode = 2 then decide (64 ≤ cir) && decide (cir ≤ pir) && inRange cbs 4224 268435456 && inRange ebs 4224 268435456
  else false

/-- The ranges of a queue's words 0 to 2 (Table 6-2). -/
def schedOk (sel : Nat) (rd : Nat → Word) : Bool :=
  let q := sel / 256
  let wt := sqWeight.of (rd 0)
  let bc := sqBurstCells.of (rd 0)
  let kb := sqShapeKbps.of (rd 1)
  (if q < 4 then wt = 0 && (bc = 0 || inRange bc 66 1048510)
   else decide (wt ≤ 1024) && inRange bc 66 1048510 && decide (wt * 66 ≤ bc))
  && (2 ≤ q || kb = 0) && (kb = 0 || inRange (sqBurstBytes.of (rd 2)) 4224 268435456)

/-- Rules of `Slot` words 0 to 2 (R368, R378, R379). -/
def slotRule (s0 s1 : State) (n w : Nat) (rd : Nat → Word) (mask : Word) : Status :=
  let v := rd w
  if w = 2 then
    needs ((!covers mask slotTargetState || slotTargetState.of v = 0 || slotTargetState.of v = 2)
      && (!covers mask slotPort || slotPort.of v < 144 || slotPort.of v = 255))
  else if w ≤ 1 then firstStatus [needs (slotRangesOk (rd 0) (rd 1)), must (!s0.slotCounts n || s1.budgetHolds) .nores]
  else .ok

/-- Rules of the `Feed` image (R381). -/
def feedRule (s0 : State) (f w : Nat) (v mask : Word) : Status :=
  if w = 0 then
    let t := feedTargetState.of v
    firstStatus [needs (fieldIn mask v feedUvMv 9000 11500 && fieldIn mask v feedOvMv 12500 14000 && fieldIn mask v feedFwdMv 10 50
        && (!covers mask feedTargetState || t = 0 || t = 2)),
      must (!covers mask feedTargetState || t = 0 || s0.feedOn (1 - f)) .conflict]
  else if w = 2 then needs (fieldIn mask v feedShuntTenUohm 5 1000)
  else .ok

/-- Rules of the `Budget` image (R384). -/
def budgetRuleOf (s1 : State) (w : Nat) (v mask : Word) : Status :=
  if w = 0 then needs (fieldIn mask v budLanesPer2us 1 608 && fieldIn mask v budSlotOnsMax 1 64)
  else needs (s1.budgetRule (budBoardW.of v))

/-- Rules of the `TideUnit` image (R330). -/
def tideRule (s0 : State) (w : Nat) (v mask : Word) : Status :=
  if w = 0 then
    let p := tideSourcePort.of v
    needs (fieldIn mask v tideStepThresholdNs 100 65535
      && (!(covers mask tideSource || covers mask tideSourcePort)
        || (if tideSource.of v = 2 then decide (p < 144) && s0.role p = roleHost && decide (s0.lane0 p = p)
            else if tideSource.of v = 3 then decide (p < 144) && s0.role p = roleFabric && decide (s0.lane0 p = p)
            else decide (p < 144) || p = 255)))
  else .ok

/-- Rules of `BufferBank` word 1 (R115, Table 4-7a). -/
def bankRule (s0 : State) (b : Nat) (v mask : Word) : Status :=
  let t := bankTargetState.of v
  firstStatus [needs (!covers mask bankTargetState || t = 0 || t = 2),
    must (!covers mask bankTargetState || t ≠ 2 || (s0.bankOut b).isSome) .nores,
    must (!covers mask bankTargetState || t ≠ 0 || (s0.bankBack b).isSome) .conflict,
    must (bankTest.of v = 0 || !covers mask bankTest || (s0.bankTestStart b).isSome) .conflict]

/-- A channel may leave service: at least 4 stay (R26). -/
def State.channelMayLeave (s : State) (c : Nat) : Bool :=
  !s.sdramUp.contains c || s.sdram.migrating.contains c || decide (5 ≤ s.sdramUp.length - s.sdram.migrating.length)

/-- Rules of `SdramChannel` word 1 (R26; layout of log entry 9). -/
def channelRule (s0 : State) (c : Nat) (v : Word) : Status :=
  let t := bitsOf v 0 2
  firstStatus [needs (t = 0 || t = 2), must (t = 0 || s0.channelMayLeave c) .nores]

/-- Rules of the `SnapshotSet` image (R392). -/
def snapRule (s0 s1 : State) (sel : Nat) : Status :=
  firstStatus [must (s0.base snapState sel = 0) .conflict,
    needs (decide (s1.base snapRangeCount sel ≤ 64) && (s1.snapRanges sel).all rangeOk
      && (List.range 64).all (fun k => decide (s1.base (snapCount.up k) sel ≤ 65536)))]

/-- The rules that bind a written word: `s0` before and `s1` after the write, `rd` the object's words after it, `mask` the bits written.
The written word is `v`, its write-only bits included. -/
def wordRule (s0 s1 : State) (rd : Nat → Word) (cls sel w : Nat) (v mask : Word) : Status :=
  if cls = cDevice then deviceRule s0 s1 w v mask
  else if cls = cPort then portRule s0 s1 sel w v mask
  else if cls = cLane then laneRule s0 sel w v mask
  else if cls = cRoute then must (!covers mask routePathGroup || routePathGroup.of v < 16384) .noobj
  else if cls = cPathGroup then groupRule rd
  else if cls = cHostView then viewRule s0 sel v mask
  else if cls = cCmWindow then (if w = 0 then windowRule s0 v mask else .ok)
  else if cls = cMeter then (if w ≤ 2 then needs (meterOk rd) else .ok)
  else if cls = cSchedQueue then (if w ≤ 2 then needs (schedOk sel rd) else .ok)
  else if cls = cSlot then slotRule s0 s1 sel w rd mask
  else if cls = cFeed then feedRule s0 sel w v mask
  else if cls = cBudget then budgetRuleOf s1 w v mask
  else if cls = cTideUnit then tideRule s0 w v mask
  else if cls = cBufferBank then bankRule s0 sel v mask
  else if cls = cSdramChannel then channelRule s0 sel v
  else if cls = cSnapshotSet then snapRule s0 s1 sel
  else .ok

/-! ## What a written word does -/

/-- `ShapeKbps`, `Mode` and the tokens (R161, R169). -/
def State.meterDone (s1 s0 : State) (m : Nat) : State :=
  if s1.fld meterMode m ≠ s0.fld meterMode m then
    let s2 := (s1.put meterTokensC m 0).put meterTokensEP m 0
    { s2 with core := { s2.core with meterFrac := tput 0 (tput 0 s2.core.meterFrac (2 * m) 0) (2 * m + 1) 0 } }
  else s1.setLevels m (fillTo (s1.fld meterCommittedBurstBytes m) (s1.levelC m)).1 (fillTo (s1.fld meterExcessBurstBytes m) (s1.levelE m)).1

/-- `ClearCounts` (R168, R389). -/
def State.meterClear (s : State) (m : Nat) : State :=
  (List.range 4).foldl (fun s n => s.clearCounter (ctrId 0x05 4 m n)) s

/-- A ring stops: its staged records are discarded, and its sequence starts at 0 again (Table 16-6). -/
def State.ringStop (s : State) (r : Nat) : State :=
  { s with counters := { s.counters with
      staged := s.counters.staged.filter (fun e => decide (e.ring ≠ r))
      ringSeq := tput 0 s.counters.ringSeq r 0
      ringOverflow := s.counters.ringOverflow.filter (fun x => decide (x ≠ r)) } }

/-- A committed write of `Device` (R341, R345, R397). -/
def State.deviceDone (s1 s0 : State) (w : Nat) (v mask : Word) : State :=
  if w = 12 then
    (if rstAction.of v = 1 ∧ covers mask rstAction then
      (if s1.power.resetDue.isSome then s1 else { s1 with power := { s1.power with resetDue := some (s1.now + 1000000), resetProg := none } })
     else if rstAction.of v = 2 ∧ covers mask rstAction then { s1 with power := { s1.power with downAsked := true } }
     else s1)
  else if 16 ≤ w ∧ w ≤ 31 ∧ w % 2 = 1 then
    let r := (w - 16) / 2
    if s0.fld (ringFld ringEnable r) 0 = 1 ∧ s1.fld (ringFld ringEnable r) 0 = 0 then s1.ringStop r else s1
  else s1

/-- A committed write of `Port` by `OWRITE` (R177, R178, R295). -/
def State.portDone (s1 s0 : State) (p w : Nat) : State :=
  if w = 33 ∧ s1.fld portSharedMeter p ≠ s0.fld portSharedMeter p then
    let born := s1.tenancy.born.filter (fun e => decide (e ≠ (4, 0, p)))
    { s1 with tenancy := { s1.tenancy with born := if s1.fld portSharedMeter p = 0 then born else (4, 0, p) :: born } }
  else if w = 42 ∧ (s1.fld qlCalPeriodLog2 p ≠ s0.fld qlCalPeriodLog2 p ∨ s1.fld qlCalPhase p ≠ s0.fld qlCalPhase p) then
    s1.windowTaken p
  else s1

/-- A new check pattern: the checker synchronises itself anew (R299). -/
def State.prbsStop (s : State) (l : Nat) : State :=
  (s.lput laneCheckLock l 0).setLaneRun { s.laneRun l with checkBits := [], checkRun := 0 }

/-- Loops and patterns of a lane out of service: state 4 in the directions that they use, else 6 (R299). -/
def State.laneSetup (s : State) (l : Nat) : State :=
  let loop := s.lfld laneLoop l ≠ 0
  let rx := if loop || s.lfld laneCheckPattern l ≠ 0 then 4 else 6
  let tx := if loop || s.lfld laneGenPattern l ≠ 0 then 4 else 6
  (s.lput laneRxState l rx).lput laneTxState l tx

/-- A spare serves another link, or none (R289): only a fabric port of its own tile (R19). -/
def State.spareMoved (s : State) (l : Nat) : State :=
  let s1 := s.laneOff l
  if isSpare l && (s1.linkOfLane l).isSome then (s1.askGrants [l]).laneAcquire l else s1

/-- A committed write of `Lane` (R287 to R300). -/
def State.laneDone (s1 s0 : State) (sel w : Nat) (v mask : Word) : State :=
  let l := laneOfSel sel
  if w = 1 then
    let s2 := if isSpare l && (s1.fld laneLinkPort sel ≠ s0.fld laneLinkPort sel || s1.fld laneLinkSpare sel ≠ s0.fld laneLinkSpare sel)
      then s1.spareMoved l else s1
    if covers mask laneTargetState && s2.fld laneTargetState sel ≠ s0.fld laneTargetState sel then
      (if s2.fld laneTargetState sel = 2 then s2.laneOut l else s2.laneBack l)
    else s2
  else if w = 2 then
    (s1.lput laneTxMain l (64 - laneTxPre.of v - laneTxPost.of v)).lput laneSeedSource l 2
  else if w = 4 then
    let setup := covers mask laneLoop || covers mask laneGenPattern || covers mask laneCheckPattern
    let s2 := if covers mask laneCheckPattern then s1.prbsStop l else s1
    let s2 := if covers mask laneGenPattern then s2.setLaneRun { s2.laneRun l with genBits := [] } else s2
    let s3 := if setup then s2.laneSetup l else s2
    if laneClearCheck.of v = 1 ∧ covers mask laneClearCheck then (s3.lput laneCheckedBits l 0).lput laneErrorBits l 0 else s3
  else if w = 7 then
    (if laneMarginGo.of v = 1 ∧ covers mask laneMarginGo then
      (s1.lput laneMarginDone l 0).setLaneRun { s1.laneRun l with measuring := true }
     else s1)
  else s1

/-- A committed write of `PathGroup`: a new member list makes the group active (R131), once for all words written in one clock. -/
def State.groupDone (s1 s0 : State) (g : Nat) : State :=
  if tget 0 s1.fabric.coldUntil g ≠ s1.now + 100000 && (List.range 17).any (fun w => decide (s1.effWord cPathGroup g w ≠ s0.effWord cPathGroup g w)) && s1.fld grpMemberCount g ≠ 0 then
    s1.activateGroup g
  else s1

/-- A committed write of `HostView` (R179, R306, R312). A queue that is no longer granted keeps its registers, which read as zero and ignore
writes meanwhile (R33; DEDUCED, log entry 34). -/
def State.viewDone (s1 : State) : State := (s1.showHosts).notify

/-- A committed write of `Slot` (R369, R377, R378). -/
def State.slotWordDone (s1 s0 : State) (n w : Nat) (v mask : Word) : State :=
  if w = 2 then
    let s2 := if s1.fld slotAttnOut n ≠ s0.fld slotAttnOut n then s1.slotPin .attn n (s1.fld slotAttnOut n = 0) else s1
    let s3 := if slotClearEnergy.of v = 1 ∧ covers mask slotClearEnergy then
        (s2.put slotEnergyUj n 0).setSlotRun { s2.slotRun n with frac := 0 } else s2
    let s4 := if covers mask slotTargetState && s3.fld slotTargetState n ≠ s0.fld slotTargetState n then
        (if s3.fld slotTargetState n = 2 then s3.slotOutNow n else s3.slotBackNow n) else s3
    let s5 := if slotTest.of v = 1 ∧ covers mask slotTest then s4.slotTestStart n else s4
    if slotAutoOn.of v = 1 ∧ covers mask slotAutoOn then s5.slotAutoOnNow n else s5
  else if w ≤ 1 then s1.slotLimitsDone s0 n
  else s1

/-- A committed write of `BufferBank` word 1 (Table 4-7a). -/
def State.bankDone (s1 : State) (b : Nat) (v mask : Word) : State :=
  let t := bankTargetState.of v
  let s2 := if covers mask bankTargetState then (if t = 2 then (s1.bankOut b).getD s1 else (s1.bankBack b).getD s1) else s1
  if bankTest.of v = 1 ∧ covers mask bankTest then (s2.bankTestStart b).getD s2 else s2

/-- A committed write of `SdramChannel` word 1: the channel's contents begin to migrate, or it returns (R26). -/
def State.channelDone (s1 : State) (c : Nat) (v : Word) : State :=
  if bitsOf v 0 2 = 2 then
    (if s1.sdramUp.contains c && !s1.sdram.migrating.contains c then
      { s1 with sdram := { s1.sdram with migrating := s1.sdram.migrating ++ [c] } } else s1)
  else { s1 with sdram := { s1.sdram with
      migrating := s1.sdram.migrating.filter (fun x => decide (x ≠ c)), outOfService := s1.sdram.outOfService.filter (fun x => decide (x ≠ c)) } }

/-- What a committed write of a word does beside storing it; `mask` covers only bits that are in effect. -/
def State.wordDone (s1 s0 : State) (cls sel w : Nat) (v mask : Word) : State :=
  if cls = cDevice then s1.deviceDone s0 w v mask
  else if cls = cPort then s1.portDone s0 sel w
  else if cls = cLane then s1.laneDone s0 sel w v mask
  else if cls = cPathGroup then (if w ≤ 16 then s1.groupDone s0 sel else s1)
  else if cls = cHostView then s1.viewDone
  else if cls = cMeter then
    (if w = 3 then (if meterClearCounts.of v = 1 ∧ covers mask meterClearCounts then s1.meterClear sel else s1) else s1.meterDone s0 sel)
  else if cls = cSchedQueue then
    (if w = 1 ∧ s0.fld sqShapeKbps sel = 0 ∧ s1.fld sqShapeKbps sel ≠ 0 then 
      ({ s1 with core := { s1.core with shaperFrac := tput 0 s1.core.shaperFrac sel 0 } } : State).put sqShapeTokens sel 0 else s1)
  else if cls = cSlot then s1.slotWordDone s0 sel w v mask
  else if cls = cFeed then
    (if w = 0 ∧ covers mask feedTargetState then s1.feedTarget sel (s1.fld feedTargetState sel) else s1)
  else if cls = cTideUnit then
    (if w = 0 ∧ (s1.fld tideSource 0 ≠ s0.fld tideSource 0 ∨ s1.fld tideSourcePort 0 ≠ s0.fld tideSourcePort 0) then s1.tideSourceChanged
     else if w = 0 ∧ covers mask tidePpsSeconds then { s1 with clock := { s1.clock with firstEdge := true } } else s1)
  else if cls = cBufferBank then s1.bankDone sel v mask
  else if cls = cSdramChannel then s1.channelDone sel v
  else if cls = cSnapshotSet then s1.put snapTotalCount sel (s1.snapTotal sel)
  else s1

end Sys2Proof.Machine
end

