-- ==== Sys2Proof/Machine/Instrs.lean ====
section
/-! DEFINITION. Object instructions on images (R57): reads, writes, queries, and the instructions that set a port, a route, a path
group, a gate entry, a meter or a queue. -/

namespace Sys2Proof.Machine

/-! ## Writing words -/

/-- One image word that an instruction writes: the bits of `mask` take those of `value`. -/
structure Written where
  word : Nat
  value : Word
  mask : Word
  deriving DecidableEq, Repr

/-- The word after a write, its write-only bits included. -/
def State.newWord (s : State) (cls sel : Nat) (x : Written) : Word :=
  (s.baseWord cls sel x.word &&& ~~~ x.mask) ||| (x.value &&& x.mask)

/-- Stores written words as base values (R86). -/
def State.storeWords (s : State) (cls sel : Nat) (xs : List Written) : State :=
  xs.foldl (fun t x => t.putWord cls sel x.word (storedWord cls x.word (s.baseWord cls sel x.word) (s.newWord cls sel x) x.mask)) s

/-- The status of a write of several words of one object: the first rule that one of them breaks. -/
def State.checkWords (s : State) (cls sel : Nat) (xs : List Written) : Status :=
  let s1 := s.storeWords cls sel xs
  let rd := fun w => match xs.find? (fun x => decide (x.word = w)) with | some x => s.newWord cls sel x | none => s.baseWord cls sel w
  firstStatus (xs.map (fun x => wordRule s s1 rd cls sel x.word (s.newWord cls sel x) x.mask))

/-- The written bits that take effect at once: those that the overlay in effect does not shadow (R86). -/
def State.openMask (s : State) (cls sel w : Nat) (mask : Word) : Word :=
  match s.shadowOf cls sel w with
  | none => mask
  | some h => mask &&& ~~~ h.mask

/-- Commits written words: their values, and what each word does. -/
def State.applyWords (s : State) (cls sel : Nat) (xs : List Written) : State :=
  xs.foldl (fun t x => t.wordDone s cls sel x.word (s.newWord cls sel x) (s.openMask cls sel x.word x.mask)) (s.storeWords cls sel xs)

/-- The object, if a commit changed its image (R44). -/
def State.changedObj (t s : State) (cls sel : Nat) : List Nat :=
  if (List.range (imageWords cls)).any (fun w => decide (t.baseWord cls sel w ≠ s.baseWord cls sel w)) then [okey cls sel] else []

/-- The tenant at which a NORES of a write counts: the owner of a port whose shared meters exceed its quota (R177). -/
def State.writeBlame (s : State) (cls sel : Nat) (xs : List Written) : Option Nat :=
  let s1 := s.storeWords cls sel xs
  if cls = cPort && !metersOk s s1 sel then some (s1.portOwner sel) else none

/-- A write of several words of one object. -/
def State.writeOp (s : State) (cls sel : Nat) (xs : List Written) : OpRes :=
  match s.checkWords cls sel xs with
  | .ok =>
    let t := s.applyWords cls sel xs
    opOk t (t.changedObj s cls sel)
  | .nores => ⟨.nores, s, none, [], s.writeBlame cls sel xs⟩
  | st => opBad s st

/-! ## OREAD, OWRITE, OCAS (R57) -/

/-- `OREAD`. -/
def State.opOread (s : State) (cls sel : Nat) (r : ObjReq) : OpRes :=
  let i := r.b 1 0 16
  if !s.objExists cls sel then opBad s .noobj
  else if s.imageLen cls sel ≤ i then opBad s .badop
  else if fOpt r.iflags then opDst s [] (word (s.version (okey cls sel)))
  else opDst (s.afterRead cls sel i) [] (s.imageWord cls sel i)

/-- A write of `FabricId` with a value above 4,095 (R61). -/
def fabricIdTooHigh (cls i : Nat) (value mask : Word) : Bool :=
  decide (cls = cDevice) && decide (i = 0) && covers mask devFabricId && decide (bitsOf (value &&& mask) 12 20 ≠ 0)

/-- `OWRITE`: the bits of the mask that the word lets be written; the others are ignored (R8). -/
def State.opOwrite (s : State) (cls sel : Nat) (r : ObjReq) : OpRes :=
  let i := r.b 1 0 16
  if !s.objExists cls sel then opBad s .noobj
  else if s.imageLen cls sel ≤ i || rwMask cls i = 0 || fabricIdTooHigh cls i (r.w 2) (r.w 3) then opBad s .badop
  else s.writeOp cls sel [⟨i, r.w 2, r.w 3 &&& word (rwMask cls i)⟩]

/-- `OCAS`: compares a whole word and writes a whole word. `Dst` receives the previous word, also on CONFLICT (R40). A read-only word ends
it with BADOP as it does `OWRITE` (DEDUCED, log entry 50). -/
def State.opOcas (s : State) (cls sel : Nat) (r : ObjReq) : OpRes :=
  let i := r.b 1 0 16
  if !s.objExists cls sel then opBad s .noobj
  else if s.imageLen cls sel ≤ i || rwMask cls i = 0 then opBad s .badop
  else
    let old := s.imageWord cls sel i
    if old ≠ r.w 2 then ⟨.conflict, s.afterRead cls sel i, some old, [], none⟩
    else if fabricIdTooHigh cls i (r.w 3) 0xFFFFFFFF then opBad s .badop
    else
      let o := s.writeOp cls sel [⟨i, r.w 3, word (rwMask cls i)⟩]
      { o with dst := if o.status = .ok then some old else none }

/-! ## QUERY (R59) -/

/-- A selector that names an object of its class. -/
def selValid (cls sel : Nat) : Bool := decide (sel ≤ selMask cls) && selInRange cls sel

/-- Classes of which few objects exist. -/
def sparseClass (cls : Nat) : Bool := [cTenant, cQueuePair, cCompletionQueue, cOverlay, cFaultRecord].contains cls

/-- Selectors of a sparse class that may exist. -/
def State.maybeSels (s : State) (cls : Nat) : List Nat :=
  if cls = cOverlay then s.overlays.map (·.index)
  else if cls = cFaultRecord then s.faults.recs.map (fun r => r.id % 65536)
  else s.selsOf cls

/-- The least of a list of selectors from `i` on that exists. -/
def State.leastFrom (s : State) (cls i : Nat) (ks : List Nat) : Option Nat :=
  firstBad (ks.filter (fun k => decide (i ≤ k) && s.objExists cls k))

/-- The first valid selector from `i` on, of a class all of whose objects exist. -/
def denseFrom (cls i : Nat) : Option Nat :=
  if selValid cls i then some i
  else
    let g := if cls = cRoute then 65536 else 256
    let j := if cls = cRoute ∧ i % 65536 < 255 then i / 65536 * 65536 + 255 else (i / g + 1) * g
    if [cLane, cRoute, cSchedQueue].contains cls && selValid cls j then some j else none

/-- The first object of a class from selector `i` on that exists. -/
def State.nextObj (s : State) (cls i : Nat) : Option Nat :=
  if sparseClass cls then s.leastFrom cls i (s.maybeSels cls)
  else if cls = cFunction then
    (match (if i < homeSel 0 then s.leastFrom cls i ((s.selsOf cls).filter (fun f => !isHome f)) else none) with
      | some f => some f
      | none => if max i (homeSel 0) < homeSel 16384 then some (max i (homeSel 0)) else none)
  else denseFrom cls i

/-- The words of an image, read in order. -/
def State.readWords (s : State) (cls sel : Nat) : List Nat → List Word × State
  | [] => ([], s)
  | w :: ws =>
    let r := (s.afterRead cls sel w).readWords cls sel ws
    (s.imageWord cls sel w :: r.1, r.2)

/-- The records of a query: at most `n` objects from selector `i` on, and words for the buffer that is left. A level-1 query stops at the first object
outside its view (DESIGN CHOICE, log entry 113). -/
def State.queryFrom (r : ObjReq) (cls : Nat) : Nat → Nat → Nat → State → List Word × Nat × State
  | 0, _, _, s => ([], 0, s)
  | n + 1, i, room, s =>
    match s.nextObj cls i with
    | none => ([], 0, s)
    | some k =>
      let len := s.imageLen cls k
      if s.deniedObj r cls k || decide (room < 16 + 8 * len) then ([], 0, s)
      else
        let img := s.readWords cls k (List.range len)
        let rest := State.queryFrom r cls n (k + 1) (room - (16 + 8 * len)) img.2
        (word cls :: word (k + s.version (okey cls k) * 4294967296) :: img.1 ++ rest.1, rest.2.1 + 1, rest.2.2)

/-- `QUERY`. A program of the management-port queue or of the base configuration has no host memory to write to. -/
def State.opQuery (s : State) (cls sel : Nat) (r : ObjReq) : OpRes :=
  if r.source = 2 || r.source = 4 || 96 ≤ r.view then opBad s .badop
  else
    let q := State.queryFrom r cls (r.b 2 0 24) sel (r.w 3).toNat s
    let t := if q.2.1 = 0 then q.2.2 else q.2.2.hostWrite r.issuerDev r.view (r.w 1).toNat q.1
    opDst t [] (word q.2.1)

/-! ## PORTCFG (R11 to R13, R105, R259, R267, R271) -/

/-- Values of word 0 that no rule refuses as such: the codes of Table 2-9, and the rates of a fabric port (R259). -/
def cfgWordOk (w : Word) : Bool :=
  decide (portRole.of w ≤ 3) && decide (portWidth.of w ≤ 4) && decide (portMaxRate.of w ≤ 6) && decide (portClockMode.of w ≤ 2)
  && (decide (portRole.of w ≠ roleFabric) || portMaxRate.of w = 5 || portMaxRate.of w = 6)

/-- A link of `n` ports is aligned on `p` and lies in one tile (R11). -/
def alignedOn (p n : Nat) : Bool := decide (p % n = 0) && decide ((p + n - 1) / 18 = p / 18)

/-- Every link of the state is aligned, and all its ports read alike (R11, R12). -/
def State.linksAgree (s : State) : Status :=
  let ps := (s.selsOf cPort).filter (fun p => s.role p ≠ roleOff)
  firstStatus [needs (ps.all (fun p => cfgWordOk (s.effWord cPort p 0) && alignedOn (s.lane0 p) (portsOfWidth (s.fld portWidth p)))),
    must (ps.all (fun p => (s.linkPorts (s.lane0 p)).all (fun q => s.effWord cPort q 0 = s.effWord cPort p 0))) .conflict]

/-- The ports that a `PORTCFG` on lane-0 port `p` affects: those of the link before and after, as the base values have it, which the instruction changes
(R86). -/
def State.cfgSpan (s : State) (p : Nat) (w : Word) : List Nat :=
  (List.range (max (portsOfWidth (portWidth.of w)) (portsOfWidth (s.base portWidth p)))).map (p + ·)

/-- Word 0 of every affected port after a `PORTCFG`: those that leave the link take the cold-reset value (R12). -/
def State.cfgWords (s : State) (p : Nat) (w : Word) : List (Nat × Word) :=
  (s.cfgSpan p w).map (fun q => (q, if q < p + portsOfWidth (portWidth.of w) then w else coldWord cPort q 0))

/-- Stores word 0 of several ports. -/
def State.putCfg (s : State) (ws : List (Nat × Word)) : State := ws.foldl (fun t (e : Nat × Word) => t.putWord cPort e.1 0 e.2) s

/-- A port has a link that a change of role or width would cut (R12); a fabric link in Retrain or Resize counts (DEDUCED, log entry 56). -/
def State.hasLink (s : State) (p : Nat) : Bool := s.linkUp p || s.linkRuns p

/-- How a change of word 0 meets the link of a lane-0 port. -/
inductive CfgMove where
  /-- Nothing that the link runs by changes now. -/
  | keep
  /-- Another role or width, or another rate of a fabric link that is Down: the port starts again. -/
  | restart
  /-- An Active fabric link is to run at another width or rate (R271). -/
  | resize
  deriving DecidableEq, Repr

/-- The move between the word-0 fields before and after. -/
def State.cfgMove (s : State) (p role width rate : Nat) : CfgMove :=
  let fab := s.role p = roleFabric && role = roleFabric
  if role ≠ s.role p then .restart
  else if fab && s.ql p = qlActive then
    (if width = s.fld qlActiveWidth p ∧ rate = s.fld qlActiveRate p then .keep else .resize)
  else if width = s.fld portWidth p && (!fab || rate = s.fld portMaxRate p) then .keep
  else if fab && s.ql p ≠ qlDown then .keep
  else .restart

/-- Taps that the equalisation procedure set do not outlast an edge link: the lanes take starting settings anew (R288). -/
def State.forgetTaps (s : State) : List Nat → State
  | [] => s
  | l :: ls => (((((s.lput laneTxPre l 0).lput laneTxPost l 0).lput laneTxMain l 0).lput laneCtleCode l 0).lput laneDfeTap1 l 0).forgetTaps ls

/-- A port without a link leaves its role or width: its lanes stop. -/
def State.portLeave (s : State) (p : Nat) : State :=
  if s.role p = roleFabric then
    let s1 := s.toDown p
    if (s.qlp p).failure = 0 then { s1 with quay := s1.quay.filter (fun (r : QlPort) => decide (r.port ≠ p)) } else s1
  else if s.role p = roleOff then s
  else ((s.lanesOff (s.edgeLanes p)).forgetTaps (s.edgeLanes p)).put portLinkState p 0

/-- A port begins in its role and width: it brings its link up if it is enabled; else it shows Disabled or out of service. -/
def State.portJoin (s : State) (p : Nat) : State :=
  if s.role p = roleOff then s
  else if s.portEnabled p then s.portBringUp p
  else if s.role p = roleFabric then s
  else s.put portLinkState p (if s.lanes.outOfService.contains p then 11 else if s.lanes.disabled.contains p then 8 else 0)

/-- An Active link asks its partner for its new settings (R271). -/
def State.askResize (s : State) (p rate width : Nat) : State :=
  s.setQlp { s.qlp p with wanted := some (rate, width), byWindow := false }

/-- A fabric link that narrows while it runs keeps the lanes of the ports that leave it (R12). -/
def State.keepCarry (s : State) (p width : Nat) : State :=
  if s.linkRuns p && decide (width < s.linkWidth p) then s.setQlp { s.qlp p with carry := s.linkWidth p } else s

/-- Commits new values of word 0, of one link: `f` stores them. -/
def State.cfgApply (s : State) (p role width rate : Nat) (f : State → State) : State :=
  match s.cfgMove p role width rate with
  | .keep => f (s.keepCarry p width)
  | .restart => (f (s.portLeave p)).portJoin p
  | .resize => (f (s.keepCarry p width)).askResize p rate width

/-- The resource limits on word 0 of all ports: 96 host ports (R13), 16 that may spill (R20), and the shared pool (R105). -/
def cfgFits (s1 : State) : Bool :=
  decide ((allPorts.filter (fun q => s1.role q = roleHost)).length ≤ 96)
  && decide ((allPorts.filter (fun q => s1.fld portSpillEnable q = 1)).length ≤ 16) && poolOk s1

/-- The status of new values of word 0 on lane-0 port `p`. The base values say which ports the link has; what binds links and resources looks at
the values then in effect (R86). -/
def State.cfgCheck (s : State) (p : Nat) (w : Word) : Status :=
  let n := portsOfWidth (portWidth.of w)
  let old := portsOfWidth (s.base portWidth p)
  let ws := s.cfgWords p w
  let t := s.putCfg ws
  firstStatus [needs (cfgWordOk w), must (p % old = 0) .conflict, needs (alignedOn p n),
    must ((s.cfgSpan p w).all (fun q => decide (q < p + old) || s.base portRole q = roleOff)) .conflict,
    must (!s.hasLink p || (t.role p = s.role p && (t.role p = roleFabric || decide (t.fld portWidth p = s.fld portWidth p)))) .conflict,
    must ((s.cfgSpan p w).all (fun q => t.role q = s.role q || t.role q = roleOff
      || (s.carriedLink q).all (fun c => c = p && t.role q = roleFabric))) .conflict,
    must (ws.all (fun e => portSpillEnable.of e.2 = 1 || decide (s.fld qlRxPoolUnits e.1 ≤ 2048))) .conflict,
    must (s.activeOverlay.isNone || t.linksAgree = .ok) .conflict,
    must (cfgFits t) .nores]

/-- `PORTCFG`. -/
def State.opPortCfg (s : State) (p : Nat) (r : ObjReq) : OpRes :=
  let w := r.w 1 &&& 0xFFFF
  match s.cfgCheck p w with
  | .ok =>
    if (s.cfgSpan p w).any (fun q => s.objContained cPort q) then opBad s .faulted
    else
      let ws := s.cfgWords p w
      let t0 := s.putCfg ws
      let t := (s.cfgApply p (t0.role p) (t0.fld portWidth p) (t0.fld portMaxRate p) (fun x => x.putCfg ws)).showHosts
      opOk t ((s.cfgSpan p w).flatMap (fun q => t.changedObj s cPort q))
  | st => opBad s st

/-! ## PORTSTATE and WITHDRAW (R314, R426, R145) -/

/-- A retrain of an edge link: it enters Recovery; from L1 its lanes take grants anew. -/
def State.edgeRetrain (s : State) (p : Nat) : State :=
  let s1 := ((s.put portLinkState p 5).put portL1Sub p 0).addSat portRetrainCount p 1
  if s.fld portLinkState p = 6 then
    ((s.edgeLanes p).foldl (fun (t : State) l => t.setLaneRun { t.laneRun l with granted := false }) s1).askGrants (s.edgeLanes p)
  else s1

/-- A hot reset of a device port (R314): the link and every function below are reset, outstanding entries are closed with Completer Abort, and
every view sees the virtual link inactive until the link returns. -/
def State.portHotReset (s : State) (p : Nat) : State :=
  let s1 := ((s.emit (.hotReset p)).edgeDown p 9).closeLink p
  (s1.fnsBelow p).foldl (fun (t : State) f => t.tellViews f (.dll false)) s1

/-- The answer of `PORTSTATE`: the link state word. -/
def portStateDone (t : State) (p : Nat) (acted : Bool) : OpRes := opDst t (if acted then [okey cPort p] else []) (t.effWord cPort p 1)

/-- `PORTSTATE`. -/
def State.opPortState (s : State) (p : Nat) (r : ObjReq) : OpRes :=
  let a := r.b 1 0 4
  let off := s.lanes.outOfService.contains p
  let dis := s.lanes.disabled.contains p
  if 5 < a then opBad s .badop
  else if s.lane0 p ≠ p then opBad s .conflict
  else if a = 0 then
    (if s.role p = roleOff || off then opBad s .conflict else portStateDone (if dis then s.portEnable p else s) p dis)
  else if a = 1 then
    (if s.role p = roleOff || off then opBad s .conflict else portStateDone (if dis then s else s.portDisable p) p (!dis))
  else if a = 2 then
    (if !s.linkUp p then opBad s .conflict
     else portStateDone (if s.role p = roleFabric then s.fastRetrain p else s.edgeRetrain p) p true)
  else if a = 3 then
    (if s.role p ≠ roleDevice || !s.linkUp p then opBad s .conflict else portStateDone (s.portHotReset p) p true)
  else if a = 4 then portStateDone (s.portOut p) p (!off)
  else portStateDone (if off then s.portBack p else s) p off

/-- `WITHDRAW` (R140, R145). `Dst` receives the number of groups whose `MemberLive` changed. -/
def State.opWithdraw (s : State) (p : Nat) (r : ObjReq) : OpRes :=
  let t := if r.b 1 0 1 = 1 then s.reinstatePort p else s.withdrawPort p
  let n := ((s.groupsWith p).filter (fun g => decide (t.memberLive g ≠ s.memberLive g))).length
  opDst t (if s.fabric.failed.contains p = t.fabric.failed.contains p then [] else [okey cPort p]) (word n)

/-! ## The words that instructions write -/

/-- Words of a `PATHGRP` block after its count. -/
def groupWords (n : Nat) : Nat := (n + 3) / 4

/-- Block words from `w1` on as image words from `lo` on, with their writable bits. -/
def ObjReq.wordsAt (r : ObjReq) (cls lo n b : Nat) : List Written :=
  (List.range n).map (fun i => ⟨lo + i, r.w (b + i), word (rwMask cls (lo + i))⟩)

/-- A gate entry of a function or a window: its ranges (R187, Table 7-7). -/
def gateEntryOk (cls : Nat) (w0 w1 : Word) : Bool :=
  let bar := gateBar.of w1
  let start := gateStartPage.of w0
  let pages := gatePageCount.of w0
  decide (gateMatchKind.of w0 ≠ 3) && (decide (gateMatchKind.of w0 ≠ 0) || gateMatchDevice.of w1 = 0)
  && (if cls = cCmWindow then bar = 0 && decide (start < 32) && decide (start + pages ≤ 32)
      else decide (bar ≤ 5) || (bar = 15 && start = 0 && pages = 0))

/-- First image word of gate entry `e` of a class (Tables 7-6, 8-1). -/
def gateWord (cls e : Nat) : Nat := (if cls = cCmWindow then 1 else 18) + 2 * e

/-- The words that an instruction writes into one object, or its status: `ROUTE`, `PATHGRP`, `GATESET`, `METER`, `SCHED`, `BUDGET` and the
limits of `SLOTPWR` (R86, R187). -/
def wordsOf (cls sel : Nat) (r : ObjReq) : Status × List Written :=
  if r.op = 0x38 then (.ok, [⟨0, r.w 1, 0x1FFFF⟩])
  else if r.op = 0x39 then
    let n := r.b 1 0 7
    if n < 1 || 64 < n || r.blk.length ≠ 2 + groupWords n then (.badop, [])
    else (.ok, ⟨0, r.w 1, 0x7F⟩ :: r.wordsAt cPathGroup 1 (groupWords n) 2)
  else if r.op = 0x43 then
    let e := r.b 1 0 3
    if cls = cFunction && !isHome sel then (.noobj, [])
    else if !gateEntryOk cls (r.w 2) (r.w 3) then (.badop, [])
    else (.ok, [⟨gateWord cls e, r.w 2, 0xFCFFFFFFFFFFFFFF⟩, ⟨gateWord cls e + 1, r.w 3, 0xF0FFF00000003FFF⟩])
  else if r.op = 0x48 then (.ok, r.wordsAt cMeter 0 4 1)
  else if r.op = 0x49 then (.ok, r.wordsAt cSchedQueue 0 3 1)
  else if r.op = 0x58 then (.ok, [⟨0, r.w 2, 0xF01FFFFFFFFFFFFF⟩, ⟨1, r.w 3, 0xFFFFFFFFFFFFFFFF⟩])
  else if r.op = 0x59 then
    (.ok, [⟨0, r.w 1, word (rwMask cBudget 0)⟩, ⟨1, r.w 2, word (rwMask cBudget 1)⟩])
  else (.badop, [])

/-- An instruction whose whole effect is the words it writes. -/
def State.opWords (s : State) (cls sel : Nat) (r : ObjReq) : OpRes :=
  let x := wordsOf cls sel r
  if x.1 = .ok then s.writeOp cls sel x.2 else opBad s x.1

end Sys2Proof.Machine
end

