-- ==== Sys2Proof/Machine/Tenants.lean ====
section
/-! DEFINITION. The object instructions of tenancy: `TENANT` (R174, R190), `RESIZE` (R175, R178), `BIND` (R183, R184) and `UNBIND` (R62,
R185). -/

namespace Sys2Proof.Machine

/-! ## TENANT -/

/-- The two meters of a tenant take their cold-reset image. -/
def State.coldMeters (s : State) (t : Nat) : State :=
  let s1 := (s.coldObj cMeter (2 * t)).coldObj cMeter (2 * t + 1)
  { s1 with core := { s1.core with
      meterFrac := tput 0 (tput 0 (tput 0 (tput 0 s1.core.meterFrac (4 * t) 0) (4 * t + 1) 0) (4 * t + 2) 0) (4 * t + 3) 0 } }

/-- Every `Use` of a tenant is 0. -/
def State.usesNothing (s : State) (t : Nat) : Bool := (List.range 6).all (fun r => s.useOf t r = 0)

/-- `TENANT` (Table 7-2). An action that its state does not permit ends with CONFLICT. -/
def State.opTenant (s : State) (t : Nat) (r : ObjReq) : OpRes :=
  let a := r.b 1 0 3
  let st := s.fld tenState t
  let live := st = 1 || st = 2
  let done := fun (x : State) => opOk x [okey cTenant t]
  if t = 0 || 4 < a || (a = 0 && 96 ≤ r.b 1 16 7) then opBad s .badop
  else if a = 0 then
    (if st ≠ 0 then opBad s .conflict
     else done ((((s.coldObj cTenant t).put tenState t 1).put tenHomeView t (r.b 1 16 7)).coldMeters t))
  else if a = 1 then (if !live || !s.usesNothing t then opBad s .conflict else done ((s.coldObj cTenant t).coldMeters t))
  else if a = 2 then (if st ≠ 1 then opBad s .conflict else done (s.put tenState t 2))
  else if a = 3 then (if st ≠ 2 then opBad s .conflict else done (s.put tenState t 1))
  else if !live then opBad s .conflict
  else if h : t < 8192 then done (s.tenantResetStart ⟨t, h⟩ r.prog)
  else opBad s .noobj

/-! ## Unbinding -/

/-- Non-posted requests that the device holds for a record: of the function and to it for a home record, those of the view's host for a
view-side record (R62). -/
def State.recordReqs (s : State) (sel : Nat) : List ReqEntry :=
  if isHome sel then s.fnReqs (sel % 65536) 0xFF
  else s.openReqs.filter (fun (q : ReqEntry) => q.inbound && decide (q.far = sel))

/-- The view of a binding word no longer finds its function present (R149, R315). -/
def State.tellUnbound (s : State) (sel i : Nat) : State :=
  let w := s.bindW sel i
  if isHome sel then s.tellView sel i (.presence false)
  else if bMatched w then s.slotEvent (bView w) (bVport w) (.presence false) else s

/-- Key of a binding word among a tenant's objects. -/
def bindObj (sel i : Nat) : Nat := sel % 65536 * 32 + i

/-- One binding word is cleared: `Bound` and `Matched` 0, `Generation` up, resource 5 returned by a home record (R185). -/
def State.unbindWord (s : State) (sel i : Nat) : State :=
  let w := s.bindW sel i
  let s1 := (((s.tellUnbound sel i).put (fnBound.up i) sel 0).put (fnMatched.up i) sel 0).bumpGen sel i
  if isHome sel then s1.giveBack (bTenant w) 5 (bindObj sel i) else s1

/-- The gate entries of a home record are removed. -/
def State.dropGates (s : State) (sel : Nat) : State :=
  if isHome sel then (List.range 16).foldl (fun (t : State) w => t.putWord cFunction sel (18 + w) 0) s else s

/-- `FORCE` contains the function of a home record at Grade 1 (R62). -/
def State.forceContain (s : State) (sel : Nat) : State :=
  if isHome sel then
    let e := s.record { grade := 1, checker := checkerId 0x16 (s.base fnPort sel), cls := cFunction, sel := sel, syn0 := 0, syn1 := 0,
                        action := 2, key := 0 }
    e.1.containFn e.2.1 (sel % 65536) 0xFF
  else s

/-- `UNBIND`, once its drain has ended: contained with `FORCE`, entries closed, words cleared, gate entries removed (R185). -/
def State.unbindAll (s : State) (sel : Nat) (force : Bool) : State :=
  let s1 := if force then s.forceContain sel else s
  let s2 := s1.closeReqs .completerAbort (s1.recordReqs sel)
  ((s2.boundOf sel).foldl (fun (t : State) i => t.unbindWord sel i) s2).dropGates sel

/-- `UNBIND`. `Dst` receives the new generation of the first word cleared, or of word 1 where none was bound. A view-side record that does not
exist ends it with NOOBJ (DEDUCED, log entry 58). The wait of R62 precedes this (Tally.lean). -/
def State.opUnbind (s : State) (sel : Nat) (r : ObjReq) : OpRes :=
  let ws := s.boundOf sel
  if r.w 1 ≠ 0 then opBad s .badop
  else if !isHome sel && ws.isEmpty then opBad s .noobj
  else
    let t := s.unbindAll sel (fForce r.iflags)
    opDst t (t.changedObj s cFunction sel) (word (bGen (t.bindW sel (ws.headD 0))))

/-! ## BIND -/

/-- Ranges of a `BIND` block, and the fit of its selector, `Side` and logical device (R183). -/
def State.bindOk (s : State) (sel : Nat) (r : ObjReq) : Bool :=
  let side := r.b 1 40 2
  let ld := r.b 1 32 8
  decide (r.b 1 24 8 ≠ 0) && decide (r.b 1 16 7 ≤ 95) && (ld = 0xFF || decide (ld ≤ 15)) && decide (side ≠ 3)
  && (if side = 2 then !isHome sel else isHome sel && s.ldSuits sel ld)

/-- The binding word that a `BIND` writes: `Matched` and `ViewDevice` at once for a local binding with `Side` 0 (R184). -/
def State.bindWord (s : State) (sel : Nat) (r : ObjReq) (i : Nat) : Word :=
  let side := r.b 1 40 2
  word ((bGen (s.bindW sel i) + 1) % 256 * 2 ^ 56 + 2 ^ 55 + bit (side = 0) * 2 ^ 54 + (if side = 1 then 0 else s.fabricId) * 2 ^ 42
    + side * 2 ^ 40 + r.b 1 32 8 * 2 ^ 32 + r.b 1 24 8 * 2 ^ 24 + r.b 1 16 7 * 2 ^ 16 + r.b 1 0 13)

/-- Gate entry 0 as `OPEN` installs it (R187). -/
def State.openGate (s : State) (sel t : Nat) : State :=
  (s.putWord cFunction sel 18 0xF000000000000000).putWord cFunction sel 19 (word (15 * 2 ^ 60 + t))

/-- What follows the commit of a binding: the notice of a view-side record (R184), presence at the view of a local one (R315). -/
def State.bindDone (s : State) (sel : Nat) (r : ObjReq) (i : Nat) : State :=
  let v := r.b 1 16 7
  if r.b 1 40 2 = 2 then
    (if h : sel % 65536 < 16384 then
      s.sendMsg (sel / 65536) (.bindNotice ⟨⟨sel % 65536, h⟩, r.b 1 32 8, s.fabricId, v, r.b 1 24 8, r.b 1 0 13, s.portOfView v⟩)
     else s)
  else if r.b 1 40 2 = 0 && s.base fnState sel = 1 then s.tellView sel i (.presence true)
  else s

/-- A gate slot lies in the range of a port (R181). -/
def State.inSlots (s : State) (p slot : Nat) : Bool :=
  decide (s.fld portSlotBase p ≤ slot) && decide (slot < s.fld portSlotBase p + s.fld portSlotCount p)

/-- A binding that a device port with `IdeDirect` refuses: one that is not plain, or in a view other than that of a function bound below the port
(R322). -/
def State.ideBars (s : State) (sel : Nat) (r : ObjReq) : Bool :=
  isHome sel && allPorts.any (fun p => s.role p = roleDevice && s.fld portIdeDirect p = 1 && s.inSlots p (sel % 65536)
    && (r.b 1 32 8 ≠ 0xFF || ((s.selsOf cFunction).filter (fun x => isHome x && s.inSlots p (x % 65536))).any (fun x =>
      (s.boundOf x).any (fun i => decide ((bView (s.bindW x i), bSide (s.bindW x i)) ≠ (r.b 1 16 7, r.b 1 40 2))))))

/-- `BIND`. One at slot offset 0 of a device port gives its tenant the port, and with it the port's shared meter (R177). -/
def State.opBind (s : State) (sel : Nat) (r : ObjReq) : OpRes :=
  let side := r.b 1 40 2
  let i := ldIndex (r.b 1 32 8)
  let v := r.b 1 16 7
  let t := r.b 1 0 13
  if !s.bindOk sel r then opBad s .badop
  else if bBound (s.bindW sel i) then opBad s .conflict
  else if side ≠ 2 && s.fld tenState t = 0 then opBad s .noobj
  else if side ≠ 1 && (s.portOfView v = 255 || (s.vportBinding v (r.b 1 24 8)).isSome) then opBad s .conflict
  else if s.ideBars sel r then opBad s .conflict
  else if side ≠ 2 && !s.canTake t 5 then opNores s t
  else
    let s1 := s.putWord cFunction sel (1 + i) (s.bindWord sel r i)
    let s2 := if side = 2 then s1 else s1.take t 5 (bindObj sel i)
    let s3 := if fOpt r.iflags && side ≠ 2 then s2.openGate sel t else s2
    let s4 := s3.bindDone sel r i
    if side ≠ 2 && !s.sharedFits s2 t then opNores s t
    else opDst s4 [okey cFunction sel] (word (bGen (s4.bindW sel i)))

/-! ## RESIZE -/

/-- Reserving quotas of the tenants other than 0 stay within the device total (R175). -/
def State.quotaFits (s : State) (t r n : Nat) : Bool :=
  let others := (s.selsOf cTenant).filter (fun u => decide (u ≠ 0) && decide (u ≠ t) && decide (s.fld tenState u ≠ 0))
  r = 0 || t = 0 || decide ((others.map (fun u => s.quotaOf u r)).sum + n ≤ resourceTotal r)

/-- A tenant's objects of a resource, newest first. -/
def State.newestOf (s : State) (t r : Nat) : List Nat :=
  (s.tenancy.born.filter (fun e => decide (e.1 = r) && decide (e.2.1 = t))).map (fun e => e.2.2)

/-- The Grade 1 event of one reclaimed object. -/
def State.reclaimed (s : State) (cls sel : Nat) : State :=
  s.fault { grade := 1, checker := checkerId 0x16 0xFF, cls := cls, sel := sel, syn0 := 0, syn1 := 0, action := 0, key := 0 }

/-- Reclaims one object of resource 1, 2, 3 or 5: flushed and destroyed, revoked and deregistered, destroyed, or unbound as by `UNBIND` with
`FORCE`. -/
def State.reclaim (s : State) (r obj : Nat) : State :=
  if r = 1 then ((s.qpToError obj).qpGone obj).reclaimed cQueuePair obj
  else if r = 2 then
    ((s.put regGeneration obj ((s.base regGeneration obj + 1) % 256)).regionGone obj).reclaimed cRegion obj
  else if r = 3 then (s.cqGone obj).reclaimed cCompletionQueue obj
  else
    let sel := homeSel (obj / 32)
    let s1 := s.forceContain sel
    let s2 := s1.closeFn (obj / 32) (bLd (s1.bindW sel (obj % 32)))
    let s3 := s2.unbindWord sel (obj % 32)
    (if (s3.boundOf sel).isEmpty then s3.dropGates sel else s3).reclaimed cFunction sel

/-- Reclaims shared meters: the meter of the tenant's newest port setting leaves every port of the tenant, until `k` are gone. -/
def State.reclaimMeters (s : State) (t : Nat) : Nat → State
  | 0 => s
  | k + 1 =>
    match s.tenancy.born.find? (fun e => decide (e.1 = 4) && decide (s.portOwner e.2.2 = t) && decide (s.fld portSharedMeter e.2.2 ≠ 0)) with
    | none => s
    | some e =>
      let m := s.fld portSharedMeter e.2.2
      let ps := (s.selsOf cPort).filter (fun p => decide (s.fld portSharedMeter p = m) && decide (s.portOwner p = t))
      let s1 := ps.foldl (fun (x : State) p => (x.put portSharedMeter p 0)) s
      let s2 := { s1 with tenancy := { s1.tenancy with born := s1.tenancy.born.filter (fun b => !(decide (b.1 = 4) && ps.contains b.2.2)) } }
      (s2.reclaimed cMeter m).reclaimMeters t k

/-- A reclaim meets a pinned object: a completion queue that a queue pair uses, or a function in the scope of a stored overlay (R178). -/
def State.pinned (s : State) (r obj : Nat) : Bool :=
  if r = 3 then s.qpsUsed.any (fun q => s.namesCq obj q)
  else if r = 5 then s.overlays.any (fun o => o.scope.contains (okey cFunction (homeSel (obj / 32))))
  else false

/-- `RESIZE`. `Dst` receives the current use, also on NORES and CONFLICT (R40). -/
def State.opResize (s : State) (t : Nat) (r : ObjReq) : OpRes :=
  let k := r.b 1 0 3
  let n := (r.w 2).toNat
  let use := s.useOf t k
  if 5 < k || resourceTotal k < n then opBad s .badop
  else if s.fld tenState t = 0 then opBad s .noobj
  else if !s.quotaFits t k n then ⟨.nores, s, some (word use), [], some t⟩
  else
    let s1 := s.put (tenQuota.up k) t n
    if !fForce r.iflags || k = 0 || use ≤ n then opDst s1 [okey cTenant t] (word use)
    else
      let objs := (s.newestOf t k).take (use - n)
      if k ≠ 4 && objs.any (fun o => s.pinned k o) then ⟨.conflict, s, some (word use), [], none⟩
      else
        let s2 := if k = 4 then s1.reclaimMeters t (use - n) else objs.foldl (fun (x : State) o => x.reclaim k o) s1
        opDst s2 [okey cTenant t] (word (s2.useOf t k))

end Sys2Proof.Machine
end

