-- ==== Sys2Proof/Machine/Overlays.lean ====
section
/-! DEFINITION. Overlays (R83 to R89): storing, applying, removing and deleting; and the object instructions `SNAP` (R393), `INJECT` (R361) and
`FAULTACK` (R354). -/

namespace Sys2Proof.Machine

/-! ## Operand blocks (R42, Table 2-9) -/

/-- Words of the operand block of an object instruction, its selector included; a block of another length ends the instruction with BADOP
(DEDUCED, log entry 11). An action that uses no more words takes the short form too. -/
def blockOk (r : ObjReq) : Bool :=
  let n := r.blk.length
  let a := r.b 1 0 3
  if r.op = 0x20 then n = 2 else if r.op = 0x21 ∨ r.op = 0x22 then n = 4
  else if [0x30, 0x31, 0x38, 0x3A, 0x40, 0x41, 0x42, 0x70, 0x71].contains r.op then n = 2
  else if r.op = 0x39 then decide (2 ≤ n) && n = 2 + groupWords (r.b 1 0 7)
  else if r.op = 0x43 then n = 4 else if r.op = 0x44 then n = 3 else if r.op = 0x48 then n = 5 else if r.op = 0x49 then n = 4
  else if r.op = 0x50 then n = 8 || (n = 2 && 2 ≤ a)
  else if r.op = 0x51 then n = 4 else if r.op = 0x52 then n = 1
  else if r.op = 0x53 then n = 4 || (n = 2 && r.b 1 0 2 = 1)
  else if r.op = 0x58 then n = (if r.b 1 0 2 = 3 then 4 else 2)
  else if r.op = 0x59 then n = 3
  else if r.op = 0x60 then n = 4 || (n = 2 && r.b 1 0 2 ≠ 0)
  else if r.op = 0x68 then n = 3 else n = 4

/-! ## Storing (R83, R84) -/

/-- Number of scope entries of an overlay image. -/
def ovCount (ws : List Word) : Nat := bitsOf (ws.getD 0 0) 16 16

/-- The program of an overlay image. -/
def ovProgram (ws : List Word) : List Word := ws.drop (4 + ovCount ws)

/-- The header of an overlay image and that of its program (Table 3-6, checks 1 to 3 of R38). -/
def ovHeadOk (ws : List Word) : Bool :=
  let w0 := ws.getD 0 0
  let pr := ovProgram ws
  decide (bitsOf w0 0 8 = 1) && decide (bitsOf w0 8 8 = 0) && decide (bitsOf w0 32 32 = 0) && decide (1 ≤ ovCount ws)
  && decide (ovCount ws ≤ 1024) && decide (ws.getD 2 0 = 0) && decide (4 + ovCount ws ≤ ws.length)
  && decide (crcWords (crcZeroed ws) = bitsOf (ws.getD 3 0) 0 32)
  && headerOk pr (8 * pr.length) && crcOk pr && decide (hTarget pr = 0xFFFF) && decide (hFlags pr = 0)

/-- Classes that a scope list may name (R84). -/
def scopeClasses : List Nat :=
  [cPort, cLane, cRoute, cPathGroup, cFunction, cCmWindow, cMeter, cSchedQueue, cSlot, cFeed, cBudget]

/-- Opcodes that an overlay's program may use (R84). -/
def ovOps : List Nat :=
  [0x00, 0x01, 0x10, 0x11, 0x12, 0x13, 0x14, 0x15, 0x16, 0x17, 0x18, 0x19, 0x21, 0x30, 0x38, 0x39, 0x43, 0x48, 0x49, 0x58, 0x59]

/-- The scope list: one key per object. None if an entry names no object of a permitted class. -/
def State.ovScope (s : State) : List Word → Option (List Nat)
  | [] => some []
  | w :: ws =>
    let cls := bitsOf w 32 12
    let sel := bitsOf w 0 32
    match s.ovScope ws with
    | none => none
    | some ks => if scopeClasses.contains cls && selCheck cls (word sel) = none then some (okey cls (s.canonSel cls sel) :: ks) else none

/-- The request of an instruction of an overlay's program. -/
def ovReq (x : PInstr) : ObjReq :=
  { index := x.index, op := iOpcode x.w, iflags := iFlags x.w, dst := iDst x.w, sub := iSub x.w, blk := x.blk, level := 2, view := 0x7F,
    issuerDev := 0xFFFF, source := 4, prog := 0, image := none, clear := false }

/-- Shadows of the words that an instruction writes. -/
def shadowsOf (cls sel : Nat) (xs : List Written) : List Shadow :=
  xs.map (fun x => ⟨wkey cls sel x.word, x.mask, x.value &&& x.mask⟩)

/-- What an object instruction of an overlay's program writes: shadows, or a slot and its action. None where R84 refuses it. -/
def ovObject (scope : List Nat) (r : ObjReq) (cls sel : Nat) : Option (List Shadow × List (Nat × Nat)) :=
  let i := r.b 1 0 16
  if !blockOk r || !scope.contains (okey cls sel) then none
  else if r.op = 0x21 then
    (if cls = cFunction || cls = cCmWindow || imageWords cls ≤ i || rwMask cls i = 0 then none
     else some (shadowsOf cls sel [⟨i, r.w 2, r.w 3 &&& word (rwMask cls i)⟩], []))
  else if r.op = 0x30 then
    let w := r.w 1 &&& 0xFFFF
    let ps := (List.range (portsOfWidth (portWidth.of w))).map (sel + ·)
    if ps.all (fun p => scope.contains (okey cPort p)) then some (ps.flatMap (fun p => shadowsOf cPort p [⟨0, w, 0xFFFF⟩]), []) else none
  else if r.op = 0x58 ∧ r.b 1 0 2 ≠ 3 then (if r.b 1 0 2 = 2 then none else some ([], [(sel, r.b 1 0 2)]))
  else
    let x := wordsOf cls sel r
    if x.1 = .ok then some (shadowsOf cls sel x.2, []) else none

/-- One instruction of an overlay's program. -/
def State.ovInstr (s : State) (scope : List Nat) (x : PInstr) : Option (List Shadow × List (Nat × Nat)) :=
  let op := iOpcode x.w
  let r := ovReq x
  if !ovOps.contains op || !fieldsOk x.w then none
  else if !isObj op then some ([], [])
  else if iSrc x.w ≠ 0 || selCheck r.cls (r.w 0) ≠ none then none
  else ovObject scope r r.cls (s.canonSel r.cls (r.w 0).toNat)

/-- A later write of a word over an earlier one. -/
def addShadow (hs : List Shadow) (h : Shadow) : List Shadow :=
  match hs.find? (fun g => decide (g.key = h.key)) with
  | none => hs ++ [h]
  | some _ => hs.map (fun g => if g.key = h.key then ⟨g.key, g.mask ||| h.mask, (g.value &&& ~~~ h.mask) ||| h.value⟩ else g)

/-- Evaluates an overlay's program in order, up to its first `HALT`. No branch is permitted and no rod reaches an operand block, so the
arithmetic changes nothing. Every instruction must be permitted, whether or not it stands behind the `HALT` (R84). -/
def State.ovEval (s : State) (scope : List Nat) (live : Bool) : List PInstr → Option (List Shadow × List (Nat × Nat))
  | [] => some ([], [])
  | x :: xs =>
    match s.ovInstr scope x, s.ovEval scope (live && decide (iOpcode x.w ≠ 0x01)) xs with
    | some a, some b => if live then some (a.1 ++ b.1, a.2 ++ b.2) else some b
    | _, _ => none

/-- The overlay that an image describes; none where R84 refuses it. -/
def State.ovRead (s : State) (index : Nat) (ws : List Word) : Option Overlay :=
  let pr := body (ovProgram ws)
  let ps := parseBody pr.length 0 pr
  if !ovHeadOk ws || ps.2.isSome then none
  else match s.ovScope ((ws.drop 4).take (ovCount ws)) with
    | none => none
    | some scope =>
      match s.ovEval scope true ps.1 with
      | none => none
      | some e => some ⟨index, ws.getD 1 0, scope, e.1.foldl addShadow [], e.2⟩

/-- The words of an overlay image as a store reads them: from host memory, or for the base configuration from the overlay section of the boot
image (R78). A program of the management-port queue has no host memory (DEDUCED, log entry 52). -/
def State.ovWords (s : State) (r : ObjReq) : Option (List Word) :=
  let n := (r.w 3).toNat / 8
  let a := (r.w 2).toNat
  let ws := if r.source = 4 then (if a % 8 = 0 then some (s.tally.baseOverlays.drop (a / 8)) else none) else if r.source = 2 then none else r.image
  match ws with
  | none => none
  | some x => if (r.w 3).toNat % 8 = 0 && decide (n ≤ x.length) then some (x.take n) else none

/-- `OVERLAY` store. -/
def State.ovStore (s : State) (i : Nat) (r : ObjReq) : OpRes :=
  if 65536 < (r.w 3).toNat then opBad s .nores
  else if s.objExists cOverlay i then opBad s .conflict
  else match (s.ovWords r).bind (fun ws => s.ovRead i ws) with
    | none => opBad s .badop
    | some o => opOk { s with overlays := s.overlays ++ [o] } [okey cOverlay i]

/-! ## Applying and removing (R85 to R88) -/

/-- The scope of a stored overlay. -/
def State.ovScopeOf (s : State) : Option Nat → List Nat
  | none => []
  | some i => match s.overlays.find? (fun o => decide (o.index = i)) with | some o => o.scope | none => []

/-- Image words that a stored overlay shadows. -/
def State.ovKeys (s : State) : Option Nat → List Nat
  | none => []
  | some i => match s.overlays.find? (fun o => decide (o.index = i)) with | some o => o.shadow.map (·.key) | none => []

/-- The overlay `new` takes the place of the active one. A contained scope object stays with the overlay in effect for it (R88). -/
def State.withOverlay (s : State) (new : Option Nat) : State :=
  let objs := (s.ovScopeOf s.activeOverlay ++ s.ovScopeOf new).eraseDups
  let held := (objs.filter (fun k => s.objContained (k / 4294967296) (k % 4294967296))).map (fun k => (k, s.overlayFor k))
  let keep := s.overlayHeld.filter (fun e => !objs.contains e.1)
  { s with activeOverlay := new, overlayHeld := (keep ++ held).filter (fun e => decide (e.2 ≠ new)) }

/-- A changed effective word: class, selector, word, and the bits that change. -/
structure Changed where
  cls : Nat
  sel : Nat
  word : Nat
  mask : Word
  deriving DecidableEq, Repr

/-- The words whose effective value differs between two states, among keys. -/
def changedWords (s0 s1 : State) (keys : List Nat) : List Changed :=
  (keys.eraseDups.map (fun k =>
    let cls := k / 128 / 4294967296
    let sel := k / 128 % 4294967296
    let c : Changed := ⟨cls, sel, k % 128, s0.effWord cls sel (k % 128) ^^^ s1.effWord cls sel (k % 128)⟩
    c)).filter (fun c => decide (c.mask ≠ 0))

/-- The rules on word 0 of the ports that a change of overlays moves (R12, R13, R267). -/
def portsMoved (s0 s1 : State) (ps : List Nat) : Status :=
  if ps.isEmpty then .ok
  else firstStatus [s1.linksAgree,
    must (ps.all (fun p =>
      let l := s0.lane0 p
      !s0.hasLink l || (s1.role p = s0.role p && (s0.role p = roleFabric || decide (s1.fld portWidth p = s0.fld portWidth p))))) .conflict,
    must (ps.all (fun p => s1.role p = roleOff || (s0.carriedLink p).isNone)) .conflict,
    must (ps.all (fun p => s1.fld portSpillEnable p = 1 || decide (s1.fld qlRxPoolUnits p ≤ 2048))) .conflict,
    must (cfgFits s1) .nores]

/-- A slot action that an apply carries out, as `SLOTPWR` does. -/
def slotActReq (a : Nat) : ObjReq :=
  { index := 0, op := 0x58, iflags := 0, dst := 0, sub := 0, blk := [0, word a], level := 2, view := 0x7F, issuerDev := 0xFFFF, source := 4,
    prog := 0, image := none, clear := false }

/-- The slot actions of an apply in order: the first status other than OK, or the state they leave. -/
def State.slotActs (s : State) : List (Nat × Nat) → Status × State
  | [] => (.ok, s)
  | e :: es =>
    let o := s.opSlotpwr e.1 (slotActReq e.2)
    if o.status = .ok then o.st.slotActs es else (o.status, s)

/-- Slot actions of a stored overlay. -/
def State.ovActs (s : State) : Option Nat → List (Nat × Nat)
  | none => []
  | some i => match s.overlays.find? (fun o => decide (o.index = i)) with | some o => o.acts | none => []

/-- The effective state that a change of overlays leaves is checked against the rules of each changed word (R88). -/
def ovCheck (s0 s1 : State) (cs : List Changed) : Status :=
  firstStatus ((cs.map (fun c =>
      if c.cls = cPort ∧ c.word = 0 then .ok
      else wordRule s0 s1 (fun w => s1.effWord c.cls c.sel w) c.cls c.sel c.word (s1.effWord c.cls c.sel c.word) c.mask))
    ++ [portsMoved s0 s1 ((cs.filter (fun c => decide (c.cls = cPort) && decide (c.word = 0))).map (·.sel))])

/-- Lane-0 ports among moved ports whose link starts again, and those whose running link changes width or rate. -/
def movedPorts (s0 s1 : State) (cs : List Changed) (m : CfgMove) : List Nat :=
  (((cs.filter (fun c => decide (c.cls = cPort) && decide (c.word = 0))).map (fun c => s0.lane0 c.sel)).eraseDups).filter
    (fun p => decide (s0.cfgMove p (s1.role p) (s1.fld portWidth p) (s1.fld portMaxRate p) = m))

/-- A change of effective values takes place: `f` puts it into effect, ports leave and join, and every changed word does what a write of it
does. -/
def State.carryOver (s : State) (f : State → State) (cs : List Changed) : State :=
  let s1 := f s
  let again := movedPorts s s1 cs .restart
  let grow := movedPorts s s1 cs .resize
  let stay := movedPorts s s1 cs .keep ++ grow
  let kept := stay.foldl (fun (t : State) p => t.keepCarry p (s1.fld portWidth p)) s
  let t0 := f (again.foldl (fun (t : State) p => t.portLeave p) kept)
  let ports := (cs.filter (fun c => decide (c.cls = cPort) && decide (c.word = 0))).map (·.sel)
  let join := (again ++ ports.filter (fun p => s.role p = roleOff)).eraseDups
  let t1 := (join.filter (fun p => t0.lane0 p = p)).foldl (fun (t : State) p => t.portJoin p) t0
  let t2 := grow.foldl (fun (t : State) p => t.askResize p (t.fld portMaxRate p) (t.fld portWidth p)) t1
  let t3 := cs.foldl (fun (t : State) c => t.wordDone s c.cls c.sel c.word (s1.effWord c.cls c.sel c.word) c.mask) t2
  if cs.any (fun c => decide (c.cls = cPort)) then t3.showHosts else t3

/-- A change of overlays takes effect (R85). -/
def State.ovCommit (s : State) (new : Option Nat) (cs : List Changed) : State := s.carryOver (fun t => t.withOverlay new) cs

/-- The slot actions that an overlay carries out now: a contained slot waits (R88). -/
def State.actsNow (s : State) (new : Option Nat) : List (Nat × Nat) := (s.ovActs new).filter (fun e => !s.objContained cSlot e.1)

/-- Puts an overlay into effect, or none; `i` is the overlay that the instruction names. The versions of the overlays that come into or go out of
effect increment, and those of the objects that change (R44, R87). -/
def State.ovSwitch (s : State) (new : Option Nat) (i : Nat) : OpRes :=
  let s1 := s.withOverlay new
  let cs := changedWords s s1 (s.ovKeys s.activeOverlay ++ s.ovKeys new)
  match ovCheck s s1 cs with
  | .ok =>
    let r := (s.ovCommit new cs).slotActs (s.actsNow new)
    let slots := (s.actsNow new).flatMap (fun e => r.2.changedObj s cSlot e.1)
    let old := s.activeOverlay.toList.map (fun j => okey cOverlay j)
    if r.1 = .ok then opOk r.2 (cs.map (fun c => okey c.cls c.sel) ++ slots ++ old ++ [okey cOverlay i]).eraseDups else opBad s r.1
  | st => opBad s st

/-- `OVERLAY` (R85). -/
def State.opOverlay (s : State) (i : Nat) (r : ObjReq) : OpRes :=
  let a := r.b 1 0 2
  if a = 0 then s.ovStore i r
  else if !s.objExists cOverlay i then opBad s .noobj
  else if a = 1 then (if s.activeOverlay = some i then opOk s [] else s.ovSwitch (some i) i)
  else if s.activeOverlay = some i then (if a = 2 then s.ovSwitch none i else opBad s .conflict)
  else if a = 2 then opBad s .conflict
  else opOk { s with overlays := s.overlays.filter (fun o => decide (o.index ≠ i)) } [okey cOverlay i]

/-! ## Contained scope objects (R88) -/

/-- Held objects that nothing contains any more. -/
def State.heldFree (s : State) : List Nat :=
  (s.overlayHeld.map (·.1)).filter (fun k => !s.objContained (k / 4294967296) (k % 4294967296))

/-- Objects are no longer held: the overlay in effect is theirs too. -/
def State.unhold (ks : List Nat) (s : State) : State := { s with overlayHeld := s.overlayHeld.filter (fun e => !ks.contains e.1) }

/-- Image words of objects that the overlays which held them, or the one in effect, shadow. -/
def State.heldKeys (s : State) (ks : List Nat) : List Nat :=
  ((s.ovKeys s.activeOverlay) ++ (s.overlayHeld.filter (fun e => ks.contains e.1)).flatMap (fun e => s.ovKeys e.2)).filter
    (fun w => ks.contains (w / 128))

/-- The effective values of objects take effect, with the slot actions that waited for them; where a rule forbids it, as R12 does while a link
runs, they stay held (DEDUCED, log entry 54). -/
def State.settleHeld (s : State) (ks : List Nat) : State :=
  let s1 := s.unhold ks
  let cs := changedWords s s1 (s.heldKeys ks)
  if ovCheck s s1 cs = .ok then
    ((s.carryOver (State.unhold ks) cs).slotActs ((s.ovActs s.activeOverlay).filter (fun e => ks.contains (okey cSlot e.1)))).2
  else s

/-- The objects whose containment has been lifted take their effective values (R88): together, or each that can. -/
def State.settleOverlays (s : State) : State :=
  let ks := s.heldFree
  if ks.isEmpty then s
  else
    let t := s.settleHeld ks
    t.heldFree.foldl (fun (x : State) k => x.settleHeld [k]) t

/-! ## SNAP (R391, R393) -/

/-- Counters that the freeze store holds for snapshots under way (R394). -/
def State.frozenUse (s : State) : Nat :=
  ((s.counters.jobs.filter (fun j => j.frozen)).map (fun j => s.snapTotal j.set.val)).sum

/-- `SNAP`. -/
def State.opSnap (s : State) (set : Nat) (r : ObjReq) : OpRes :=
  let n := s.snapTotal set
  let frozen := decide (n ≤ 65536)
  let t := (r.w 2).toNat
  if r.source = 2 || r.source = 4 || 96 ≤ r.view then opBad s .badop
  else if t ≠ 0 && !s.everLocked then opBad s .notide
  else if s.base snapState set ≠ 0 then opBad s .conflict
  else if n = 0 then opBad s .badop
  else if 16 ≤ s.counters.jobs.length || (s.base snapRequireFrozen set = 1 && !frozen) || (frozen && decide (65536 < s.frozenUse + n)) then
    opBad s .nores
  else if h : set < 256 then
    let j : SnapJob := { set := ⟨set, h⟩, addr := (r.w 1).toNat, instant := t, view := r.view, issuerDev := r.issuerDev,
                         wasLate := decide (t ≠ 0) && decide (t < s.tide), locked := false, frozen := frozen, values := [], units := [] }
    opOk (({ s with counters := { s.counters with jobs := s.counters.jobs ++ [j] } } : State).put snapState set 1) [okey cSnapshotSet set]
  else opBad s .noobj

/-! ## INJECT and FAULTACK -/

/-- `INJECT` (R60, R361). It changes no object (R42). -/
def State.opInject (s : State) (r : ObjReq) : OpRes :=
  let c := (r.w 0).toNat
  let m := r.b 1 16 2
  let n := r.b 1 0 16
  if 16777216 ≤ c || !checkerExists c then opBad s .noobj
  else if !checkerInjectable c || 2 ≤ m || n = 0 then opBad s .badop
  else if s.fld devInjectArmUntil 0 ≤ s.tide then opBad s .denied
  else opOk { s with faults := { s.faults with injections := s.faults.injections ++ [⟨c, m, n, true⟩] } } []

/-- A record is acknowledged: `Acked` set; released where `Release` is 1 and its grade is below 4; and closed if it contains nothing (R351, R354). -/
def State.acknowledge (s : State) (f : FaultRec) (release : Bool) : State :=
  let s1 := { s with faults := { s.faults with recs := s.faults.recs.map (fun (q : FaultRec) => if q.id = f.id then { q with acked := true } else q) } }
  let s2 := if release && decide (f.grade < 4) then s1.release f.id else s1
  if s2.holdsRec f then s2.notify else s2.closeRecord f.id

/-- `FAULTACK`. -/
def State.opFaultack (s : State) (slot : Nat) (r : ObjReq) : OpRes :=
  match s.recIn slot with
  | none => opBad s .noobj
  | some f => opOk (s.acknowledge f (r.b 1 0 1 = 1)) [okey cFaultRecord slot]

end Sys2Proof.Machine
end

