-- ==== Sys2Proof/Machine/Objects.lean ====
section
/-! DEFINITION. An object instruction as it executes: its selector, its scope, its block, its effect, and the objects it touches (R41 to R43,
R56 to R58). -/

namespace Sys2Proof.Machine

/-- The selector word of an object instruction, as written (R42). -/
def ObjReq.rawSel (r : ObjReq) : Nat := (r.w 0).toNat % 4294967296

/-- The selector of the object that an instruction names. -/
def State.selOf (s : State) (r : ObjReq) : Nat := s.canonSel r.cls r.rawSel

/-- Key of the object that an instruction names. -/
def State.namedObj (s : State) (r : ObjReq) : Nat := okey r.cls (s.selOf r)

/-- An instruction that names no object (R42). -/
def ObjReq.inject (r : ObjReq) : Bool := decide (r.op = 0x70)

/-- An instruction allowed on a contained object (R58): `UNBIND` with `FORCE`, `FAULTACK`, `REVOKE`, the destroy, flush and off actions, a reclaim
among them; the change of a queue pair in Error that brings it back, unless the pair was contained after the change was staged (R63, Table 14-5);
and `OVERLAY`, which leaves contained objects as they are (R88). -/
def State.exempt (s : State) (r : ObjReq) : Bool :=
  let a := r.b 1 0 3
  if r.op = 0x42 || r.op = 0x44 then fForce r.iflags
  else if r.op = 0x40 then a = 1
  else if r.op = 0x50 then 2 ≤ a || (a = 1 && s.qpIs (s.selOf r) qpError && !r.clear)
  else if r.op = 0x53 then r.b 1 0 2 = 1
  else if r.op = 0x58 then r.b 1 0 2 = 0
  else r.op = 0x52 || r.op = 0x60 || r.op = 0x71

/-- The effect of an object instruction on object `sel` of class `cls`, by opcode (Table 2-9). -/
def State.runOp (s : State) (cls sel : Nat) (r : ObjReq) : OpRes :=
  if r.op = 0x20 then s.opOread cls sel r
  else if r.op = 0x21 then s.opOwrite cls sel r
  else if r.op = 0x22 then s.opOcas cls sel r
  else if r.op = 0x30 then s.opPortCfg sel r
  else if r.op = 0x31 then s.opPortState sel r
  else if r.op = 0x3A then s.opWithdraw sel r
  else if r.op = 0x40 then s.opTenant sel r
  else if r.op = 0x41 then s.opBind sel r
  else if r.op = 0x42 then s.opUnbind sel r
  else if r.op = 0x44 then s.opResize sel r
  else if r.op = 0x50 then s.opQpctl sel r
  else if r.op = 0x51 then s.opRegion sel r
  else if r.op = 0x52 then s.opRevoke sel r
  else if r.op = 0x53 then s.opCqctl sel r
  else if r.op = 0x58 then s.opSlotpwr sel r
  else if r.op = 0x59 then s.opBudget r
  else if r.op = 0x60 then s.opOverlay sel r
  else if r.op = 0x68 then s.opSnap sel r
  else if r.op = 0x69 then s.opQuery cls sel r
  else if r.op = 0x71 then s.opFaultack sel r
  else s.opWords cls sel r

/-! ## The objects of an instruction (R44, R47, R58) -/

/-- Tenants and host views of binding words. -/
def State.bindObjs (s : State) (sel : Nat) (is : List Nat) : List Nat :=
  is.flatMap (fun i =>
    let w := s.bindW sel i
    (if isHome sel then [okey cTenant (bTenant w)] else []) ++ (if bSide w = 1 then [] else [okey cHostView (bView w)]))

/-- Objects that a reclaim destroyed or changed (R178). -/
def State.reclaimObjs (s t : State) (tn k : Nat) : List Nat :=
  let gone := (s.newestOf tn k).filter (fun o => !(t.newestOf tn k).contains o)
  if k = 1 then gone.map (okey cQueuePair)
  else if k = 2 then gone.map (okey cRegion)
  else if k = 3 then gone.map (okey cCompletionQueue)
  else if k = 4 then ((s.selsOf cPort).filter (fun p => decide (s.fld portSharedMeter p ≠ t.fld portSharedMeter p))).map (okey cPort)
  else if k = 5 then gone.flatMap (fun o => okey cFunction (homeSel (o / 32)) :: s.bindObjs (homeSel (o / 32)) [o % 32])
  else []

/-- Objects beside the named one that an instruction reads or writes: the tenant that it charges or frees, the views and completion queues that it
names, the meters of a tenant, what it reclaims, the owner of a port, the budget. The sums of R175 over all tenants are no reads of theirs
(DEDUCED, log entry 55). `s` and `t` are the states before and after it. -/
def State.related (s t : State) (cls sel : Nat) (r : ObjReq) : List Nat :=
  let a := r.b 1 0 3
  if r.op = 0x40 then (if a ≤ 1 then [okey cMeter (2 * sel), okey cMeter (2 * sel + 1)] else [])
  else if r.op = 0x41 then
    (if r.b 1 40 2 = 2 then [] else [okey cTenant (r.b 1 0 13)]) ++ (if r.b 1 40 2 = 1 ∨ 95 < r.b 1 16 7 then [] else [okey cHostView (r.b 1 16 7)])
  else if r.op = 0x42 then s.bindObjs sel (s.boundOf sel)
  else if r.op = 0x44 then s.reclaimObjs t sel a
  else if r.op = 0x50 then
    (if a ≤ 1 then okey cCompletionQueue (r.b 2 0 18) :: (if r.b 5 0 5 = 0 then [] else [okey cCompletionQueue (r.b 3 32 18)]) else [])
    ++ (if a = 0 then [okey cTenant (r.b 3 0 13)] else [okey cTenant (s.fld qpTenantId sel)])
  else if r.op = 0x51 then [okey cTenant (r.b 3 0 13)]
  else if r.op = 0x53 then (if r.b 1 0 2 = 0 then [okey cTenant (r.b 3 48 13)] else [okey cTenant (s.fld cqTenantId sel)])
  else if r.op = 0x58 then [okey cBudget 0]
  else if cls = cPort ∧ isChange r.op = true then
    ([s.portOwner sel, t.portOwner sel].filter (· ≠ 0)).map (okey cTenant)
  else []

/-- An object reads differently in two states. -/
def State.differs (s t : State) (k : Nat) : Bool :=
  let cls := k / 4294967296
  let sel := k % 4294967296
  (List.range (imageWords cls)).any (fun w => decide (s.imageWord cls sel w ≠ t.imageWord cls sel w))

/-- The objects of an instruction: the named one, and those it reads or writes beside it. -/
def State.objsOf (s t : State) (r : ObjReq) : List Nat := (s.namedObj r :: s.related t r.cls (s.selOf r) r).eraseDups

/-- A change with every object that it changed, those beside the named one among them (R44). -/
def State.allChanged (s : State) (r : ObjReq) (o : OpRes) : OpRes :=
  if o.status = .ok && isChange r.op then
    { o with changed := (o.changed ++ (s.related o.st r.cls (s.selOf r) r).filter (fun k => s.differs o.st k)).eraseDups }
  else o

/-- A change that finds one of its objects contained ends with FAULTED (R58), also where the state that the containment left would forbid it
(DEDUCED, log entry 55). -/
def State.guarded (s : State) (r : ObjReq) (o : OpRes) : OpRes :=
  if (o.status = .ok || o.status = .conflict || o.status = .nores) && isChange r.op && !s.exempt r
      && (s.objsOf o.st r).any (fun k => s.objContained (k / 4294967296) (k % 4294967296)) then opBad s .faulted
  else s.allChanged r o

/-- An object instruction: its selector (R56), its view scope (R43), its block, its effect, and containment (R58). A level-1 `OREAD` of an object that
does not exist ends with DENIED before NOOBJ is looked for (DESIGN CHOICE, log entry 113). -/
def State.applyObj (s : State) (r : ObjReq) : OpRes :=
  if r.inject then (if blockOk r then s.opInject r else opBad s .badop)
  else match selCheck r.cls (r.w 0) with
    | some st => opBad s st
    | none =>
      if (r.op = 0x20 || r.op = 0x69) && s.deniedObj r r.cls (s.selOf r) then opBad s .denied
      else if !blockOk r then opBad s .badop
      else s.guarded r (s.runOp r.cls (s.selOf r) r)

/-! ## What an instruction touches and names (R47, R67, R69) -/

/-- Objects whose versions a transaction records for an instruction: those that it reads or writes. `QUERY` and `INJECT` record none. One that
fails under `CONT` has read its objects if it met their state (DEDUCED, log entry 32). -/
def State.touched (s : State) (r : ObjReq) (o : OpRes) : List Nat :=
  if r.op = 0x69 || r.inject then []
  else if o.status = .ok then (s.objsOf o.st r ++ o.changed).eraseDups
  else if o.status = .conflict || o.status = .nores || o.status = .faulted then s.objsOf s r
  else []

/-- Objects that an entry names for an instruction that applied: its own, by the selector as written, and for an overlay put into or out of
effect, the one that an apply removes included, its scope (R69, R85). -/
def State.entryObjs (s : State) (r : ObjReq) : List Nat :=
  let a := r.b 1 0 2
  if r.inject then []
  else if r.op = 0x60 && (a = 1 || a = 2) then
    let old := if a = 1 ∧ s.activeOverlay ≠ some r.rawSel then s.activeOverlay.toList.flatMap (fun j => okey cOverlay j :: s.ovScopeOf (some j)) else []
    (okey cOverlay r.rawSel :: s.ovScopeOf (some r.rawSel) ++ old).eraseDups
  else [okey r.cls r.rawSel]

/-- The checker reference of an `INJECT` (R42). -/
def ObjReq.entryRefs (r : ObjReq) : List Nat := if r.inject then [okey cFaultRecord r.rawSel] else []

/-- Objects that a Program entry names for an instruction that applied: those that it changed, the named one by its selector as written, and for an
overlay put into or out of effect its scope (R69). -/
def State.commitObjs (s : State) (r : ObjReq) (o : OpRes) : List Nat :=
  let own := if o.changed.contains (s.namedObj r) then s.entryObjs r else []
  (own ++ o.changed.filter (fun k => decide (k ≠ s.namedObj r))).eraseDups

/-- The versions of changed objects increment, once each (R44). -/
def State.bumpAll (s : State) (ks : List Nat) : State := ks.eraseDups.foldl (fun (t : State) k => t.bump k) s

/-- A NORES counts at the tenant whose resource ran out (Table 16-1, block 0x08). -/
def State.blame (s : State) (t : Option Nat) : State :=
  match t with
  | none => s
  | some t => s.count (ctrId 0x08 16 t 4) 1

end Sys2Proof.Machine
end

