-- ==== Sys2Proof/Machine/Tally.lean ====
section
/-! DEFINITION. The life of a Tally program: acceptance (R38), its slot (R35), its logbook entries (R48, R65), its end (R32), and the
base configuration (R78 to R81). -/

namespace Sys2Proof.Machine

/-! ## Programs -/

/-- The program with a number. -/
def State.prog (s : State) (id : Nat) : Option Prog := s.tally.progs.find? (fun p => decide (p.id = id))

/-- Changes the program with a number. -/
def State.upd (s : State) (id : Nat) (f : Prog → Prog) : State :=
  { s with tally := { s.tally with progs := s.tally.progs.map (fun p => if p.id = id then f p else p) } }

/-- Instruction words of a program. -/
def Prog.len (p : Prog) : Nat := (body p.words).length

/-- The header asks for a transaction. -/
def Prog.trans (p : Prog) : Bool := hTrans p.words

/-- Execution slots in use, of eight. -/
def State.slotsUsed (s : State) : Nat := (s.tally.progs.filter (·.slot)).length

/-- A slot is free (Table 2-11). -/
def State.slotFree (s : State) : Bool := s.slotsUsed < 8

/-- A program from one queue: the queue, or for a forwarded program its issuer (R55). -/
def sameQueue (p q : Prog) : Bool :=
  match p.src, q.src with
  | .queue a, .queue b => decide (a = b)
  | .forwarded a _, .forwarded b _ => decide (a = b) && decide (p.view = q.view) && decide (p.level = q.level)
  | .base, .base => true
  | _, _ => false

/-- Every earlier program of a program's queue has ended, those forwarded included (R55). -/
def State.earlierEnded (s : State) (p : Prog) : Bool :=
  !(s.tally.progs.any (fun q => decide (q.id < p.id) && sameQueue p q))
  && !(s.tally.fwdOut.any (fun f => decide (f.order < p.id) && (match p.src with | .queue a => decide (a = f.q) | _ => false)))

/-- The next instruction of a program. -/
def Prog.next (p : Prog) : Prog := { p with pc := p.pc + 1 + (if isObj (iOpcode p.instr) then iImm p.instr else 0) }

/-- The status of a program that stops before its next instruction: ABORTED, or FAULTED where a fault hit the Tallyman (Table 2-6). -/
def Prog.stopSt (p : Prog) : Status := if p.faulting then .faulted else .aborted

/-- Word index that a program's end names (Table 2-1): that of its next instruction, so behind the wait for a program stopped while it was parked,
and the last word where it stands past its end (DESIGN CHOICE, log entry 35). -/
def Prog.failWord (p : Prog) : Nat := min p.pc (p.len - 1)

/-! ## Entries of a program (R67, R69) -/

/-- An entry of a program. -/
def Prog.entry (p : Prog) (kind st failWord kindData : Nat) (objs refs : List Nat) (noteValue : Word) (noteImm : Nat) : EntryIn :=
  ⟨hSequence p.words, p.issuerDev, failWord, p.view, hMirror p.words, p.trans, srcCode p.src, p.level, kind, st, hCrc p.words,
    hLength p.words, kindData, objs, refs, noteValue, noteImm⟩

/-- Where a change of state writes an entry before the log may take one, nothing happens yet: the instruction waits (R70). -/
def State.orWait (s t : State) : State := if t.log.head ≠ s.log.head && !s.logReady then s else t

/-! ## Tally queues (Tables 2-2, 2-3) -/

/-- View and BAR0 offset of a host's queue. -/
def qAt : QueueId → Option (Nat × Nat)
  | .admin v => some (v.val, 0x1000)
  | .fm v => some (v.val, 0x1040)
  | .mgmt => none

/-- A host's queue exists and its registers answer (R30, R33). -/
def State.qLive (s : State) : QueueId → Bool
  | .admin v => s.viewLive v.val
  | .fm v => s.viewLive v.val && s.fmGranted v.val
  | .mgmt => false

/-- Descriptors of a ring. -/
def State.ringSize (s : State) (v off : Nat) : Nat := 2 ^ s.regBits v (off + 8) 0 5

/-- Programs of a queue accepted and not yet ended (`InFlight`). A reset of the management function forgets the earlier ones. -/
def State.inFlight (s : State) (q : QueueId) : Nat :=
  (s.tally.progs.filter (fun p => decide (p.src = .queue q) && !p.silent)).length
  + (s.tally.fwdOut.filter (fun f => decide (f.q = q) && !f.silent)).length

/-- TQ_STATUS as a read returns it (Table 2-3). `InFlight` has nine bits: 511 stands for any larger number (DESIGN CHOICE, log entry 114). -/
def State.tqStatus (s : State) (q : QueueId) : Nat :=
  match qAt q with
  | none => 0
  | some (v, off) =>
    if s.qLive q then
      min (s.inFlight q) 511 * 65536 + 8 + s.regBits v (off + 0x14) 1 2 * 2 + s.regBits v (off + 8) 31 1
    else 0

/-- A register of a Tally queue as a read returns it: zero while the queue does not exist (R33); TQ_ABORT is write-only. -/
def State.tqRead (s : State) (q : QueueId) (v off at_ : Nat) : Word :=
  if !s.qLive q || at_ = 0x18 then 0
  else if at_ = 0x14 then word (s.tqStatus q)
  else s.reg v (off + at_)

/-- A record that a view reads in its window: zero where it is kept no more, or the view may not see it (R359). -/
def State.windowRec (s : State) (v id : Nat) : List Word :=
  match s.faults.recs.find? (fun r => decide (r.id = id)) with
  | some r => if s.mayseeRec v r then recWords r else []
  | none => []

/-- BAR0 of a management function as a read of a register returns it (Table 12-5): identity and status (Table 12-6), the logbook registers (Table 3-4),
the Tally queues (Table 2-3), the fault registers and the window (Table 14-7), coordination-memory control (Table 8-2), and MSI-X. Every other offset
reads as zero (R311). -/
def State.bar0 (s : State) (v off : Nat) : Word :=
  if off = 0 then 0x914400A1
  else if off = 0x8 then word (s.devStatus v)
  else if off = 0x10 then word s.tide
  else if off = 0x18 then word (s.faultSummary v)
  else if off = 0x100 then word s.log.head
  else if off = 0x108 then word s.logOldest
  else if off = 0x110 then s.log.epoch
  else if off = 0x124 then 0
  else if 0x114 ≤ off ∧ off < 0x140 then s.reg v off
  else if 0x1000 ≤ off ∧ off < 0x1020 then (if h : v < 96 then s.tqRead (.admin ⟨v, h⟩) v 0x1000 (off - 0x1000) else 0)
  else if 0x1040 ≤ off ∧ off < 0x1060 then (if h : v < 96 then s.tqRead (.fm ⟨v, h⟩) v 0x1040 (off - 0x1040) else 0)
  else if off = 0x2000 then s.reg v off
  else if off = 0x2008 then word (s.faults.nextId - 1)
  else if off = 0x200C then word ((s.faults.recs.map (·.id)).foldl min (s.faults.nextId - 1))
  else if 0x2040 ≤ off ∧ off < 0x3000 then (s.windowRec v (s.regBits v 0x2000 0 32 + (off - 0x2040) / 64)).getD ((off - 0x2040) % 64 / 8) 0
  else if off = 0x10008 ∨ off = 0x10010 ∨ (0x20000 ≤ off ∧ off < 0x20040) then s.reg v off
  else 0

/-- Sets `FetchError`. -/
def State.fetchError (s : State) (v off : Nat) : State := s.setRegBits v (off + 0x14) 2 1 1

/-- Result word of a descriptor (Table 2-1). -/
def resultWord (st failWord : Nat) (done : Bool) : Word := word (st % 256 + bit done * 256 + failWord % 65536 * 65536)

/-- Completes a descriptor: `Status`, `FailWord`, `LogbookSeq` and `Rods`, then `Done` behind them, then `Completion` and the interrupt if
`Irq` is set (R32); or the reply of the management port (R30). -/
def State.completeDesc (s : State) (q : QueueId) (via : Option ViewId) (desc : List Word) (index : Nat) (irq : Bool) (st failWord : Nat) (seq : Word)
    (rods : List Word) : State :=
  let rs := (rods ++ List.replicate 4 0).take 4
  match qAt q with
  | none => s.emit (.mctpReply via (desc.take 2 ++ [resultWord st failWord true, seq] ++ rs))
  | some (v, off) =>
    let a := (s.reg v off).toNat + 64 * index + 16
    let s1 := s.hostWrite 0xFFFF v a ([resultWord st failWord false, seq] ++ rs)
    let s2 := s1.hostWrite 0xFFFF v a [resultWord st failWord true]
    if irq then (s2.setRegBits v (off + 0x14) 1 1 1).msix v (if off = 0x1000 then 1 else 2) else s2

/-! ## Acceptance -/

/-- A program joins those accepted. -/
def State.accept (s : State) (src : ProgSrc) (via : Option ViewId) (desc : List Word) (index : Nat) (irq : Bool) (level view issuerDev : Nat)
    (words : List Word) : State :=
  { s with tally := { s.tally with
      nextId := s.tally.nextId + 1
      progs := s.tally.progs ++ [{
        id := s.tally.nextId, src := src, desc := desc, via := via, descIndex := index, irq := irq, level := level, view := view
        issuerDev := issuerDev, words := words, phase := .waiting, slot := false, aborting := false, faulting := false, pc := 0, rods := List.replicate 15 0
        executed := 0, begun := false, committed := false, staged := [], recorded := [], logSeq := 0, silent := false }] } }

/-- Check 1 of R38 on a descriptor that could be read. -/
def descOk (d : List Word) : Bool :=
  decide (dAddress d % 8 = 0) && decide (dControl d < 2) && decide (32 ≤ dBytes d) && decide (dBytes d ≤ 16384) && decide (dBytes d % 8 = 0)

/-- Check 4 of R38: the target of a program is this device, or a device to which a route exists. -/
def State.targetOk (s : State) (t : Nat) : Bool := t = 0xFFFF || t = s.fabricId || (decide (t < 4096) && s.routeExists t)

/-- Program words of the fragments of a forwarded program, each at most 4,096 bytes (Table 10-8). -/
def fragments : Nat → List Word → List (List Word)
  | 0, _ => []
  | n + 1, ws => if ws.isEmpty then [] else ws.take 512 :: fragments n (ws.drop 512)

/-- Sends the fragments of a forwarded program. -/
def State.sendFragments (s : State) (dev fwdId count level view : Nat) : Nat → List (List Word) → State
  | _, [] => s
  | i, ws :: rest => (s.sendMsg dev (.tallyFwd fwdId i count level view ws)).sendFragments dev fwdId count level view (i + 1) rest

/-- Forwards a program to its target (R16, R52). -/
def State.forward (s : State) (q : QueueId) (via : Option ViewId) (desc : List Word) (index : Nat) (irq : Bool) (level view : Nat)
    (words : List Word) : State :=
  let id := s.tally.nextFwdId % 65536
  let fs := fragments 5 words
  let s1 : State := { s with tally := { s.tally with
      nextFwdId := s.tally.nextFwdId + 1
      nextId := s.tally.nextId + 1
      fwdOut := s.tally.fwdOut ++ [{
        fwdId := id, q := q, desc := desc, via := via, descIndex := index, irq := irq, target := hTarget words, order := s.tally.nextId
        accepted := false, due := s.now + 2000000, silent := false }] } }
  s1.sendFragments (hTarget words) id fs.length level view 0 fs

/-- Level and view of a queue's programs (R30). -/
def queueLevel : QueueId → Nat × Nat
  | .admin v => (1, v.val)
  | .fm v => (2, v.val)
  | .mgmt => (2, 0x7F)

/-- Checks 2 to 6 of R38 on a program from a queue; what passes is accepted, or forwarded after check 4. -/
def State.takeIn (s : State) (q : QueueId) (via : Option ViewId) (desc : List Word) (index : Nat) (words : List Word) : State :=
  let irq := decide (dControl desc % 2 = 1)
  let lv := queueLevel q
  let fail := fun (st : Status) (fw : Nat) => s.completeDesc q via desc index irq (stCode st) fw 0 []
  if !headerOk words (dBytes desc) || !crcOk words then fail .badop 0xFFFF
  else if !s.targetOk (hTarget words) then fail .noobj 0xFFFF
  else if hTarget words ≠ 0xFFFF && hTarget words ≠ s.fabricId then s.forward q via desc index irq lv.1 lv.2 words
  else match checkBody (hFlags words) lv.1 (body words) with
    | some (st, fw) => fail st fw
    | none => s.accept (.queue q) via desc index irq lv.1 lv.2 0xFFFF words

/-! ## The base configuration (R78 to R81) -/

/-- The base configuration ends with a status other than OK: no further program, and a Grade 3 record (R80, R81). -/
def State.baseStop (s : State) (st : Status) : State :=
  let s1 : State := { s with tally := { s.tally with base := [], baseStatus := st } }
  s1.fault { grade := 3, checker := checkerId 0x16 0xFF, cls := 0, sel := 0, syn0 := 0, syn1 := 0, action := 0, key := 0 }

/-- Checks on a program of the base configuration (R38, R78). -/
def baseCheck (ws : List Word) : Option (Status × Nat) :=
  let n := 8 * ws.length
  if n < 32 || 16384 < n || !headerOk ws n || hTarget ws ≠ 0xFFFF || hFlags ws / 2 % 2 = 1 || !crcOk ws then some (.badop, 0xFFFF)
  else checkBody (hFlags ws) 2 (body ws)

/-- The next program of the base configuration is accepted, or ends it. -/
def State.baseNext (s : State) : State :=
  match s.tally.base with
  | [] => s
  | ws :: rest =>
    let s1 : State := { s with tally := { s.tally with base := rest } }
    match baseCheck ws with
    | some (st, _) => s1.baseStop st
    | none => s1.accept .base none [] 0 false 2 0x7F 0xFFFF ws

/-! ## Ends -/

/-- The record that a lane leaves in the seed area (R345). -/
def State.seedOf (s : State) (l : Nat) : Seed :=
  ⟨l, s.lfld laneRateCode l, s.lfld laneTxPre l, s.lfld laneTxPost l, s.lfld laneCtleCode l, s.lfld laneDfeTap1 l,
    decide (s.lfld laneRxState l = 5)⟩

/-- Seed records of every lane in service and of every replaced lane (R345). -/
def State.seedsNow (s : State) : List Seed := ((List.range 608).filter (fun l => decide (s.lfld laneRxState l ≠ 6))).map (fun l => s.seedOf l)

/-- Applies every held store of every view (Table 8-5). -/
def State.drainAll (s : State) : List Nat → State
  | [] => s
  | v :: vs => (if h : v < 96 then s.drainBuffer ⟨v, h⟩ else s).drainAll vs

/-- An orderly power-down goes on once every accepted program has ended: held stores, seed records, DEV_READY (R345). -/
def State.whenDown (s : State) : State :=
  if s.power.downAsked && s.tally.progs.isEmpty && s.tally.fwdOut.isEmpty && s.running then
    let s1 := s.drainAll s.viewsOpen
    let s2 := if s.power.phase = .ready then s1.emit (.pin .devReady false) else s1
    (({ s2 with power := { s2.power with phase := .down, seeds := s1.seedsNow } } : State).showHosts).notify
  else s

/-- The end of a program reaches whoever issued it (R30, R32, R277, R81). -/
def State.report (s : State) (p : Prog) (st : Status) (failWord seq : Nat) : State :=
  match p.src with
  | .queue q => if p.silent then s else s.completeDesc q p.via p.desc p.descIndex p.irq (stCode st) failWord (word seq) (p.rods.take 4)
  | .forwarded dev id =>
    s.sendMsg dev (.tallyResult id (resultWord (stCode st) failWord true) (word seq) ((p.rods ++ List.replicate 4 0).take 4))
  | .base => if st = .ok then s.baseNext else s.baseStop st

/-- A program ends (R32, R48): its Program entry, or after its commit an End entry for another status; staged changes are discarded; the
slot is free. `FailWord` is 0 with OK, of which Table 2-1 says nothing (DESIGN CHOICE, log entry 35). -/
def State.endProg (s : State) (id : Nat) (st : Status) : State :=
  match s.prog id with
  | none => s
  | some p =>
    let fw := if st = .ok then 0 else p.failWord
    let s1 := if p.committed then
        (if st = .ok then s else s.logEntry (p.entry 5 (stCode st) fw p.logSeq [] [] 0 0))
      else s.logEntry (p.entry 0 (stCode st) fw 0 [] [] 0 0)
    let seq := if p.committed then p.logSeq else s1.log.head
    let s2 : State := { s1.tallyCount (stCode st) with tally := { s1.tally with progs := s1.tally.progs.filter (fun (q : Prog) => decide (q.id ≠ id)) } }
    (s2.report p st fw seq).whenDown

/-! ## Slots (R35) -/

/-- The words from a program's next instruction up to its `COMMIT` are all non-object instructions (R35). The first argument bounds them. -/
def slotless : Nat → List Word → Bool
  | 0, _ => false
  | _, [] => false
  | n + 1, w :: ws => iOpcode w = 0x03 || (!isObj (iOpcode w) && slotless n ws)

/-- A program reaches its commit point without a slot once it is due. -/
def Prog.direct (p : Prog) : Bool := p.trans && !p.committed && slotless p.len ((body p.words).drop p.pc)

/-- Instant and order of a parked program that is due. -/
def State.dueKey (s : State) (p : Prog) : Option (Nat × Nat) :=
  match p.phase with
  | .parked due order => if due ≤ s.tide then some (due, order) else none
  | _ => none

/-- A due program comes before another: by instant, then by the order of parking. -/
def before (a b : Nat × Nat) : Bool := a.1 < b.1 || (a.1 = b.1 && a.2 < b.2)

/-- A due program of the same kind, with or without a slot, comes before. -/
def State.dueAhead (s : State) (p : Prog) (k : Nat × Nat) : Bool :=
  s.tally.progs.any (fun q => decide (q.direct = p.direct) && (match s.dueKey q with | some j => before j k | none => false))

/-- A due program may go on: it is the first, and it has a slot or needs none. -/
def State.mayUnpark (s : State) (p : Prog) : Bool :=
  match s.dueKey p with
  | none => false
  | some k => !s.dueAhead p k && (p.direct || s.slotFree)

/-- A due program goes on (R35). -/
def State.unpark (s : State) (p : Prog) : State := s.upd p.id (fun q => { q with phase := .running, slot := !p.direct })

/-- Some due program waits for a slot, or some program whose slotless commit is taken. -/
def State.slotClaimed (s : State) : Bool :=
  s.tally.progs.any (fun q => decide (q.phase = .resuming) || ((s.dueKey q).isSome && !q.direct))

/-- A program that never started comes first among those that wait: programs take slots in order of arrival (R35). -/
def State.firstWaiting (s : State) (p : Prog) : Bool :=
  !(s.tally.progs.any (fun q => decide (q.phase = .waiting) && decide (q.id < p.id)))

end Sys2Proof.Machine
end

