-- ==== Sys2Proof/Machine/TallyRows.lean ====
section
/-! DEFINITION. Tally queues and their registers (R30 to R35), acceptance and forwarding (R38, R52, R277), aborts (R63), slots (R35), the base
configuration (R78 to R82) and scheduled events (R332). -/

namespace Sys2Proof.Machine

/-! ## Registers of a queue (Table 2-3) -/

/-- `TQ_TAIL_DOORBELL` (R34): a tail that is not below the ring size is ignored. -/
def execTqTailDoorbell (q : QueueId) (value : BitVec 32) (s : State) : Host.Outcome State Fault Refusal :=
  match qAt q with
  | none => .next s
  | some (v, off) =>
    let t := value.toNat % 65536
    if !s.qLive q then .next s
    else if s.ringSize v off ≤ t then .next (s.fetchError v off)
    else .next (s.setReg v (off + 0xC) (word t))

/-- `TQ_SIZE_WRITE` (R34, R35): `Log2Entries` changes only while the queue is disabled with nothing in flight. A write that would enable the
queue, or change `Log2Entries`, with a value outside 4 to 16 is ignored as invalid (DEDUCED, log entry 33). -/
def execTqSizeWrite (q : QueueId) (value : BitVec 32) (s : State) : Host.Outcome State Fault Refusal :=
  match qAt q with
  | none => .next s
  | some (v, off) =>
    let w := word value.toNat
    let l := bitsOf w 0 5
    let on := bitsOf w 31 1
    let moves := decide (l ≠ s.regBits v (off + 8) 0 5)
    if !s.qLive q then .next s
    else if moves && (s.regBits v (off + 8) 31 1 = 1 || s.inFlight q ≠ 0) then .next (s.fetchError v off)
    else if (moves || on = 1) && (l < 4 || 16 < l) then .next (s.fetchError v off)
    else .next (s.setReg v (off + 8) (word (on * 2147483648 + l)))

/-- `TQ_BASE_WRITE` (R34). -/
def execTqBaseWrite (q : QueueId) (value : Word) (s : State) : Host.Outcome State Fault Refusal :=
  match qAt q with
  | none => .next s
  | some (v, off) =>
    if !s.qLive q then .next s
    else if s.regBits v (off + 8) 31 1 = 1 || s.inFlight q ≠ 0 then .next (s.fetchError v off)
    else .next (s.setReg v off (word (value.toNat / 4096 * 4096)))

/-- A program is asked to abort before its commit point: it ends now, or where its entry must wait or a tenant reset runs, before its next
instruction (Table 2-10). -/
def State.askAbort (s : State) (p : Prog) : State :=
  if p.phase = .tenantWait || !s.logReady then s.upd p.id (fun q => { q with aborting := true }) else s.endProg p.id p.stopSt

/-- The program of a queue in a descriptor. -/
def State.inDescriptor (s : State) (q : QueueId) (index : Nat) : Option Prog :=
  (s.tally.progs.filter (fun p => decide (p.src = .queue q) && !p.silent && decide (p.descIndex = index))).getLast?

/-- `TQ_ABORT_GO` (R63): a write of TQ_ABORT clears `Valid`; with `Go` it asks for an abort, whose outcome shows. A program that has ended, was
never accepted, or was forwarded gives NOOBJ. -/
def execTqAbortGo (q : QueueId) (value : BitVec 32) (s : State) : Host.Outcome State Fault Refusal :=
  match qAt q with
  | none => .next s
  | some (v, off) =>
    let w := word value.toNat
    let answer := fun (t : State) (st : Status) => t.setReg v (off + 0x1C) (word (256 + stCode st))
    if !s.qLive q then .next s
    else if bitsOf w 31 1 = 0 then .next (s.setRegBits v (off + 0x1C) 8 1 0)
    else match s.inDescriptor q (bitsOf w 0 16) with
      | none => .next (answer s .noobj)
      | some p => if p.committed then .next (answer s .alreadyCommitted) else .next (answer (s.askAbort p) .aborted)

/-- `REGISTER_WRITE` (R8): registers of BAR0 without a row of their own. Bits that are RO or reserved, and offsets that Table 12-5 does not
list, ignore it (R311). -/
def execRegisterWrite (v : ViewId) (offset : Nat) (value : Word) (s : State) : Host.Outcome State Fault Refusal :=
  let n := v.val
  let clear := fun (off lo : Nat) => if bitsOf value lo 1 = 1 then s.setRegBits n off lo 1 0 else s
  if !s.viewLive n then .next s
  else if offset = 0x1014 ∨ (offset = 0x1054 ∧ s.fmGranted n = true) then
    let keep := s.regBits n offset 1 2
    .next (s.setReg n offset (word ((keep &&& (3 - bitsOf value 1 2)) * 2)))
  else if offset = 0x120 then .next (clear 0x120 1)
  else if offset = 0x138 then .next (clear 0x138 28)
  else if offset = 0x128 then .next (s.setReg n 0x128 (word (value.toNat / 4096 * 4096)))
  else if offset = 0x130 then .next (s.setReg n 0x130 value)
  else if offset = 0x2000 then .next (s.setReg n 0x2000 (word (value.toNat % 4294967296)))
  else if 0x20000 ≤ offset ∧ offset < 0x20040 ∧ offset % 8 = 0 then .next (s.setReg n offset value)
  else .next s

/-! ## Fetch and acceptance (R35, R38) -/

/-- A descriptor of a host's ring as the fetch found it. -/
def State.fetched (s : State) (q : QueueId) (v off index : Nat) (desc code : Option (List Word)) : State :=
  match desc with
  | none => (s.fetchError v off).completeDesc q none [] index false (stCode .badop) 0xFFFF 0 []
  | some d =>
    let bad := fun (t : State) => t.completeDesc q none d index (decide (dControl d % 2 = 1)) (stCode .badop) 0xFFFF 0 []
    if !descOk d then bad s
    else match code with
      | none => bad (s.fetchError v off)
      | some ws => s.takeIn q none d index ws

/-- A message of the management-port queue (R30): descriptor and program arrive together. -/
def State.fetchedMgmt (s : State) (m : MgmtMsg) : State :=
  if descOk m.desc && 8 * m.code.length = dBytes m.desc then s.takeIn .mgmt m.viaView m.desc 0 m.code
  else s.completeDesc .mgmt m.viaView m.desc 0 false (stCode .badop) 0xFFFF 0 []

/-- `PROGRAM_FETCH_COMPLETE` (R35, R38): the next descriptor of an enabled ring, or the next message of the management port. -/
def execProgramFetchComplete (q : QueueId) (desc code : Option (List Word)) (s : State) : Host.Outcome State Fault Refusal :=
  if !fetchWf desc code then .next s
  else if !s.running || s.power.downAsked then .next s
  else match qAt q with
    | none =>
      (match s.tally.mgmtQ with
        | [] => .next s
        | m :: rest => .next (({ s with tally := { s.tally with mgmtQ := rest } } : State).fetchedMgmt m))
    | some (v, off) =>
      let head := s.regBits v (off + 0x10) 0 16
      let next := (head + 1) % s.ringSize v off
      if !s.qLive q || s.regBits v (off + 8) 31 1 = 0 || head = s.regBits v (off + 0xC) 0 16 then .next s
      else .next ((s.setReg v (off + 0x10) (word next)).fetched q v off head desc code)

/-! ## Slots (R35) -/

/-- `PROGRAM_START`: a free slot goes to a program past its commit point, or, where no due program waits, to the first that has not started. -/
def execProgramStart (prog : Nat) (s : State) : Host.Outcome State Fault Refusal :=
  match s.prog prog with
  | none => .next s
  | some p =>
    let go := s.upd prog (fun q => { q with phase := .running, slot := true })
    if !s.running then .next s
    else if p.phase = .waiting then
      (if p.aborting then .next (s.orWait (s.endProg prog p.stopSt))
       else if s.slotFree && !s.slotClaimed && s.firstWaiting p then .next go else .next s)
    else if p.phase = .resuming then
      (if p.aborting then .next (s.orWait (s.endProg prog p.stopSt)) else if s.slotFree then .next go else .next s)
    else .next s

/-- `INSTRUCTION_LIMIT_TIMEOUT` (R55). -/
def execInstructionLimitTimeout (prog : Nat) (s : State) : Host.Outcome State Fault Refusal :=
  match s.prog prog with
  | none => .next s
  | some p =>
    if s.running && decide (1048576 ≤ p.executed) && decide (p.pc < p.len) && (p.phase = .running || p.phase = .resuming) then
      .next (s.orWait (s.endProg prog .timeout))
    else .next s

/-- `PARKED_PROGRAM_DUE` (R35, R49). -/
def execParkedProgramDue (prog : Nat) (s : State) : Host.Outcome State Fault Refusal :=
  match s.prog prog with
  | none => .next s
  | some p =>
    let parked := match p.phase with | .parked _ _ => true | _ => false
    if !s.running || !parked then .next s
    else if p.aborting then .next (s.orWait (s.endProg prog p.stopSt))
    else if s.mayUnpark p then .next (s.unpark p)
    else .next s

/-- `SCHEDULED_EVENT_FIRE` (R332): the first parked program that is due and may go on, or else the first snapshot whose instant has come. -/
def execScheduledEventFire (s : State) : Host.Outcome State Fault Refusal :=
  if !s.running then .next s
  else match s.tally.progs.find? (fun p => s.mayUnpark p && !p.aborting) with
    | some p => .next (s.unpark p)
    | none =>
      match s.counters.jobs.find? (fun j => decide (j.instant ≤ s.tide) && (s.base snapState j.set.val = 1 || s.base snapState j.set.val = 2)) with
      | some j => .next (s.capture j)
      | none => .next s

/-! ## Programs from and for other devices (R52, R277) -/

/-- The fragments of a program that this device holds, with one more. -/
def State.gather (s : State) (m : FwdFragment) : FwdIn :=
  let fresh : FwdIn := ⟨m.srcDev, m.fwdId, m.count, m.level, m.view, [], 0⟩
  let f := (s.tally.fwdIn.find? (fun (f : FwdIn) => decide (f.srcDev = m.srcDev) && decide (f.fwdId = m.fwdId) && decide (f.count = m.count))).getD fresh
  { f with got := (f.got.filter (fun e => decide (e.1 ≠ m.index))) ++ [(m.index, m.words)], due := s.now + 1000000 }

/-- The words of a program from its fragments. -/
def FwdIn.words (f : FwdIn) : List Word :=
  (List.range f.count).flatMap (fun i => match f.got.find? (fun e => decide (e.1 = i)) with | some e => e.2 | none => [])

/-- Checks 5 and 6 on a program that has arrived whole: acceptance and TALLY_ACCEPT, or TALLY_RESULT alone (R277). -/
def State.programArrived (s : State) (f : FwdIn) : State :=
  let ws := f.words
  match checkBody (hFlags ws) f.level (body ws) with
  | some (st, fw) => s.sendMsg f.srcDev (.tallyResult f.fwdId (resultWord (stCode st) fw true) 0 (List.replicate 4 0))
  | none => (s.sendMsg f.srcDev (.tallyAccept f.fwdId)).accept (.forwarded f.srcDev f.fwdId) none [] 0 false f.level f.view f.srcDev ws

/-- `TALLY_FWD_RECEIVED` (R277). -/
def execTallyFwdReceived (m : FwdFragment) (s : State) : Host.Outcome State Fault Refusal :=
  if !fwdWf m then .next s
  else if !s.running then .next s
  else
    let f := s.gather m
    let others := s.tally.fwdIn.filter (fun (g : FwdIn) => !(decide (g.srcDev = m.srcDev) && decide (g.fwdId = m.fwdId)))
    if f.got.length < f.count then .next { s with tally := { s.tally with fwdIn := others ++ [f] } }
    else .next (({ s with tally := { s.tally with fwdIn := others } } : State).programArrived f)

/-- `TALLY_FRAGMENT_TIMEOUT` (R277): 1 ms without the next fragment. -/
def execTallyFragmentTimeout (srcDev fwdId : Nat) (s : State) : Host.Outcome State Fault Refusal :=
  .next (if s.running then
    { s with tally := { s.tally with fwdIn := s.tally.fwdIn.filter (fun (g : FwdIn) =>
        !(decide (g.srcDev = srcDev) && decide (g.fwdId = fwdId) && decide (g.due ≤ s.now))) } }
  else s)

/-- `TALLY_ACCEPT_RECEIVED` (R52). -/
def execTallyAcceptReceived (fwdId : Nat) (s : State) : Host.Outcome State Fault Refusal :=
  .next (if s.running then
    { s with tally := { s.tally with fwdOut := s.tally.fwdOut.map (fun (f : FwdOut) => if f.fwdId = fwdId then { f with accepted := true } else f) } }
  else s)

/-- A forwarded program is over: its descriptor completes. -/
def State.fwdEnd (s : State) (f : FwdOut) (st failWord : Nat) (seq : Word) (rods : List Word) : State :=
  let s1 : State := { s with tally := { s.tally with fwdOut := s.tally.fwdOut.filter (fun (g : FwdOut) => decide (g.fwdId ≠ f.fwdId)) } }
  (if f.silent then s1 else s1.completeDesc f.q f.via f.desc f.descIndex f.irq st failWord seq rods).whenDown

/-- `TALLY_RESULT_RECEIVED` (R52, R277): it is the acknowledgement too. -/
def execTallyResultReceived (fwdId : Nat) (result logSeq : Word) (rods : List Word) (s : State) : Host.Outcome State Fault Refusal :=
  if !resultWf rods then .next s
  else match s.tally.fwdOut.find? (fun f => decide (f.fwdId = fwdId)) with
    | none => .next s
    | some f => .next (if s.running then s.fwdEnd f (bitsOf result 0 8) (bitsOf result 16 16) logSeq rods else s)

/-- `FORWARD_ACCEPT_TIMEOUT` (R52). -/
def execForwardAcceptTimeout (fwdId : Nat) (s : State) : Host.Outcome State Fault Refusal :=
  match s.tally.fwdOut.find? (fun f => decide (f.fwdId = fwdId)) with
  | none => .next s
  | some f => .next (if s.running && !f.accepted && decide (f.due ≤ s.now) then s.fwdEnd f (stCode .timeout) 0xFFFF 0 [] else s)

/-! ## The base configuration (R79 to R82) -/

/-- `n` bytes of an image from an offset, as a number (R6). -/
def imgNum (img : List Byte) (at_ n : Nat) : Nat := leNat ((img.drop at_).take n)

/-- Bytes of a range of an image are zero. -/
def imgZero (img : List Byte) (at_ n : Nat) : Bool := ((img.drop at_).take n).all (fun b => b = 0)

/-- Words of bytes, the first argument bounding how many. -/
def imgWords : Nat → List Byte → List Word
  | 0, _ => []
  | n + 1, bs => word (leNat (bs.take 8)) :: imgWords n (bs.drop 8)

/-- A section of an image lies between its header and its end. -/
def sectionOk (img : List Byte) (start len : Nat) : Bool := decide (len = 0) || (decide (512 ≤ start) && decide (start + len ≤ imgNum img 4 4))

/-- Every field of a boot image header is in range (Table 13-10). -/
def imageHeadOk (img : List Byte) : Bool :=
  decide (imgNum img 0 1 = 1) && imgZero img 1 1 && decide (imgNum img 2 2 = 512) && decide (512 ≤ imgNum img 4 4) && decide (imgNum img 4 4 ≤ 4194304)
  && decide (imgNum img 4 4 ≤ img.length) && decide (imgNum img 16 1 ≤ 64) && decide (imgNum img 17 1 < 8) && imgZero img 18 2
  && decide (imgNum img 20 4 % 8 = 0) && sectionOk img (imgNum img 20 4) (imgNum img 24 4) && sectionOk img (imgNum img 28 4) (imgNum img 32 4)
  && imgZero img 36 92 && imgZero img 320 192

/-- The signed bytes of an image: bytes 0 to `ImageBytes` - 1, with the signature taken as zero (R344). -/
def imageSigned (img : List Byte) : List Byte := (img.take 224 ++ List.replicate 96 0 ++ img.drop 320).take (imgNum img 4 4)

/-- An image is authentic (R344): its key, its signature, its `SecurityVersion` and every other field. -/
def State.authentic (s : State) (img : List Byte) : Bool :=
  let key := (img.drop 128).take 96
  imageHeadOk img && decide (Config.sha384 key = Config.keyHash) && Config.ecdsaP384 key ((img.drop 224).take 96) (imageSigned img)
  && decide (s.power.secFloor ≤ imgNum img 16 1)

/-- The programs of a section, back to back, each as long as its header says (R78); words that no header spans are one last program, which its
checks refuse. The first argument bounds them. -/
def progsOf : Nat → List Word → List (List Word)
  | 0, _ => []
  | n + 1, ws =>
    if ws.isEmpty then [] else
      let k := if ws.length < 4 + hLength ws then ws.length else 4 + hLength ws
      ws.take k :: progsOf n (ws.drop k)

/-- The slot that start-up uses: A, or B where A fails authentication; none where both fail (R80). -/
def State.bootSlot (s : State) (a b : List Byte) : Option (Nat × List Byte) :=
  if s.authentic a then some (0, a) else if s.authentic b then some (1, b) else none

/-- The base configuration begins from an authentic image (R78, R79, R344). -/
def State.bootFrom (s : State) (slot : Nat) (img : List Byte) : State :=
  let pw := imgWords (imgNum img 24 4 / 8) (img.drop (imgNum img 20 4))
  let s1 : State := { s with
    power := { s.power with baseBegun := true, baseSlot := slot, coreSpread := imgNum img 17 1 % 2 = 1
                            secCommit := if imgNum img 17 1 / 2 % 2 = 1 then some (imgNum img 16 1) else none }
    tally := { s.tally with
      base := progsOf pw.length pw
      baseOverlays := imgWords (imgNum img 32 4 / 8) (img.drop (imgNum img 28 4)), baseStatus := .ok } }
  (s1.putWord cDevice 0 1 (word (imgNum img 8 8))).baseNext

/-- `BASE_CONFIGURATION` (R79): the programs of the image in order, one at a time; with no authentic image, none (R80). The objects took their
cold-reset images at the reset itself. -/
def execBaseConfiguration (flash : BootFlash) (s : State) : Host.Outcome State Fault Refusal :=
  if !flashWf flash.slotA flash.slotB then .next s
  else if s.power.phase ≠ .managed || s.power.baseBegun then .next s
  else match s.bootSlot flash.slotA flash.slotB with
    | some (slot, img) => .next (s.bootFrom slot img)
    | none =>
      let s1 : State := { s with
        power := { s.power with baseBegun := true, baseSlot := 3, secCommit := none }
        tally := { s.tally with base := [], baseOverlays := [], baseStatus := .ok } }
      .next (s1.baseStop .faulted)

/-- Slots at BaseDone (R385): one that stayed powered over the reset stays On if the base configuration switched it on, its SPn_PERST_N released
`PerstDelayMs` later; every other such slot is switched off. -/
def State.slotsBase (s : State) : List Nat → State
  | [] => s
  | n :: ns =>
    let r := s.slotRun n
    (if !r.kept then s
     else if r.request then
       let s1 := s.setSlotRun { r with held := none, kept := false, request := false }
       s1.setSlotRun { s1.slotRun n with perstDue := some (s.now + s1.fld slotPerstDelayMs n * 1000000) }
     else s.slotOffNow n false).slotsBase ns

/-- `BASE_DONE` (R79 to R81, R344, R385): the entry, then DEV_READY. -/
def execBaseDone (s : State) : Host.Outcome State Fault Refusal :=
  let st := s.tally.baseStatus
  if s.power.phase ≠ .managed || !s.power.baseBegun || !s.tally.base.isEmpty || s.tally.progs.any (fun p => decide (p.src = .base)) || !s.logReady then
    .next s
  else
    let floor := match s.power.secCommit with | some v => if st = .ok then max s.power.secFloor v else s.power.secFloor | none => s.power.secFloor
    let s1 := s.logEntry (ownEntryIn 4 s.power.baseSlot (stCode st))
    let s2 : State := { s1 with power := { s1.power with phase := .ready, baseFailed := decide (st ≠ .ok), secFloor := floor, secCommit := none } }
    .next (((s2.slotsBase allSlots).emit (.pin .devReady true)).showHosts).notify

/-! ## Faults of the Tallyman (Table 2-6, R348, R357) -/

/-- Every program that has started is struck by a fault of the Tallyman: it stops before its next instruction and ends with FAULTED. -/
def State.strike (s : State) : State :=
  { s with tally := { s.tally with progs := s.tally.progs.map (fun p =>
      if p.phase = .waiting then p else { p with aborting := true, faulting := true }) } }

/-- Ends the programs of a list with FAULTED. -/
def State.endStruck (s : State) : List Nat → State
  | [] => s
  | i :: is => (s.endProg i .faulted).endStruck is

/-- A fault of the lockstep cores or of the program store strikes the programs; where the device halts they end at once, so that their entries are
among the log writes that the halt completes (R355; DEDUCED, log entry 117). -/
def State.tallyFault (s : State) (block grade : Nat) : State :=
  if (block = 0x0E ∨ block = 0x0F) ∧ grade ≠ 0 ∧ s.running = true then
    let t := s.strike
    if grade = 4 then t.endStruck ((t.tally.progs.filter (·.faulting)).map (·.id)) else t
  else s

/-- `FAULT_EVENT` (R348 to R353): a checker's report with its grade, object and action. -/
def execFaultEvent (e : FaultIn) (s : State) : Host.Outcome State Fault Refusal :=
  if !s.collects || 5 < e.grade || !checkerExists e.checker then .next s
  else .next (((s.tallyFault (e.checker / 65536) e.grade).bankError e).raise (eventOf e))

/-- `LOCKSTEP_MISMATCH` (R357): Grade 4, or Grade 5 after an earlier mismatch. -/
def execLockstepMismatch (s : State) : Host.Outcome State Fault Refusal :=
  if !s.running then .next s
  else if s.earlierMismatch then .next ((s.tallyFault 0x0E 5).raiseOpen ⟨5, checkerId 0x0E 0, 0, 0, 0, 0, 13, 0⟩)
  else .next ((s.tallyFault 0x0E 4).raiseOpen ⟨4, checkerId 0x0E 0, 0, 0, 0, 0, 12, 0⟩)

end Sys2Proof.Machine
end

