-- ==== Sys2Proof/Machine/Control.lean ====
section
/-! DEFINITION. The control and arithmetic instructions of a program (Table 2-7), its timed waits (R49, R50), `SYNC` (R55) and `LOGNOTE`. -/

namespace Sys2Proof.Machine

/-! ## One instruction -/

/-- A program goes on after an instruction. Without a slot it runs on only toward its commit point: past it, or at an object instruction, it
waits for the next free slot (R35). -/
def Prog.onward (p : Prog) : Prog :=
  { p with phase := if p.slot || (!p.committed && !isObj (iOpcode p.instr)) then .running else .resuming }

/-- The program changes as `f` says and goes on. -/
def State.proceed (s : State) (id : Nat) (f : Prog → Prog) : State := s.upd id (fun p => (f p).onward)

/-- The program stands at an instruction that it may execute (R35, R55). -/
def State.atInstr (s : State) (p : Prog) : Bool :=
  s.running && p.phase = .running && decide (p.pc < p.len) && decide (p.executed < 1048576) && (p.slot || !isObj (iOpcode p.instr))

/-- One instruction of a program, if it is the one that stands next. An abort that waited takes effect instead of it (R63). An entry that the
log cannot take yet makes it wait (R70). -/
def State.instrRow (s : State) (id : Nat) (want : Prog → Bool) (f : State → Prog → State) : Host.Outcome State Fault Refusal :=
  match s.prog id with
  | none => .next s
  | some p =>
    if s.atInstr p && want p then
      .next (s.orWait (if p.aborting then s.endProg id p.stopSt else f (s.upd id (fun q => { q with executed := q.executed + 1 })) p))
    else .next s

/-- The instruction that stands next has an opcode. -/
def opIs (op : Nat) (p : Prog) : Bool := iOpcode p.instr = op

/-- An instruction that changes rods alone. -/
def State.rodRow (s : State) (id op : Nat) (f : Prog → Word) : Host.Outcome State Fault Refusal :=
  s.instrRow id (opIs op) (fun t p => t.proceed id (fun q => (q.setRod (iDst p.instr) (f p)).next))

/-- An instruction that goes on at word `Imm` if its condition holds. -/
def State.branchRow (s : State) (id op : Nat) (c : Word → Bool) : Host.Outcome State Fault Refusal :=
  s.instrRow id (opIs op) (fun t p => t.proceed id (fun q => if c (p.rod (iSrc p.instr)) then { q with pc := iImm p.instr } else q.next))

/-- Value of the destination rod. -/
def Prog.dstVal (p : Prog) : Word := p.rod (iDst p.instr)

/-! ## Control -/

/-- `NOP`. -/
def execNop (prog : Nat) (s : State) : Host.Outcome State Fault Refusal :=
  s.instrRow prog (opIs 0x00) (fun t _ => t.proceed prog (fun q => q.next))

/-- `HALT` (R54); a program past its last word ends so too (Table 2-6; DESIGN CHOICE, log entry 35). -/
def execHalt (prog : Nat) (s : State) : Host.Outcome State Fault Refusal :=
  match s.prog prog with
  | none => .next s
  | some p =>
    if s.running && p.phase = .running && decide (p.len ≤ p.pc) then
      .next (s.orWait (s.endProg prog (if p.aborting then p.stopSt else .ok)))
    else s.instrRow prog (opIs 0x01) (fun t _ => t.endProg prog .ok)

/-- `BEGIN` (R46). A branch back to it is a wrong use: BADOP. -/
def execBeginTx (prog : Nat) (s : State) : Host.Outcome State Fault Refusal :=
  s.instrRow prog (opIs 0x02) (fun t p =>
    if p.begun then t.endProg prog .badop else t.proceed prog (fun q => { q with begun := true }.next))

/-- `ABORT` (R54). -/
def execAbort (prog : Nat) (s : State) : Host.Outcome State Fault Refusal :=
  s.instrRow prog (opIs 0x04) (fun t _ => t.endProg prog .aborted)

/-- `JMP`. -/
def execJmp (prog : Nat) (s : State) : Host.Outcome State Fault Refusal := s.branchRow prog 0x08 (fun _ => true)

/-- `BZ`. -/
def execBz (prog : Nat) (s : State) : Host.Outcome State Fault Refusal := s.branchRow prog 0x09 (fun v => v = 0)

/-- `BNZ`. -/
def execBnz (prog : Nat) (s : State) : Host.Outcome State Fault Refusal := s.branchRow prog 0x0A (fun v => v ≠ 0)

/-- `BLT`. -/
def execBlt (prog : Nat) (s : State) : Host.Outcome State Fault Refusal := s.branchRow prog 0x0B (fun v => v.toInt < 0)

/-! ## Arithmetic -/

/-- `LDI`. -/
def execLdi (prog : Nat) (s : State) : Host.Outcome State Fault Refusal :=
  s.rodRow prog 0x10 (fun p => if fOpt (iFlags p.instr) then setBits p.dstVal 32 32 (iImm p.instr) else word (iImm p.instr))

/-- `MOV`. -/
def execMov (prog : Nat) (s : State) : Host.Outcome State Fault Refusal := s.rodRow prog 0x11 (fun p => p.rod (iSrc p.instr))

/-- `ADD`. -/
def execAdd (prog : Nat) (s : State) : Host.Outcome State Fault Refusal := s.rodRow prog 0x12 (fun p => p.dstVal + p.operand)

/-- `SUB`. -/
def execSub (prog : Nat) (s : State) : Host.Outcome State Fault Refusal := s.rodRow prog 0x13 (fun p => p.dstVal - p.operand)

/-- `AND`. -/
def execAndOp (prog : Nat) (s : State) : Host.Outcome State Fault Refusal := s.rodRow prog 0x14 (fun p => p.dstVal &&& p.operand)

/-- `OR`. -/
def execOrOp (prog : Nat) (s : State) : Host.Outcome State Fault Refusal := s.rodRow prog 0x15 (fun p => p.dstVal ||| p.operand)

/-- `XOR`. -/
def execXorOp (prog : Nat) (s : State) : Host.Outcome State Fault Refusal := s.rodRow prog 0x16 (fun p => p.dstVal ^^^ p.operand)

/-- `SHL`. -/
def execShl (prog : Nat) (s : State) : Host.Outcome State Fault Refusal := s.rodRow prog 0x17 (fun p => p.dstVal <<< bitsOf p.operand 0 6)

/-- `SHR`. -/
def execShr (prog : Nat) (s : State) : Host.Outcome State Fault Refusal := s.rodRow prog 0x18 (fun p => p.dstVal >>> bitsOf p.operand 0 6)

/-- The signed comparison of `CMP`. -/
def cmpWord (a b : Word) : Word := if a.toInt < b.toInt then -1 else if a.toInt = b.toInt then 0 else 1

/-- `CMP`. -/
def execCmp (prog : Nat) (s : State) : Host.Outcome State Fault Refusal := s.rodRow prog 0x19 (fun p => cmpWord p.dstVal p.operand)

/-! ## Timed waits (R49, R50) -/

/-- Programs parked at once. -/
def State.parkedCount (s : State) : Nat :=
  (s.tally.progs.filter (fun p => match p.phase with | .parked _ _ => true | _ => false)).length

/-- Parks a program until an instant: it gives up its slot; the 257th ends with NORES (R49). It stands at the instruction behind the wait, which
`FailWord` names if it is stopped here (DESIGN CHOICE, log entry 35). -/
def State.park (s : State) (id due : Nat) : State :=
  if 256 ≤ s.parkedCount then s.endProg id .nores
  else
    let s1 := s.upd id (fun q => { q.next with phase := .parked due s.tally.parkings, slot := false })
    { s1.tallyCount 14 with tally := { s1.tally with parkings := s1.tally.parkings + 1 } }

/-- `AT` (R49, R50). An instant equal to the count has come and has not passed: the program continues. -/
def execAtTide (prog : Nat) (s : State) : Host.Outcome State Fault Refusal :=
  s.instrRow prog (opIs 0x05) (fun t p =>
    let i := (p.rod (iSrc p.instr)).toNat
    if !s.everLocked then t.endProg prog .notide
    else if s.tide < i then t.park prog i
    else if i < s.tide && !fOpt (iFlags p.instr) then t.endProg prog .late
    else t.proceed prog (fun q => q.next))

/-- `WAITTIDE` (R49, R50): it uses the count whether or not tide is locked. -/
def execWaitTide (prog : Nat) (s : State) : Host.Outcome State Fault Refusal :=
  s.instrRow prog (opIs 0x06) (fun t p =>
    let n := (p.rod (iSrc p.instr)).toNat
    if n = 0 then t.proceed prog (fun q => q.next) else t.park prog (s.tide + n))

/-! ## SYNC (R55) -/

/-- `SYNC_COMMITS`: until the commits so far have reached every block. -/
def execSyncCommits (prog : Nat) (s : State) : Host.Outcome State Fault Refusal :=
  s.instrRow prog (fun p => opIs 0x78 p && decide (iSub p.instr = 0)) (fun t _ =>
    t.upd prog (fun q => { q with phase := .syncCommits s.tally.settledAt }))

/-- `SYNC_QUEUE`: until every earlier program of the queue has ended. -/
def execSyncQueue (prog : Nat) (s : State) : Host.Outcome State Fault Refusal :=
  s.instrRow prog (fun p => opIs 0x78 p && decide (iSub p.instr = 1)) (fun t _ => t.upd prog (fun q => { q with phase := .syncQueue }))

/-- `SYNC_COMPLETE`. -/
def execSyncComplete (prog : Nat) (s : State) : Host.Outcome State Fault Refusal :=
  match s.prog prog with
  | none => .next s
  | some p =>
    let go := if p.aborting then s.orWait (s.endProg prog p.stopSt) else s.proceed prog (fun q => q.next)
    match p.phase with
    | .syncCommits due => .next (if s.running && (p.aborting || decide (due ≤ s.now)) then go else s)
    | .syncQueue => .next (if s.running && (p.aborting || s.earlierEnded p) then go else s)
    | _ => .next s

/-- `LOGNOTE` (R65). -/
def execLogNote (prog : Nat) (s : State) : Host.Outcome State Fault Refusal :=
  s.instrRow prog (opIs 0x7F) (fun t p =>
    (t.logEntry (p.entry 2 0 0 0 [] [] (p.rod (iSrc p.instr)) (iImm p.instr))).proceed prog (fun q => q.next))

end Sys2Proof.Machine
end

