-- ==== Sys2Proof/Machine/Commit.lean ====
section
/-! DEFINITION. Object instructions in a program: how they apply at once or are staged (R45, R46), `COMMIT` (R47), the waits of `UNBIND` and of a
tenant reset (R62, R190). -/

namespace Sys2Proof.Machine

/-- The rods and A15 after an object instruction (R40). -/
def Prog.result (p : Prog) (r : ObjReq) (st : Status) (dst : Option Word) : Prog :=
  let q := match dst with | some w => p.setRod r.dst w | none => p
  q.setRod 15 (word (stCode st))

/-- An object instruction that did not end OK: the program ends, or goes on with `CONT` (R41). -/
def State.objFail (s : State) (id : Nat) (r : ObjReq) (st : Status) (dst : Option Word) : State :=
  let s1 := s.upd id (fun q => q.result r st dst)
  if fCont r.iflags then s1.proceed id (fun q => q.next) else s1.endProg id st

/-- What a commit leaves behind: the time by which every block has it (R55), the program of a requested reset (R341). -/
def State.settle (s0 s : State) (id : Nat) : State :=
  { s with
    tally := { s.tally with settledAt := s.now + 2000 }
    power := if s.power.resetDue.isSome ∧ s0.power.resetDue.isNone then { s.power with resetProg := some id } else s.power }

/-- A program waits where a tenant reset that it issued is not over (R190); else it goes on. -/
def State.afterCommit (s : State) (id : Nat) : State :=
  if s.tenancy.resets.any (fun r => decide (r.prog = id)) then s.upd id (fun q => { q with phase := .tenantWait })
  else s.proceed id (fun q => q.next)

/-! ## Outside a transaction (R45) -/

/-- An object instruction that applies when it executes: a change has its Step entry first (R48, R65). -/
def State.applyNow (s : State) (p : Prog) (r : ObjReq) : State :=
  let o := s.applyObj r
  if o.status ≠ .ok then (o.st.blame o.blame).objFail p.id r o.status o.dst
  else if isChange r.op then
    let s1 := (s.tallyCount 12).logEntry (p.entry 1 0 p.pc 0 (s.entryObjs r) r.entryRefs 0 0)
    let o1 := s1.applyObj r
    ((s.settle (o1.st.bumpAll o1.changed) p.id).upd p.id (fun q => q.result r .ok o1.dst)).afterCommit p.id
  else o.st.proceed p.id (fun q => (q.result r .ok o.dst).next)

/-! ## Inside a transaction (R46, R47) -/

/-- The state as the staged changes would leave it, which later instructions of the program see (DEDUCED, log entry 36). -/
def State.shadow (s : State) (rs : List ObjReq) : State := rs.foldl (fun (t : State) r => (t.applyObj r).st) s

/-- What a reading instruction does to the state beside its result: free values drawn, and the records it sent. -/
def State.readEffects (s sh : State) (r : ObjReq) (o : OpRes) : State :=
  let real := if isChange r.op then s else (s.applyObj r).st
  { real with free := max real.free o.st.free, out := o.st.out.take (o.st.out.length - sh.out.length) ++ s.out }

/-- Records the versions of objects that the program had not named before (R47). -/
def addRecorded (s : State) (rs : List (Nat × Nat)) : List Nat → List (Nat × Nat)
  | [] => rs
  | k :: ks => addRecorded s (if rs.any (fun e => decide (e.1 = k)) then rs else rs ++ [(k, s.version k)]) ks

/-- An object instruction between `BEGIN` and `COMMIT`: it is evaluated over the staged changes, and staged if it changes anything; an `INJECT`
is evaluated over what earlier commits have armed (R60). The instruction that would touch the 1,025th object ends with NORES (R46); a `RESIZE`
then still answers the current use (R40). -/
def State.stageObj (s : State) (p : Prog) (r : ObjReq) : State :=
  let sh := if r.inject then s else s.shadow p.staged
  let o := sh.applyObj r
  let recs := addRecorded s p.recorded (sh.touched r o)
  let s1 := if isChange r.op then { s with free := max s.free o.st.free } else s.readEffects sh r o
  if 1024 < recs.length then s1.objFail p.id r .nores (if r.op = 0x44 then o.dst else none)
  else
    let s2 := s1.upd p.id (fun q => { q with recorded := recs })
    if o.status ≠ .ok then (s2.blame o.blame).objFail p.id r o.status o.dst
    else s2.proceed p.id (fun q =>
      ({ (q.result r .ok o.dst) with
          staged := if isChange r.op then q.staged ++ [{ r with clear := !sh.objContained r.cls (sh.selOf r) }] else q.staged }).next)

/-- An object instruction where it stands: staged, applied at once, or a change outside `BEGIN` … `COMMIT`, which is a wrong use (R46). -/
def State.objNow (s : State) (p : Prog) (r : ObjReq) : State :=
  if p.begun && !p.committed then s.stageObj p r
  else if p.trans && isChange r.op then s.objFail p.id r .badop none
  else s.applyNow p r

/-- `UNBIND` without `FORCE` that would end OK waits, also in a transaction, where it executes and before it is staged (DESIGN CHOICE, log entry 118), while the record has non-posted requests (R62). -/
def State.mustDrain (s : State) (p : Prog) (r : ObjReq) : Bool :=
  r.op = 0x42 && !fForce r.iflags && decide (((s.shadow p.staged).applyObj r).status = .ok) && !(s.recordReqs (s.selOf r)).isEmpty

/-- One object instruction of a program, if it is the one that stands next. -/
def State.objRow (s : State) (id : Nat) (want : ObjReq → Bool) (image : Option (List Word)) : Host.Outcome State Fault Refusal :=
  s.instrRow id (fun p => isObj (iOpcode p.instr) && want p.objReq) (fun t p =>
    let r : ObjReq := { p.objReq with image := image }
    if t.mustDrain p r then t.upd id (fun q => { q with phase := .draining (s.now + 10000000) }) else t.objNow p r)

/-! ## COMMIT (R47) -/

/-- What a commit of staged changes gives: its status, the state, the objects that an entry names, those whose version increments, and the tenant
at which a NORES counts. -/
structure CommitRes where
  status : Status
  st : State
  objs : List Nat
  bumps : List Nat
  blame : Option Nat
  deriving DecidableEq, Repr

/-- The staged changes in order, up to the first that ends with another status than OK. -/
def State.commitAll (s : State) : List ObjReq → CommitRes
  | [] => ⟨.ok, s, [], [], none⟩
  | r :: rs =>
    let o := s.applyObj r
    if o.status ≠ .ok then ⟨o.status, o.st, [], [], o.blame⟩
    else
      let c := o.st.commitAll rs
      { c with objs := s.commitObjs r o ++ c.objs, bumps := o.changed ++ c.bumps }

/-- A recorded version has changed. -/
def State.conflicts (s : State) (p : Prog) : Bool := p.recorded.any (fun e => decide (s.version e.1 ≠ e.2))

/-- A staged change of an overlay that another program deleted since (Table 3-7). -/
def State.overlayGone (s : State) (p : Prog) : Bool :=
  p.staged.any (fun r => decide (r.op = 0x60) && decide (r.b 1 0 2 ≠ 0) && !s.objExists cOverlay (s.selOf r)
    && !p.staged.any (fun q => decide (q.op = 0x60) && decide (q.b 1 0 2 = 0) && decide (q.rawSel = r.rawSel)))

/-- The commit point: NOOBJ for an overlay deleted meanwhile; CONFLICT for a changed version; a staged change that can no longer be made ends the program with its status, and nothing
applies (DEDUCED, log entry 37); else the Program entry, then every change at once (R48). -/
def State.commitPoint (s : State) (p : Prog) : State :=
  let c := s.commitAll p.staged
  if s.overlayGone p then s.endProg p.id .noobj
  else if s.conflicts p then (s.tallyCount 13).endProg p.id .conflict
  else if c.status ≠ .ok then (s.blame c.blame).endProg p.id c.status
  else
    let s1 := (s.tallyCount 12).logEntry (p.entry 0 0 0 0 c.objs.eraseDups (p.staged.flatMap (fun r => r.entryRefs)) 0 0)
    let d := s1.commitAll p.staged
    let s2 := (s.settle (d.st.bumpAll d.bumps) p.id).upd p.id (fun q =>
      { q with committed := true, logSeq := s1.log.head, staged := [], recorded := [] })
    s2.afterCommit p.id

/-- `COMMIT` (R47). A second `COMMIT`, or one that a branch reached without `BEGIN`, is a wrong use: BADOP. -/
def execCommit (prog : Nat) (s : State) : Host.Outcome State Fault Refusal :=
  s.instrRow prog (opIs 0x03) (fun t p => if p.begun && !p.committed then t.commitPoint p else t.endProg prog .badop)

/-! ## Waits -/

/-- `UNBIND_DRAIN_DONE` (R62): the record has no more requests, and the `UNBIND` goes on. -/
def execUnbindDrainDone (prog : Nat) (s : State) : Host.Outcome State Fault Refusal :=
  match s.prog prog with
  | none => .next s
  | some p =>
    match p.phase with
    | .draining _ =>
      if !s.running then .next s
      else if p.aborting then .next (s.orWait (s.endProg prog p.stopSt))
      else if !(s.recordReqs (s.selOf p.objReq)).isEmpty then .next s
      else .next (s.orWait (s.objNow p p.objReq))
    | _ => .next s

/-- `UNBIND_DRAIN_TIMEOUT` (R62): the wait has run out; nothing changes. -/
def execUnbindDrainTimeout (prog : Nat) (s : State) : Host.Outcome State Fault Refusal :=
  match s.prog prog with
  | none => .next s
  | some p =>
    match p.phase with
    | .draining deadline =>
      if s.running && decide (deadline ≤ s.now) && !(s.recordReqs (s.selOf p.objReq)).isEmpty then
        .next (s.orWait (if p.aborting then s.endProg prog p.stopSt else s.objFail prog p.objReq .timeout none))
      else .next s
    | _ => .next s

/-- The program that issued a tenant reset goes on: after its `COMMIT`, or after its `TENANT`, or it ends with FAULTED (R190). -/
def State.resetAnswer (s : State) (p : Prog) (failed : Bool) : State :=
  if p.committed then (if failed then s.endProg p.id .faulted else s.proceed p.id (fun q => q.next))
  else if failed then s.objFail p.id p.objReq .faulted none
  else s.proceed p.id (fun q => q.next)

/-- `TENANT_RESET_END` (R190): no function-level reset of the tenant is left, and its `State` returns. Of several resets of one program, the last
answers for all. -/
def execTenantResetEnd (t : TenantId) (s : State) : Host.Outcome State Fault Refusal :=
  match s.tenancy.resets.find? (fun r => decide (r.tenant = t)) with
  | none => .next s
  | some r =>
    if !s.running || s.tenancy.flrs.any (fun f => decide (f.tenant = t.val)) then .next s
    else
      let others := (s.tenancy.resets.filter (fun (q : TenReset) => decide (q.tenant ≠ t))).map (fun (q : TenReset) =>
        if q.prog = r.prog ∧ r.failed then { q with failed := true } else q)
      let s1 := ({ s with tenancy := { s.tenancy with resets := others } } : State).put tenState t.val r.prev
      if others.any (fun q => decide (q.prog = r.prog)) then .next s1
      else match s1.prog r.prog with
        | none => .next s1
        | some p => .next (s.orWait (if p.phase = .tenantWait then s1.resetAnswer p r.failed else s1))

end Sys2Proof.Machine
end

