-- ==== Sys2Proof/Machine/ObjectRows.lean ====
section
/-! DEFINITION. The object instructions of a program (Table 2-9), and the writes of image words that have a row of their own. Each is one
instruction of a program, recognised by its word; its effect is that of `State.applyObj`. -/

namespace Sys2Proof.Machine

/-! ## Instructions -/

/-- `OREAD` (R57). -/
def execOread (prog : Nat) (s : State) : Host.Outcome State Fault Refusal :=
  s.objRow prog (fun r => r.op = 0x20) none

/-- `OCAS` (R57). -/
def execOcas (prog : Nat) (s : State) : Host.Outcome State Fault Refusal :=
  s.objRow prog (fun r => r.op = 0x22) none

/-- `PORTCFG` (R12). -/
def execPortCfg (prog : Nat) (s : State) : Host.Outcome State Fault Refusal :=
  s.objRow prog (fun r => r.op = 0x30) none

/-- `PORTSTATE_ENABLE` (R426). An `Action` that no row names ends with BADOP here (log entry 38). -/
def execPortStateEnable (prog : Nat) (s : State) : Host.Outcome State Fault Refusal :=
  s.objRow prog (fun r => r.op = 0x31 && !([1, 2, 3, 4, 5].contains (r.b 1 0 4))) none

/-- `PORTSTATE_DISABLE` (R426). -/
def execPortStateDisable (prog : Nat) (s : State) : Host.Outcome State Fault Refusal :=
  s.objRow prog (fun r => r.op = 0x31 && r.b 1 0 4 = 1) none

/-- `PORTSTATE_RETRAIN` (R426). -/
def execPortStateRetrain (prog : Nat) (s : State) : Host.Outcome State Fault Refusal :=
  s.objRow prog (fun r => r.op = 0x31 && r.b 1 0 4 = 2) none

/-- `PORTSTATE_HOT_RESET` (R426). -/
def execPortStateHotReset (prog : Nat) (s : State) : Host.Outcome State Fault Refusal :=
  s.objRow prog (fun r => r.op = 0x31 && r.b 1 0 4 = 3) none

/-- `PORTSTATE_OUT_OF_SERVICE` (R426). -/
def execPortStateOutOfService (prog : Nat) (s : State) : Host.Outcome State Fault Refusal :=
  s.objRow prog (fun r => r.op = 0x31 && r.b 1 0 4 = 4) none

/-- `PORTSTATE_BACK_IN_SERVICE` (R426). -/
def execPortStateBackInService (prog : Nat) (s : State) : Host.Outcome State Fault Refusal :=
  s.objRow prog (fun r => r.op = 0x31 && r.b 1 0 4 = 5) none

/-- `ROUTE` (R123). -/
def execRoute (prog : Nat) (s : State) : Host.Outcome State Fault Refusal :=
  s.objRow prog (fun r => r.op = 0x38) none

/-- `PATHGRP` (R125). -/
def execPathGrp (prog : Nat) (s : State) : Host.Outcome State Fault Refusal :=
  s.objRow prog (fun r => r.op = 0x39) none

/-- `WITHDRAW` (R140). -/
def execWithdraw (prog : Nat) (s : State) : Host.Outcome State Fault Refusal :=
  s.objRow prog (fun r => r.op = 0x3A && r.b 1 0 1 = 0) none

/-- `WITHDRAW_RESTORE` (R145). -/
def execWithdrawRestore (prog : Nat) (s : State) : Host.Outcome State Fault Refusal :=
  s.objRow prog (fun r => r.op = 0x3A && r.b 1 0 1 = 1) none

/-- `TENANT_CREATE` (R174). An `Action` that no row names ends with BADOP here (log entry 38). -/
def execTenantCreate (prog : Nat) (s : State) : Host.Outcome State Fault Refusal :=
  s.objRow prog (fun r => r.op = 0x40 && !([1, 2, 3, 4].contains (r.b 1 0 3))) none

/-- `TENANT_DELETE` (R174). -/
def execTenantDelete (prog : Nat) (s : State) : Host.Outcome State Fault Refusal :=
  s.objRow prog (fun r => r.op = 0x40 && r.b 1 0 3 = 1) none

/-- `TENANT_SUSPEND` (R189). -/
def execTenantSuspend (prog : Nat) (s : State) : Host.Outcome State Fault Refusal :=
  s.objRow prog (fun r => r.op = 0x40 && r.b 1 0 3 = 2) none

/-- `TENANT_RESUME` (R174). -/
def execTenantResume (prog : Nat) (s : State) : Host.Outcome State Fault Refusal :=
  s.objRow prog (fun r => r.op = 0x40 && r.b 1 0 3 = 3) none

/-- `TENANT_RESET` (R190). -/
def execTenantReset (prog : Nat) (s : State) : Host.Outcome State Fault Refusal :=
  s.objRow prog (fun r => r.op = 0x40 && r.b 1 0 3 = 4) none

/-- `BIND` (R183). -/
def execBindFn (prog : Nat) (s : State) : Host.Outcome State Fault Refusal :=
  s.objRow prog (fun r => r.op = 0x41) none

/-- `UNBIND` (R62, R185). -/
def execUnbindFn (prog : Nat) (s : State) : Host.Outcome State Fault Refusal :=
  s.objRow prog (fun r => r.op = 0x42) none

/-- `GATESET` (R187). -/
def execGateSet (prog : Nat) (s : State) : Host.Outcome State Fault Refusal :=
  s.objRow prog (fun r => r.op = 0x43) none

/-- `RESIZE` (R175, R178). -/
def execResizeQuota (prog : Nat) (s : State) : Host.Outcome State Fault Refusal :=
  s.objRow prog (fun r => r.op = 0x44) none

/-- `METER` (R169). -/
def execMeter (prog : Nat) (s : State) : Host.Outcome State Fault Refusal :=
  s.objRow prog (fun r => r.op = 0x48) none

/-- `SCHED` (R161). -/
def execSched (prog : Nat) (s : State) : Host.Outcome State Fault Refusal :=
  s.objRow prog (fun r => r.op = 0x49) none

/-- `QPCTL_CREATE` (R228). An `Action` that no row names ends with BADOP here (log entry 38). -/
def execQpCreate (prog : Nat) (s : State) : Host.Outcome State Fault Refusal :=
  s.objRow prog (fun r => r.op = 0x50 && !([1, 2, 3].contains (r.b 1 0 3))) none

/-- `QPCTL_MODIFY` (R228). -/
def execQpModify (prog : Nat) (s : State) : Host.Outcome State Fault Refusal :=
  s.objRow prog (fun r => r.op = 0x50 && r.b 1 0 3 = 1) none

/-- `QPCTL_FLUSH` (R228). -/
def execQpFlush (prog : Nat) (s : State) : Host.Outcome State Fault Refusal :=
  s.objRow prog (fun r => r.op = 0x50 && r.b 1 0 3 = 2) none

/-- `QPCTL_DESTROY` (R228). -/
def execQpDestroy (prog : Nat) (s : State) : Host.Outcome State Fault Refusal :=
  s.objRow prog (fun r => r.op = 0x50 && r.b 1 0 3 = 3) none

/-- `REGION` (R229). -/
def execRegion (prog : Nat) (s : State) : Host.Outcome State Fault Refusal :=
  s.objRow prog (fun r => r.op = 0x51) none

/-- `REVOKE` (R230). -/
def execRevoke (prog : Nat) (s : State) : Host.Outcome State Fault Refusal :=
  s.objRow prog (fun r => r.op = 0x52) none

/-- `CQCTL_CREATE` (R224). An `Action` that no row names ends with BADOP here (log entry 38). -/
def execCqCreate (prog : Nat) (s : State) : Host.Outcome State Fault Refusal :=
  s.objRow prog (fun r => r.op = 0x53 && !([1, 2].contains (r.b 1 0 2))) none

/-- `CQCTL_DESTROY` (R224). -/
def execCqDestroy (prog : Nat) (s : State) : Host.Outcome State Fault Refusal :=
  s.objRow prog (fun r => r.op = 0x53 && r.b 1 0 2 = 1) none

/-- `CQCTL_RESIZE` (R224). -/
def execCqResize (prog : Nat) (s : State) : Host.Outcome State Fault Refusal :=
  s.objRow prog (fun r => r.op = 0x53 && r.b 1 0 2 = 2) none

/-- `SLOTPWR_OFF` (R379). -/
def execSlotPwrOff (prog : Nat) (s : State) : Host.Outcome State Fault Refusal :=
  s.objRow prog (fun r => r.op = 0x58 && r.b 1 0 2 = 0) none

/-- `SLOTPWR_ON` (R379). -/
def execSlotPwrOn (prog : Nat) (s : State) : Host.Outcome State Fault Refusal :=
  s.objRow prog (fun r => r.op = 0x58 && r.b 1 0 2 = 1) none

/-- `SLOTPWR_POWER_CYCLE` (R379). -/
def execSlotPwrCycle (prog : Nat) (s : State) : Host.Outcome State Fault Refusal :=
  s.objRow prog (fun r => r.op = 0x58 && r.b 1 0 2 = 2) none

/-- `SLOTPWR_SET_LIMITS` (R379). -/
def execSlotPwrLimits (prog : Nat) (s : State) : Host.Outcome State Fault Refusal :=
  s.objRow prog (fun r => r.op = 0x58 && r.b 1 0 2 = 3) none

/-- `BUDGET` (R384). -/
def execBudget (prog : Nat) (s : State) : Host.Outcome State Fault Refusal :=
  s.objRow prog (fun r => r.op = 0x59) none

/-- `OVERLAY_STORE` (R84). `image` is what host memory holds at the address of the block, none where it cannot be read. -/
def execOverlayStore (prog : Nat) (image : Option (List Word)) (s : State) : Host.Outcome State Fault Refusal :=
  s.objRow prog (fun r => r.op = 0x60 && r.b 1 0 2 = 0) image

/-- `OVERLAY_APPLY` (R85). -/
def execOverlayApply (prog : Nat) (s : State) : Host.Outcome State Fault Refusal :=
  s.objRow prog (fun r => r.op = 0x60 && r.b 1 0 2 = 1) none

/-- `OVERLAY_REMOVE` (R85). -/
def execOverlayRemove (prog : Nat) (s : State) : Host.Outcome State Fault Refusal :=
  s.objRow prog (fun r => r.op = 0x60 && r.b 1 0 2 = 2) none

/-- `OVERLAY_DELETE` (R85). -/
def execOverlayDelete (prog : Nat) (s : State) : Host.Outcome State Fault Refusal :=
  s.objRow prog (fun r => r.op = 0x60 && r.b 1 0 2 = 3) none

/-- `SNAP` (R393). -/
def execSnap (prog : Nat) (s : State) : Host.Outcome State Fault Refusal :=
  s.objRow prog (fun r => r.op = 0x68) none

/-- `QUERY` (R59). -/
def execQuery (prog : Nat) (s : State) : Host.Outcome State Fault Refusal :=
  s.objRow prog (fun r => r.op = 0x69) none

/-- `INJECT` (R361). -/
def execInject (prog : Nat) (s : State) : Host.Outcome State Fault Refusal :=
  s.objRow prog (fun r => r.op = 0x70) none

/-- `FAULTACK` (R354). -/
def execFaultAck (prog : Nat) (s : State) : Host.Outcome State Fault Refusal :=
  s.objRow prog (fun r => r.op = 0x71) none

/-! ## Writes of words with a row of their own (`OWRITE`) -/

/-- An `OWRITE` whose mask covers at least one bit of one of some fields of its word (R57). -/
def ObjReq.hits (r : ObjReq) (fs : List Fld) : Bool :=
  fs.any (fun f => decide (f.cls = r.cls) && decide (f.word = r.b 1 0 16) && covers (r.w 3) f)

/-- The write of a word that has a row of its own. -/
def ObjReq.ownRow (r : ObjReq) : Bool :=
  r.hits [devFabricId]
  || (r.hits [rstAction] && rstAction.of (r.w 2) = 1)
  || (r.hits [rstAction] && rstAction.of (r.w 2) = 2)
  || r.hits [devInjectArmUntil]
  || r.hits [bankTargetState]
  || r.hits [bankTest]
  || r.hits [laneTargetState]
  || r.hits [laneLoop, laneGenPattern, laneCheckPattern]
  || r.hits [laneClearCheck]
  || r.hits [laneMarginGo]
  || r.hits [laneTxPre, laneTxPost]
  || r.hits [slotTest]
  || r.hits [slotTargetState]
  || r.hits [slotAutoOn]
  || r.hits [slotClearEnergy]
  || r.hits [slotPeakMa]
  || r.hits [feedTargetState]
  || r.hits [meterClearCounts]
  || r.hits [sqMaxDepthCells, sqMaxHeadDelay]
  || r.hits ((List.range 10).map wearTempPeak.up)
  || r.hits [tideSource, tideSourcePort]
  || (r.cls = cSdramChannel && r.b 1 0 16 = 1 && decide (bitsOf (r.w 3) 0 2 ≠ 0))
  || r.hits [viewPort, viewOwnerTenant, viewFmQueue]
  || r.hits [portSlotBase, portSlotCount]
  || (r.cls = cSnapshotSet)
  || (r.cls = cDevice && decide (16 ≤ r.b 1 0 16) && decide (r.b 1 0 16 ≤ 31))
  || r.hits [qlRxPoolUnits]

/-- `OWRITE` (R57) of a word without a row of its own. -/
def execOwrite (prog : Nat) (s : State) : Host.Outcome State Fault Refusal :=
  s.objRow prog (fun r => r.op = 0x21 && !r.ownRow) none

/-- `DEVICE_FABRIC_ID_WRITE` (R61). -/
def execDeviceFabricIdWrite (prog : Nat) (s : State) : Host.Outcome State Fault Refusal :=
  s.objRow prog (fun r => r.op = 0x21 && r.hits [devFabricId]) none

/-- `DEVICE_RESET_REQUEST` (R341). -/
def execDeviceResetRequest (prog : Nat) (s : State) : Host.Outcome State Fault Refusal :=
  s.objRow prog (fun r => r.op = 0x21 && r.hits [rstAction] && rstAction.of (r.w 2) = 1) none

/-- `ORDERLY_POWER_DOWN` (R345). -/
def execOrderlyPowerDown (prog : Nat) (s : State) : Host.Outcome State Fault Refusal :=
  s.objRow prog (fun r => r.op = 0x21 && r.hits [rstAction] && rstAction.of (r.w 2) = 2) none

/-- `INJECT_ARM_WRITE` (R60). -/
def execInjectArmWrite (prog : Nat) (s : State) : Host.Outcome State Fault Refusal :=
  s.objRow prog (fun r => r.op = 0x21 && r.hits [devInjectArmUntil]) none

/-- `BANK_TARGET_STATE` (R115). -/
def execBankTargetState (prog : Nat) (s : State) : Host.Outcome State Fault Refusal :=
  s.objRow prog (fun r => r.op = 0x21 && r.hits [bankTargetState]) none

/-- `BANK_TEST` (R115). -/
def execBankTest (prog : Nat) (s : State) : Host.Outcome State Fault Refusal :=
  s.objRow prog (fun r => r.op = 0x21 && r.hits [bankTest]) none

/-- `LANE_TARGET_STATE` (R298). -/
def execLaneTargetState (prog : Nat) (s : State) : Host.Outcome State Fault Refusal :=
  s.objRow prog (fun r => r.op = 0x21 && r.hits [laneTargetState]) none

/-- `LANE_TEST_CONFIG` (R299). -/
def execLaneTestConfig (prog : Nat) (s : State) : Host.Outcome State Fault Refusal :=
  s.objRow prog (fun r => r.op = 0x21 && r.hits [laneLoop, laneGenPattern, laneCheckPattern]) none

/-- `LANE_CLEAR_CHECK` (R297). -/
def execLaneClearCheck (prog : Nat) (s : State) : Host.Outcome State Fault Refusal :=
  s.objRow prog (fun r => r.op = 0x21 && r.hits [laneClearCheck]) none

/-- `MARGIN_GO` (R300). -/
def execMarginGo (prog : Nat) (s : State) : Host.Outcome State Fault Refusal :=
  s.objRow prog (fun r => r.op = 0x21 && r.hits [laneMarginGo]) none

/-- `LANE_TAP_WRITE` (R288). -/
def execLaneTapWrite (prog : Nat) (s : State) : Host.Outcome State Fault Refusal :=
  s.objRow prog (fun r => r.op = 0x21 && r.hits [laneTxPre, laneTxPost]) none

/-- `SLOT_TEST` (R378). -/
def execSlotTest (prog : Nat) (s : State) : Host.Outcome State Fault Refusal :=
  s.objRow prog (fun r => r.op = 0x21 && r.hits [slotTest]) none

/-- `SLOT_TARGET_STATE` (R370). -/
def execSlotTargetState (prog : Nat) (s : State) : Host.Outcome State Fault Refusal :=
  s.objRow prog (fun r => r.op = 0x21 && r.hits [slotTargetState]) none

/-- `SLOT_AUTO_ON_SET` (R369). -/
def execSlotAutoOnSet (prog : Nat) (s : State) : Host.Outcome State Fault Refusal :=
  s.objRow prog (fun r => r.op = 0x21 && r.hits [slotAutoOn]) none

/-- `SLOT_CLEAR_ENERGY` (R378). -/
def execSlotClearEnergy (prog : Nat) (s : State) : Host.Outcome State Fault Refusal :=
  s.objRow prog (fun r => r.op = 0x21 && r.hits [slotClearEnergy]) none

/-- `SLOT_PEAK_CLEAR` (R378). -/
def execSlotPeakClear (prog : Nat) (s : State) : Host.Outcome State Fault Refusal :=
  s.objRow prog (fun r => r.op = 0x21 && r.hits [slotPeakMa]) none

/-- `FEED_TARGET_STATE` (R381). -/
def execFeedTargetState (prog : Nat) (s : State) : Host.Outcome State Fault Refusal :=
  s.objRow prog (fun r => r.op = 0x21 && r.hits [feedTargetState]) none

/-- `METER_CLEAR_COUNTS` (R168). -/
def execMeterClearCounts (prog : Nat) (s : State) : Host.Outcome State Fault Refusal :=
  s.objRow prog (fun r => r.op = 0x21 && r.hits [meterClearCounts]) none

/-- `SCHEDQ_MAX_CLEAR` (R160). -/
def execSchedqMaxClear (prog : Nat) (s : State) : Host.Outcome State Fault Refusal :=
  s.objRow prog (fun r => r.op = 0x21 && r.hits [sqMaxDepthCells, sqMaxHeadDelay]) none

/-- `TEMP_PEAK_RESET` (R423). -/
def execTempPeakReset (prog : Nat) (s : State) : Host.Outcome State Fault Refusal :=
  s.objRow prog (fun r => r.op = 0x21 && r.hits ((List.range 10).map wearTempPeak.up)) none

/-- `TIDE_SOURCE_SET` (R331). -/
def execTideSourceSet (prog : Nat) (s : State) : Host.Outcome State Fault Refusal :=
  s.objRow prog (fun r => r.op = 0x21 && r.hits [tideSource, tideSourcePort]) none

/-- `SDRAM_CHANNEL_OUT_OF_SERVICE` (R26). -/
def execSdramOutOfService (prog : Nat) (s : State) : Host.Outcome State Fault Refusal :=
  s.objRow prog (fun r => r.op = 0x21 && r.cls = cSdramChannel && r.b 1 0 16 = 1 && decide (bitsOf (r.w 3) 0 2 ≠ 0)) none

/-- `HOST_VIEW_WRITE` (R179). -/
def execHostViewWrite (prog : Nat) (s : State) : Host.Outcome State Fault Refusal :=
  s.objRow prog (fun r => r.op = 0x21 && r.hits [viewPort, viewOwnerTenant, viewFmQueue]) none

/-- `SLOT_RANGE_WRITE` (R181). -/
def execSlotRangeWrite (prog : Nat) (s : State) : Host.Outcome State Fault Refusal :=
  s.objRow prog (fun r => r.op = 0x21 && r.hits [portSlotBase, portSlotCount]) none

/-- `SNAPSHOT_SET_WRITE` (R392). -/
def execSnapshotSetWrite (prog : Nat) (s : State) : Host.Outcome State Fault Refusal :=
  s.objRow prog (fun r => r.op = 0x21 && (r.cls = cSnapshotSet)) none

/-- `TELEMETRY_RING_WRITE` (R397). -/
def execTelemetryRingWrite (prog : Nat) (s : State) : Host.Outcome State Fault Refusal :=
  s.objRow prog (fun r => r.op = 0x21 && r.cls = cDevice && decide (16 ≤ r.b 1 0 16) && decide (r.b 1 0 16 ≤ 31)) none

/-- `RX_POOL_WRITE` (R267). -/
def execRxPoolWrite (prog : Nat) (s : State) : Host.Outcome State Fault Refusal :=
  s.objRow prog (fun r => r.op = 0x21 && r.hits [qlRxPoolUnits]) none

end Sys2Proof.Machine
end

