-- ==== Sys2Proof/Machine/Dispatch.lean ====
section
/-! DEFINITION. The dispatch: one arm per command, each one direct call of its meaning. -/

namespace Sys2Proof.Machine

def exec (i : Instr) (s : State) : Host.Outcome State Fault Refusal :=
  match i with
  | .tqTailDoorbell q value => Sys2Proof.Machine.execTqTailDoorbell q value s
  | .tqSizeWrite q value => Sys2Proof.Machine.execTqSizeWrite q value s
  | .tqBaseWrite q value => Sys2Proof.Machine.execTqBaseWrite q value s
  | .tqAbortGo q value => Sys2Proof.Machine.execTqAbortGo q value s
  | .registerWrite v offset value => Sys2Proof.Machine.execRegisterWrite v offset value s
  | .programFetchComplete q desc code => Sys2Proof.Machine.execProgramFetchComplete q desc code s
  | .programStart prog => Sys2Proof.Machine.execProgramStart prog s
  | .instructionLimitTimeout prog => Sys2Proof.Machine.execInstructionLimitTimeout prog s
  | .nop prog => Sys2Proof.Machine.execNop prog s
  | .halt prog => Sys2Proof.Machine.execHalt prog s
  | .beginTx prog => Sys2Proof.Machine.execBeginTx prog s
  | .commit prog => Sys2Proof.Machine.execCommit prog s
  | .abort prog => Sys2Proof.Machine.execAbort prog s
  | .atTide prog => Sys2Proof.Machine.execAtTide prog s
  | .waitTide prog => Sys2Proof.Machine.execWaitTide prog s
  | .parkedProgramDue prog => Sys2Proof.Machine.execParkedProgramDue prog s
  | .jmp prog => Sys2Proof.Machine.execJmp prog s
  | .bz prog => Sys2Proof.Machine.execBz prog s
  | .bnz prog => Sys2Proof.Machine.execBnz prog s
  | .blt prog => Sys2Proof.Machine.execBlt prog s
  | .ldi prog => Sys2Proof.Machine.execLdi prog s
  | .mov prog => Sys2Proof.Machine.execMov prog s
  | .add prog => Sys2Proof.Machine.execAdd prog s
  | .sub prog => Sys2Proof.Machine.execSub prog s
  | .andOp prog => Sys2Proof.Machine.execAndOp prog s
  | .orOp prog => Sys2Proof.Machine.execOrOp prog s
  | .xorOp prog => Sys2Proof.Machine.execXorOp prog s
  | .shl prog => Sys2Proof.Machine.execShl prog s
  | .shr prog => Sys2Proof.Machine.execShr prog s
  | .cmp prog => Sys2Proof.Machine.execCmp prog s
  | .syncCommits prog => Sys2Proof.Machine.execSyncCommits prog s
  | .syncQueue prog => Sys2Proof.Machine.execSyncQueue prog s
  | .syncComplete prog => Sys2Proof.Machine.execSyncComplete prog s
  | .logNote prog => Sys2Proof.Machine.execLogNote prog s
  | .oread prog => Sys2Proof.Machine.execOread prog s
  | .owrite prog => Sys2Proof.Machine.execOwrite prog s
  | .ocas prog => Sys2Proof.Machine.execOcas prog s
  | .portCfg prog => Sys2Proof.Machine.execPortCfg prog s
  | .portStateEnable prog => Sys2Proof.Machine.execPortStateEnable prog s
  | .portStateDisable prog => Sys2Proof.Machine.execPortStateDisable prog s
  | .portStateRetrain prog => Sys2Proof.Machine.execPortStateRetrain prog s
  | .portStateHotReset prog => Sys2Proof.Machine.execPortStateHotReset prog s
  | .portStateOutOfService prog => Sys2Proof.Machine.execPortStateOutOfService prog s
  | .portStateBackInService prog => Sys2Proof.Machine.execPortStateBackInService prog s
  | .route prog => Sys2Proof.Machine.execRoute prog s
  | .pathGrp prog => Sys2Proof.Machine.execPathGrp prog s
  | .withdraw prog => Sys2Proof.Machine.execWithdraw prog s
  | .withdrawRestore prog => Sys2Proof.Machine.execWithdrawRestore prog s
  | .tenantCreate prog => Sys2Proof.Machine.execTenantCreate prog s
  | .tenantDelete prog => Sys2Proof.Machine.execTenantDelete prog s
  | .tenantSuspend prog => Sys2Proof.Machine.execTenantSuspend prog s
  | .tenantResume prog => Sys2Proof.Machine.execTenantResume prog s
  | .tenantReset prog => Sys2Proof.Machine.execTenantReset prog s
  | .tenantResetEnd t => Sys2Proof.Machine.execTenantResetEnd t s
  | .bindFn prog => Sys2Proof.Machine.execBindFn prog s
  | .unbindFn prog => Sys2Proof.Machine.execUnbindFn prog s
  | .unbindDrainDone prog => Sys2Proof.Machine.execUnbindDrainDone prog s
  | .unbindDrainTimeout prog => Sys2Proof.Machine.execUnbindDrainTimeout prog s
  | .gateSet prog => Sys2Proof.Machine.execGateSet prog s
  | .resizeQuota prog => Sys2Proof.Machine.execResizeQuota prog s
  | .meter prog => Sys2Proof.Machine.execMeter prog s
  | .sched prog => Sys2Proof.Machine.execSched prog s
  | .qpCreate prog => Sys2Proof.Machine.execQpCreate prog s
  | .qpModify prog => Sys2Proof.Machine.execQpModify prog s
  | .qpFlush prog => Sys2Proof.Machine.execQpFlush prog s
  | .qpDestroy prog => Sys2Proof.Machine.execQpDestroy prog s
  | .region prog => Sys2Proof.Machine.execRegion prog s
  | .revoke prog => Sys2Proof.Machine.execRevoke prog s
  | .revokeComplete r => Sys2Proof.Machine.execRevokeComplete r s
  | .cqCreate prog => Sys2Proof.Machine.execCqCreate prog s
  | .cqDestroy prog => Sys2Proof.Machine.execCqDestroy prog s
  | .cqResize prog => Sys2Proof.Machine.execCqResize prog s
  | .slotPwrOff prog => Sys2Proof.Machine.execSlotPwrOff prog s
  | .slotPwrOn prog => Sys2Proof.Machine.execSlotPwrOn prog s
  | .slotPwrCycle prog => Sys2Proof.Machine.execSlotPwrCycle prog s
  | .slotPwrLimits prog => Sys2Proof.Machine.execSlotPwrLimits prog s
  | .budget prog => Sys2Proof.Machine.execBudget prog s
  | .overlayStore prog image => Sys2Proof.Machine.execOverlayStore prog image s
  | .overlayApply prog => Sys2Proof.Machine.execOverlayApply prog s
  | .overlayRemove prog => Sys2Proof.Machine.execOverlayRemove prog s
  | .overlayDelete prog => Sys2Proof.Machine.execOverlayDelete prog s
  | .snap prog => Sys2Proof.Machine.execSnap prog s
  | .query prog => Sys2Proof.Machine.execQuery prog s
  | .inject prog => Sys2Proof.Machine.execInject prog s
  | .faultAck prog => Sys2Proof.Machine.execFaultAck prog s
  | .deviceFabricIdWrite prog => Sys2Proof.Machine.execDeviceFabricIdWrite prog s
  | .deviceResetRequest prog => Sys2Proof.Machine.execDeviceResetRequest prog s
  | .orderlyPowerDown prog => Sys2Proof.Machine.execOrderlyPowerDown prog s
  | .injectArmWrite prog => Sys2Proof.Machine.execInjectArmWrite prog s
  | .bankTargetState prog => Sys2Proof.Machine.execBankTargetState prog s
  | .bankTest prog => Sys2Proof.Machine.execBankTest prog s
  | .bankTestEnd b pass => Sys2Proof.Machine.execBankTestEnd b pass s
  | .bankDrained b => Sys2Proof.Machine.execBankDrained b s
  | .laneTargetState prog => Sys2Proof.Machine.execLaneTargetState prog s
  | .laneTestConfig prog => Sys2Proof.Machine.execLaneTestConfig prog s
  | .laneClearCheck prog => Sys2Proof.Machine.execLaneClearCheck prog s
  | .prbsCheckLock x => Sys2Proof.Machine.execPrbsCheckLock x s
  | .marginGo prog => Sys2Proof.Machine.execMarginGo prog s
  | .marginDone l left right up down => Sys2Proof.Machine.execMarginDone l left right up down s
  | .laneTapWrite prog => Sys2Proof.Machine.execLaneTapWrite prog s
  | .slotTest prog => Sys2Proof.Machine.execSlotTest prog s
  | .slotTestEnd n pass => Sys2Proof.Machine.execSlotTestEnd n pass s
  | .slotTargetState prog => Sys2Proof.Machine.execSlotTargetState prog s
  | .slotAutoOnSet prog => Sys2Proof.Machine.execSlotAutoOnSet prog s
  | .slotClearEnergy prog => Sys2Proof.Machine.execSlotClearEnergy prog s
  | .slotPeakClear prog => Sys2Proof.Machine.execSlotPeakClear prog s
  | .feedTargetState prog => Sys2Proof.Machine.execFeedTargetState prog s
  | .meterClearCounts prog => Sys2Proof.Machine.execMeterClearCounts prog s
  | .schedqMaxClear prog => Sys2Proof.Machine.execSchedqMaxClear prog s
  | .tempPeakReset prog => Sys2Proof.Machine.execTempPeakReset prog s
  | .tideSourceSet prog => Sys2Proof.Machine.execTideSourceSet prog s
  | .sdramOutOfService prog => Sys2Proof.Machine.execSdramOutOfService prog s
  | .sdramMigrationDone ch => Sys2Proof.Machine.execSdramMigrationDone ch s
  | .hostViewWrite prog => Sys2Proof.Machine.execHostViewWrite prog s
  | .slotRangeWrite prog => Sys2Proof.Machine.execSlotRangeWrite prog s
  | .snapshotSetWrite prog => Sys2Proof.Machine.execSnapshotSetWrite prog s
  | .telemetryRingWrite prog => Sys2Proof.Machine.execTelemetryRingWrite prog s
  | .rxPoolWrite prog => Sys2Proof.Machine.execRxPoolWrite prog s
  | .tallyFwdReceived m => Sys2Proof.Machine.execTallyFwdReceived m s
  | .tallyFragmentTimeout srcDev fwdId => Sys2Proof.Machine.execTallyFragmentTimeout srcDev fwdId s
  | .tallyAcceptReceived fwdId => Sys2Proof.Machine.execTallyAcceptReceived fwdId s
  | .tallyResultReceived fwdId result logSeq rods => Sys2Proof.Machine.execTallyResultReceived fwdId result logSeq rods s
  | .forwardAcceptTimeout fwdId => Sys2Proof.Machine.execForwardAcceptTimeout fwdId s
  | .lbMirrorCtrlWrite v value => Sys2Proof.Machine.execLbMirrorCtrlWrite v value s
  | .lbMirrorBaseWrite v value => Sys2Proof.Machine.execLbMirrorBaseWrite v value s
  | .logbookSdramCopy => Sys2Proof.Machine.execLogbookSdramCopy s
  | .mirrorWrite v delivered => Sys2Proof.Machine.execMirrorWrite v delivered s
  | .lbExportGo v value => Sys2Proof.Machine.execLbExportGo v value s
  | .exportEnd v covered undeliverable => Sys2Proof.Machine.execExportEnd v covered undeliverable s
  | .baseConfiguration flash => Sys2Proof.Machine.execBaseConfiguration flash s
  | .baseDone => Sys2Proof.Machine.execBaseDone s
  | .packetReceived p pk banks => Sys2Proof.Machine.execPacketReceived p pk banks s
  | .heldPacketReevaluate pkt banks => Sys2Proof.Machine.execHeldPacketReevaluate pkt banks s
  | .egressPacketBegin p x => Sys2Proof.Machine.execEgressPacketBegin p x s
  | .crossbarSecondRead p cell ok => Sys2Proof.Machine.execCrossbarSecondRead p cell ok s
  | .cutThroughPause p => Sys2Proof.Machine.execCutThroughPause p s
  | .cutThroughResume p cells => Sys2Proof.Machine.execCutThroughResume p cells s
  | .packetCellsFreed p => Sys2Proof.Machine.execPacketCellsFreed p s
  | .freeListAuditPass => Sys2Proof.Machine.execFreeListAuditPass s
  | .congestionUpdate => Sys2Proof.Machine.execCongestionUpdate s
  | .equalWeightPeriodEnd g => Sys2Proof.Machine.execEqualWeightPeriodEnd g s
  | .sendRecordSilenceClose flow => Sys2Proof.Machine.execSendRecordSilenceClose flow s
  | .reorderPacketArrival pkt => Sys2Proof.Machine.execReorderPacketArrival pkt s
  | .gapTimerExpiry flow => Sys2Proof.Machine.execGapTimerExpiry flow s
  | .receiveRecordSilenceFree flow => Sys2Proof.Machine.execReceiveRecordSilenceFree flow s
  | .teardownReceived dstDev m => Sys2Proof.Machine.execTeardownReceived dstDev m s
  | .fabricPortFailure p => Sys2Proof.Machine.execFabricPortFailure p s
  | .withdrawMessageReceived p entries => Sys2Proof.Machine.execWithdrawMessageReceived p entries s
  | .replayResend p => Sys2Proof.Machine.execReplayResend p s
  | .spilledResend p => Sys2Proof.Machine.execSpilledResend p s
  | .autoRestoreExpiry p => Sys2Proof.Machine.execAutoRestoreExpiry p s
  | .completionReceived p c => Sys2Proof.Machine.execCompletionReceived p c s
  | .edgeLinkDownClose p => Sys2Proof.Machine.execEdgeLinkDownClose p s
  | .remoteCmReadTimeout entry => Sys2Proof.Machine.execRemoteCmReadTimeout entry s
  | .presenceMessageReceived m => Sys2Proof.Machine.execPresenceMessageReceived m s
  | .bindNoticeReceived m => Sys2Proof.Machine.execBindNoticeReceived m s
  | .bindConfirmReceived homeDev m => Sys2Proof.Machine.execBindConfirmReceived homeDev m s
  | .bindResetReceived m => Sys2Proof.Machine.execBindResetReceived m s
  | .deliveryReceived dstDev m latestSeq => Sys2Proof.Machine.execDeliveryReceived dstDev m latestSeq s
  | .meterEpochEnd => Sys2Proof.Machine.execMeterEpochEnd s
  | .sampleInstant => Sys2Proof.Machine.execSampleInstant s
  | .telemetryHostWrite r => Sys2Proof.Machine.execTelemetryHostWrite r s
  | .flrCompletionPoll g success => Sys2Proof.Machine.execFlrCompletionPoll g success s
  | .flrTimeout g ld => Sys2Proof.Machine.execFlrTimeout g ld s
  | .devicePortPresenceLoss p => Sys2Proof.Machine.execDevicePortPresenceLoss p s
  | .functionEnumerated p bus devfn found => Sys2Proof.Machine.execFunctionEnumerated p bus devfn found s
  | .cmPostedWrite a offset data banks => Sys2Proof.Machine.execCmPostedWrite a offset data banks s
  | .heldStoreApplied v line => Sys2Proof.Machine.execHeldStoreApplied v line s
  | .cmRead a offset len tag banks => Sys2Proof.Machine.execCmRead a offset len tag banks s
  | .reservedLoad v offset len tag => Sys2Proof.Machine.execReservedLoad v offset len tag s
  | .conditionalStoreApplied v line => Sys2Proof.Machine.execConditionalStoreApplied v line s
  | .reservationExpiry a => Sys2Proof.Machine.execReservationExpiry a s
  | .cmAtomicOp a op offset size operand1 operand2 tag banks => Sys2Proof.Machine.execCmAtomicOp a op offset size operand1 operand2 tag banks s
  | .trackedWriteVisible v id => Sys2Proof.Machine.execTrackedWriteVisible v id s
  | .cmBarrier v value => Sys2Proof.Machine.execCmBarrier v value s
  | .barrierComplete v => Sys2Proof.Machine.execBarrierComplete v s
  | .cmBarrierStatusRead v tag => Sys2Proof.Machine.execCmBarrierStatusRead v tag s
  | .barrierStatusHoldExpiry v => Sys2Proof.Machine.execBarrierStatusHoldExpiry v s
  | .cmScStatusRead v tag => Sys2Proof.Machine.execCmScStatusRead v tag s
  | .tideNowRead v upper size tag => Sys2Proof.Machine.execTideNowRead v upper size tag s
  | .doorbellSend f whole value => Sys2Proof.Machine.execDoorbellSend f whole value s
  | .doorbellRecv f whole value => Sys2Proof.Machine.execDoorbellRecv f whole value s
  | .doorbellCqArm f whole value => Sys2Proof.Machine.execDoorbellCqArm f whole value s
  | .doorbellCqConsumer f whole value => Sys2Proof.Machine.execDoorbellCqConsumer f whole value s
  | .workRequestStart q wr => Sys2Proof.Machine.execWorkRequestStart q wr s
  | .contextMissFill q => Sys2Proof.Machine.execContextMissFill q s
  | .lighterPacketSend q payload => Sys2Proof.Machine.execLighterPacketSend q payload s
  | .lighterRequestReceived pk host => Sys2Proof.Machine.execLighterRequestReceived pk host s
  | .translationComplete v pasid page log2Size ok => Sys2Proof.Machine.execTranslationComplete v pasid page log2Size ok s
  | .ackSend q => Sys2Proof.Machine.execAckSend q s
  | .ackReceived pk => Sys2Proof.Machine.execAckReceived pk s
  | .lighterResponseReceived pk => Sys2Proof.Machine.execLighterResponseReceived pk s
  | .nakReceived pk => Sys2Proof.Machine.execNakReceived pk s
  | .retransmissionTimerExpiry q => Sys2Proof.Machine.execRetransmissionTimerExpiry q s
  | .workRequestCommit q recv entry => Sys2Proof.Machine.execWorkRequestCommit q recv entry s
  | .fenceResponseReady q => Sys2Proof.Machine.execFenceResponseReady q s
  | .invalidateRequest v pasid page pages => Sys2Proof.Machine.execInvalidateRequest v pasid page pages s
  | .flitReceived p f => Sys2Proof.Machine.execFlitReceived p f s
  | .replayRequestReceived p epoch ackSeq => Sys2Proof.Machine.execReplayRequestReceived p epoch ackSeq s
  | .initReceived p m => Sys2Proof.Machine.execInitReceived p m s
  | .creditTimeout p vc => Sys2Proof.Machine.execCreditTimeout p vc s
  | .errorWindowEnd p => Sys2Proof.Machine.execErrorWindowEnd p s
  | .fastRetrainStart p => Sys2Proof.Machine.execFastRetrainStart p s
  | .retrainTimeout p => Sys2Proof.Machine.execRetrainTimeout p s
  | .initTimeout p => Sys2Proof.Machine.execInitTimeout p s
  | .heldTimerExpiry p => Sys2Proof.Machine.execHeldTimerExpiry p s
  | .resizeReqReceived p arg => Sys2Proof.Machine.execResizeReqReceived p arg s
  | .resizeAckReceived p arg => Sys2Proof.Machine.execResizeAckReceived p arg s
  | .resizeNakReceived p => Sys2Proof.Machine.execResizeNakReceived p s
  | .resizePauseTimeout p => Sys2Proof.Machine.execResizePauseTimeout p s
  | .linkDrainEnd p => Sys2Proof.Machine.execLinkDrainEnd p s
  | .replaySpill p => Sys2Proof.Machine.execReplaySpill p s
  | .tideSyncSend => Sys2Proof.Machine.execTideSyncSend s
  | .tideSyncReceived p msgId => Sys2Proof.Machine.execTideSyncReceived p msgId s
  | .tideFollowReceived p msgId t1 lockedBit holdoverBit => Sys2Proof.Machine.execTideFollowReceived p msgId t1 lockedBit holdoverBit s
  | .tideDreqReceived p msgId => Sys2Proof.Machine.execTideDreqReceived p msgId s
  | .tideDrespReceived p msgId t4 => Sys2Proof.Machine.execTideDrespReceived p msgId t4 s
  | .tideMeasurement source reference => Sys2Proof.Machine.execTideMeasurement source reference s
  | .tideSourceLoss => Sys2Proof.Machine.execTideSourceLoss s
  | .scheduledEventFire => Sys2Proof.Machine.execScheduledEventFire s
  | .markerReceived l m => Sys2Proof.Machine.execMarkerReceived l m s
  | .laneLossOfLock l => Sys2Proof.Machine.execLaneLossOfLock l s
  | .steerLimitExpiry p => Sys2Proof.Machine.execSteerLimitExpiry p s
  | .bringUpAttemptFail p => Sys2Proof.Machine.execBringUpAttemptFail p s
  | .lanesAligned p good => Sys2Proof.Machine.execLanesAligned p good s
  | .laneGrant => Sys2Proof.Machine.execLaneGrant s
  | .calibrationPassDue p k => Sys2Proof.Machine.execCalibrationPassDue p k s
  | .calibrationRequestTimeout p k => Sys2Proof.Machine.execCalibrationRequestTimeout p k s
  | .calibrationEnd p k horizontal vertical => Sys2Proof.Machine.execCalibrationEnd p k horizontal vertical s
  | .calibrationWindow p => Sys2Proof.Machine.execCalibrationWindow p s
  | .perstNChange level => Sys2Proof.Machine.execPerstNChange level s
  | .hostPortDetect p => Sys2Proof.Machine.execHostPortDetect p s
  | .configRequest v c => Sys2Proof.Machine.execConfigRequest v c s
  | .unsupportedRequest v r => Sys2Proof.Machine.execUnsupportedRequest v r s
  | .hostLinkDownViewReset p => Sys2Proof.Machine.execHostLinkDownViewReset p s
  | .functionLevelReset v f => Sys2Proof.Machine.execFunctionLevelReset v f s
  | .flrEnd v f => Sys2Proof.Machine.execFlrEnd v f s
  | .secondaryBusReset v k => Sys2Proof.Machine.execSecondaryBusReset v k s
  | .dpcTrigger v k useUr => Sys2Proof.Machine.execDpcTrigger v k useUr s
  | .dpcRelease v k => Sys2Proof.Machine.execDpcRelease v k s
  | .completionTimeout p tag => Sys2Proof.Machine.execCompletionTimeout p tag s
  | .tlpNullify p => Sys2Proof.Machine.execTlpNullify p s
  | .pmeTurnOff v => Sys2Proof.Machine.execPmeTurnOff v s
  | .l1Exit p => Sys2Proof.Machine.execL1Exit p s
  | .l0pWidthChange p utilPercent => Sys2Proof.Machine.execL0pWidthChange p utilPercent s
  | .mctpMessage m => Sys2Proof.Machine.execMctpMessage m s
  | .clockInputLoss input => Sys2Proof.Machine.execClockInputLoss input s
  | .refclkReturn t => Sys2Proof.Machine.execRefclkReturn t s
  | .coldReset straps => Sys2Proof.Machine.execColdReset straps s
  | .managementPathReady r => Sys2Proof.Machine.execManagementPathReady r s
  | .deviceReset => Sys2Proof.Machine.execDeviceReset s
  | .devRstNRise => Sys2Proof.Machine.execDevRstNRise s
  | .pwrOkFall => Sys2Proof.Machine.execPwrOkFall s
  | .faultEvent e => Sys2Proof.Machine.execFaultEvent e s
  | .mergeQuietClose rec => Sys2Proof.Machine.execMergeQuietClose rec s
  | .leakDecrement checker => Sys2Proof.Machine.execLeakDecrement checker s
  | .faultLogWrite => Sys2Proof.Machine.execFaultLogWrite s
  | .haltRestartTimeout => Sys2Proof.Machine.execHaltRestartTimeout s
  | .lockstepMismatch => Sys2Proof.Machine.execLockstepMismatch s
  | .injectionExpiry => Sys2Proof.Machine.execInjectionExpiry s
  | .thermalTrip die sensor => Sys2Proof.Machine.execThermalTrip die sensor s
  | .overTemperature die sensor temp => Sys2Proof.Machine.execOverTemperature die sensor temp s
  | .railOutOfRange rail latch milliVolts => Sys2Proof.Machine.execRailOutOfRange rail latch milliVolts s
  | .wearGaugeComparison dies => Sys2Proof.Machine.execWearGaugeComparison dies s
  | .presenceDebounced n => Sys2Proof.Machine.execPresenceDebounced n s
  | .presenceLost n => Sys2Proof.Machine.execPresenceLost n s
  | .dwellElapsed n => Sys2Proof.Machine.execDwellElapsed n s
  | .slotGrant => Sys2Proof.Machine.execSlotGrant s
  | .powerGood n => Sys2Proof.Machine.execPowerGood n s
  | .perstDelayEnd n => Sys2Proof.Machine.execPerstDelayEnd n s
  | .rampLimitTimeout n => Sys2Proof.Machine.execRampLimitTimeout n s
  | .currentLimitEnter n milliAmps => Sys2Proof.Machine.execCurrentLimitEnter n milliAmps s
  | .faultTimerExpiry n => Sys2Proof.Machine.execFaultTimerExpiry n s
  | .breakerFire n milliAmps => Sys2Proof.Machine.execBreakerFire n milliAmps s
  | .inputUndervoltage n => Sys2Proof.Machine.execInputUndervoltage n s
  | .retryCountReset n => Sys2Proof.Machine.execRetryCountReset n s
  | .orderlyOffGate n => Sys2Proof.Machine.execOrderlyOffGate n s
  | .attentionRequest n => Sys2Proof.Machine.execAttentionRequest n s
  | .feedReverseBlock f inputMv busMv => Sys2Proof.Machine.execFeedReverseBlock f inputMv busMv s
  | .feedInputOutOfRange f inputMv => Sys2Proof.Machine.execFeedInputOutOfRange f inputMv s
  | .measurementPublish => Sys2Proof.Machine.execMeasurementPublish s
  | .measurementSample slots feeds => Sys2Proof.Machine.execMeasurementSample slots feeds s
  | .snapshotCapture set => Sys2Proof.Machine.execSnapshotCapture set s
  | .snapshotBufferWritten set delivered => Sys2Proof.Machine.execSnapshotBufferWritten set delivered s
  | .counterUncorrectable id => Sys2Proof.Machine.execCounterUncorrectable id s
  | .currentLimitExit n milliAmps => Sys2Proof.Machine.execCurrentLimitExit n milliAmps s
  | .feedConductionStart f inputMv busMv => Sys2Proof.Machine.execFeedConductionStart f inputMv busMv s
  | .ptmDialogueStart => Sys2Proof.Machine.execPtmDialogueStart s
  | .logicalDeviceResetComplete g ld => Sys2Proof.Machine.execLogicalDeviceResetComplete g ld s
  | .linkUpL0 p rate width flit cxlMem => Sys2Proof.Machine.execLinkUpL0 p rate width flit cxlMem s
  | .txMarkerBoundary p => Sys2Proof.Machine.execTxMarkerBoundary p s

end Sys2Proof.Machine
end

