-- ==== Sys2Proof/Machine/Tick.lean ====
section
/-! DEFINITION. What one nanosecond brings, whatever is commanded (DESIGN CHOICE, log entry 2): the counters of time go on, and each block does what is
due in it. -/

namespace Sys2Proof.Machine

/-- One nanosecond: what waited for the end of the clock (Table 6-4); the tide (R331); snapshots at their instant (R393); coordination memory
(R200, R204); the lanes and links that send (R249, R250); L1 (Table 12-1); exports (R76); and objects whose containment was lifted (R88). -/
def State.tick (s : State) : State :=
  let t := s.clockEnd.tideTick
  if t.power.phase = .off then t
  else (((((t.captureTick).cmTick).lanesTick).l1Tick).exportTick).settleOverlays

end Sys2Proof.Machine
end

