-- ==== Sys2Proof/Safety.lean ====
section
/-! DEFINITION. What the state's tables must be: one canonical form each, so that equal contents are equal data; and the limits that the Tallyman
keeps (Table 2-11, R40). -/

namespace Sys2Proof.Machine

/-- Every table of the state is in its one canonical form: object images, versions, registers, counters, and coordination memory, so that equal
contents are equal data (Tables 2-8, 2-11; R44, R195, R389). -/
structure State.wf (s : State) : Prop where
  cm : Memory.wf s.cm = true
  objs : twf coldAt s.objs = true
  regs : twf coldRegAt s.regs = true
  vers : twf (fun _ => 0) s.vers = true
  ctrs : twf (fun _ => 0) s.counters.vals = true

/-- A program's rods are the fifteen of R40. -/
def Prog.wf (p : Prog) : Bool := p.rods.length = 15

/-- A packet received on a port, counted by its group and its bytes (R388). -/
def State.countedIn (s : State) (p : Nat) (x : PacketIn) : State :=
  (s.count (ctrId 0x01 256 p (s.parsed p x).group) 1).count (ctrId 0x01 256 p (16 + (s.parsed p x).group)) x.image.length

/-- A binding notice agrees with the home side's words of the binding it names (R184). -/
def State.noticeAgrees (s : State) (m : BindNotice) : Bool :=
  let w := s.bindW (homeSel m.slot.val) (ldIndex m.ld)
  (decide (m.ld = 0xFF) || decide (m.ld < 16)) && bBound w && decide (bSide w = 1) && decide (bView w = m.hostView)
    && decide (bVport w = m.vport) && decide (bTenant w = m.tenant) && s.ldSuits (homeSel m.slot.val) m.ld

/-- A device link that is up is being enumerated: the port leads its link, and the bus is below it (R192). -/
def State.enumerates (s : State) (p bus : Nat) : Bool :=
  s.running && decide (s.role p = roleDevice) && decide (s.lane0 p = p) && s.edgeLinkUp p && decide (bus ≠ 0)

/-! ## Programs at an instruction -/

/-- A program stands at an instruction that it may execute, and no abort waits for it (R35, R63). -/
def State.stands (s : State) (id : Nat) (p : Prog) : Prop := s.prog id = some p ∧ s.atInstr p = true ∧ p.aborting = false

/-- The program's count of instructions goes up (R55). -/
def State.counted (s : State) (id : Nat) : State := s.upd id (fun q => { q with executed := q.executed + 1 })

/-- A command that executes opcode `op` writes `f` into the destination rod, moves on by one instruction, and changes nothing else. -/
def RodRule (c : Nat → Instr) (op : Nat) (f : Prog → Word) : Prop :=
  ∀ (id : Nat) (s : State) (p : Prog), s.stands id p → iOpcode p.instr = op →
    exec (c id) s = .next (s.upd id (fun q => ((({ q with executed := q.executed + 1 } : Prog).setRod (iDst p.instr) (f p)).next).onward))

/-- A command that executes opcode `op` goes on at word `Imm` where `taken` holds of `Src`, else at the next instruction. -/
def BranchRule (c : Nat → Instr) (op : Nat) (taken : Word → Prop) : Prop :=
  ∀ (id : Nat) (s : State) (p : Prog), s.stands id p → iOpcode p.instr = op →
    (taken (p.rod (iSrc p.instr)) → exec (c id) s = .next (s.upd id (fun q =>
      ({ q with executed := q.executed + 1, pc := iImm p.instr } : Prog).onward))) ∧
    (¬ taken (p.rod (iSrc p.instr)) → exec (c id) s = .next (s.upd id (fun q =>
      (({ q with executed := q.executed + 1 } : Prog).next).onward)))

/-- What an object instruction outside a transaction leaves, where its effect `o` ends OK and the log takes its entry: the Step entry of a
change, the effect, the versions, the status in A15 after any result in `Dst` (R40, R45, R48). -/
def State.objDone (s : State) (p : Prog) (r : ObjReq) : State :=
  let t := s.counted p.id
  if isChange r.op then
    let s1 := (t.tallyCount 12).logEntry (p.entry 1 0 p.pc 0 (t.entryObjs r) r.entryRefs 0 0)
    let o := s1.applyObj r
    ((t.settle (o.st.bumpAll o.changed) p.id).upd p.id (fun q => q.result r .ok o.dst)).afterCommit p.id
  else (t.applyObj r).st.proceed p.id (fun q => (q.result r .ok (t.applyObj r).dst).next)

/-- A command that executes the object instructions that `want` picks out has their effect at once outside a transaction (R45), and inside one
stages it (R46). -/
def ObjRuleWith (image : Option (List Word)) (c : Nat → Instr) (want : ObjReq → Prop) : Prop :=
  ∀ (id : Nat) (s : State) (p : Prog) (r : ObjReq), r = { p.objReq with image := image } →
    s.stands id p → isObj (iOpcode p.instr) → want r → s.logReady → (s.counted id).mustDrain p r = false →
    (p.begun = false → p.trans = false → ((s.counted id).applyObj r).status = .ok → exec (c id) s = .next (s.objDone p r)) ∧
    (p.begun → p.committed = false → exec (c id) s = .next ((s.counted id).stageObj p r))

/-- The same for a command that brings no overlay image. -/
def ObjRule (c : Nat → Instr) (want : ObjReq → Prop) : Prop := ObjRuleWith none c want

/-! ## Groups of commands -/

/-- Commands that may write coordination memory, or clear it: stores, the reads that stores of the same view wait before, AtomicOps, the drains of
R324, resets and the loss of power, and the faults that may end the last program of an orderly power-down. -/
def touchesCm : Instr → Bool
  | .cmRead .. | .cmPostedWrite .. | .heldStoreApplied .. | .reservedLoad .. | .conditionalStoreApplied .. | .cmAtomicOp .. => true
  | .pmeTurnOff .. | .configRequest .. => true
  | .faultEvent .. | .lockstepMismatch => true
  | .coldReset .. | .pwrOkFall | .deviceReset | .haltRestartTimeout => true
  | _ => false

/-- Commands that may store overlays or put them into or out of effect: the actions of `OVERLAY`, a commit, and an `UNBIND` that waited, which runs
its program's instruction. -/
def switchesOverlays : Instr → Bool
  | .overlayStore .. | .overlayApply .. | .overlayRemove .. | .overlayDelete .. | .commit .. | .unbindDrainDone .. => true
  | _ => false

/-- An instruction word of Table 2-5 from its fields. -/
def instrWord (op flags dst src sub imm : Nat) : Word :=
  BitVec.ofNat 64 (op * 2 ^ 56 + flags * 2 ^ 52 + dst * 2 ^ 48 + src * 2 ^ 44 + sub * 2 ^ 32 + imm)

end Sys2Proof.Machine
end

