-- ==== Sys2Proof/Certificates/Slice0/Obligations.lean ====
section
/-! DEFINITION. The statements for the provers: what each family of commands does where its conditions hold, where the commands stop, what
every command leaves alone, and what every step keeps. -/

open Sys2Proof Sys2Proof.Machine

/-- A packet that a port takes is counted and goes on: from a fabric link by its fabric header, from an edge link by its routing, with the
poison of a failed ECRC where the port checks it, and refused with Unsupported Request where it routes nowhere; a completion is matched to its
request (R92, R94). A held packet is
evaluated again (R102). -/
def Obligations.IngressPacketsGoOn : Prop :=
  (∀ (p : PortId) (x : PacketIn) (cells : List CellIdx) (s : State) (h : FabHdr),
    packetWf x.image.length → s.takesPackets p.val → s.role p.val = roleFabric → x.hdr = some h →
    exec (.packetReceived p x cells) s = .next ((s.countedIn p.val x).fabricIn p.val x h cells)) ∧
  (∀ (p : PortId) (x : PacketIn) (cells : List CellIdx) (s : State),
    packetWf x.image.length → s.takesPackets p.val → s.role p.val ≠ roleFabric → edgeReq x.req → kindOf x.req = .completion →
    exec (.packetReceived p x cells) s
      = .next ((s.countedIn p.val x).completionIn p.val ⟨x.req, x.tag, x.status, x.image, x.poison, x.written, cells⟩)) ∧
  (∀ (p : PortId) (x : PacketIn) (cells : List CellIdx) (s : State) (pk : Packet),
    packetWf x.image.length → s.takesPackets p.val → s.role p.val ≠ roleFabric → edgeReq x.req → kindOf x.req ≠ .completion →
    (if s.role p.val = roleHost then s.fromHost p.val x else s.fromDevice p.val x) = some pk →
    ¬(x.ecrcBad = true ∧ s.fld portEcrcCheck p.val = 1) →
    exec (.packetReceived p x cells) s = .next ((s.countedIn p.val x).goOn pk cells)) ∧
  (∀ (p : PortId) (x : PacketIn) (cells : List CellIdx) (s : State) (pk : Packet),
    packetWf x.image.length → s.takesPackets p.val → s.role p.val ≠ roleFabric → edgeReq x.req → kindOf x.req ≠ .completion →
    (if s.role p.val = roleHost then s.fromHost p.val x else s.fromDevice p.val x) = some pk →
    x.ecrcBad = true → s.fld portEcrcCheck p.val = 1 →
    exec (.packetReceived p x cells) s = .next (((s.countedIn p.val x).ecrcFails p.val pk).goOn { pk with poison := true } cells)) ∧
  (∀ (p : PortId) (x : PacketIn) (cells : List CellIdx) (s : State),
    packetWf x.image.length → s.takesPackets p.val → s.role p.val ≠ roleFabric → edgeReq x.req → kindOf x.req ≠ .completion →
    (if s.role p.val = roleHost then s.fromHost p.val x else s.fromDevice p.val x) = none →
    exec (.packetReceived p x cells) s = .next ((s.countedIn p.val x).refuseIn (s.arrived p.val x) .unsupportedRequest)) ∧
  (∀ (pkt : Nat) (cells : List CellIdx) (s : State) (pk : Packet),
    s.running → s.pkt pkt = some pk → pk.loc = .ingress → pk.pool = 3 →
    exec (.heldPacketReevaluate pkt cells) s = .next (s.evaluate pk cells))

/-- A free egress port first re-sends a nullified packet (R321), else chooses an eligible queue and packet (R157), which at an edge port
passes the gate first. A cell that fails its crossbar CRC is read a second time and raises a Grade 0 record (R112). A cut-through packet
pauses and resumes with its ingress link (R110), and a paused TLP is nullified (R321). -/
def Obligations.EgressSendsAndPauses : Prop :=
  (∀ (p : EgressId) (err : CellError) (starved : List PktKind) (s : State) (e : Nat × Nat),
    s.running → s.egressFree (egressCode p) →
    s.pcie.nullified.find? (fun (e : Nat × Nat) => decide (e.1 = egressCode p)) = some e →
    exec (.egressPacketBegin p ⟨err, starved⟩) s = .next (s.resendNullified (egressCode p) e.2)) ∧
  (∀ (p : EgressId) (err : CellError) (starved : List PktKind) (s s1 : State) (pk : Packet) (q : Nat),
    s.running → s.egressFree (egressCode p) →
    s.pcie.nullified.find? (fun (e : Nat × Nat) => decide (e.1 = egressCode p)) = none →
    s.choose starved (egressCode p) = some (s1, pk, q) → egressCode p = 255 ∨ s.role (egressCode p) = roleFabric →
    exec (.egressPacketBegin p ⟨err, starved⟩) s = .next ((s1.leave (egressCode p) q pk).cellError pk.id err)) ∧
  (∀ (p : EgressId) (err : CellError) (starved : List PktKind) (s s1 : State) (pk : Packet) (q : Nat),
    s.running → s.egressFree (egressCode p) →
    s.pcie.nullified.find? (fun (e : Nat × Nat) => decide (e.1 = egressCode p)) = none →
    s.choose starved (egressCode p) = some (s1, pk, q) → ¬(egressCode p = 255 ∨ s.role (egressCode p) = roleFabric) →
    (s1.gateStage (egressCode p) pk).2 = true →
    exec (.egressPacketBegin p ⟨err, starved⟩) s
      = .next (((s1.gateStage (egressCode p) pk).1.leave (egressCode p) q pk).cellError pk.id err)) ∧
  (∀ (p : EgressId) (err : CellError) (starved : List PktKind) (s s1 : State) (pk : Packet) (q : Nat),
    s.running → s.egressFree (egressCode p) →
    s.pcie.nullified.find? (fun (e : Nat × Nat) => decide (e.1 = egressCode p)) = none →
    s.choose starved (egressCode p) = some (s1, pk, q) → ¬(egressCode p = 255 ∨ s.role (egressCode p) = roleFabric) →
    (s1.gateStage (egressCode p) pk).2 = false →
    exec (.egressPacketBegin p ⟨err, starved⟩) s = .next (s1.gateStage (egressCode p) pk).1) ∧
  (∀ (p : EgressId) (cell : Nat) (s : State) (e : Egress) (pk : Packet),
    s.running → s.sending (egressCode p) = some (e, pk) → cell < pk.cells →
    ∃ t, exec (.crossbarSecondRead p cell true) s = .next t ∧ t = (s.draw.count (ctrId 0x0E 4 (pk.bankAt cell) 2) 1).raiseOpen
        { grade := 0, checker := checkerId 0x05 (if egressCode p = 255 then 144 else egressCode p), cls := cPort, sel := egressCode p
          syn0 := s.freeVal.toNat % 65536, syn1 := (cellCrc (pk.cellTag cell) (pk.cellBytes cell)).toNat, action := 1, key := 0 } ∧
      exec (.crossbarSecondRead p cell false) s = .next (t.cellError pk.id (.data cell 0 0))) ∧
  (∀ (p : EgressId) (s : State) (e : Egress) (pk : Packet),
    s.running → s.sending (egressCode p) = some (e, pk) → pk.cutThrough → e.paused = false → egressCode p < 144 →
    s.writtenNow pk < pk.cells →
    exec (.cutThroughPause p) s = .next (((s.setPkt { pk with written := s.writtenNow pk, writtenAt := s.now }).setPaused (egressCode p) true).count
      (ctrId 0x01 256 (egressCode p) 129) 1)) ∧
  (∀ (p : EgressId) (cells : Nat) (s : State) (e : Egress) (pk : Packet),
    s.running → s.sending (egressCode p) = some (e, pk) → e.paused →
    exec (.cutThroughResume p cells) s = .next ((s.moreCells pk cells).setPaused (egressCode p) false)) ∧
  (∀ (p : EgressId) (cells : Nat) (s : State) (e : Nat × Nat) (pk : Packet),
    s.running → s.sending (egressCode p) = none →
    s.pcie.nullified.find? (fun (e : Nat × Nat) => decide (e.1 = egressCode p)) = some e → s.pkt e.2 = some pk →
    exec (.cutThroughResume p cells) s = .next (s.moreCells pk cells)) ∧
  (∀ (p : PortId) (s : State) (e : Egress) (pk : Packet),
    s.running → s.sending p.val = some (e, pk) → e.paused → s.role p.val = roleHost ∨ s.role p.val = roleDevice →
    ∃ t, exec (.tlpNullify p) s = .next t ∧ t.pcie.nullified = s.pcie.nullified ++ [(p.val, pk.id)] ∧
      t.core.egress = s.core.egress.filter (fun e => decide (e.port ≠ p.val)) ∧ t.core.pkts = s.core.pkts ∧ t.cm = s.cm ∧ t.regs = s.regs)

/-- The last read of a packet frees the egress port and, unless other destinations still take it, the packet's cells (R100). An audit pass
returns the cells unreached for two passes and keeps the others (R113). The end of a bank's test sets TestResult, clears Test and leaves the
bank out of service, and a drained bank leaves the pool (R115). -/
def Obligations.BuffersFreeAndAudit : Prop :=
  (∀ (p : EgressId) (s u : State) (e : Egress) (pk : Packet),
    s.running → s.sending (egressCode p) = some (e, pk) → e.paused = false → pk.cells ≤ s.writtenNow pk →
    u = { s with core := { s.core with egress := s.core.egress.filter (fun x => decide (x.port ≠ egressCode p)) } } →
    (!pk.dests.isEmpty || u.core.egress.any (fun x => decide (x.pkt = pk.id))) = true →
    exec (.packetCellsFreed p) s = .next ((u.gone (egressCode p) pk).setPkt { pk with written := pk.cells })) ∧
  (∀ (p : EgressId) (s u : State) (e : Egress) (pk : Packet),
    s.running → s.sending (egressCode p) = some (e, pk) → e.paused = false → pk.cells ≤ s.writtenNow pk →
    u = { s with core := { s.core with egress := s.core.egress.filter (fun x => decide (x.port ≠ egressCode p)) } } →
    (!pk.dests.isEmpty || u.core.egress.any (fun x => decide (x.pkt = pk.id))) = false →
    exec (.packetCellsFreed p) s
      = .next (((u.gone (egressCode p) pk).dropPkt pk.id).orphanCells (pk.idxs.drop (pk.cells - pk.unreached)))) ∧
  (∀ s : State, s.running →
    ∃ t, exec .freeListAuditPass s = .next t ∧
      t.core.orphans = (s.core.orphans.map (fun (o : Nat × Nat) => (o.1, o.2 + 1))).filter (fun (o : Nat × Nat) => decide (o.2 < 2)) ∧
      t.core.pkts = s.core.pkts ∧ t.objs = s.objs ∧ t.cm = s.cm ∧ t.regs = s.regs) ∧
  (∀ (b : BankId) (pass : Bool) (s : State), s.running → s.fld bankState b.val = 3 →
    exec (.bankTestEnd b pass) s = .next (((s.put bankTestResult b.val (if pass then 1 else 2)).put bankTest b.val 0).put bankState b.val 2)) ∧
  (∀ (b : BankId) (s : State), s.running → s.fld bankState b.val = 1 → s.bankUse b.val = 0 → s.fld bankRetiring b.val = 1 →
    exec (.bankDrained b) s = .next ((s.put bankRetiring b.val 0).put bankState b.val 4)) ∧
  (∀ (b : BankId) (s : State), s.running → s.fld bankState b.val = 1 → s.bankUse b.val = 0 → s.fld bankRetiring b.val ≠ 1 →
    exec (.bankDrained b) s = .next (s.put bankState b.val 2))

/-- A send record closes after 5 ms without a packet (R132) and a receive record that holds nothing after 10 ms (R133); an ordered packet is
handled by its receive record; a gap timer that runs out tears the flow down, with a teardown notice and a record (R137); the source edge
closes the send record, aborts the flow's requests and contains the pair (R138); a delivery notice makes tracked writes visible (R204). -/
def Obligations.FlowRecordsOpenAndClose : Prop :=
  (∀ (f : FlowKey) (s : State) (r : SendRec), s.running → s.sendRec f = some r → r.lastAt + 5000000 ≤ s.now →
    exec (.sendRecordSilenceClose f) s = .next
      { s with fabric := { s.fabric with send := s.fabric.send.filter (fun q => decide (q.flow ≠ f)) } }) ∧
  (∀ (f : FlowKey) (s : State) (r : RecvRec), s.running → s.recvRec f = some r → r.held = [] → r.lastAt + 10000000 ≤ s.now →
    exec (.receiveRecordSilenceFree f) s = .next
      { s with fabric := { s.fabric with recv := s.fabric.recv.filter (fun q => decide (q.flow ≠ f)) } }) ∧
  (∀ (pkt : Nat) (s : State) (pk : Packet) (h : FabHdr) (r : RecvRec), s.running → s.pkt pkt = some pk → pk.hdr = some h →
    pk.loc = .reorderIn ∨ pk.loc = .reorderWait → s.recvRec (hdrFlow h) = some r → r.gen = h.gen →
    exec (.reorderPacketArrival pkt) s = .next (s.inSequence pk h r)) ∧
  (∀ (pkt : Nat) (s : State) (pk : Packet) (h : FabHdr), s.running → s.pkt pkt = some pk → pk.hdr = some h →
    pk.loc = .reorderIn ∨ pk.loc = .reorderWait → s.recvRec (hdrFlow h) = none → s.fabric.recv.length < 262144 → h.birthValid = false →
    exec (.reorderPacketArrival pkt) s = .next (s.inSequence pk h ⟨hdrFlow h, h.gen, 0, none, [], none, s.now⟩)) ∧
  (∀ (f : FlowKey) (s : State) (r : RecvRec) (due : Nat), s.running → s.recvRec f = some r → r.gapDue = some due → due ≤ s.now →
    s.gapFills r = false →
    exec (.gapTimerExpiry f) s = .next (
      let s1 : State := { s with fabric := { s.fabric with recv := s.fabric.recv.filter (fun q => decide (q.flow ≠ f)) } }
      (((s1.tearHeld f.srcDev r.held).peerCount f.srcDev 4).sendMsg f.srcDev
        (.teardown ⟨f.srcPort, f.dstPort, f.cls, r.gen⟩)).raise (pairEvent f r.gen f.dstPort 15))) ∧
  (∀ (dev : Nat) (m : TeardownMsg) (s : State), s.running →
    exec (.teardownReceived dev m) s = .next (
      let f : FlowKey := ⟨s.fabricId, m.srcPort, dev, m.dstPort, m.cls⟩
      let s1 : State := { s with fabric := { s.fabric with
        send := s.fabric.send.filter (fun q => decide (q.flow ≠ f)) } }
      let s2 := s1.closeReqs .completerAbort (s1.openReqs.filter (fun r => r.inbound && decide (r.flow = f)))
      ((s2.discardAll (s2.cms.tracked.filter (fun t => decide (t.flow = f)))).peerCount dev 4).raise (pairEvent f m.gen m.srcPort 4))) ∧
  (∀ (dev : Nat) (m : TeardownMsg) (seq : Nat) (s : State), s.running →
    exec (.deliveryReceived dev m seq) s = .next { s with cms := { s.cms with tracked := s.cms.tracked.filter (fun t =>
      !(decide (t.flow = ⟨s.fabricId, m.srcPort, dev, m.dstPort, m.cls⟩) &&
        (match t.seq with | some q => decide ((seq + 16777216 - q) % 16777216 < 8388608) | none => false))) } })

/-- Each update gives every path-group member a new congestion level (R129), a group that became active takes its computed weights 100 µs
later (R131), a WITHDRAW message acts entry by entry (R140), and a link that has run for AutoRestoreMs is restored, after a restart of its
run where it is degraded (R145). -/
def Obligations.PathsWithdrawAndReturn : Prop :=
  (∀ s : State, s.running → exec .congestionUpdate s = .next
    { s with fabric := { s.fabric with congestion := s.levelsOf (s.selsOf cPathGroup) (fun _ _ => true) s.fabric.congestion } }) ∧
  (∀ (g : Fin 16384) (s : State), s.running → tget 0 s.fabric.coldUntil g.val ≠ 0 → tget 0 s.fabric.coldUntil g.val ≤ s.now →
    exec (.equalWeightPeriodEnd g) s = .next { s with fabric := { s.fabric with
      coldUntil := tput 0 s.fabric.coldUntil g.val 0, congestion := s.levelsOf [g.val] (fun _ _ => true) s.fabric.congestion } }) ∧
  (∀ (p : PortId) (es : List WithdrawEntry) (s : State), s.fabricLink p.val → s.ql p.val = qlActive →
    exec (.withdrawMessageReceived p es) s = .next (es.foldl (fun s e => s.withdrawEntry p.val e) s)) ∧
  (∀ (p : PortId) (s : State) (e : Nat × Nat), s.fabric.restoring.find? (fun e => decide (e.1 = p.val)) = some e →
    s.fabricLink p.val → s.ql p.val = qlActive → e.2 ≤ s.now → s.fld qlDegraded p.val ≠ 1 →
    exec (.autoRestoreExpiry p) s = .next (s.reinstatePort p.val)) ∧
  (∀ (p : PortId) (s : State) (e : Nat × Nat), s.fabric.restoring.find? (fun e => decide (e.1 = p.val)) = some e →
    s.fabricLink p.val → s.ql p.val = qlActive → e.2 ≤ s.now → s.fld qlDegraded p.val = 1 →
    exec (.autoRestoreExpiry p) s = .next (s.startRestore p.val))

/-- A completion that an edge link brings is taken by its entry, or discarded and counted (R148); an entry whose
CplTimeoutMs has run out closes with Completer Abort and a Grade 1 record against the function, or the port where no function is named
(R319); so does a remote coordination-memory read unanswered for 50 µs (R150), and every entry of an edge link that goes down (R3). -/
def Obligations.OutstandingRequestsEnd : Prop :=
  (∀ (p : PortId) (c : CompletionIn) (s : State), packetWf c.image.length → s.takesPackets p.val →
    s.role p.val ≠ roleFabric → kindOf c.req = .completion →
    exec (.completionReceived p c) s = .next (s.completionIn p.val c)) ∧
  (∀ (p : PortId) (tag : Nat) (s : State) (r : ReqEntry), s.running →
    s.fabric.reqs.find? (fun r => decide (r.port = p.val) && !r.inbound && decide (r.tag = tag) && decide (r.due ≤ s.now)) = some r →
    exec (.completionTimeout p tag) s = .next (
      let e : FEvent := { grade := 1, checker := checkerId 0x16 p.val, cls := if r.slot < 16384 then cFunction else cPort
                          sel := if r.slot < 16384 then homeSel r.slot else p.val, syn0 := r.requester * 65536 + r.origTag
                          syn1 := s.fld portCplTimeoutMs p.val * 1000000, action := 0, key := 0 }
      ((if r.slot < 16384 then s.count (ctrId 0x06 8 r.slot 4) 1 else s).closeReq .completerAbort r).raise e)) ∧
  (∀ (entry : Nat) (s : State) (r : ReqEntry), s.running →
    s.openReqs.find? (fun r => decide (r.id = entry) && r.cm && decide (r.due ≤ s.now) && !s.dataBack r) = some r →
    exec (.remoteCmReadTimeout entry) s = .next ((s.closeReq .completerAbort r).raise
      { grade := 1, checker := checkerId 0x16 r.port, cls := cPort, sel := r.port, syn0 := flowSyn r.flow r.gen, syn1 := 0, action := 0
        key := 52 })) ∧
  (∀ (p : PortId) (s : State), s.running → s.lane0 p.val = p.val → s.edgeStands p.val →
    exec (.edgeLinkDownClose p) s = .next (s.edgeLinkDown p.val 0))

/-- A binding notice that agrees with the home side's words sets Matched, records the view's device and port, and is confirmed; one that does
not is counted and recorded (R184). The confirmation sets Matched and Port at the view's device, and announces a present device (R184). A
BIND_RESET that names the binding resets it (R314), and a presence message is applied to the virtual downstream port (R149). -/
def Obligations.BindingMessagesAct : Prop :=
  (∀ (m : PresenceMsg) (s : State), s.running → m.view.val < 96 →
    exec (.presenceMessageReceived m) s = .next (s.slotEvent m.view.val m.k m.kind)) ∧
  (∀ (m : BindNotice) (s : State), s.running → s.noticeAgrees m →
    exec (.bindNoticeReceived m) s = .next (
      let sel := homeSel m.slot.val
      let i := ldIndex m.ld
      let s1 := (s.put (fnMatched.up i) sel 1).put (fnViewDevice.up i) sel m.viewDev
      let s2 : State := { s1 with tenancy := { s1.tenancy with
        bindPort := tput 255 s1.tenancy.bindPort (m.slot.val * 32 + i) m.hostPort } }
      s2.sendMsg m.viewDev (.bindConfirm ⟨m.slot, m.ld, s.fld fnPort sel, s.fld fnState sel⟩))) ∧
  (∀ (m : BindNotice) (s : State), s.running → ¬ s.noticeAgrees m →
    exec (.bindNoticeReceived m) s = .next ((s.count (ctrId 0x06 8 m.slot.val 6) 1).raise
      { grade := 0, checker := checkerId 0x16 0xFF, cls := cFunction, sel := homeSel m.slot.val, syn0 := 0, syn1 := 0, action := 15
        key := 0 })) ∧
  (∀ (dev : Nat) (m : BindConfirm) (s u : State) (sel : Nat) (w : Word), s.running → m.ld = 0xFF ∨ m.ld < 16 →
    sel = dev % 4096 * 65536 + m.slot.val → w = s.bindW sel (ldIndex m.ld) → bBound w → dev % 4096 ≠ s.fabricId →
    u = (s.put (fnMatched.up (ldIndex m.ld)) sel 1).put fnPort sel m.port → m.fnState = 1 →
    exec (.bindConfirmReceived dev m) s = .next (u.slotEvent (bView w) (bVport w) (.presence true))) ∧
  (∀ (dev : Nat) (m : BindConfirm) (s u : State) (sel : Nat) (w : Word), s.running → m.ld = 0xFF ∨ m.ld < 16 →
    sel = dev % 4096 * 65536 + m.slot.val → w = s.bindW sel (ldIndex m.ld) → bBound w → dev % 4096 ≠ s.fabricId →
    u = (s.put (fnMatched.up (ldIndex m.ld)) sel 1).put fnPort sel m.port → m.fnState ≠ 1 →
    exec (.bindConfirmReceived dev m) s = .next u) ∧
  (∀ (m : BindResetMsg) (s : State), s.running → m.ld = 0xFF ∨ m.ld < 16 →
    bBound (s.bindW (homeSel m.slot.val) (ldIndex m.ld)) → bMatched (s.bindW (homeSel m.slot.val) (ldIndex m.ld)) →
    bView (s.bindW (homeSel m.slot.val) (ldIndex m.ld)) = m.hostView → bViewDev (s.bindW (homeSel m.slot.val) (ldIndex m.ld)) = m.viewDev →
    exec (.bindResetReceived m) s = .next (s.bindingReset m.hostView (homeSel m.slot.val) (ldIndex m.ld)))

/-- At each tide multiple of 1,024 every meter and shaper bucket is refilled, once (R164). At a sampling epoch every port is sampled, once
(R170); a METER commit of the same clock goes first, as does the last read of a packet (R171). The oldest staged telemetry record is written to its slot of the host ring while the ring's view is live (R398). -/
def Obligations.BucketsSamplesAndTelemetry : Prop :=
  (∀ s : State, s.running → s.core.epoch < s.tide / 1024 → s.pending.any commitsMeter = false →
    exec .meterEpochEnd s = .next s.epochEnd) ∧
  (∀ s : State, s.running → s.core.epoch < s.tide / 1024 → s.pending.any commitsMeter = true →
    exec .meterEpochEnd s = .next { s with core := { s.core with epochWaits := true } }) ∧
  (∀ s : State, s.running → s.core.sampledEpoch ≠ s.core.epoch → s.core.epochWaits = false → s.pending.any readsLast = false →
    exec .sampleInstant s = .next (
      let s1 := s.samplePorts (s.selsOf cPort)
      { s1 with core := { s1.core with sampledEpoch := s1.core.epoch, sampleWaits := false } })) ∧
  (∀ s : State, s.running → s.core.sampledEpoch ≠ s.core.epoch → s.core.epochWaits = true ∨ s.pending.any readsLast = true →
    exec .sampleInstant s = .next { s with core := { s.core with sampleWaits := true } }) ∧
  (∀ (r : Fin 8) (s : State) (e : Staged), (s.stagedOf r.val).head? = some e → s.viewLive (s.fld (ringFld ringHostView r.val) 0) →
    s.mgmtQuiet (s.fld (ringFld ringHostView r.val) 0) = false → s.telemetryTurn →
    exec (.telemetryHostWrite r) s = .next (
      let s1 := s.hostWrite 0xFFFF (s.fld (ringFld ringHostView r.val) 0)
        (s.fld (ringFld ringHostBase r.val) 0 * 4096 + 144 * (e.seq % 2 ^ s.fld (ringFld ringLog2HostRecords r.val) 0)) e.words
      { s1.sdramAccess .telemetry (e.seq % s.stageRoom r.val) false with counters := { s1.counters with staged := s1.counters.staged.erase e } }))

/-- At the armed instant a frozen set is captured whole and an unfrozen one unit by unit (R394, R395). The buffer is written head and body
first and `Done` last, or the snapshot counts as abandoned (R396). A counter whose word proves uncorrectable restarts at 0 with its Invalid
flag set and a Grade 1 record with Action 0 against its object (R390). -/
def Obligations.SnapshotsAndCounters : Prop :=
  (∀ (set : Fin 256) (s : State) (j : SnapJob), s.running → s.jobOf set = some j → j.instant ≤ s.tide →
    s.base snapState set.val = 1 ∨ s.base snapState set.val = 2 → j.frozen →
    exec (.snapshotCapture set) s = .next (
      let r := s.captureUnit j (s.usedRanges j)
      (r.1.setJob r.2).put snapState j.set.val 3)) ∧
  (∀ (set : Fin 256) (s : State) (j : SnapJob), s.running → s.jobOf set = some j → j.instant ≤ s.tide →
    s.base snapState set.val = 1 ∨ s.base snapState set.val = 2 → j.frozen = false →
    exec (.snapshotCapture set) s = .next (
      let rs := s.usedRanges j
      let r := s.captureUnit j ((rs.drop j.units.length).take 1)
      (r.1.setJob r.2).put snapState j.set.val (if r.2.units.length < rs.length then 2 else 3))) ∧
  (∀ (set : Fin 256) (s : State) (j : SnapJob), s.running → s.jobOf set = some j → s.base snapState set.val = 3 →
    j.issuerDev = s.fabricId → s.viewUp j.view → s.mgmtQuiet j.view = false →
    exec (.snapshotBufferWritten set true) s = .next (
      let s1 := ({ s with counters := { s.counters with jobs := s.counters.jobs.filter (fun i => decide (i.set ≠ set)) } } : State).put
        snapState set.val 0
      let s2 := (s1.hostWrite j.issuerDev j.view j.addr (s.snapHead j)).hostWrite j.issuerDev j.view (j.addr + 64) (snapBody j)
      ((s2.hostWrite j.issuerDev j.view (j.addr + 56) [1]).addSat snapCompleted set.val 1).put
        snapLastCaptureTide set.val ((s.snapHead j).getD 2 0).toNat)) ∧
  (∀ (set : Fin 256) (s : State) (j : SnapJob), s.running → s.jobOf set = some j → s.base snapState set.val = 3 →
    exec (.snapshotBufferWritten set false) s = .next (
      (({ s with counters := { s.counters with jobs := s.counters.jobs.filter (fun i => decide (i.set ≠ set)) } } : State).put
        snapState set.val 0).addSat snapAbandoned set.val 1)) ∧
  (∀ (id : Nat) (s : State), s.collects → ctrExists id →
    exec (.counterUncorrectable id) s = .next (
      let s1 := s.clearCounter id
      let s2 : State := { s1 with counters := { s1.counters with
        invalid := id :: s1.counters.invalid
        saturated := if decide (s.ctr id = ctrMax) || s.counters.saturated.contains id then id :: s1.counters.saturated
          else s1.counters.saturated } }
      s2.raiseOpen ⟨1, checkerId 0x18 0, (ctrObject id).1, (ctrObject id).2, 0, 0, 0, 0⟩))

/-- A sensor at 115 °C drives THERM_TRIP_N low and latches the device, one above 100 °C writes a Grade 0 record (R414). A rail outside its
operating range writes a Grade 0 record and beyond a latch limit a Grade 5 one (R402); the wear comparison measures every die (R423). The
temperatures are in eighths of a degree, the voltages in tenths of a millivolt, and the syndromes are the model's own choice (log 41). -/
def Obligations.PackageMonitorsReport : Prop :=
  (∀ (die : Fin 10) (sensor : Fin 16) (s : State), s.collects → sensor.val < sensorsOf die.val →
    exec (.thermalTrip die sensor) s = .next ((s.emit (.pin .thermTripN false)).raise
      ⟨5, checkerId 0x13 (die.val * 16 + sensor.val), 0, 0, 920, 920, 13, 0⟩)) ∧
  (∀ (die : Fin 10) (sensor : Fin 16) (temp : Nat) (s : State), s.collects → sensor.val < sensorsOf die.val → 800 < temp →
    exec (.overTemperature die sensor temp) s = .next (
      (s.tempIs die.val (max (temp : Int) (signed 16 (s.base (wearTempNow.up die.val) 0)))).raise
        ⟨0, checkerId 0x13 (die.val * 16 + sensor.val), 0, 0, temp, 800, 0, 0⟩)) ∧
  (∀ (rail : Fin 21) (mv : Nat) (s : State), s.collects →
    mv * 10 < (railLimits rail.val).2.2.1 ∨ (railLimits rail.val).2.2.2 < mv * 10 →
    exec (.railOutOfRange rail true mv) s = .next (s.raise ⟨5, checkerId 0x13 (256 + rail.val), 0, 0, mv * 10,
      if mv * 10 < (railLimits rail.val).2.2.1 then (railLimits rail.val).2.2.1 else (railLimits rail.val).2.2.2, 13, 0⟩)) ∧
  (∀ (rail : Fin 21) (mv : Nat) (s : State), s.collects →
    (railLimits rail.val).2.2.1 ≤ mv * 10 → mv * 10 ≤ (railLimits rail.val).2.2.2 →
    mv * 10 < (railLimits rail.val).1 ∨ (railLimits rail.val).2.1 < mv * 10 →
    exec (.railOutOfRange rail false mv) s = .next (s.raise ⟨0, checkerId 0x13 (256 + rail.val), 0, 0, mv * 10,
      if mv * 10 < (railLimits rail.val).1 then (railLimits rail.val).1 else (railLimits rail.val).2.1, 0, 0⟩)) ∧
  (∀ (dies : List DieReading) (s : State), diesWf dies → s.collects → s.power.phase ≠ .starting →
    exec (.wearGaugeComparison dies) s = .next (s.measureDies dies))

/-- An event of a checker is recorded with its grade's action (R351). A record that holds no containment closes after MergeQuietMs without a
merge, its quiet time starting anew at each merge (R351). A leak timer takes one from its count (R352). The oldest unlogged record is logged
(R350). A lockstep mismatch is Grade 4, and Grade 5 where an earlier one lies within 24 h (R357). The end of InjectArmUntil cancels every
injection (R361), and a channel whose migration ends is out of service (R26). -/
def Obligations.FaultCollectorActs : Prop :=
  (∀ (e : FaultIn) (s : State), s.collects → e.grade ≤ 5 → checkerExists e.checker →
    exec (.faultEvent e) s = .next (((s.tallyFault (e.checker / 65536) e.grade).bankError e).raise (eventOf e))) ∧
  (∀ (id : Nat) (s : State) (r : FaultRec), s.faults.recs.find? (fun r => decide (r.id = id)) = some r → s.collects → r.isOpen →
    s.holdsRec r = false → r.quietFrom + s.fld devMergeQuietMs 0 * 1000000 ≤ s.now →
    exec (.mergeQuietClose id) s = .next (s.closeRecord id)) ∧
  (∀ (c : Nat) (s : State) (l : Leak), s.faults.leaks.find? (fun l => decide (l.source = c)) = some l → s.power.phase ≠ .off →
    l.due ≤ s.now →
    exec (.leakDecrement c) s = .next { s with faults := { s.faults with
      leaks := (s.faults.leaks.map (fun m => if m.source = c then ⟨m.source, m.count - 1, m.due + s.leakInterval⟩ else m)).filter
        (fun m => decide (0 < m.count)) } }) ∧
  (∀ (s : State) (r : FaultRec), (s.faults.recs.filter (fun r => !r.logged)).getLast? = some r → s.power.phase ≠ .off →
    s.sdram.selfRefresh = false → s.log.pendingCopy = [] →
    exec .faultLogWrite s = .next { s.sdramAccess .faultLog (r.id % 65536) true with faults := { s.faults with
      recs := s.faults.recs.map (fun q => if q.id = r.id then { q with logged := true } else q) } }) ∧
  (∀ s : State, s.running → s.earlierMismatch = false →
    exec .lockstepMismatch s = .next ((s.tallyFault 0x0E 4).raiseOpen ⟨4, checkerId 0x0E 0, 0, 0, 0, 0, 12, 0⟩)) ∧
  (∀ s : State, s.running → s.earlierMismatch = true →
    exec .lockstepMismatch s = .next ((s.tallyFault 0x0E 5).raiseOpen ⟨5, checkerId 0x0E 0, 0, 0, 0, 0, 13, 0⟩)) ∧
  (∀ s : State, s.power.phase ≠ .off → s.fld devInjectArmUntil 0 ≤ s.tide →
    exec .injectionExpiry s = .next { s with faults := { s.faults with injections := [] } }) ∧
  (∀ (ch : Fin 12) (s : State), s.running → s.sdram.migrating.contains ch.val →
    exec (.sdramMigrationDone ch) s = .next { s with sdram := { s.sdram with
      migrating := s.sdram.migrating.filter (fun c => decide (c ≠ ch.val)), outOfService := s.sdram.outOfService ++ [ch.val] } })

/-- A permitted posted write of a host enters its view's write buffer line by line (R201), or waits for room there, and a line's oldest plain
store is applied (R202). A permitted read goes line by line (R200) and returns the bytes merged with the agent's own held stores (R203). A permitted AtomicOp first applies the agent's
held stores to the line, then writes the operation's result, counts it, and returns the old value (R210). What the gate refuses ends in
its refusal. -/
def Obligations.CmAccessesComplete : Prop :=
  (∀ (v : ViewId) (off : Nat) (data : List Byte) (cells : List CellIdx) (s u : State), cmAccessWf off data.length → s.agentLive (.here v) →
    u = s.finish (.here v) → u.cms.waits.any (fun x => decide (x.view = v.val)) = false → u.behindPackets v.val u.core.nextPkt = false →
    u.isRemote (windowOf (plainOf off)) = false → inAlias off = false → u.cmGate (.here v) .memWrite off data.length = .pass →
    (u.cms.held.filter (fun h => decide (h.view = v.val))).length + (lineParts (data.length + 1) (plainOf off) data).length ≤ 256 →
    exec (.cmPostedWrite (.here v) off data cells) s = .next { u with cms := { u.cms with
      held := u.cms.held ++ (lineParts (data.length + 1) (plainOf off) data).map
        (fun x => ⟨v.val, x.1, x.2, false, (u.cmView v.val).epoch, 0⟩) } }) ∧
  (∀ (v : ViewId) (off : Nat) (data : List Byte) (cells : List CellIdx) (s u : State), cmAccessWf off data.length → s.agentLive (.here v) →
    u = s.finish (.here v) → u.cms.waits.any (fun x => decide (x.view = v.val)) = false → u.behindPackets v.val u.core.nextPkt = false →
    u.isRemote (windowOf (plainOf off)) = false → inAlias off = false → u.cmGate (.here v) .memWrite off data.length = .pass →
    256 < (u.cms.held.filter (fun h => decide (h.view = v.val))).length + (lineParts (data.length + 1) (plainOf off) data).length →
    exec (.cmPostedWrite (.here v) off data cells) s = .next { u with cms := { u.cms with
      waits := u.cms.waits ++ [⟨v.val, s.core.nextPkt, none, off, data⟩] } }) ∧
  (∀ (v : ViewId) (off : Nat) (data : List Byte) (cells : List CellIdx) (s u : State), cmAccessWf off data.length → s.agentLive (.here v) →
    u = s.finish (.here v) → u.cms.waits.any (fun x => decide (x.view = v.val)) = false → u.behindPackets v.val u.core.nextPkt = false →
    u.isRemote (windowOf (plainOf off)) = false → inAlias off = false → u.cmGate (.here v) .memWrite off data.length ≠ .pass →
    exec (.cmPostedWrite (.here v) off data cells) s = .next (
      let g := u.cmGate (.here v) .memWrite off data.length
      let s1 := ((u.countDiscard v.val (u.cmView v.val).epoch).cmRefuse (.here v) .memWrite off data.length g).winDiscard
        (windowOf (plainOf off))
      if g = .refused || g = .suspended then s1.emit (.aer v.val 0 .unsupportedRequest) else s1)) ∧
  (∀ (d p n g off : Nat) (data : List Byte) (cells : List CellIdx) (s : State),
    cmAccessWf off data.length → s.agentLive (.far d p n g) → s.cmGate (.far d p n g) .memWrite off data.length = .pass →
    exec (.cmPostedWrite (.far d p n g) off data cells) s = .next
      (((s.finish (.far d p n g)).count (ctrId 0x07 8 (windowOf (plainOf off)) 1) 1).storeLine
        ⟨.far d p n g, plainOf off, 0, 0, [], data⟩)) ∧
  (∀ (d p n g off : Nat) (data : List Byte) (cells : List CellIdx) (s : State),
    cmAccessWf off data.length → s.agentLive (.far d p n g) → s.cmGate (.far d p n g) .memWrite off data.length ≠ .pass →
    exec (.cmPostedWrite (.far d p n g) off data cells) s = .next
      (((s.cmRefuse (.far d p n g) .memWrite off data.length (s.cmGate (.far d p n g) .memWrite off data.length)).winDiscard
        (windowOf (plainOf off))).farDone (.far d p n g))) ∧
  (∀ (v : ViewId) (line : Nat) (s : State) (h : HeldStore), s.oldestHeld v.val line = some h → h.cond = false → s.running →
    exec (.heldStoreApplied v line) s = .next (s.applyHeld v h)) ∧
  (∀ (v : ViewId) (off len tag : Nat) (cells : List CellIdx) (s : State), cmAccessWf off len → s.agentLive (.here v) → inAlias off = false →
    s.isRemote (windowOf off) = false → s.cmGate (.here v) .memRead off len = .pass →
    exec (.cmRead (.here v) off len tag cells) s = .next
      ((s.count (ctrId 0x07 8 (windowOf off) 0) 1).readLine ⟨.here v, off, tag, len, [], []⟩)) ∧
  (∀ (v : ViewId) (off len tag : Nat) (s : State), s.readBlocked ⟨.here v, off, tag, len, [], []⟩ = false → len ≤ lineLen off len →
    s.readLine ⟨.here v, off, tag, len, [], []⟩ = (s.settleConds (.here v) (lineOf off)).toAgent (.here v) tag
      ((s.settleConds (.here v) (lineOf off)).cmReadN (.here v) off (lineLen off len))) ∧
  (∀ (v : ViewId) (off len tag : Nat) (cells : List CellIdx) (s : State), cmAccessWf off len → s.agentLive (.here v) → inAlias off = false →
    s.isRemote (windowOf off) = false → s.cmGate (.here v) .memRead off len ≠ .pass →
    exec (.cmRead (.here v) off len tag cells) s = .next
      (s.cmDenyRead (.here v) .memRead off len tag (s.cmGate (.here v) .memRead off len))) ∧
  (∀ (v : ViewId) (op : AtomicKind) (off size a b tag : Nat) (cells : List CellIdx) (s : State),
    cmAccessWf off size → atomicSizeOk op size → s.agentLive (.here v) → inAlias off = false → off % size = 0 →
    s.isRemote (windowOf (plainOf off)) = false → s.cmGate (.here v) .atomicOp off size = .pass →
    exec (.cmAtomicOp (.here v) op off size a b tag cells) s = .next (
      let s1 := (s.finish (.here v)).drainFor (.here v) (lineOf off)
      let old := (List.range size).map (fun i => s1.cmByte (off + i))
      let s2 := s1.applyStore (.here v) off (leBytes size (atomicNew op size (leNat old) a b))
      ((s2.addSat winAtomics (windowOf (plainOf off)) 1).count (ctrId 0x07 8 (windowOf (plainOf off)) 3) 1).toAgent (.here v) tag old)) ∧
  (∀ (a : Agent) (op : AtomicKind) (off size x y tag : Nat) (cells : List CellIdx) (s : State),
    cmAccessWf off size → atomicSizeOk op size → s.agentLive a → inAlias off ∨ off % size ≠ 0 →
    s.cmGate a .atomicOp off size = .pass →
    exec (.cmAtomicOp a op off size x y tag cells) s = .next (s.toAgentErr a tag .unsupportedRequest))

/-- A reserved load applies the agent's held stores to the line, sets its one reservation for 100 µs and reads (R207). A conditional store is
decided when it is applied (R208), an expired reservation ends (R209), a visible write leaves its epoch (R204), a barrier closes the epoch
and completes when it is empty (R205), and a status read is held while barriers are pending (R206) or answered in turn (R208). -/
def Obligations.ReservationsAndBarriersComplete : Prop :=
  (∀ (v : ViewId) (off len tag : Nat) (s : State), cmAccessWf off len → s.viewLive v.val → inAlias off →
    s.isRemote (windowOf (plainOf off)) = false → lineOf (plainOf off) = lineOf (plainOf off + len - 1) →
    s.cmGate (.here v) .memRead off len = .pass →
    exec (.reservedLoad v off len tag) s = .next (
      let s2 := (s.drainFor (.here v) (lineOf (plainOf off))).dropResv (.here v)
      let new : Resv := ⟨.here v, lineOf (plainOf off), s.now + 100000, 0⟩
      let s3 : State := { s2 with cms := { s2.cms with resvs := s2.cms.resvs ++ [new] } }
      (s3.count (ctrId 0x07 8 (windowOf (plainOf off)) 0) 1).toAgent (.here v) tag (s3.cmReadN (.here v) (plainOf off) len))) ∧
  (∀ (v : ViewId) (off len tag : Nat) (s : State), cmAccessWf off len → s.viewLive v.val → inAlias off →
    s.isRemote (windowOf (plainOf off)) = false → lineOf (plainOf off) ≠ lineOf (plainOf off + len - 1) →
    s.cmGate (.here v) .memRead off len = .pass →
    exec (.reservedLoad v off len tag) s = .next (s.toAgentErr (.here v) tag .unsupportedRequest)) ∧
  (∀ (v : ViewId) (line : Nat) (s : State) (h : HeldStore), s.oldestHeld v.val line = some h → h.cond → s.running → h.fails = 0 →
    exec (.conditionalStoreApplied v line) s = .next ((s.applyHeld v h).scAnswer v.val)) ∧
  (∀ (a : Agent) (s : State), exec (.reservationExpiry a) s = .next { s with cms := { s.cms with
    resvs := endResvs (fun r => decide (r.agent = a) && decide (r.due ≤ s.now)) 3 s.cms.resvs } }) ∧
  (∀ (v : ViewId) (id : Nat) (s u : State), s.pkt id = none → u = (s.ltVisible v.val id).farVisible id →
    exec (.trackedWriteVisible v id) s = .next { u with cms := { u.cms with
      tracked := u.cms.tracked.filter (fun t =>
        !(decide (t.view = v.val) && decide (t.id = id) && decide (t.flow.dstDev = s.fabricId))) } }) ∧
  (∀ (v : ViewId) (value : BitVec 32) (s : State), s.viewLive v.val → s.cms.waits.any (fun x => decide (x.view = v.val)) = false →
    s.behindPackets v.val s.core.nextPkt = false → (s.cmView v.val).barriers.length < 8 →
    exec (.cmBarrier v value) s = .next (
      let c := s.cmView v.val
      (s.setCmView { c with epoch := c.epoch + 1, barriers := c.barriers ++ [(c.epoch, value.toNat % 65536)] }).setPending v.val
        (c.barriers.length + 1))) ∧
  (∀ (v : ViewId) (s : State), s.barrierReady v.val → exec (.barrierComplete v) s = .next (s.barrierDone v.val)) ∧
  (∀ (v : ViewId) (tag : Nat) (s : State), s.viewLive v.val → (s.cmView v.val).barriers = [] →
    s.cms.waits.any (fun w => decide (w.view = v.val)) = false →
    exec (.cmBarrierStatusRead v tag) s
      = .next (s.hostReply v.val tag .memRead .success (leBytes 8 (s.reg v.val 0x010008).toNat))) ∧
  (∀ (v : ViewId) (tag : Nat) (s : State), s.viewLive v.val → (s.cmView v.val).barriers ≠ [] →
    exec (.cmBarrierStatusRead v tag) s = .next { s with cms := { s.cms with
      statusReads := s.cms.statusReads ++ [(v.val, tag, s.now + 20000)] } }) ∧
  (∀ (v : ViewId) (s u : State) (r : Nat × Nat × Nat), u = State.barriersDone 8 s v.val →
    u.cms.statusReads.find? (fun r => decide (r.1 = v.val) && decide (r.2.2 ≤ u.now)) = some r →
    exec (.barrierStatusHoldExpiry v) s = .next (({ u with cms := { u.cms with statusReads := u.cms.statusReads.erase r } } :
      State).hostReply v.val r.2.1 .memRead .success (leBytes 8 (u.reg v.val 0x010008).toNat))) ∧
  (∀ (v : ViewId) (tag : Nat) (s : State), s.viewLive v.val →
    exec (.cmScStatusRead v tag) s = .next
      (({ s with cms := { s.cms with scReads := s.cms.scReads ++ [(v.val, tag)] } } : State).scAnswer v.val))

/-- A doorbell of kind 0 or 1 that passes its checks replaces the producer index of the send or receive queue (R217), and one of kind 2 or 3
records the completion queue's consumer index, kind 2 arming its interrupt, which an entry already waiting raises at once (R226). One that
fails its checks is discarded and counted. -/
def Obligations.LighterDoorbellsAct : Prop :=
  (∀ (f : LighterFn) (whole : Bool) (value : Word) (s : State), s.ltFnLive f → dbMine 0 value → dbFormOk whole value →
    s.dbQpOk f value (s.fld qpSqConsumer (dbQueue value)) (s.fld qpLog2SqEntries (dbQueue value)) →
    exec (.doorbellSend f whole value) s = .next (s.setRun { s.run (dbQueue value) with sqProducer := dbIndex value })) ∧
  (∀ (f : LighterFn) (whole : Bool) (value : Word) (s : State), s.ltFnLive f → dbMine 0 value →
    (dbFormOk whole value && s.dbQpOk f value (s.fld qpSqConsumer (dbQueue value)) (s.fld qpLog2SqEntries (dbQueue value))) = false →
    exec (.doorbellSend f whole value) s = .next (s.dbError f)) ∧
  (∀ (f : LighterFn) (whole : Bool) (value : Word) (s : State), s.ltFnLive f → dbMine 1 value → dbFormOk whole value →
    s.fld qpLog2RqEntries (dbQueue value) ≠ 0 →
    s.dbQpOk f value (s.fld qpRqConsumer (dbQueue value)) (s.fld qpLog2RqEntries (dbQueue value)) →
    exec (.doorbellRecv f whole value) s = .next (s.setRun { s.run (dbQueue value) with rqProducer := dbIndex value })) ∧
  (∀ (f : LighterFn) (whole : Bool) (value : Word) (s : State), s.ltFnLive f → dbMine 2 value → dbFormOk whole value → s.dbCqOk f value →
    ((s.put cqConsumer (dbQueue value) (dbIndex value)).put cqArmed (dbQueue value) 1).fld cqProducer (dbQueue value) = dbIndex value →
    exec (.doorbellCqArm f whole value) s = .next ((s.put cqConsumer (dbQueue value) (dbIndex value)).put cqArmed (dbQueue value) 1)) ∧
  (∀ (f : LighterFn) (whole : Bool) (value : Word) (s u : State), s.ltFnLive f → dbMine 2 value → dbFormOk whole value → s.dbCqOk f value →
    u = (s.put cqConsumer (dbQueue value) (dbIndex value)).put cqArmed (dbQueue value) 1 → u.fld cqProducer (dbQueue value) ≠ dbIndex value →
    exec (.doorbellCqArm f whole value) s = .next (u.cqInterrupt (s.ltFnView f) (dbQueue value))) ∧
  (∀ (f : LighterFn) (whole : Bool) (value : Word) (s : State), s.ltFnLive f → dbMine 3 value → dbFormOk whole value → s.dbCqOk f value →
    exec (.doorbellCqConsumer f whole value) s = .next (s.put cqConsumer (dbQueue value) (dbIndex value)))

/-- A work request whose context is at hand starts with the status of its checks (R219). The next sequence number within the window goes out
(R235). An ACK marks what it covers done and advances BasePsn (R240), a NAK with NO_RECV counts as a retry and another ends its work request
(R243), a timer re-sends what is missing and doubles the timeout, or fails with RETRY_EXCEEDED (R242), and a work request that is done
completes (R222). -/
def Obligations.LighterRequesterCompletes : Prop :=
  (∀ (q : QpId) (wr : Option (List Word)) (s : State) (ks : List Nat), (∀ w ∈ wr, w.length = 8) → s.canStart q.val →
    ks = qpCtx q.val :: (if (wr.getD []).length = 8 && wOpcode (wr.getD []) ≠ 6 then regCtx (wLocalKey (wr.getD [])) else []) →
    s.lacks ks = none →
    exec (.workRequestStart q wr) s = .next (
      let r := s.run q.val
      let t := s.fld qpTenantId q.val
      let idx := (s.fld qpSqConsumer q.val + r.wrs.length) % 65536
      let st := match wr with
        | none => 0x02
        | some w => if !sendWrOk w then 0x03 else if !s.localOk t w then 0x01 else 0
      let new : WorkReq := ⟨idx, wr.getD [], s.nextFirst q.val, if st = 0 then wrPackets (wr.getD []) else 0, st, 0, 0⟩
      let s1 := (s.touchAll ks).hostReads (s.fld qpHostView q.val) t [(ringAt (s.fld qpSqBase q.val) (s.fld qpLog2SqEntries q.val) idx, 64)]
      (s1.setRun { r with wrs := r.wrs ++ [new] }).ltCount t 0 1)) ∧
  (∀ (q : QpId) (s : State) (w : WorkReq) (d : List Byte) (op i n key : Nat) (ks : List Nat) (places : List (Nat × Nat)),
    wrOf (s.run q.val) (s.fld qpNextPsn q.val) = some w → op = wOpcode w.words → i = distMod 24 (s.fld qpNextPsn q.val) w.first →
    n = (if op = 0 || op = 1 || op = 3 then pieceLen (wLength w.words) i else 0) → key = wLocalKey w.words → d.length = n →
    s.running → s.qpIs q.val qpReady → s.ltHeld q.val = false →
    distMod 24 (s.fld qpNextPsn q.val) (s.fld qpBasePsn q.val) < s.fld qpWindow q.val →
    op ≠ 6 ∨ (s.run q.val).wrs.head? = some w → (op ≠ 4 ∧ op ≠ 5) ∨ atomicsOut (s.run q.val) < 8 →
    ks = qpCtx q.val :: (if n = 0 then [] else regCtx key) → s.lacks ks = none → n = 0 ∨ s.keyOk (s.fld qpTenantId q.val) key = true →
    s.xlate key (wLocalOffset w.words + 4096 * i) n = .hit places →
    exec (.lighterPacketSend q (some d)) s = .next (
      ((s.touchAll ks).hostReads (s.regView key) (s.fld qpTenantId q.val) places).ltSend (s.fld qpTenantId q.val) (s.fld qpPeerDevice q.val)
        (s.wrPacket q (s.run q.val) w i (if op = 4 || op = 5 then atomicPayload w.words else d)))) ∧
  (∀ (pk : LighterPkt) (s u : State) (ks : List Nat), pk.typ = 9 → s.running → ltIntact pk → s.ltPeerOk pk →
    ks = s.ltNeeds pk ⟨none, true, []⟩ → s.lacks ks = none → u = s.touchAll ks → u.ackOk pk →
    exec (.ackReceived pk) s = .next (
      let q := pk.dstQp.val
      let r := u.run q
      let sent := r.sent.map (fun x =>
        if decide (x.pk.typ ≤ 2) && ackCovers (u.fld qpBasePsn q) pk.psn pk.sack x.psn then { x with isDone := true } else x)
      let sack := ((List.range 256).filter (fun i => pk.sack.getLsbD i)).map (fun i => (pk.psn + i) % 16777216)
      (u.setRun { r with sent := sent, sack := sack }).advanceBase q)) ∧
  (∀ (pk : LighterPkt) (s u : State) (ks : List Nat) (w : WorkReq), pk.typ = 10 → s.running → ltIntact pk → s.ltPeerOk pk →
    ks = s.ltNeeds pk ⟨none, true, []⟩ → s.lacks ks = none → u = s.touchAll ks → u.ltPeerOk pk → u.outstanding pk.dstQp.val pk.psn →
    1 ≤ pk.offset % 256 → pk.offset % 256 ≤ 8 → pk.offset % 256 ≠ 4 → wrOf (u.run pk.dstQp.val) pk.psn = some w →
    exec (.nakReceived pk) s = .next (u.failWr pk.dstQp.val w.index (nakStatus (pk.offset % 256)))) ∧
  (∀ (q : QpId) (s : State) (due : Nat) (w : WorkReq), (s.run q.val).timer = some due → due ≤ s.now → s.running → s.qpIs q.val qpReady →
    s.acksAdvance q.val (acksFor q.val s.pending) = false →
    s.fld qpRetryLimit q.val ≤ s.fld qpRetryCount q.val → s.oldestOpen q.val = some w →
    exec (.retransmissionTimerExpiry q) s = .next (s.failWr q.val w.index 0x0B)) ∧
  (∀ (q : QpId) (s : State) (due : Nat), (s.run q.val).timer = some due → due ≤ s.now → s.running → s.qpIs q.val qpReady →
    s.acksAdvance q.val (acksFor q.val s.pending) = false →
    s.fld qpRetryCount q.val < s.fld qpRetryLimit q.val →
    exec (.retransmissionTimerExpiry q) s = .next (
      let r := s.run q.val
      let base := s.fld qpBasePsn q.val
      let again := r.sent.filter (fun x => (!x.isDone && !r.sack.contains x.psn)
        || (match r.noRecv with | some p => decide (distMod 24 p base ≤ distMod 24 x.psn base) | none => false))
      let s1 := (s.put qpRetryCount q.val (s.fld qpRetryCount q.val + 1)).put qpRtoNs q.val (min 2000000 (2 * s.fld qpRtoNs q.val))
      (s1.setRun { r with noRecv := none, timer := some (s.now + s1.fld qpRtoNs q.val), sent := r.sent.map (fun x =>
        if again.any (fun y => decide (y.psn = x.psn)) then { x with again := true } else x) }).resends q.val again)) ∧
  (∀ (q : QpId) (entry : Option (List Word)) (s : State) (w : WorkReq) (ws : List WorkReq) (ks : List Nat),
    (∀ e ∈ entry, e.length = 8) → s.running → s.qpIs q.val qpReady → (s.run q.val).wrs = w :: ws → w.status ≠ 0 ∨ s.wrDone q.val w →
    ks = (if wSignal w.words || w.status ≠ 0 then [qpCtx q.val, okey cCompletionQueue (s.fld qpSendCq q.val)] else [qpCtx q.val]) →
    s.lacks ks = none →
    exec (.workRequestCommit q false entry) s = .next ((s.touchAll ks).commitSend q.val w (wSignal w.words))) ∧
  (∀ (q : QpId) (entry : Option (List Word)) (s : State) (m : RecvMsg) (ks : List Nat), (∀ e ∈ entry, e.length = 8) → s.running →
    s.qpIs q.val qpReady → (s.run q.val).msgs.head? = some m → m.seq % 65536 = s.fld qpRqConsumer q.val →
    msgDone (s.fld qpExpectedPsn q.val) m → ks = [qpCtx q.val, okey cCompletionQueue (s.fld qpRecvCq q.val)] → s.lacks ks = none →
    exec (.workRequestCommit q true entry) s = .next ((s.touchAll ks).commitRecv q.val m))

/-- A request packet whose context is on the die is checked and placed or answered, one whose context misses waits for it (R237, R245). A
response is placed (R240). A translation that returns lets the waiting packets go on, an Invalidate Request removes what it names (R232), an
ACK goes out when it is due (R239), a FENCE_RESP when the fence's writes have ended (R244), and a revocation ends once nothing waits on the
region (R230). -/
def Obligations.LighterResponderCompletes : Prop :=
  (∀ (pk : LighterPkt) (host : HostReply) (s : State) (ks : List Nat), ltReqWf pk host → ltIsReq pk.typ → s.running → ltIntact pk →
    s.ltPeerOk pk → ks = s.ltNeeds pk host → s.lacks ks = none →
    exec (.lighterRequestReceived pk host) s = .next ((s.touchAll ks).ltRequest pk host false)) ∧
  (∀ (pk : LighterPkt) (host : HostReply) (s : State) (k : Nat), ltReqWf pk host → ltIsReq pk.typ → s.running → ltIntact pk →
    s.ltPeerOk pk → s.lacks (s.ltNeeds pk host) = some k →
    exec (.lighterRequestReceived pk host) s = .next ((s.ctxMiss k).ltPark ⟨pk, host, false, .ctx k⟩)) ∧
  (∀ (c : LtCtx) (s : State), s.lighter.missing.contains (ctxKey c) → s.lighterTurn →
    exec (.contextMissFill c) s = .next (((s.ctxFilled (ctxKey c)).served false).sdramAccess (ctxPlace c).1 (ctxPlace c).2 false)) ∧
  (∀ (pk : LighterPkt) (s : State) (ks : List Nat), ltRespWf pk → s.running → pk.typ = 4 ∨ pk.typ = 6 ∨ pk.typ = 8 → ltIntact pk →
    s.ltPeerOk pk → ks = s.ltNeeds pk ⟨none, true, []⟩ → s.lacks ks = none →
    exec (.lighterResponseReceived pk) s = .next ((s.touchAll ks).ltResponse pk)) ∧
  (∀ (v : ViewId) (pasid : Option Nat) (page size dst : Nat) (s : State), 12 ≤ size → size ≤ 30 → s.viewLive v.val →
    exec (.translationComplete v pasid page size (some dst)) s = .next (
      let x : Xlate := ⟨v.val, pasid, page / 2 ^ (size - 12) * 2 ^ (size - 12), size, dst⟩
      let mine := fun (w : LtWait) => match w.need with | .page p => xlateCovers p x | .ctx _ => false
      let s1 : State := { s with lighter := { s.lighter with
        xlates := (x :: s.lighter.xlates.filter (fun y => decide (y ≠ x))).take 32768
        waiting := s.lighter.waiting.filter (fun w => !mine w)
        sendWaits := s.lighter.sendWaits.filter (fun w => !xlateCovers w.2 x) } }
      s1.ltResume (s.lighter.waiting.filter mine))) ∧
  (∀ (v : ViewId) (pasid : Option Nat) (page pages : Nat) (s : State), s.viewLive v.val →
    ∃ t, exec (.invalidateRequest v pasid page pages) s = .next t ∧ t.out = .atsInvalidated v.val :: s.out ∧
      (∀ x ∈ t.lighter.xlates, ¬(x.view = v.val ∧ x.pasid = pasid ∧ x.page < page + pages ∧ page < x.page + 2 ^ (x.log2 - 12))) ∧
      t.objs = s.objs ∧ t.cm = s.cm ∧ t.regs = s.regs) ∧
  (∀ (q : QpId) (s : State), s.running → s.qpIs q.val qpReady → (s.run q.val).ackNow →
    exec (.ackSend q) s = .next (
      let r := s.run q.val
      let e := s.fld qpExpectedPsn q.val
      let sack := (r.rsack.filter (fun p => decide (distMod 24 p e < 256))).foldl
        (fun (b : BitVec 256) p => b ||| (1#256 <<< distMod 24 p e)) 0
      (s.setRun { r with unreported := 0, ackDue := none, ackNow := false }).ltToPeer q.val 9 e 0 sack)) ∧
  (∀ (q : QpId) (s : State) (p : Nat) (rest : List Nat), (s.run q.val).fences = p :: rest → s.running → s.qpIs q.val qpReady →
    s.fenceReady q.val →
    exec (.fenceResponseReady q) s = .next (
      (s.setRun { s.run q.val with fences := rest, lost := 0 }).ltToPeer q.val 8 p (min (s.run q.val).lost 4294967295) 0)) ∧
  (∀ (r : Fin 4194304) (s : State) (e : Nat × Nat), s.lighter.revoking.find? (fun e => decide (e.1 = r.val)) = some e → e.2 ≤ s.now →
    exec (.revokeComplete r) s = .next (
      let mine := fun (w : LtWait) => w.keyOk && decide (w.pk.remoteKey / 256 % 16777216 = r.val) && decide (w.pk.typ ≠ 2)
      let s1 : State := { s with lighter := { s.lighter with waiting := s.lighter.waiting.filter (fun w => !mine w) } }
      (s1.nakAll (s.lighter.waiting.filter mine)).regionGone r.val))

/-- A change of PERST_N shows the hosts, and its fall brings every host link down (R306). A named host port enters Detect (R306), a link that
may train reaches L0 and its data link layer is announced (R315), a link that leaves L1 asks its lane grants again (R323), a device port halves
its width below 25% and doubles it above 50% utilisation where the lanes are granted (R323), and a host link down resets its view (R314). -/
def Obligations.HostLinksTrainAndFall : Prop :=
  (∀ s : State, s.power.perstN = false →
    exec (.perstNChange true) s = .next ({ s with power := { s.power with perstN := true } } : State).showHosts) ∧
  (∀ s : State, s.power.perstN = true →
    exec (.perstNChange false) s = .next (({ s with power := { s.power with perstN := false } } : State).showHosts.hostsDown allPorts)) ∧
  (∀ (p : PortId) (s : State), s.role p.val = roleHost → s.lane0 p.val = p.val → s.hostMayDetect p.val → s.fld portLinkState p.val = 0 →
    exec (.hostPortDetect p) s = .next (s.edgeDetect p.val)) ∧
  (∀ (p : PortId) (rate width : Nat) (flit cxl : Bool) (s : State), s.mayReachL0 p.val → s.settles p.val rate width flit cxl →
    s.role p.val = roleDevice →
    exec (.linkUpL0 p rate width flit cxl) s = .next (
      let s1 := (s.showL0 p.val rate width flit cxl).linkReturned p.val
      (s1.fnsBelow p.val).foldl (fun s f => s.tellViews f (.dll true)) s1)) ∧
  (∀ (p : PortId) (rate width : Nat) (flit cxl : Bool) (s : State) (v : Nat), s.mayReachL0 p.val →
    s.settles p.val rate width flit cxl → s.role p.val ≠ roleDevice → s.viewOfPort p.val = some v → s.pcie.inL2.contains v = false →
    exec (.linkUpL0 p rate width flit cxl) s = .next ((s.showL0 p.val rate width flit cxl).linkReturned p.val)) ∧
  (∀ (p : PortId) (rate width : Nat) (flit cxl : Bool) (s : State) (v : Nat) (h : v < 96), s.mayReachL0 p.val →
    s.settles p.val rate width flit cxl → s.role p.val ≠ roleDevice → s.viewOfPort p.val = some v → s.pcie.inL2.contains v = true →
    exec (.linkUpL0 p rate width flit cxl) s
      = .next (((s.showL0 p.val rate width flit cxl).linkReturned p.val).viewReset ⟨v, h⟩ p.val false)) ∧
  (∀ (p : PortId) (s : State), s.running → s.lane0 p.val = p.val → s.role p.val = roleHost ∨ s.role p.val = roleDevice →
    s.fld portLinkState p.val = 6 →
    exec (.l1Exit p) s = .next (
      ((((s.put portLinkState p.val 5).put portL1Sub p.val 0).addSat portRetrainCount p.val 1).dropGrants (s.edgeLanes p.val)).askGrants
        (s.edgeLanes p.val))) ∧
  (∀ (p : PortId) (util wish : Nat) (s : State), s.running → s.lane0 p.val = p.val → s.role p.val = roleHost ∨ s.role p.val = roleDevice →
    s.fld portLinkState p.val = 3 ∨ s.fld portLinkState p.val = 4 → wish = s.l0pWish p.val (s.fld portNegWidth p.val) util →
    wish < s.fld portNegWidth p.val →
    exec (.l0pWidthChange p util) s = .next (((s.put portNegWidth p.val wish).put portLinkState p.val 4).dropGrants
      ((s.lanesOfWidth p.val (s.fld portNegWidth p.val)).drop (streamsOf wish)))) ∧
  (∀ (p : PortId) (util wish : Nat) (s : State), s.running → s.lane0 p.val = p.val → s.role p.val = roleHost ∨ s.role p.val = roleDevice →
    s.fld portLinkState p.val = 3 ∨ s.fld portLinkState p.val = 4 → wish = s.l0pWish p.val (s.fld portNegWidth p.val) util →
    s.fld portNegWidth p.val < wish → s.fld portNegWidth p.val < tget 0 s.pcie.trainedWidth p.val →
    (s.lanesOfWidth p.val wish).all (fun x => (s.laneRun x).granted) = true →
    exec (.l0pWidthChange p util) s = .next ((s.put portNegWidth p.val wish).put portLinkState p.val
      (if wish = tget 0 s.pcie.trainedWidth p.val then 3 else 4))) ∧
  (∀ (p : PortId) (util wish : Nat) (s : State), s.running → s.lane0 p.val = p.val → s.role p.val = roleHost ∨ s.role p.val = roleDevice →
    s.fld portLinkState p.val = 3 ∨ s.fld portLinkState p.val = 4 → wish = s.l0pWish p.val (s.fld portNegWidth p.val) util →
    s.fld portNegWidth p.val < wish → s.fld portNegWidth p.val < tget 0 s.pcie.trainedWidth p.val →
    (s.lanesOfWidth p.val wish).all (fun x => (s.laneRun x).granted) = false →
    exec (.l0pWidthChange p util) s = .next (s.askGrants (s.lanesOfWidth p.val wish))) ∧
  (∀ (p : PortId) (s : State), s.running → s.role p.val = roleHost → s.lane0 p.val = p.val → s.edgeStands p.val →
    exec (.hostLinkDownViewReset p) s = .next (s.hostLinkDown p.val 0))

/-- A function-level reset resets the function and silences it until it ends, at most 2 ms later (R313). A Secondary Bus Reset resets only
the function bound behind the port (R314). PME_Turn_Off drains the view's held stores and is answered, and the link enters L2 (R324). DPC
contains the bound function, closes its entries, and is lifted with a reset when the host clears it (R316). -/
def Obligations.ViewFunctionsReset : Prop :=
  (∀ (v : ViewId) (f : ViewFn) (s : State), s.viewLive v.val → s.fnExists v.val f → f ≠ .upstream →
    exec (.functionLevelReset v f) s = .next (
      let s1 := s.fnReset v f
      { s1 with pcie := { s1.pcie with
        resets := s1.pcie.resets.filter (fun r => !(decide (r.view = v.val) && decide (r.fn = f))) ++ [⟨v.val, f, s.now + 2000000⟩] } })) ∧
  (∀ (v : ViewId) (f : ViewFn) (s : State), s.fnResetting v.val f →
    exec (.flrEnd v f) s = .next { s with pcie := { s.pcie with
      resets := s.pcie.resets.filter (fun r => !(decide (r.view = v.val) && decide (r.fn = f))) } }) ∧
  (∀ (v : ViewId) (k : Fin 256) (s : State) (e : Nat × Nat), s.viewLive v.val → s.vportBinding v.val k.val = some e →
    exec (.secondaryBusReset v k) s = .next (s.bindingReset v.val e.1 e.2)) ∧
  (∀ (v : ViewId) (s : State), s.viewLive v.val →
    exec (.pmeTurnOff v) s = .next (
      let s1 := (s.drainBuffer v).emit (.pmeToAck v.val)
      let s2 := (s1.put portLinkState (s.portOfView v.val) 7).put portDllActive (s.portOfView v.val) 0
      { s2 with pcie := { s2.pcie with inL2 := s2.pcie.inL2.filter (fun w => decide (w ≠ v.val)) ++ [v.val] } })) ∧
  (∀ (v : ViewId) (k : Fin 256) (ur : Bool) (s : State) (e : Nat × Nat), s.viewLive v.val → s.vportBinding v.val k.val = some e →
    s.inDpc v.val k.val = false →
    exec (.dpcTrigger v k ur) s = .next (
      let ld := bLd (s.bindW e.1 e.2)
      let t := dpcTarget e.1 ld
      let r := s.record { grade := 1, checker := checkerId 0x16 (s.dpcPort v.val e.1), cls := cFunction, sel := e.1, syn0 := k.val
                          syn1 := v.val, action := 2, key := 8 }
      let own := !r.1.faults.contained.contains (r.2.1, t)
      let s1 := (r.1.contain r.2.1 t).closeReqs (if ur then .unsupportedRequest else .completerAbort) (s.dpcReqs v.val e.1 ld)
      let s2 := s1.discardAll (s1.cms.tracked.filter
        (fun (x : Tracked) => x.goesTo (if isHome e.1 then s.fabricId else e.1 / 65536) (e.1 % 65536) ld))
      ({ s2 with pcie := { s2.pcie with dpcs := s2.pcie.dpcs ++ [⟨v.val, k.val, if own then r.2.1 else 0, e.1, e.2⟩] } } :
        State).slotEvent v.val k.val (.dll false))) ∧
  (∀ (v : ViewId) (k : Fin 256) (s s1 s2 s3 : State) (d : Dpc), s.viewLive v.val →
    s.pcie.dpcs.find? (fun d => decide (d.view = v.val) && decide (d.k = k.val)) = some d →
    s1 = s.bindingReset v.val d.sel d.word →
    s2 = s1.uncontain (fun c => decide (c.1 = d.recId) && decide (c.2 = dpcTarget d.sel (bLd (s.bindW d.sel d.word)))) →
    s3 = { s2 with
      faults := { s2.faults with recs := closeRec d.recId s2.faults.recs },
      pcie := { s2.pcie with dpcs := s2.pcie.dpcs.filter (fun x => decide (x ≠ d)) } } →
    (s3.dllOf d.sel = true → exec (.dpcRelease v k) s = .next (s3.notify.slotEvent v.val k.val (.dll true))) ∧
      (s3.dllOf d.sel = false → exec (.dpcRelease v k) s = .next s3.notify))

/-- A configuration request is answered by the function of the view that it names, and with Unsupported Request where none answers (R307). A
request that nothing serves gets Unsupported Request, or a silent record in the error registers where it wants no completion, a Type 1
vendor message excepted (R317). TIDE_NOW reads whole, or by halves with the upper half latched by the lower (R311). An MCTP message joins the
management queue, or is dropped and counted where its view holds no granted queue (R318). -/
def Obligations.ViewRequestsAnswered : Prop :=
  (∀ (v : ViewId) (c : CfgReq) (s : State) (off : Nat) (f : ViewFn), s.viewLive v.val → c.target = .routing off → fnAt off = some f →
    s.fnExists v.val f → exec (.configRequest v c) s = .next (s.cfgOwn v (fnKey f) (cfgIdent f) c)) ∧
  (∀ (v : ViewId) (c : CfgReq) (s : State) (dev fn : Nat), s.viewLive v.val → c.target = .secondary dev fn → dev < 32 → fn < 8 →
    exec (.configRequest v c) s = .next (s.cfgVport v (dev * 8 + fn + 1) c (s.hostReply v.val c.tag .config .unsupportedRequest []))) ∧
  (∀ (v : ViewId) (c : CfgReq) (s : State) (k : Nat) (e : Nat × Nat), s.viewLive v.val → c.target = .bound k →
    s.vportBinding v.val k = some e → exec (.configRequest v c) s = .next (s.cfgBound v k e c)) ∧
  (∀ (v : ViewId) (c : CfgReq) (s : State), s.viewLive v.val →
    (∃ off, c.target = .routing off ∧ (∀ f, fnAt off = some f → s.fnExists v.val f = false)) ∨
      (∃ dev fn, c.target = .secondary dev fn ∧ (32 ≤ dev ∨ 8 ≤ fn)) ∨ (∃ k, c.target = .bound k ∧ s.vportBinding v.val k = none) →
    exec (.configRequest v c) s = .next (s.hostReply v.val c.tag .config .unsupportedRequest [])) ∧
  (∀ (v : ViewId) (r : UrReq) (s : State), s.viewLive v.val → urWantsCpl r →
    exec (.unsupportedRequest v r) s
      = .next (s.hostReply v.val r.tag (if r.kind = .ioRequest then .io else .memRead) .unsupportedRequest [])) ∧
  (∀ (v : ViewId) (r : UrReq) (s : State), s.viewLive v.val → urWantsCpl r = false → r.kind ≠ .vdmType1 →
    exec (.unsupportedRequest v r) s = .next (s.emit (.aer v.val 0 .unsupportedRequest))) ∧
  (∀ (v : ViewId) (r : UrReq) (s : State), s.viewLive v.val → r.kind = .vdmType1 → exec (.unsupportedRequest v r) s = .next s) ∧
  (∀ (v : ViewId) (tag : Nat) (s : State), s.viewLive v.val →
    exec (.tideNowRead v false 8 tag) s = .next (s.hostReply v.val tag .memRead .success (leBytes 8 s.tide))) ∧
  (∀ (v : ViewId) (tag : Nat) (s : State), s.viewLive v.val →
    exec (.tideNowRead v false 4 tag) s = .next (({ s with pcie := { s.pcie with
      tideLatch := tput 0 s.pcie.tideLatch v.val (s.tide / 4294967296 % 4294967296) } } : State).hostReply v.val tag .memRead .success
        (leBytes 4 s.tide))) ∧
  (∀ (v : ViewId) (tag : Nat) (s : State), s.viewLive v.val →
    exec (.tideNowRead v true 4 tag) s = .next (s.hostReply v.val tag .memRead .success (leBytes 4 (tget 0 s.pcie.tideLatch v.val)))) ∧
  (∀ (m : MctpIn) (v : ViewId) (s : State), m.viaView = some v → s.viewLive v.val → s.power.phase ≠ .off → s.fmGranted v.val = false →
    exec (.mctpMessage m) s = .next { s with pcie := { s.pcie with mctpDropped := s.pcie.mctpDropped + 1 } }) ∧
  (∀ (m : MctpIn) (s : State), m.viaView = none → s.running → m.control = false → m.msgType = 0x7E → m.vendor = 0x1D4E →
    exec (.mctpMessage m) s = .next { s with tally := { s.tally with mgmtQ := s.tally.mgmtQ ++ [⟨none, m.desc, m.code⟩] } })

/-- A function's reset ends when a successful poll or the device's report says so, and one that takes 1,000 ms contains the function at Grade
1 and fails the tenant's reset (R190). Loss of presence removes every present function below the port (R192). A new insertion makes a slot's
function present: a known one at once, one with other identifiers only after FAULTACK, and one beyond the port's slots is recorded (R192). -/
def Obligations.FunctionsResetComeAndGo : Prop :=
  (∀ (g : GateSlot) (s : State), s.running →
    s.tenancy.flrs.any (fun f => decide (f.slot = g) && decide (f.ld = 0xFF) && decide (f.readAt ≤ s.now)) →
    exec (.flrCompletionPoll g true) s = .next (s.resetDone g 0xFF)) ∧
  (∀ (g : GateSlot) (ld : Fin 16) (s : State), s.running →
    s.tenancy.flrs.any (fun f => decide (f.slot = g) && decide (f.ld = ld.val)) →
    exec (.logicalDeviceResetComplete g ld) s = .next (s.resetDone g ld.val)) ∧
  (∀ (g : GateSlot) (ld : Nat) (s : State) (f : FlrWait), s.running →
    s.tenancy.flrs.find? (fun f => decide (f.slot = g) && decide (f.ld = ld) && decide (f.deadline ≤ s.now)) = some f →
    exec (.flrTimeout g ld) s = .next (
      let s1 := s.resetDone g ld
      let s2 : State := { s1 with tenancy := { s1.tenancy with
          resets := s1.tenancy.resets.map (fun (r : TenReset) => if r.tenant.val = f.tenant then { r with failed := true } else r) } }
      let r := s2.record { grade := 1, checker := checkerId 0x16 (s2.fld fnPort (homeSel g.val)), cls := cFunction, sel := homeSel g.val,
                           syn0 := ld, syn1 := 1000000000, action := 2, key := 8 }
      r.1.containFn r.2.1 g.val ld)) ∧
  (∀ (p : PortId) (s : State), s.running → s.role p.val = roleDevice →
    exec (.devicePortPresenceLoss p) s = .next
      ((((s.fnsBelow p.val).filter (fun f => s.fld fnState (homeSel f) = 1)).foldl (fun s f => s.fnRemoved p.val f) s).retriesAnew p.val
        allSlots)) ∧
  (∀ (p : PortId) (bus devfn slot : Nat) (f : FnIdent) (s u : State), s.enumerates p.val bus →
    (bus - 1) * 256 + devfn % 256 < s.fld portSlotCount p.val → slot = s.fld portSlotBase p.val + ((bus - 1) * 256 + devfn % 256) →
    slot < 16384 → u = s.barsFound slot 0 (f.bars.take 6) → s.fld fnState (homeSel slot) = 0 →
    exec (.functionEnumerated p bus devfn (some f)) s = .next
      (((u.fnTakes p.val slot bus (devfn % 256) f).put fnState (homeSel slot) 1).tellViews slot (.presence true))) ∧
  (∀ (p : PortId) (bus devfn slot : Nat) (f : FnIdent) (s u : State), s.enumerates p.val bus →
    (bus - 1) * 256 + devfn % 256 < s.fld portSlotCount p.val → slot = s.fld portSlotBase p.val + ((bus - 1) * 256 + devfn % 256) →
    slot < 16384 → u = s.barsFound slot 0 (f.bars.take 6) → s.fld fnState (homeSel slot) = 2 →
    s.fld fnVendorId (homeSel slot) = f.vendor % 65536 → s.fld fnDeviceId (homeSel slot) = f.device % 65536 →
    exec (.functionEnumerated p bus devfn (some f)) s = .next
      ((((u.put fnState (homeSel slot) 1).forgetIds slot).fnLift slot).tellViews slot (.presence true))) ∧
  (∀ (p : PortId) (bus devfn slot : Nat) (f : FnIdent) (s u : State), s.enumerates p.val bus →
    (bus - 1) * 256 + devfn % 256 < s.fld portSlotCount p.val → slot = s.fld portSlotBase p.val + ((bus - 1) * 256 + devfn % 256) →
    slot < 16384 → u = s.barsFound slot 0 (f.bars.take 6) → s.fld fnState (homeSel slot) = 2 →
    ¬(s.fld fnVendorId (homeSel slot) = f.vendor % 65536 ∧ s.fld fnDeviceId (homeSel slot) = f.device % 65536) →
    exec (.functionEnumerated p bus devfn (some f)) s = .next { u with tenancy := { u.tenancy with
      newIds := (u.forgetIds slot).tenancy.newIds ++ [(slot, f.vendor % 65536, f.device % 65536)] } }) ∧
  (∀ (p : PortId) (bus devfn : Nat) (f : FnIdent) (s : State), s.enumerates p.val bus →
    s.fld portSlotCount p.val ≤ (bus - 1) * 256 + devfn % 256 →
    exec (.functionEnumerated p bus devfn (some f)) s = .next (s.raise { grade := 0, checker := checkerId 0x16 p.val, cls := cPort
                                                                         sel := p.val, syn0 := bus * 256 + devfn % 256, syn1 := 0
                                                                         action := 0, key := 0 }))

/-- A write of LB_MIRROR_CTRL is taken whole or ignored whole with Error set; mode 0 stops the mirror, another starts it with Skipped at 0; the
base is writable only in mode 0 (R75). A mirrored entry is delivered to its place of the ring, or counted in Skipped with an interrupt (R75). Go
starts an export of the entries that still stand, and its end sets the counts, clears Busy and sends vector 3 (R76). The oldest pending copy is
written to SDRAM (R71). -/
def Obligations.LogbookCopiesMirrorsAndExports : Prop :=
  (∀ (v : ViewId) (value : BitVec 32) (s : State), s.viewLive v.val → bitsOf (word value.toNat) 8 2 = 0 →
    exec (.lbMirrorCtrlWrite v value) s = .next (
      let s1 := (s.setReg v.val 0x114 (word (bitsOf (word value.toNat) 0 5))).setRegBits v.val 0x120 0 1 0
      { s1 with log := { s1.log with mirrorQ := s1.log.mirrorQ.filter (fun e => decide (e.1 ≠ v)) } })) ∧
  (∀ (v : ViewId) (value : BitVec 32) (s : State), s.viewLive v.val → bitsOf (word value.toNat) 8 2 = 1 ∨ bitsOf (word value.toNat) 8 2 = 2 →
    8 ≤ bitsOf (word value.toNat) 0 5 → bitsOf (word value.toNat) 0 5 ≤ 20 → s.mirrorMode v.val = 0 →
    exec (.lbMirrorCtrlWrite v value) s = .next (((s.setReg v.val 0x114
      (word (bitsOf (word value.toNat) 8 2 * 256 + bitsOf (word value.toNat) 0 5))).setRegBits v.val 0x120 0 1 1).setRegBits
        v.val 0x120 16 16 0)) ∧
  (∀ (v : ViewId) (value : BitVec 32) (s : State), s.viewLive v.val → bitsOf (word value.toNat) 8 2 ≠ 0 →
    bitsOf (word value.toNat) 8 2 = 3 ∨ bitsOf (word value.toNat) 0 5 < 8 ∨ 20 < bitsOf (word value.toNat) 0 5 →
    exec (.lbMirrorCtrlWrite v value) s = .next (s.mirrorError v.val)) ∧
  (∀ (v : ViewId) (value : Word) (s : State), s.viewLive v.val → s.mirrorMode v.val = 0 →
    exec (.lbMirrorBaseWrite v value) s = .next (s.setReg v.val 0x118 (word (value.toNat / 4096 * 4096)))) ∧
  (∀ (v : ViewId) (value : Word) (s : State), s.viewLive v.val → s.mirrorMode v.val ≠ 0 →
    exec (.lbMirrorBaseWrite v value) s = .next (s.mirrorError v.val)) ∧
  (∀ (s : State) (n : Nat) (rest : List Nat), s.log.pendingCopy = n :: rest → s.power.phase ≠ .off → s.sdram.selfRefresh = false →
    exec .logbookSdramCopy s = .next { s.sdramAccess .logbook (n % ringEntries) true with log := { s.log with pendingCopy := rest } }) ∧
  (∀ (v : ViewId) (s : State) (e : ViewId × Nat) (n : LogEntry), s.running → s.viewUp v.val →
    s.log.mirrorQ.find? (fun e => decide (e.1 = v)) = some e → s.entry e.2 = some n →
    exec (.mirrorWrite v true) s = .next (({ s with log := { s.log with mirrorQ := s.log.mirrorQ.erase e } } : State).hostWrite 0xFFFF v.val
      (s.mirrorAddr v.val e.2) n.words)) ∧
  (∀ (v : ViewId) (s : State) (e : ViewId × Nat), s.running → s.log.mirrorQ.find? (fun e => decide (e.1 = v)) = some e →
    s.regBits v.val 0x120 16 16 ≠ 65535 →
    exec (.mirrorWrite v false) s = .next (((({ s with log := { s.log with mirrorQ := s.log.mirrorQ.erase e } } : State).setRegBits
      v.val 0x120 16 16 (s.regBits v.val 0x120 16 16 + 1)).tallyCount 16).msix v.val 3)) ∧
  (∀ (v : ViewId) (value : BitVec 32) (s : State), s.viewLive v.val → bitsOf (word value.toNat) 31 1 = 1 → s.exportOf v = none →
    1 ≤ bitsOf (word value.toNat) 0 21 → bitsOf (word value.toNat) 0 21 ≤ 1048576 →
    exec (.lbExportGo v value) s = .next (
      let first := (s.reg v.val 0x130).toNat
      let s0 := ((s.setRegBits v.val 0x138 30 1 0).setRegBits v.val 0x138 29 1 0).setRegBits v.val 0x138 27 1 0
      let s1 := ((s0.setRegBits v.val 0x138 0 21 0).setRegBits v.val 0x138 31 1 1).setRegBits v.val 0x138 30 1 (bit (first < s.logOldest))
      { s1 with log := { s1.log with exportJobs := s1.log.exportJobs ++ [⟨v, max first s.logOldest,
        max (max first s.logOldest) (min (first + bitsOf (word value.toNat) 0 21) (s.log.head + 1)), max first s.logOldest, 0, s.now⟩] } })) ∧
  (∀ (v : ViewId) (n : Nat) (s u : State) (j k : ExportJob), s.running → s.viewLive v.val → s.exportOf v = some j → j.start + n = j.stop →
    State.exportSome j (j.start + n - j.next) s = (u, k) → k.next = j.stop →
    exec (.exportEnd v n false) s = .next (
      let s1 : State := { u with log := { u.log with exportJobs := u.log.exportJobs.filter (fun x => decide (x.view ≠ v)) } }
      (((s1.setRegBits v.val 0x138 31 1 0).setRegBits v.val 0x138 29 1 0).setRegBits v.val 0x138 27 1 0).msix v.val 3))

/-- A server sends TIDE_SYNC once for each multiple of 2^20 (R276). A follower notes TIDE_SYNC, answers TIDE_FOLLOW with TIDE_DREQ, and a server
answers that with TIDE_DRESP (R276). With t1 to t4 of one exchange the follower takes half the difference of the two one-way differences as its
offset (R328). A PPS edge or a PTM dialogue of the chosen source is a measurement, and the loss of the source enters Holdover (R331). With
source 2 a dialogue starts at each 2^20 ns (R327). -/
def Obligations.TideFollowsItsSource : Prop :=
  (∀ s : State, s.running → s.clock.served < s.tide / tideInterval → s.servesTide →
    exec .tideSyncSend s = .next (({ s with clock := { s.clock with
      served := s.tide / tideInterval, nextMsg := (s.clock.nextMsg + 1) % 65536 } } : State).sendTide s.clock.nextMsg s.tidePorts)) ∧
  (∀ (p : PortId) (m : Nat) (s : State), s.tideFrom p.val →
    exec (.tideSyncReceived p m) s = .next { s with clock := { s.clock with sync := some (m, s.rxStamp p.val), follow := none, dreq := none } }) ∧
  (∀ (p : PortId) (m t2 : Nat) (t1 : Word) (l h : Bool) (s : State), s.tideFrom p.val → s.clock.sync = some (m, t2) →
    s.clock.follow = none → l || h →
    exec (.tideFollowReceived p m t1 l h) s = .next (
      ({ s with sourceHoldover := h, clock := { s.clock with follow := some (m, t1.toNat), dreq := none } } :
        State).notify.sendLocal p.val (.tideDreq m))) ∧
  (∀ (p : PortId) (m : Nat) (s : State), s.running → s.servesTide → s.fabricUp p.val → s.lane0 p.val = p.val →
    ¬(s.fld tideSource 0 = 3 ∧ s.fld tideSourcePort 0 = p.val) →
    exec (.tideDreqReceived p m) s = .next (s.sendLocal p.val (.tideDresp m (word (s.rxStamp p.val))))) ∧
  (∀ (p : PortId) (m t1 t2 t3 : Nat) (t4 : Word) (s : State), s.tideFrom p.val → s.clock.sync = some (m, t2) →
    s.clock.follow = some (m, t1) → s.clock.dreq = some (m, t3) →
    exec (.tideDrespReceived p m t4) s = .next (
      ({ s with clock := { s.clock with sync := none, follow := none, dreq := none } } : State).tideMeasure
        ((signed 64 (unsigned 64 ((t2 : Int) - t1)) - signed 64 (unsigned 64 ((t4.toNat : Int) - t3))) / 2))) ∧
  (∀ (ref : Word) (s : State), s.running → s.fld tideSource 0 = 1 →
    exec (.tideMeasurement 1 ref) s = .next (s.tideMeasure (signed 64 (unsigned 64 ((s.tide : Int) - s.ppsSecond))))) ∧
  (∀ (ref : Word) (s : State), s.running → s.fld tideSource 0 = 2 → s.edgeLinkUp (s.fld tideSourcePort 0) →
    exec (.tideMeasurement 2 ref) s = .next (s.tideMeasure (signed 64 (unsigned 64 ((s.tide : Int) -
      (ref.toNat + s.fld tidePtmOffset 0 : Nat)))))) ∧
  (∀ s : State, s.running → s.fld tideSource 0 ≠ 0 → exec .tideSourceLoss s = .next s.tideLost) ∧
  (∀ (s : State) (v : Nat), s.running → s.fld tideSource 0 = 2 → s.edgeLinkUp (s.fld tideSourcePort 0) →
    s.viewOfPort (s.fld tideSourcePort 0) = some v → s.clock.asked < s.tide / tideInterval →
    exec .ptmDialogueStart s = .next
      (({ s with clock := { s.clock with asked := s.tide / tideInterval } } : State).emit (.ptmRequest v)))

/-- PWR_OK brings a device without power to start-up with its straps sampled, or holds it while DEV_RST_N is low, and its fall takes every slot
and the device down (R343, R406). DEV_RST_N low, a requested reset and the end of a halt run the device reset (R342, R355). Start-up ends with
the management path, at Grade 5 where the fuses fail and at Grade 4 with fewer than four trained channels (R343). A lost REFCLK takes its
tile's ports down at Grade 3, a lost SYSCLK halts, and a returned one brings the ports up again (R335). -/
def Obligations.ResetsAndClockInputs : Prop :=
  (∀ (i : Fin 11) (s : State), s.power.phase ≠ .off → s.power.phase ≠ .latched → s.power.lost.contains i.val = false → i.val = 0 →
    exec (.clockInputLoss i) s = .next
      ({ s with power := { s.power with lost := s.power.lost ++ [i.val] } } : State).halt) ∧
  (∀ (i : Fin 11) (s : State), s.running → s.power.lost.contains i.val = false → 1 ≤ i.val → i.val ≤ 8 →
    exec (.clockInputLoss i) s = .next (
      ((s.portsOfTile (i.val - 1)).foldl (fun (s : State) p => s.clockDown p)
        { s with power := { s.power with lost := s.power.lost ++ [i.val] } }).raise
          { grade := 3, checker := checkerId 0x12 i.val, cls := 0, sel := 0, syn0 := 0, syn1 := 1000, action := 9, key := 0 })) ∧
  (∀ (i : Fin 11) (s : State), s.running → s.power.lost.contains i.val = false → 9 ≤ i.val →
    s.fld tideSource 0 = 1 → exec (.clockInputLoss i) s = .next s.tideLost) ∧
  (∀ (t : Fin 8) (s : State), s.power.lost.contains (t.val + 1) →
    exec (.refclkReturn t) s = .next (
      (s.portsOfTile t.val).foldl (fun (s : State) p => if s.portEnabled p then s.portBringUp p else s)
        { s with power := { s.power with lost := s.power.lost.filter (fun x => decide (x ≠ t.val + 1)) } })) ∧
  (∀ s : State, s.running → s.resetReady → exec .deviceReset s = .next (s.deviceReset 2 false)) ∧
  (∀ s : State, s.power.phase = .ready → s.resetReady = false →
    exec .deviceReset s = .next (({ s with power := { s.power with devRstN := false } } : State).deviceReset 1 true)) ∧
  (∀ (s : State) (t : Nat), s.power.haltDue = some t → s.power.phase = .halted → t ≤ s.now →
    exec .haltRestartTimeout s = .next (s.deviceReset 3 false)) ∧
  (∀ s : State, s.power.phase = .held → s.power.devRstN = false →
    exec .devRstNRise s = .next { s with power := { s.power with devRstN := true, phase := .starting } }) ∧
  (∀ (x : Straps) (s : State), s.power.phase = .off →
    exec (.coldReset x) s = .next { s.unpowered.slotsCold with power := { s.unpowered.power with
      phase := if x.devRstHigh then .starting else .held, devRstN := x.devRstHigh, pwrOk := true, straps := x } }) ∧
  (∀ s : State, s.power.phase ≠ .off →
    exec .pwrOkFall s = .next
      (((if s.power.phase = .ready then s.emit (.pin .devReady false) else s).slotsOff allSlots).unpowered)) ∧
  (∀ (r : StartResult) (s : State), s.power.phase = .starting → r.fuseOk = false →
    exec (.managementPathReady r) s = .next (s.raise
      { grade := 5, checker := checkerId 0x14 0, cls := 0, sel := 0, syn0 := 0, syn1 := 0, action := 13, key := 0 })) ∧
  (∀ (r : StartResult) (s s1 s2 : State), s.power.phase = .starting → r.fuseOk → s.logReady → s.power.lost.contains 0 = false →
    s1 = (if s.power.warm then s else s.coldFinds r).measureDies r.dies →
    s2 = { s1 with
      sdram := { s1.sdram with selfRefresh := false },
      power := { s1.power with phase := .managed },
      core := { s1.core with epoch := s1.tide / 1024, sampledEpoch := s1.tide / 1024 } } →
    (4 ≤ s2.sdram.trained.length → exec (.managementPathReady r) s = .next (s2.logEntry (ownEntryIn 3 s.power.cause 0))) ∧
      (s2.sdram.trained.length < 4 → exec (.managementPathReady r) s = .next (s2.raise
        { grade := 4, checker := checkerId 0x0D 0, cls := 0, sel := 0, syn0 := s2.sdram.trained.length, syn1 := 4, action := 12
          key := 0 })))

/-- Presence held for 100 ms sets Present, is recorded and announced, and asks for power with AutoOn (R369). Its loss switches a live slot off
into Dwell (R370). A dwell that has run joins the admission queue or ends Off (R370). The slot at the head of the queue starts when the budget
grants it (R383). Power-good ends the ramp and starts the PERST delay (R371), whose end releases SPn_PERST_N, and an orderly off drops the gate
100 µs after it falls (R370). A falling edge on SPn_ATTN is announced (R377), and a self-test ends with its result (R378). -/
def Obligations.SlotChannelsSwitch : Prop :=
  (∀ (n : SlotId) (s : State), s.slotDie → s.fld slotPresent n.val = 0 →
    exec (.presenceDebounced n) s = .next (
      let s1 := (((s.put slotPresent n.val 1).slotCount n.val 5).slotRecord n.val 1 0).tellSlot n.val (.presence true)
      if s.fld slotAutoOn n.val = 1 then (s1.setSlotRun { s1.slotRun n.val with request := true }).slotTry n.val else s1)) ∧
  (∀ (n : SlotId) (s : State), s.slotDie → s.fld slotPresent n.val = 1 →
    s.slotSt n.val = slWaiting ∨ s.slotSt n.val = slRamping ∨ s.slotSt n.val = slOn ∨ s.slotSt n.val = slRetryWait →
    exec (.presenceLost n) s = .next (
      let s2 := ((((s.put slotPresent n.val 0).slotGateOff n.val).put slotRetryCount n.val 0).put slotLastFault n.val 5).put
        slotState n.val slDwell
      let s3 := s2.setSlotRun { s2.slotRun n.val with request := false, offAt := s.now }
      ((s3.slotCount n.val 5).slotRecord n.val 0 0).tellSlot n.val (.presence false))) ∧
  (∀ (n : SlotId) (s : State), s.slotDie → s.fld slotAttnOut n.val = 0 →
    exec (.attentionRequest n) s = .next ((s.slotCount n.val 6).tellSlot n.val .attention)) ∧
  (∀ (n : SlotId) (s : State), s.slotDie → s.dwellOver n.val → (s.slotRun n.val).gateDue = none → s.slotSt n.val = slDwell →
    exec (.dwellElapsed n) s = .next (
      if (s.slotRun n.val).request && s.fld slotPresent n.val = 1 then s.slotJoin n.val else s.put slotState n.val slOff)) ∧
  (∀ (n : SlotId) (s : State), s.slotDie → s.dwellOver n.val → (s.slotRun n.val).gateDue = none → s.slotSt n.val = slRetryWait →
    s.running → s.fld slotPresent n.val = 1 → 10000 < s.fld slotInputMv n.val →
    exec (.dwellElapsed n) s = .next (s.slotJoin n.val)) ∧
  (∀ (s : State) (n : Nat) (ns : List Nat), s.slots.queue = n :: ns → s.running → s.slotMayStart n →
    exec .slotGrant s = .next (s.slotStart n)) ∧
  (∀ (n : SlotId) (s : State), s.slotDie → s.powerGoodNow n.val → s.slotSt n.val = slRamping →
    exec (.powerGood n) s = .next (((s.put slotPowerGood n.val 1).put slotState n.val slOn).setSlotRun { s.slotRun n.val with
      rampDue := none, perstDue := some (s.now + s.lim slotPerstDelayMs n.val * 1000000), onAt := s.now })) ∧
  (∀ (n : SlotId) (s : State), s.slotDie → s.slotSt n.val = slOn → s.dueNow (s.slotRun n.val).perstDue →
    exec (.perstDelayEnd n) s = .next ((s.slotPin .perst n.val true).setSlotRun { s.slotRun n.val with perstDue := none })) ∧
  (∀ (n : SlotId) (s : State), s.slotDie → s.dueNow (s.slotRun n.val).gateDue →
    exec (.orderlyOffGate n) s = .next
      (((s.put slotInLimit n.val 0).slotPin .gate n.val false).setSlotRun { s.slotRun n.val with gateDue := none, offAt := s.now })) ∧
  (∀ (n : SlotId) (pass : Bool) (s : State), s.slotDie → s.fld slotTest n.val = 1 → s.fld slotTestResult n.val = 3 →
    exec (.slotTestEnd n pass) s = .next ((s.put slotTest n.val 0).put slotTestResult n.val (if pass then 1 else 2)))

/-- The fault timer, the breaker and the ramp limit each trip the slot with their own cause (R370, R372, R373). An undervoltage switches it off
without a trip (R374). A slot that has been On for 10 s starts its retries anew (R373). A feed turns off when the bus exceeds its input by 10
mV, blocks out of range and conducts again in range above the bus (R380). Samples are taken and published for all slots and feeds (R382). -/
def Obligations.SlotTripsFeedsAndMeasurements : Prop :=
  (∀ (n : SlotId) (ma : Nat) (s : State), s.slotDie → s.slotLive n.val → s.fld slotInLimit n.val = 0 → s.lim slotLimitMa n.val ≤ ma →
    exec (.currentLimitEnter n ma) s = .next (s.limitEnter n.val)) ∧
  (∀ (n : SlotId) (ma : Nat) (s : State), s.slotDie → s.fld slotInLimit n.val = 1 → ma * 100 < 95 * s.lim slotLimitMa n.val →
    exec (.currentLimitExit n ma) s = .next (
      let s1 := ((s.put slotInLimit n.val 0).put slotFaultTimerRunning n.val 0).setSlotRun { s.slotRun n.val with faultDue := none }
      if s1.slotSt n.val = slOn && s1.powerGoodNow n.val then s1.put slotPowerGood n.val 1 else s1)) ∧
  (∀ (n : SlotId) (s : State), s.slotDie → s.slotLive n.val → s.dueNow (s.slotRun n.val).faultDue →
    exec (.faultTimerExpiry n) s = .next (s.slotTrip n.val 1 0 (s.lim slotFaultTimerUs n.val * 1000))) ∧
  (∀ (n : SlotId) (ma : Nat) (s : State), s.slotDie → s.slotLive n.val →
    s.lim slotLimitMa n.val * s.lim slotBreakerQuarters n.val ≤ 4 * ma →
    exec (.breakerFire n ma) s = .next
      (s.slotTrip n.val 2 ma (s.lim slotLimitMa n.val * s.lim slotBreakerQuarters n.val / 4))) ∧
  (∀ (n : SlotId) (s : State), s.slotDie → s.slotSt n.val = slRamping → s.dueNow (s.slotRun n.val).rampDue →
    exec (.rampLimitTimeout n) s = .next (s.slotTrip n.val 3 0 (s.lim slotRampLimitMs n.val * 1000000))) ∧
  (∀ (n : SlotId) (s : State), s.slotDie → s.slotLive n.val →
    exec (.inputUndervoltage n) s = .next ((((s.slotGateOff n.val).put slotLastFault n.val 4).put slotState n.val slRetryWait).slotRecord
      (s.uvSlot n.val) (s.fld slotInputMv n.val) 9000)) ∧
  (∀ (n : SlotId) (s : State), s.slotDie → s.slotSt n.val = slOn → (s.slotRun n.val).onAt + 10000000000 ≤ s.now →
    exec (.retryCountReset n) s = .next (s.put slotRetryCount n.val 0)) ∧
  (∀ (f : Fin 2) (inMv busMv : Nat) (s : State), s.slotDie → s.feedOn f.val → inMv + 10 ≤ busMv →
    exec (.feedReverseBlock f inMv busMv) s = .next (
      (((s.put feedState f.val 2).addSat feedReverseBlocks f.val 1).slotCount (64 + f.val) 7).raise
        { grade := 0, checker := checkerId 0x17 (64 + f.val), cls := cFeed, sel := f.val, syn0 := busMv - inMv, syn1 := 10, action := 0
          key := 0 })) ∧
  (∀ (f : Fin 2) (inMv : Nat) (s : State), s.slotDie → s.fld feedState f.val = 1 ∨ s.fld feedState f.val = 2 →
    inMv < s.fld feedUvMv f.val ∨ s.fld feedOvMv f.val < inMv →
    exec (.feedInputOutOfRange f inMv) s = .next (s.put feedState f.val 0)) ∧
  (∀ (f : Fin 2) (inMv busMv : Nat) (s : State), s.slotDie → s.fld feedTargetState f.val = 0 → s.fld feedUvMv f.val ≤ inMv →
    inMv ≤ s.fld feedOvMv f.val → busMv < inMv →
    exec (.feedConductionStart f inMv busMv) s = .next (s.put feedState f.val 1)) ∧
  (∀ (xs : List SlotSample) (fs : List FeedSample) (s : State), s.slotDie →
    exec (.measurementSample xs fs) s = .next ((s.slotSamples xs).feedSamples fs)) ∧
  (∀ s : State, s.slotDie →
    exec .measurementPublish s = .next ([0, 1].foldl (fun s f => s.feedPublish f) (allSlots.foldl (fun s n => s.slotPublish n) s)))

/-- A corrupted flit is counted and opens a replay request; a good one acts on the link and is taken in turn (R260). A new replay epoch replays
from the acknowledged flit (R261). A credit timer that runs out takes the link to Held (R268). An error window within its threshold clears
Degraded, and the third over it takes the link down (R269). A retrain event retrains (R270). A drained or timed-out link out of service goes
Down (R272). A failed port is withdrawn, and its unacknowledged packets are re-sent, those on the die first (R139, R141). The oldest entries
spill where spill is granted, and the port throttles where not (R264). -/
def Obligations.QuaylineLinksRunAndFail : Prop :=
  (∀ (p : PortId) (lanes : List (List PamLevel)) (s u : State) (bytes : List Byte) (d : List Byte × List Nat), s.fabricLink p.val →
    s.ql p.val = qlActive → s.lanesFit p.val lanes → s.collect p.val lanes = (u, bytes) → flitDecode bytes = some d → rxFlit bytes = none →
    exec (.flitReceived p lanes) s = .next
      ((((u.monitor p.val true).correctedAll p.val lanes.length d.2).portCount p.val 48 1).openRequest p.val)) ∧
  (∀ (p : PortId) (lanes : List (List PamLevel)) (s u : State) (bytes : List Byte), s.fabricLink p.val → s.ql p.val = qlActive →
    s.lanesFit p.val lanes → s.collect p.val lanes = (u, bytes) → flitDecode bytes = none → rxFlit bytes = none →
    exec (.flitReceived p lanes) s = .next
      ((((u.monitor p.val true).correctedAll p.val lanes.length []).portCount p.val 48 1).openRequest p.val)) ∧
  (∀ (p : PortId) (lanes : List (List PamLevel)) (s u : State) (bytes : List Byte) (d : List Byte × List Nat) (f : RxFlit),
    s.fabricLink p.val → s.ql p.val = qlActive → s.lanesFit p.val lanes → s.collect p.val lanes = (u, bytes) → flitDecode bytes = some d →
    rxFlit bytes = some f → f.typ ≠ 2 →
    (((u.monitor p.val false).correctedAll p.val lanes.length d.2).linkControl p.val f.ctl).ql p.val = qlActive →
    exec (.flitReceived p lanes) s = .next (
      ((((u.monitor p.val false).correctedAll p.val lanes.length d.2).linkControl p.val f.ctl).takeFlit p.val f).linkCmd p.val f.ctl)) ∧
  (∀ (p : PortId) (epoch : Bool) (ack : Nat) (s : State), s.fabricLink p.val → s.ql p.val = qlActive → (s.qlp p.val).actedEpoch ≠ epoch →
    exec (.replayRequestReceived p epoch ack) s = .next ((s.qlAck p.val (ack % 16777216)).startReplay p.val epoch)) ∧
  (∀ (p : PortId) (vc : Fin 13) (s : State) (t : Nat), s.fabricLink p.val → s.ql p.val = qlActive → (s.qlp p.val).frozenFrom = none →
    s.creditWaits p.val vc.val = [t] →
    s.fld qlCreditTimeoutUs p.val * 1000 ≤ s.creditRun p.val (max t (tget 0 (s.qlp p.val).advertised vc.val)) →
    exec (.creditTimeout p vc) s = .next (s.toHeld p.val 0x16)) ∧
  (∀ (p : PortId) (s : State), s.fabricLink p.val → s.ql p.val = qlActive → (s.qlp p.val).ownDegraded →
    16777216 ≤ (s.qlp p.val).declFlits → (s.qlp p.val).errors ≤ s.fld qlErrThreshold p.val →
    exec (.errorWindowEnd p) s = .next
      ((s.setQlp { s.qlp p.val with ownDegraded := false, overRuns := 0, declFlits := 0 }).showDegraded p.val)) ∧
  (∀ (p : PortId) (s u : State), s.fabricLink p.val → s.ql p.val = qlActive → (s.qlp p.val).ownDegraded →
    16777216 ≤ (s.qlp p.val).declFlits → s.fld qlErrThreshold p.val < (s.qlp p.val).errors →
    u = s.setQlp { s.qlp p.val with overRuns := (s.qlp p.val).overRuns + 1, declFlits := (s.qlp p.val).declFlits - 16777216 } →
    ((s.qlp p.val).overRuns < 2 → exec (.errorWindowEnd p) s = .next u) ∧
      (2 ≤ (s.qlp p.val).overRuns → exec (.errorWindowEnd p) s = .next (u.toHeld p.val 0x01))) ∧
  (∀ (p : PortId) (s : State), s.fabricLink p.val → s.ql p.val = qlActive → exec (.fastRetrainStart p) s = .next (s.fastRetrain p.val)) ∧
  (∀ (p : PortId) (s : State) (due : Nat), s.fabricLink p.val → s.ql p.val = qlActive → (s.qlp p.val).drainDue = some due →
    due ≤ s.now ∨ (s.queuedTo p.val = [] ∧ (s.qlp p.val).replay = []) →
    exec (.linkDrainEnd p) s = .next (
      let s1 := s.toDown p.val
      (s1.setQlp { s1.qlp p.val with replay := [], spilled := 0, spillFrom := none }).reenters p.val (s.qlp p.val).replay)) ∧
  (∀ (p : PortId) (s u : State), s.fabricLink p.val → (s.qlp p.val).failure = 1 →
    u = (s.setQlp { s.qlp p.val with failure := 2 }).withdrawPort p.val →
    (u.ql p.val ≠ qlActive → exec (.fabricPortFailure p) s = .next u) ∧
      (u.ql p.val = qlActive → exec (.fabricPortFailure p) s = .next (u.startRestore p.val))) ∧
  (∀ (p : PortId) (s : State), s.fabricLink p.val → (s.qlp p.val).failure = 2 →
    exec (.replayResend p) s = .next ((s.setQlp { s.qlp p.val with failure := 3 }).reenters p.val
      (onDieEntries (s.qlp p.val).spilled (s.qlp p.val).replay))) ∧
  (∀ (p : PortId) (s : State), s.fabricLink p.val → (s.qlp p.val).failure = 3 → s.ql p.val = qlActive →
    exec (.spilledResend p) s = .next (
      let r := s.qlp p.val
      let s1 := (List.range (r.spilled / 16)).foldl (fun (s : State) i => s.sdramAccess .spill (65536 * p.val + 16 * i) false) s
      (s1.setQlp { r with failure := 0 }).reenters p.val (spilledEntries r.spilled r.replay))) ∧
  (∀ (p : PortId) (s : State), s.running → s.role p.val = roleFabric → s.lane0 p.val = p.val → s.fld portSpillEnable p.val = 1 →
    s.ql p.val = qlActive → s.onDie p.val ≤ (s.qlp p.val).outstanding - (s.qlp p.val).spilled → s.spillGranted p.val → s.spillTurn →
    exec (.replaySpill p) s = .next (
      let r := s.qlp p.val
      ((s.setQlp { r with
        spilled := r.spilled + 16, throttled := false
        spillFrom := match r.spillFrom with | some t => some t | none => some s.now }).served true).sdramAccess .spill
          (65536 * p.val + r.spilled) true)) ∧
  (∀ (p : PortId) (s : State), s.running → s.role p.val = roleFabric → s.lane0 p.val = p.val → s.fld portSpillEnable p.val = 1 →
    s.ql p.val = qlActive → s.onDie p.val ≤ (s.qlp p.val).outstanding - (s.qlp p.val).spilled → s.spillGranted p.val = false →
    (s.qlp p.val).throttled = false →
    exec (.replaySpill p) s = .next ((s.setQlp { s.qlp p.val with throttled := true }).portCount p.val 130 1))

/-- The first valid INIT checks the partner; once both ends have heard it and sixteen flits have gone, the link enters Active (R259). A retrain
that runs out retrains again, or goes to Held where another failed within 1 ms; an Init that runs out restarts the bring-up, and Held ends after
10 ms on an enabled port (R272). A RESIZE_REQ that fits is acknowledged and entered, another is refused; the answer to the port's own request
resizes, leaves its settings with ResizeResult 2, or runs out with ResizeResult 3 (R271). -/
def Obligations.QuaylineLinksInitAndResize : Prop :=
  (∀ (p : PortId) (lanes : List (List PamLevel)) (s u : State) (bytes : List Byte) (f : RxFlit), s.fabricLink p.val →
    (s.qlp p.val).aligned → s.ql p.val = qlInit ∨ s.ql p.val = qlRetrain ∨ s.ql p.val = qlResize → s.lanesFit p.val lanes →
    s.collect p.val lanes = (u, bytes) → rxFlit bytes = some f → f.typ = 2 → (initOf f.payload).valid → (u.qlp p.val).heardAt = none →
    exec (.initReceived p lanes) s = .next (u.firstInit p.val (initOf f.payload))) ∧
  (∀ (p : PortId) (lanes : List (List PamLevel)) (s u : State) (bytes : List Byte) (f : RxFlit) (t : Nat), s.fabricLink p.val →
    (s.qlp p.val).aligned → s.ql p.val = qlInit ∨ s.ql p.val = qlRetrain ∨ s.ql p.val = qlResize → s.lanesFit p.val lanes →
    s.collect p.val lanes = (u, bytes) → rxFlit bytes = some f → f.typ = 2 → (initOf f.payload).valid → (u.qlp p.val).heardAt = some t →
    exec (.initReceived p lanes) s = .next ((u.setQlp { u.qlp p.val with
      partnerHeard := (u.qlp p.val).partnerHeard || (initOf f.payload).heard
      partnerAck := (initOf f.payload).ackSeq }).initDone p.val)) ∧
  (∀ (p : PortId) (s : State) (due : Nat), s.fabricLink p.val → s.ql p.val = qlRetrain → (s.qlp p.val).retrainDue = some due → due ≤ s.now →
    (s.qlp p.val).failedAt = none →
    exec (.retrainTimeout p) s = .next ((s.setQlp { s.qlp p.val with
      failedAt := some s.now, retrainDue := some (s.now + 10000), aligned := false, heardAt := none,
      partnerHeard := false, initsSent := 0 }).retrainLanes p.val)) ∧
  (∀ (p : PortId) (s : State) (due t : Nat), s.fabricLink p.val → s.ql p.val = qlRetrain → (s.qlp p.val).retrainDue = some due →
    due ≤ s.now → (s.qlp p.val).failedAt = some t → s.now < t + 1000000 →
    exec (.retrainTimeout p) s = .next (s.toHeld p.val 0x16)) ∧
  (∀ (p : PortId) (s : State) (due : Nat), s.fabricLink p.val → s.ql p.val = qlInit → (s.qlp p.val).initDue = some due → due ≤ s.now →
    exec (.initTimeout p) s = .next (((s.linkLost p.val qlDown).addSat qlFailedAttempts p.val 1).startTraining p.val)) ∧
  (∀ (p : PortId) (s : State) (due : Nat), s.fabricLink p.val → s.ql p.val = qlHeld → (s.qlp p.val).heldDue = some due → due ≤ s.now →
    s.portEnabled p.val →
    exec (.heldTimerExpiry p) s = .next
      (((s.setQlp { s.qlp p.val with heldDue := none }).setQl p.val qlDown).startTraining p.val)) ∧
  (∀ (p : PortId) (arg : BitVec 8) (s : State) (fits : Bool), s.fabricLink p.val → s.ql p.val = qlActive → (s.qlp p.val).wanted = none →
    fits = ((arg.toNat % 16 ≤ s.cfgWidth p.val && (arg.toNat / 16 = 5 || arg.toNat / 16 = 6) && arg.toNat / 16 ≤ s.fld portMaxRate p.val)
      || (arg.toNat / 16 = s.fld qlActiveRate p.val && arg.toNat % 16 = s.fld qlActiveWidth p.val)) →
    (fits = true → exec (.resizeReqReceived p arg) s = .next (s.setQlp { s.qlp p.val with answer := some (2, arg.toNat) })) ∧
      (fits = false → exec (.resizeReqReceived p arg) s = .next (s.setQlp { s.qlp p.val with answer := some (3, 0) }))) ∧
  (∀ (p : PortId) (arg : BitVec 8) (rate width : Nat) (s : State), s.fabricLink p.val → s.ql p.val = qlActive →
    (s.qlp p.val).wanted = some (rate, width) → arg.toNat = rate * 16 + width →
    exec (.resizeAckReceived p arg) s = .next (s.enterResize p.val rate width true)) ∧
  (∀ (p : PortId) (s : State), s.fabricLink p.val → s.ql p.val = qlActive → (s.qlp p.val).wanted.isSome → (s.qlp p.val).byWindow = false →
    exec (.resizeNakReceived p) s = .next
      (((s.setQlp { s.qlp p.val with wanted := none, byWindow := false }).put qlResizeResult p.val 2).resizeRecord p.val)) ∧
  (∀ (p : PortId) (s : State), s.fabricLink p.val → s.ql p.val = qlActive → (s.qlp p.val).wanted.isSome → (s.qlp p.val).byWindow = true →
    exec (.resizeNakReceived p) s = .next (s.setQlp { s.qlp p.val with wanted := none, byWindow := false })) ∧
  (∀ (p : PortId) (s : State) (due : Nat), s.fabricLink p.val → s.ql p.val = qlResize → (s.qlp p.val).resizeDue = some due → due ≤ s.now →
    (s.qlp p.val).byWindow = false →
    exec (.resizePauseTimeout p) s = .next
      ((((s.setQlp { s.qlp p.val with byWindow := false }).put qlResizeResult p.val 3).resizeRecord p.val).fastRetrain p.val)) ∧
  (∀ (p : PortId) (s : State) (due : Nat), s.fabricLink p.val → s.ql p.val = qlResize → (s.qlp p.val).resizeDue = some due → due ≤ s.now →
    (s.qlp p.val).byWindow = true →
    exec (.resizePauseTimeout p) s = .next ((s.setQlp { s.qlp p.val with byWindow := false }).fastRetrain p.val))

/-- The first lane that waits is granted its wake-up within LanesPer2us (R22). A failed attempt counts (R285). An agreed good set fixes the
width and the link enters Init (R286). A marker serves alignment, and its steering command is acted on (R284). A lane that loses lock asks for
a spare, or retrains where there is none or a steer already runs (R293); so does a steer that runs out. At each marker boundary the moves step
and the markers go out (R290). -/
def Obligations.LanesTrainAndSteer : Prop :=
  (∀ (s u : State) (l : Nat) (ls : List Nat) (p : Nat) (i : Nat), s.lanes.waiting = l :: ls → s.running →
    s.recentGrants < s.fld budLanesPer2us 0 → u = ({ s with lanes := { s.lanes with
      waiting := ls, grants := s.now :: s.lanes.grants.filter (fun t => decide (s.now < t + 2000)) } } : State).setLaneRun
        { ({ s with lanes := { s.lanes with
          waiting := ls, grants := s.now :: s.lanes.grants.filter (fun t => decide (s.now < t + 2000)) } } : State).laneRun l with
            granted := true } → u.linkOfLane l = some (p, some i) → u.role p = roleFabric →
    u.txSpareOf p i = none →
    exec .laneGrant s = .next ((u.lput laneTxState l 2).lput laneTxStream l i)) ∧
  (∀ (s u : State) (l : Nat) (ls : List Nat) (p : Nat) (i k : Nat), s.lanes.waiting = l :: ls → s.running →
    s.recentGrants < s.fld budLanesPer2us 0 → u = ({ s with lanes := { s.lanes with
      waiting := ls, grants := s.now :: s.lanes.grants.filter (fun t => decide (s.now < t + 2000)) } } : State).setLaneRun
        { ({ s with lanes := { s.lanes with
          waiting := ls, grants := s.now :: s.lanes.grants.filter (fun t => decide (s.now < t + 2000)) } } : State).laneRun l with
            granted := true } → u.linkOfLane l = some (p, some i) → u.role p = roleFabric →
    u.txSpareOf p i = some k →
    exec .laneGrant s = .next (u.lput laneTxState l 3)) ∧
  (∀ (s u : State) (l : Nat) (ls : List Nat) (p : Nat) (i : Nat), s.lanes.waiting = l :: ls → s.running →
    s.recentGrants < s.fld budLanesPer2us 0 → u = ({ s with lanes := { s.lanes with
      waiting := ls, grants := s.now :: s.lanes.grants.filter (fun t => decide (s.now < t + 2000)) } } : State).setLaneRun
        { ({ s with lanes := { s.lanes with
          waiting := ls, grants := s.now :: s.lanes.grants.filter (fun t => decide (s.now < t + 2000)) } } : State).laneRun l with
            granted := true } → u.linkOfLane l = some (p, some i) → u.role p ≠ roleFabric →
    exec .laneGrant s = .next (u.lput laneTxState l 2)) ∧
  (∀ (s u : State) (l : Nat) (ls : List Nat) (p : Nat), s.lanes.waiting = l :: ls → s.running →
    s.recentGrants < s.fld budLanesPer2us 0 → u = ({ s with lanes := { s.lanes with
      waiting := ls, grants := s.now :: s.lanes.grants.filter (fun t => decide (s.now < t + 2000)) } } : State).setLaneRun
        { ({ s with lanes := { s.lanes with
          waiting := ls, grants := s.now :: s.lanes.grants.filter (fun t => decide (s.now < t + 2000)) } } : State).laneRun l with
            granted := true } → u.linkOfLane l = some (p, none) →
    (u.steer p).moves.find? (fun m => decide (m.spare = u.lfld laneLinkSpare l) && decide (m.stage = 2)) = none →
    exec .laneGrant s = .next (u.lput laneTxState l 1)) ∧
  (∀ (p : PortId) (s : State), s.fabricLink p.val → (s.steer p.val).training → s.ql p.val = qlDown →
    exec (.bringUpAttemptFail p) s = .next (s.attemptFails p.val)) ∧
  (∀ (p : PortId) (good : BitVec 16) (s : State) (width first : Nat), s.fabricLink p.val → s.ql p.val = qlDown →
    (s.steer p.val).training →
    (∀ i, i < 16 → good.getLsbD i = (decide (i < streamsOf (s.aimWidth p.val)) && s.streamGood p.val i)) →
    goodBlock (s.streamGood p.val) (streamsOf (s.aimWidth p.val)) (s.aimWidth p.val) = some (width, first) →
    s.fld qlMinWidth p.val ≤ width →
    exec (.lanesAligned p good) s = .next (
      let rate := s.aimRate p.val
      let s1 := (s.takeStreams p.val ((List.range (streamsOf width)).map (first + ·))).setRun2 p.val width rate
      let s2 := (s1.setRates rate (s1.linkLanes p.val)).setQlp { s1.qlp p.val with aligned := true, block := first }
      (((s2.put qlFailedAttempts p.val 0).put qlNoPartner p.val 0).setSteer { s2.steer p.val with training := false }).beginInit p.val)) ∧
  (∀ (l : LaneId) (symbols : List PamLevel) (s u : State) (p : Nat) (i : Option Nat) (m : MarkerIn), markerWf symbols →
    (pamBytes symbols).take 6 = markPattern → s.linkOfLane l.val = some (p, i) → s.fabricLink p → s.portEnabled p →
    m = markOf (pamBytes symbols) → u = s.markerFound p l.val m →
    (m.crcOk = false ∨ u.lfld laneMarkerLock l.val = 0 → exec (.markerReceived l symbols) s = .next u) ∧
    (∀ w, m.crcOk = true → u.lfld laneMarkerLock l.val ≠ 0 →
      w = (if u.ql p = qlActive || u.ql p = qlResize then u.laneShows p l.val (m.markLane % 32) else u) →
      (m.steerCmd = 1 ∨ m.steerCmd = 2 → exec (.markerReceived l symbols) s = .next (w.steerAsked p m)) ∧
      (m.steerCmd = 3 → exec (.markerReceived l symbols) s = .next (w.steerAnswered p m.steerTag true)) ∧
      (m.steerCmd = 4 → exec (.markerReceived l symbols) s = .next (w.steerAnswered p m.steerTag false)) ∧
      (m.steerCmd = 0 → exec (.markerReceived l symbols) s = .next w))) ∧
  (∀ (l : LaneId) (s u w : State) (p : Nat) (i : Option Nat), s.running → s.lfld laneLocked l.val ≠ 0 → s.linkOfLane l.val = some (p, i) →
    u = ((s.lput laneLocked l.val 0).lput laneMarkerLock l.val 0).laneCount l.val 1 1 →
    w = u.setLaneRun { u.laneRun l.val with found := 0, shows := 0x1F, partnerOk := false } →
    (s.lfld laneRxStream l.val = 0x1F ∨ s.role p ≠ roleFabric ∨ s.ql p ≠ qlActive → exec (.laneLossOfLock l) s = .next w) ∧
    (s.lfld laneRxStream l.val ≠ 0x1F → s.role p = roleFabric → s.ql p = qlActive →
      ((w.qlp p).steerDue.isSome = true → exec (.laneLossOfLock l) s = .next ((w.thawCredits p).fastRetrain p)) ∧
      ((w.qlp p).steerDue = none → w.spareFor p = none →
        exec (.laneLossOfLock l) s = .next ((w.abandonTile (tileOf l.val)).fastRetrain p)) ∧
      (∀ k, (w.qlp p).steerDue = none → w.spareFor p = some k →
        exec (.laneLossOfLock l) s = .next (
          let s3 := (w.abandonTile (tileOf l.val)).sendSteer p 1 (s.lfld laneRxStream l.val) k true
          (s3.1.setQlp { s3.1.qlp p with steerDue := some (s.now + 60000) }).freezeCredits p)))) ∧
  (∀ (p : PortId) (s : State) (due : Nat), s.fabricLink p.val → s.ql p.val = qlActive → (s.qlp p.val).steerDue = some due → due ≤ s.now →
    exec (.steerLimitExpiry p) s = .next (((s.setSteer { s.steer p.val with req := none }).thawCredits p.val).fastRetrain p.val)) ∧
  (∀ (p : PortId) (s u v w : State) (count : Nat), s.fabricLink p.val → s.portEnabled p.val → 65536 ≤ (s.qlp p.val).laneBytes →
    count = ((s.steer p.val).markCount + 1) % 128 →
    u = (s.moveSteps p.val (s.steer p.val).moves).1.setSteer { s.steer p.val with
      moves := (s.moveSteps p.val (s.steer p.val).moves).2, markCount := count, answer := none } →
    v = ((s.moveSteps p.val (s.steer p.val).moves).2.map (·.lane)).foldl (fun (t : State) i => t.leaveDone p.val i) u →
    w = v.setQlp { v.qlp p.val with laneBytes := 0 } →
    (∀ a, (s.steer p.val).answer = some a →
      exec (.txMarkerBoundary p) s = .next (w.sendMarkers p.val count (if a.2 then 3 else 4) a.1 0 0 false (w.linkLanes p.val))) ∧
    (∀ q, (s.steer p.val).answer = none → (s.steer p.val).req = some q →
      exec (.txMarkerBoundary p) s = .next (w.sendMarkers p.val count q.cmd q.tag q.spare q.lane q.replacement (w.linkLanes p.val))) ∧
    ((s.steer p.val).answer = none → (s.steer p.val).req = none →
      exec (.txMarkerBoundary p) s = .next (w.sendMarkers p.val count 0 0 0 0 false (w.linkLanes p.val))))

/-- A calibration pass requests the move of the next stream to its spare; an unanswered request is postponed; its end returns the stream where
the margins are wide enough, and leaves it on the spare where they are not (R294). A window resizes an active fabric link to its own settings,
retrains an edge link in L0, and is skipped elsewhere (R295). A lane in the PRBS test that checks a pattern locks (R299), and a measurement
writes its four margins and sets MarginDone (R300). -/
def Obligations.LanesCalibrateAndMeasure : Prop :=
  (∀ (p : PortId) (k : Fin 4) (s : State), s.fabricLink p.val → s.ql p.val = qlActive → s.fld qlLiveCal p.val = 1 →
    s.tileReplaced (p.val / 18) = false → s.tilePaused (p.val / 18) = false → s.spareIdle p.val k.val → (s.steer p.val).req = none →
    (s.steer p.val).lastPass = [] →
    s.lfld laneRxState (ownLane p.val ((s.steer p.val).nextStream % streamsOf (s.linkWidth p.val))) = 2 →
    exec (.calibrationPassDue p k) s = .next (
      let r := s.steer p.val
      let n := streamsOf (s.linkWidth p.val)
      let i := r.nextStream % n
      let q := s.sendSteer p.val 1 i k.val false
      q.1.setSteer { q.1.steer p.val with
        nextStream := (i + 1) % n, passes := r.passes ++ [⟨k.val, i, .requested, q.2, s.now + 4 * s.interval p.val⟩] })) ∧
  (∀ (p : PortId) (k : Fin 4) (s : State) (c : CalPass), s.running →
    (s.steer p.val).passes.find? (fun c => decide (c.spare = k.val) && c.stage = .requested) = some c → c.due ≤ s.now →
    exec (.calibrationRequestTimeout p k) s = .next (
      let r := s.steer p.val
      (s.setSteer { r with
        passes := r.passes.filter (fun d => decide (d ≠ c))
        req := match r.req with | some q => if q.tag = c.tag then none else some q | none => none }).laneCount
          (ownLane p.val c.lane) 3 1)) ∧
  (∀ (p : PortId) (k : Fin 4) (h v : Nat) (s : State) (c : CalPass), s.running →
    (s.steer p.val).passes.find? (fun c => decide (c.spare = k.val) && c.stage = .calibrating) = some c → 150 ≤ h → 8 ≤ v →
    exec (.calibrationEnd p k h v) s = .next (
      let q := s.sendSteer p.val 2 c.lane k.val false
      q.1.setSteer { q.1.steer p.val with
        passes := (s.steer p.val).passes.map (fun d => if d = c then { d with stage := .returning, tag := q.2 } else d) })) ∧
  (∀ (p : PortId) (k : Fin 4) (h v : Nat) (s : State) (c : CalPass), s.running →
    (s.steer p.val).passes.find? (fun c => decide (c.spare = k.val) && c.stage = .calibrating) = some c → h < 150 ∨ v < 8 →
    exec (.calibrationEnd p k h v) s = .next (
      let r := s.steer p.val
      let l := ownLane p.val c.lane
      let s2 := ((s.lput laneRxState l 5).lput laneCalFailures l (min 65535 (s.lfld laneCalFailures l + 1))).setSteer { r with
        passes := r.passes.filter (fun d => decide (d ≠ c)), lastPass := tput 0 r.lastPass k.val s.now }
      (s2.replacedRecord p.val l).abandonTile (tileOf l))) ∧
  (∀ (p : PortId) (s : State), s.running → s.lane0 p.val = p.val → s.role p.val = roleFabric → s.fld qlCalWindows p.val ≠ 0 →
    s.windowSeen p.val < s.windowIndex p.val → s.needsWindow p.val → s.ql p.val = qlActive → (s.qlp p.val).wanted = none →
    exec (.calibrationWindow p) s = .next (
      let s1 := s.windowTaken p.val
      s1.setQlp { s1.qlp p.val with wanted := some (s.fld qlActiveRate p.val, s.fld qlActiveWidth p.val), byWindow := true })) ∧
  (∀ (p : PortId) (s : State), s.running → s.lane0 p.val = p.val → s.role p.val = roleHost ∨ s.role p.val = roleDevice →
    s.fld qlCalWindows p.val ≠ 0 → s.windowSeen p.val < s.windowIndex p.val →
    s.fld portLinkState p.val = 3 →
    exec (.calibrationWindow p) s = .next
      (((((s.windowTaken p.val).addSat portRetrainCount p.val 1).portCount p.val 128 1).addSat qlWindowsRun p.val 1).calPassed
        ((s.streams p.val).map (ownLane p.val)))) ∧
  (∀ (p : PortId) (s : State), s.running → s.lane0 p.val = p.val → s.role p.val = roleHost ∨ s.role p.val = roleDevice →
    s.fld qlCalWindows p.val ≠ 0 → s.windowSeen p.val < s.windowIndex p.val → s.fld portLinkState p.val ≠ 3 →
    exec (.calibrationWindow p) s = .next ((s.windowTaken p.val).windowSkipped p.val)) ∧
  (∀ (l : LaneId) (symbols : List PamLevel) (s : State), s.running → symbols ≠ [] → s.lfld laneRxState l.val = 4 →
    s.lfld laneCheckPattern l.val ≠ 0 → s.lfld laneTxState l.val ≠ 4 ∨ s.lfld laneLoop l.val ≠ 3 →
    exec (.prbsCheckLock ⟨l, symbols⟩) s = .next (s.checkBitsIn l.val (s.lfld laneCheckPattern l.val) (symbols.flatMap pamBits))) ∧
  (∀ (l : LaneId) (a b : BitVec 16) (c d : BitVec 8) (s : State), s.running → (s.laneRun l.val).measuring →
    exec (.marginDone l a b c d) s = .next (
      let s1 := (((s.lput laneMarginLeft l.val a.toNat).lput laneMarginRight l.val b.toNat).lput laneMarginUp l.val c.toNat).lput
        laneMarginDown l.val d.toNat
      (s1.lput laneMarginDone l.val 1).setLaneRun { s1.laneRun l.val with measuring := false }))

/-- A doorbell below the ring's size moves the tail, another sets FetchError (R34). TQ_BASE and the ring size of TQ_SIZE change while the queue is
disabled and empty, else the write is ignored with FetchError (R34); `Enable` alone may be cleared at any time. TQ_ABORT with Go answers NOOBJ, ALREADY_COMMITTED or ABORTED (R63). A fetched descriptor is
checked in order (R38). The first waiting program takes a free slot, and a due parked one goes on in its turn (R35); 1,048,576 instructions
end with TIMEOUT (R55). -/
def Obligations.TallyQueuesTakePrograms : Prop :=
  (∀ (q : QueueId) (value : BitVec 32) (s : State) (v off : Nat), qAt q = some (v, off) → s.qLive q → value.toNat % 65536 < s.ringSize v off →
    exec (.tqTailDoorbell q value) s = .next (s.setReg v (off + 0xC) (word (value.toNat % 65536)))) ∧
  (∀ (q : QueueId) (value : BitVec 32) (s : State) (v off : Nat), qAt q = some (v, off) → s.qLive q → s.ringSize v off ≤ value.toNat % 65536 →
    exec (.tqTailDoorbell q value) s = .next (s.fetchError v off)) ∧
  (∀ (q : QueueId) (value : BitVec 32) (s : State) (v off : Nat), qAt q = some (v, off) → s.qLive q →
    s.regBits v (off + 8) 31 1 = 0 → s.inFlight q = 0 → 4 ≤ bitsOf (word value.toNat) 0 5 → bitsOf (word value.toNat) 0 5 ≤ 16 →
    exec (.tqSizeWrite q value) s = .next (s.setReg v (off + 8)
      (word (bitsOf (word value.toNat) 31 1 * 2147483648 + bitsOf (word value.toNat) 0 5)))) ∧
  (∀ (q : QueueId) (value : BitVec 32) (s : State) (v off : Nat), qAt q = some (v, off) → s.qLive q →
    bitsOf (word value.toNat) 0 5 = s.regBits v (off + 8) 0 5 → bitsOf (word value.toNat) 31 1 = 0 →
    exec (.tqSizeWrite q value) s = .next (s.setReg v (off + 8) (word (bitsOf (word value.toNat) 0 5)))) ∧
  (∀ (q : QueueId) (value : BitVec 32) (s : State) (v off : Nat), qAt q = some (v, off) → s.qLive q →
    bitsOf (word value.toNat) 0 5 ≠ s.regBits v (off + 8) 0 5 → s.regBits v (off + 8) 31 1 = 1 ∨ s.inFlight q ≠ 0 →
    exec (.tqSizeWrite q value) s = .next (s.fetchError v off)) ∧
  (∀ (q : QueueId) (value : Word) (s : State) (v off : Nat), qAt q = some (v, off) → s.qLive q →
    s.regBits v (off + 8) 31 1 = 0 → s.inFlight q = 0 →
    exec (.tqBaseWrite q value) s = .next (s.setReg v off (word (value.toNat / 4096 * 4096)))) ∧
  (∀ (q : QueueId) (value : Word) (s : State) (v off : Nat), qAt q = some (v, off) → s.qLive q →
    s.regBits v (off + 8) 31 1 = 1 ∨ s.inFlight q ≠ 0 →
    exec (.tqBaseWrite q value) s = .next (s.fetchError v off)) ∧
  (∀ (q : QueueId) (value : BitVec 32) (s : State) (v off : Nat), qAt q = some (v, off) → s.qLive q → bitsOf (word value.toNat) 31 1 = 1 →
    s.inDescriptor q (bitsOf (word value.toNat) 0 16) = none →
    exec (.tqAbortGo q value) s = .next (s.setReg v (off + 0x1C) (word (256 + stCode .noobj)))) ∧
  (∀ (q : QueueId) (value : BitVec 32) (s : State) (v off : Nat) (p : Prog), qAt q = some (v, off) → s.qLive q →
    bitsOf (word value.toNat) 31 1 = 1 → s.inDescriptor q (bitsOf (word value.toNat) 0 16) = some p → p.committed →
    exec (.tqAbortGo q value) s = .next (s.setReg v (off + 0x1C) (word (256 + stCode .alreadyCommitted)))) ∧
  (∀ (q : QueueId) (value : BitVec 32) (s : State) (v off : Nat) (p : Prog), qAt q = some (v, off) → s.qLive q →
    bitsOf (word value.toNat) 31 1 = 1 → s.inDescriptor q (bitsOf (word value.toNat) 0 16) = some p → p.committed = false →
    exec (.tqAbortGo q value) s = .next ((s.askAbort p).setReg v (off + 0x1C) (word (256 + stCode .aborted)))) ∧
  (∀ (q : QueueId) (value : BitVec 32) (s : State) (v off : Nat), qAt q = some (v, off) → s.qLive q → bitsOf (word value.toNat) 31 1 = 0 →
    exec (.tqAbortGo q value) s = .next (s.setRegBits v (off + 0x1C) 8 1 0)) ∧
  (∀ (q : QueueId) (desc code : Option (List Word)) (s : State) (v off : Nat), fetchWf desc code → s.running → s.power.downAsked = false →
    qAt q = some (v, off) → s.qLive q → s.regBits v (off + 8) 31 1 = 1 → s.regBits v (off + 0x10) 0 16 ≠ s.regBits v (off + 0xC) 0 16 →
    exec (.programFetchComplete q desc code) s = .next ((s.setReg v (off + 0x10)
      (word ((s.regBits v (off + 0x10) 0 16 + 1) % s.ringSize v off))).fetched q v off (s.regBits v (off + 0x10) 0 16) desc code)) ∧
  (∀ (desc code : Option (List Word)) (s : State) (m : MgmtMsg) (rest : List MgmtMsg), fetchWf desc code → s.running →
    s.power.downAsked = false → s.tally.mgmtQ = m :: rest →
    exec (.programFetchComplete .mgmt desc code) s = .next
      (({ s with tally := { s.tally with mgmtQ := rest } } : State).fetchedMgmt m)) ∧
  (∀ (id : Nat) (s : State) (p : Prog), s.running → s.prog id = some p → p.phase = .waiting → p.aborting = false → s.slotFree →
    s.slotClaimed = false → s.firstWaiting p →
    exec (.programStart id) s = .next (s.upd id (fun q => { q with phase := .running, slot := true }))) ∧
  (∀ (id : Nat) (s : State) (p : Prog), s.running → s.prog id = some p → p.phase = .resuming → p.aborting = false → s.slotFree →
    exec (.programStart id) s = .next (s.upd id (fun q => { q with phase := .running, slot := true }))) ∧
  (∀ (id : Nat) (s : State) (p : Prog), s.running → s.prog id = some p → p.phase = .running → 1048576 ≤ p.executed → p.pc < p.len →
    s.logReady →
    exec (.instructionLimitTimeout id) s = .next (s.endProg id .timeout)) ∧
  (∀ (id : Nat) (s : State) (p : Prog) (due order : Nat), s.running → s.prog id = some p → p.phase = .parked due order →
    p.aborting = false → s.mayUnpark p →
    exec (.parkedProgramDue id) s = .next (s.unpark p)) ∧
  (∀ (s : State) (p : Prog), s.running → s.tally.progs.find? (fun p => s.mayUnpark p && !p.aborting) = some p →
    exec .scheduledEventFire s = .next (s.unpark p)) ∧
  (∀ (s : State) (j : SnapJob), s.running → s.tally.progs.find? (fun p => s.mayUnpark p && !p.aborting) = none →
    s.counters.jobs.find? (fun j => decide (j.instant ≤ s.tide) && (s.base snapState j.set.val = 1 || s.base snapState j.set.val = 2)) = some j →
    exec .scheduledEventFire s = .next (s.capture j))

/-- FetchError and Completion of TQ_STATUS are cleared by writing one (Table 2-3), the fabric-manager queue's only while it is granted (R33). So are
the Error bits of LB_MIRROR_STATUS and LB_EXPORT_STATUS (Table 3-4). LB_EXPORT_ADDR keeps its bits 63 to 12, LB_EXPORT_FROM takes its word
(Table 3-4), FR_FIRST its 32 bits (R358), and the four MSI-X entries their eight words (Table 12-5). A read-only register ignores the write (R311). -/
def Obligations.RegisterWritesTakeEffect : Prop :=
  (∀ (v : ViewId) (value : Word) (s : State), s.viewLive v.val →
    exec (.registerWrite v 0x1014 value) s = .next (s.setReg v.val 0x1014
      (word ((s.regBits v.val 0x1014 1 2 &&& (3 - bitsOf value 1 2)) * 2)))) ∧
  (∀ (v : ViewId) (value : Word) (s : State), s.viewLive v.val → s.fmGranted v.val →
    exec (.registerWrite v 0x1054 value) s = .next (s.setReg v.val 0x1054
      (word ((s.regBits v.val 0x1054 1 2 &&& (3 - bitsOf value 1 2)) * 2)))) ∧
  (∀ (v : ViewId) (value : Word) (s : State), s.viewLive v.val → s.fmGranted v.val = false →
    exec (.registerWrite v 0x1054 value) s = .next s) ∧
  (∀ (v : ViewId) (value : Word) (s : State), s.viewLive v.val → bitsOf value 1 1 = 1 →
    exec (.registerWrite v 0x120 value) s = .next (s.setRegBits v.val 0x120 1 1 0)) ∧
  (∀ (v : ViewId) (value : Word) (s : State), s.viewLive v.val → bitsOf value 28 1 = 1 →
    exec (.registerWrite v 0x138 value) s = .next (s.setRegBits v.val 0x138 28 1 0)) ∧
  (∀ (v : ViewId) (value : Word) (s : State), s.viewLive v.val →
    exec (.registerWrite v 0x128 value) s = .next (s.setReg v.val 0x128 (word (value.toNat / 4096 * 4096)))) ∧
  (∀ (v : ViewId) (value : Word) (s : State), s.viewLive v.val → exec (.registerWrite v 0x130 value) s = .next (s.setReg v.val 0x130 value)) ∧
  (∀ (v : ViewId) (value : Word) (s : State), s.viewLive v.val →
    exec (.registerWrite v 0x2000 value) s = .next (s.setReg v.val 0x2000 (word (value.toNat % 4294967296)))) ∧
  (∀ (v : ViewId) (k : Nat) (value : Word) (s : State), s.viewLive v.val → k < 8 →
    exec (.registerWrite v (0x20000 + 8 * k) value) s = .next (s.setReg v.val (0x20000 + 8 * k) value)) ∧
  (∀ (v : ViewId) (value : Word) (s : State), s.viewLive v.val → exec (.registerWrite v 0x100 value) s = .next s)

/-- Fragments gather until the program is whole, and then it is checked and answered (R277); a fragment missing for 1 ms discards them. An
acceptance stops the forward timer, a result completes the descriptor, and no acceptance in time completes it with TIMEOUT (R52). The base
configuration begins once after a reset, with the image's programs or, where no image is authentic, stopped with FAULTED (R79, R80). Its end
writes BaseDone, raises the security floor where it ended OK, and asserts DEV_READY (R79). -/
def Obligations.ForwardedProgramsAndBaseConfiguration : Prop :=
  (∀ (m : FwdFragment) (s : State), fwdWf m → s.running → (s.gather m).got.length < (s.gather m).count →
    exec (.tallyFwdReceived m) s = .next { s with tally := { s.tally with fwdIn := s.tally.fwdIn.filter (fun (g : FwdIn) =>
      !(decide (g.srcDev = m.srcDev) && decide (g.fwdId = m.fwdId))) ++ [s.gather m] } }) ∧
  (∀ (m : FwdFragment) (s : State), fwdWf m → s.running → (s.gather m).count ≤ (s.gather m).got.length →
    exec (.tallyFwdReceived m) s = .next (({ s with tally := { s.tally with fwdIn := s.tally.fwdIn.filter (fun (g : FwdIn) =>
      !(decide (g.srcDev = m.srcDev) && decide (g.fwdId = m.fwdId))) } } : State).programArrived (s.gather m))) ∧
  (∀ (dev id : Nat) (s : State), s.running →
    exec (.tallyFragmentTimeout dev id) s = .next { s with tally := { s.tally with fwdIn := s.tally.fwdIn.filter (fun (g : FwdIn) =>
      !(decide (g.srcDev = dev) && decide (g.fwdId = id) && decide (g.due ≤ s.now))) } }) ∧
  (∀ (id : Nat) (s : State), s.running →
    exec (.tallyAcceptReceived id) s = .next { s with tally := { s.tally with
      fwdOut := s.tally.fwdOut.map (fun (f : FwdOut) => if f.fwdId = id then { f with accepted := true } else f) } }) ∧
  (∀ (id : Nat) (result seq : Word) (rods : List Word) (s : State) (f : FwdOut), resultWf rods → s.running →
    s.tally.fwdOut.find? (fun f => decide (f.fwdId = id)) = some f →
    exec (.tallyResultReceived id result seq rods) s = .next (s.fwdEnd f (bitsOf result 0 8) (bitsOf result 16 16) seq rods)) ∧
  (∀ (id : Nat) (s : State) (f : FwdOut), s.running → s.tally.fwdOut.find? (fun f => decide (f.fwdId = id)) = some f →
    f.accepted = false → f.due ≤ s.now →
    exec (.forwardAcceptTimeout id) s = .next (s.fwdEnd f (stCode .timeout) 0xFFFF 0 [])) ∧
  (∀ (slotA slotB : List Byte) (s : State), flashWf slotA slotB → s.power.phase = .managed → s.power.baseBegun = false →
    ∃ t, exec (.baseConfiguration ⟨slotA, slotB⟩) s = .next t ∧
      (∀ slot img, s.bootSlot slotA slotB = some (slot, img) → t = s.bootFrom slot img) ∧
      (s.bootSlot slotA slotB = none → t = ({ s with
        power := { s.power with baseBegun := true, baseSlot := 3, secCommit := none },
        tally := { s.tally with base := [], baseOverlays := [], baseStatus := .ok } } : State).baseStop .faulted)) ∧
  (∀ s : State, s.power.phase = .managed → s.power.baseBegun → s.tally.base = [] →
    s.tally.progs.any (fun p => decide (p.src = .base)) = false → s.logReady →
    exec .baseDone s = .next (
      let st := s.tally.baseStatus
      let floor := match s.power.secCommit with
        | some v => if st = .ok then max s.power.secFloor v else s.power.secFloor
        | none => s.power.secFloor
      let s1 := s.logEntry (ownEntryIn 4 s.power.baseSlot (stCode st))
      let s2 : State := { s1 with power := { s1.power with
        phase := .ready, baseFailed := decide (st ≠ .ok), secFloor := floor, secCommit := none } }
      (((s2.slotsBase allSlots).emit (.pin .devReady true)).showHosts).notify))

/-- NOP goes on, HALT ends with OK and ABORT with ABORTED, BEGIN opens the transaction once (R46, R54). AT parks until its instant, goes on at
it, or ends with NOTIDE or LATE; WAITTIDE parks for its count (R49, R50). SYNC waits for the commits so far or for the earlier programs of the
queue, and goes on when the wait is over (R55). LOGNOTE writes its entry (R65). An abort that waited ends the program instead of the instruction
(R63). -/
def Obligations.ControlInstructionsAct : Prop :=
  (∀ (id : Nat) (s : State) (p : Prog), s.stands id p → iOpcode p.instr = 0x00 →
    exec (.nop id) s = .next (s.upd id (fun q => (({ q with executed := q.executed + 1 } : Prog).next).onward))) ∧
  (∀ (id : Nat) (s : State) (p : Prog), s.stands id p → iOpcode p.instr = 0x01 → s.logReady →
    exec (.halt id) s = .next ((s.counted id).endProg id .ok)) ∧
  (∀ (id : Nat) (s : State) (p : Prog), s.stands id p → iOpcode p.instr = 0x02 → p.begun = false →
    exec (.beginTx id) s = .next (s.upd id (fun q =>
      (({ q with executed := q.executed + 1, begun := true } : Prog).next).onward))) ∧
  (∀ (id : Nat) (s : State) (p : Prog), s.stands id p → iOpcode p.instr = 0x04 → s.logReady →
    exec (.abort id) s = .next ((s.counted id).endProg id .aborted)) ∧
  (∀ (id : Nat) (s : State) (p : Prog), s.prog id = some p → s.atInstr p → p.aborting → s.logReady → iOpcode p.instr = 0x00 →
    exec (.nop id) s = .next (s.endProg id p.stopSt)) ∧
  (∀ (id : Nat) (s : State) (p : Prog), s.stands id p → iOpcode p.instr = 0x05 → s.logReady → s.everLocked = false →
    exec (.atTide id) s = .next ((s.counted id).endProg id .notide)) ∧
  (∀ (id : Nat) (s : State) (p : Prog), s.stands id p → iOpcode p.instr = 0x05 → s.logReady → s.everLocked →
    s.tide < (p.rod (iSrc p.instr)).toNat →
    exec (.atTide id) s = .next ((s.counted id).park id (p.rod (iSrc p.instr)).toNat)) ∧
  (∀ (id : Nat) (s : State) (p : Prog), s.stands id p → iOpcode p.instr = 0x05 → s.logReady → s.everLocked →
    (p.rod (iSrc p.instr)).toNat < s.tide → fOpt (iFlags p.instr) = false →
    exec (.atTide id) s = .next ((s.counted id).endProg id .late)) ∧
  (∀ (id : Nat) (s : State) (p : Prog), s.stands id p → iOpcode p.instr = 0x05 → s.logReady → s.everLocked →
    (p.rod (iSrc p.instr)).toNat = s.tide ∨ ((p.rod (iSrc p.instr)).toNat < s.tide ∧ fOpt (iFlags p.instr)) →
    exec (.atTide id) s = .next ((s.counted id).proceed id (fun q => q.next))) ∧
  (∀ (id : Nat) (s : State) (p : Prog), s.stands id p → iOpcode p.instr = 0x06 → s.logReady → p.rod (iSrc p.instr) ≠ 0 →
    exec (.waitTide id) s = .next ((s.counted id).park id (s.tide + (p.rod (iSrc p.instr)).toNat))) ∧
  (∀ (id : Nat) (s : State) (p : Prog), s.stands id p → iOpcode p.instr = 0x78 → iSub p.instr = 0 →
    exec (.syncCommits id) s = .next ((s.counted id).upd id (fun q => { q with phase := .syncCommits s.tally.settledAt }))) ∧
  (∀ (id : Nat) (s : State) (p : Prog), s.stands id p → iOpcode p.instr = 0x78 → iSub p.instr = 1 →
    exec (.syncQueue id) s = .next ((s.counted id).upd id (fun q => { q with phase := .syncQueue }))) ∧
  (∀ (id : Nat) (s : State) (p : Prog) (due : Nat), s.running → s.prog id = some p → p.aborting = false →
    p.phase = .syncCommits due → due ≤ s.now →
    exec (.syncComplete id) s = .next (s.proceed id (fun q => q.next))) ∧
  (∀ (id : Nat) (s : State) (p : Prog), s.running → s.prog id = some p → p.aborting = false → p.phase = .syncQueue → s.earlierEnded p →
    exec (.syncComplete id) s = .next (s.proceed id (fun q => q.next))) ∧
  (∀ (id : Nat) (s : State) (p : Prog), s.stands id p → iOpcode p.instr = 0x7F → s.logReady →
    exec (.logNote id) s = .next (((s.counted id).logEntry
      (p.entry 2 0 0 0 [] [] (p.rod (iSrc p.instr)) (iImm p.instr))).proceed id (fun q => q.next)))

/-- Each arithmetic instruction writes its result (Table 2-7), modulo 2^64, into `Dst` and goes on at the next instruction; each branch goes on
at word Imm where its condition on `Src` holds. Everything else of the state, every other program and every other rod stays as it was. -/
def Obligations.ArithmeticInstructionsCompute : Prop :=
  RodRule .ldi 0x10 (fun p => if fOpt (iFlags p.instr) then setBits (p.rod (iDst p.instr)) 32 32 (iImm p.instr) else word (iImm p.instr)) ∧
  RodRule .mov 0x11 (fun p => p.rod (iSrc p.instr)) ∧
  RodRule .add 0x12 (fun p => p.rod (iDst p.instr) + p.operand) ∧
  RodRule .sub 0x13 (fun p => p.rod (iDst p.instr) - p.operand) ∧
  RodRule .andOp 0x14 (fun p => p.rod (iDst p.instr) &&& p.operand) ∧
  RodRule .orOp 0x15 (fun p => p.rod (iDst p.instr) ||| p.operand) ∧
  RodRule .xorOp 0x16 (fun p => p.rod (iDst p.instr) ^^^ p.operand) ∧
  RodRule .shl 0x17 (fun p => BitVec.ofNat 64 ((p.rod (iDst p.instr)).toNat * 2 ^ (p.operand.toNat % 64))) ∧
  RodRule .shr 0x18 (fun p => BitVec.ofNat 64 ((p.rod (iDst p.instr)).toNat / 2 ^ (p.operand.toNat % 64))) ∧
  RodRule .cmp 0x19 (fun p => if (p.rod (iDst p.instr)).toInt < p.operand.toInt then BitVec.ofInt 64 (-1)
    else if (p.rod (iDst p.instr)).toInt = p.operand.toInt then 0 else 1) ∧
  BranchRule .jmp 0x08 (fun _ => True) ∧
  BranchRule .bz 0x09 (fun v => v.toNat = 0) ∧
  BranchRule .bnz 0x0A (fun v => v.toNat ≠ 0) ∧
  BranchRule .blt 0x0B (fun v => v.toInt < 0)

/-- COMMIT ends with CONFLICT where a recorded version has changed, and then no staged change applies; with the status of the first change that
can no longer be made, and then none applies either (log 37); else the Program entry, every staged change, the versions and the program's
commit follow in one step (R47, R48). An UNBIND that waits goes on once its record has no request left, or ends with TIMEOUT (R62). A tenant
reset ends with its last function (R190). -/
def Obligations.CommitsAndDrainsComplete : Prop :=
  (∀ (id : Nat) (s : State) (p : Prog), s.stands id p → iOpcode p.instr = 0x03 → p.begun → p.committed = false → s.logReady →
    (s.counted id).overlayGone p →
    exec (.commit id) s = .next ((s.counted id).endProg id .noobj)) ∧
  (∀ (id : Nat) (s : State) (p : Prog), s.stands id p → iOpcode p.instr = 0x03 → p.begun → p.committed = false → s.logReady →
    (s.counted id).overlayGone p = false → (s.counted id).conflicts p →
    exec (.commit id) s = .next (((s.counted id).tallyCount 13).endProg p.id .conflict)) ∧
  (∀ (id : Nat) (s : State) (p : Prog), s.stands id p → iOpcode p.instr = 0x03 → p.begun → p.committed = false → s.logReady →
    (s.counted id).overlayGone p = false → (s.counted id).conflicts p = false → ((s.counted id).commitAll p.staged).status ≠ .ok →
    exec (.commit id) s = .next (((s.counted id).blame ((s.counted id).commitAll p.staged).blame).endProg id
      ((s.counted id).commitAll p.staged).status)) ∧
  (∀ (id : Nat) (s : State) (p : Prog), s.stands id p → iOpcode p.instr = 0x03 → p.begun → p.committed = false → s.logReady →
    (s.counted id).overlayGone p = false → (s.counted id).conflicts p = false → ((s.counted id).commitAll p.staged).status = .ok →
    exec (.commit id) s = .next (
      let t := s.counted id
      let s1 := (t.tallyCount 12).logEntry (p.entry 0 0 0 0 (t.commitAll p.staged).objs.eraseDups (p.staged.flatMap (fun r => r.entryRefs)) 0 0)
      let d := s1.commitAll p.staged
      ((t.settle (d.st.bumpAll d.bumps) id).upd id (fun q =>
        { q with committed := true, logSeq := s1.log.head, staged := [], recorded := [] })).afterCommit id)) ∧
  (∀ (id : Nat) (s : State) (p : Prog) (due : Nat), s.running → s.prog id = some p → p.phase = .draining due → p.aborting = false →
    s.recordReqs (s.selOf p.objReq) = [] → s.logReady →
    exec (.unbindDrainDone id) s = .next (s.objNow p p.objReq)) ∧
  (∀ (id : Nat) (s : State) (p : Prog) (due : Nat), s.running → s.prog id = some p → p.phase = .draining due → p.aborting = false →
    s.recordReqs (s.selOf p.objReq) ≠ [] → due ≤ s.now → s.logReady →
    exec (.unbindDrainTimeout id) s = .next (s.objFail id p.objReq .timeout none)) ∧
  (∀ (t : TenantId) (s : State) (r : TenReset) (p : Prog), s.running → s.tenancy.resets = [r] → r.tenant = t →
    s.tenancy.flrs.any (fun f => decide (f.tenant = t.val)) = false → s.prog r.prog = some p → p.phase = .tenantWait → s.logReady →
    exec (.tenantResetEnd t) s = .next
      ((({ s with tenancy := { s.tenancy with resets := [] } } : State).put tenState t.val r.prev).resetAnswer p r.failed))

/-- The object instructions that read and configure ports and the fabric, standing next in a program: outside a transaction one whose effect ends OK is
logged, has its effect at once and leaves OK in A15 (R45, R57); between BEGIN and COMMIT it is staged (R46). The effect itself is that of
`State.applyObj`: PORTCFG (R12), PORTSTATE (R426), ROUTE (R123), PATHGRP (R125), WITHDRAW (R140) and its restore (R145). -/
def Obligations.ConfigurationInstructionsApply : Prop :=
  ObjRule .oread (fun r => r.op = 0x20) ∧
  ObjRule .ocas (fun r => r.op = 0x22) ∧
  ObjRule .portCfg (fun r => r.op = 0x30) ∧
  ObjRule .portStateEnable (fun r => r.op = 0x31 ∧ r.b 1 0 4 = 0) ∧
  ObjRule .portStateDisable (fun r => r.op = 0x31 ∧ r.b 1 0 4 = 1) ∧
  ObjRule .portStateRetrain (fun r => r.op = 0x31 ∧ r.b 1 0 4 = 2) ∧
  ObjRule .portStateHotReset (fun r => r.op = 0x31 ∧ r.b 1 0 4 = 3) ∧
  ObjRule .portStateOutOfService (fun r => r.op = 0x31 ∧ r.b 1 0 4 = 4) ∧
  ObjRule .portStateBackInService (fun r => r.op = 0x31 ∧ r.b 1 0 4 = 5) ∧
  ObjRule .route (fun r => r.op = 0x38) ∧
  ObjRule .pathGrp (fun r => r.op = 0x39) ∧
  ObjRule .withdraw (fun r => r.op = 0x3A ∧ r.b 1 0 1 = 0) ∧
  ObjRule .withdrawRestore (fun r => r.op = 0x3A ∧ r.b 1 0 1 = 1) ∧
  ObjRule .query (fun r => r.op = 0x69)

/-- The same for the instructions on tenants, bindings, gates and quotas (R174, R183 to R190), meters and scheduler queues (R161, R169), and queue
pairs, regions and completion queues (R228, R230). -/
def Obligations.TenancyAndLighterInstructionsApply : Prop :=
  ObjRule .tenantCreate (fun r => r.op = 0x40 ∧ r.b 1 0 3 = 0) ∧
  ObjRule .tenantDelete (fun r => r.op = 0x40 ∧ r.b 1 0 3 = 1) ∧
  ObjRule .tenantSuspend (fun r => r.op = 0x40 ∧ r.b 1 0 3 = 2) ∧
  ObjRule .tenantResume (fun r => r.op = 0x40 ∧ r.b 1 0 3 = 3) ∧
  ObjRule .tenantReset (fun r => r.op = 0x40 ∧ r.b 1 0 3 = 4) ∧
  ObjRule .bindFn (fun r => r.op = 0x41) ∧
  ObjRule .unbindFn (fun r => r.op = 0x42) ∧
  ObjRule .gateSet (fun r => r.op = 0x43) ∧
  ObjRule .resizeQuota (fun r => r.op = 0x44) ∧
  ObjRule .meter (fun r => r.op = 0x48) ∧
  ObjRule .sched (fun r => r.op = 0x49) ∧
  ObjRule .qpCreate (fun r => r.op = 0x50 ∧ r.b 1 0 3 = 0) ∧
  ObjRule .qpModify (fun r => r.op = 0x50 ∧ r.b 1 0 3 = 1) ∧
  ObjRule .qpFlush (fun r => r.op = 0x50 ∧ r.b 1 0 3 = 2) ∧
  ObjRule .qpDestroy (fun r => r.op = 0x50 ∧ r.b 1 0 3 = 3) ∧
  ObjRule .region (fun r => r.op = 0x51) ∧
  ObjRule .revoke (fun r => r.op = 0x52) ∧
  ObjRule .cqCreate (fun r => r.op = 0x53 ∧ r.b 1 0 2 = 0) ∧
  ObjRule .cqDestroy (fun r => r.op = 0x53 ∧ r.b 1 0 2 = 1) ∧
  ObjRule .cqResize (fun r => r.op = 0x53 ∧ r.b 1 0 2 = 2)

/-- The same for the instructions on slots and budgets (R379), overlays (R84, R85), snapshots (R393), injected faults (R60, R361) and fault records (R354). -/
def Obligations.SlotOverlayAndFaultInstructionsApply : Prop :=
  ObjRule .slotPwrOff (fun r => r.op = 0x58 ∧ r.b 1 0 2 = 0) ∧
  ObjRule .slotPwrOn (fun r => r.op = 0x58 ∧ r.b 1 0 2 = 1) ∧
  ObjRule .slotPwrCycle (fun r => r.op = 0x58 ∧ r.b 1 0 2 = 2) ∧
  ObjRule .slotPwrLimits (fun r => r.op = 0x58 ∧ r.b 1 0 2 = 3) ∧
  ObjRule .budget (fun r => r.op = 0x59) ∧
  (∀ image, ObjRuleWith image (fun id => .overlayStore id image) (fun r => r.op = 0x60 ∧ r.b 1 0 2 = 0)) ∧
  ObjRule .overlayApply (fun r => r.op = 0x60 ∧ r.b 1 0 2 = 1) ∧
  ObjRule .overlayRemove (fun r => r.op = 0x60 ∧ r.b 1 0 2 = 2) ∧
  ObjRule .overlayDelete (fun r => r.op = 0x60 ∧ r.b 1 0 2 = 3) ∧
  ObjRule .snap (fun r => r.op = 0x68) ∧
  ObjRule .inject (fun r => r.op = 0x70) ∧
  ObjRule .faultAck (fun r => r.op = 0x71)

/-- The same for OWRITE, by the words that it writes: each row is the write of the fields it names, and OWRITE every other (R57). -/
def Obligations.ImageWritesApply : Prop :=
  ObjRule .owrite (fun r => r.op = 0x21 ∧ r.ownRow = false) ∧
  ObjRule .deviceFabricIdWrite (fun r => r.op = 0x21 ∧ r.hits [devFabricId] = true) ∧
  ObjRule .deviceResetRequest (fun r => r.op = 0x21 ∧ r.hits [rstAction] = true ∧ rstAction.of (r.w 2) = 1) ∧
  ObjRule .orderlyPowerDown (fun r => r.op = 0x21 ∧ r.hits [rstAction] = true ∧ rstAction.of (r.w 2) = 2) ∧
  ObjRule .injectArmWrite (fun r => r.op = 0x21 ∧ r.hits [devInjectArmUntil] = true) ∧
  ObjRule .bankTargetState (fun r => r.op = 0x21 ∧ r.hits [bankTargetState] = true) ∧
  ObjRule .bankTest (fun r => r.op = 0x21 ∧ r.hits [bankTest] = true) ∧
  ObjRule .laneTargetState (fun r => r.op = 0x21 ∧ r.hits [laneTargetState] = true) ∧
  ObjRule .laneTestConfig (fun r => r.op = 0x21 ∧ r.hits [laneLoop, laneGenPattern, laneCheckPattern] = true) ∧
  ObjRule .laneClearCheck (fun r => r.op = 0x21 ∧ r.hits [laneClearCheck] = true) ∧
  ObjRule .marginGo (fun r => r.op = 0x21 ∧ r.hits [laneMarginGo] = true) ∧
  ObjRule .laneTapWrite (fun r => r.op = 0x21 ∧ r.hits [laneTxPre, laneTxPost] = true) ∧
  ObjRule .slotTest (fun r => r.op = 0x21 ∧ r.hits [slotTest] = true) ∧
  ObjRule .slotTargetState (fun r => r.op = 0x21 ∧ r.hits [slotTargetState] = true) ∧
  ObjRule .slotAutoOnSet (fun r => r.op = 0x21 ∧ r.hits [slotAutoOn] = true) ∧
  ObjRule .slotClearEnergy (fun r => r.op = 0x21 ∧ r.hits [slotClearEnergy] = true) ∧
  ObjRule .slotPeakClear (fun r => r.op = 0x21 ∧ r.hits [slotPeakMa] = true) ∧
  ObjRule .feedTargetState (fun r => r.op = 0x21 ∧ r.hits [feedTargetState] = true) ∧
  ObjRule .meterClearCounts (fun r => r.op = 0x21 ∧ r.hits [meterClearCounts] = true) ∧
  ObjRule .schedqMaxClear (fun r => r.op = 0x21 ∧ r.hits [sqMaxDepthCells, sqMaxHeadDelay] = true) ∧
  ObjRule .tempPeakReset (fun r => r.op = 0x21 ∧ r.hits ((List.range 10).map wearTempPeak.up) = true) ∧
  ObjRule .tideSourceSet (fun r => r.op = 0x21 ∧ r.hits [tideSource, tideSourcePort] = true) ∧
  ObjRule .sdramOutOfService (fun r => r.op = 0x21 ∧ r.cls = cSdramChannel ∧ r.b 1 0 16 = 1 ∧ (bitsOf (r.w 3) 0 2 ≠ 0)) ∧
  ObjRule .hostViewWrite (fun r => r.op = 0x21 ∧ r.hits [viewPort, viewOwnerTenant, viewFmQueue] = true) ∧
  ObjRule .slotRangeWrite (fun r => r.op = 0x21 ∧ r.hits [portSlotBase, portSlotCount] = true) ∧
  ObjRule .snapshotSetWrite (fun r => r.op = 0x21 ∧ (r.cls = cSnapshotSet)) ∧
  ObjRule .telemetryRingWrite (fun r => r.op = 0x21 ∧ r.cls = cDevice ∧ (16 ≤ r.b 1 0 16) ∧ (r.b 1 0 16 ≤ 31)) ∧
  ObjRule .rxPoolWrite (fun r => r.op = 0x21 ∧ r.hits [qlRxPoolUnits] = true)

/-- Header, link control word and payload of Tables 10-1, 10-2 and 10-4, with the CRC-64 of R251 and the parity of R252 after them: the receiver
finds no symbol to correct and no CRC failure (R253), and reads the sequence number, channel, type, every link control field and the payload that
were packed, at every value that the fields admit. An INIT record reads back as it was (R258). -/
def Obligations.FlitsReadBack : Prop :=
  (∀ (head ctl : Nat) (payload : List Byte), flitDecode (flitBytes head ctl payload) = some (flitBytes head ctl payload, [])) ∧
  (∀ (seq vc typ : Nat) (c : LinkCtl) (payload : List Byte), seq < 16777216 → vc < 16 → typ < 3 → c.ackSeq < 16777216 →
    c.creditCount < 65536 → c.creditVc < 16 → c.congHop < 4 → c.congLevel < 16 → c.cmd < 8 → c.arg < 256 →
    rxFlit (flitBytes (flitHead seq vc typ) c.word payload) = some ⟨typ, vc, seq, c, padTo 228 payload⟩) ∧
  (∀ m : InitMsg, m.valid → m.rate < 16 → m.width < 16 → m.port < 256 → m.fabricId < 4096 → m.nextSeq < 16777216 → m.ackSeq < 16777216 →
    m.nonce < 4294967296 → initOf (padTo 228 (initPayload m)) = m)

/-- The bytes of a flit, dealt to the lanes of a link of any width and collected again, are the flit (R249). The four Gray-coded PAM4 symbols of each
byte give the byte back (R281). The scrambler run twice from one state gives the bytes back, and both ends reach the same state (R282). A marker
reads back with its CRC good and every field as it was sent (R283). -/
def Obligations.LanesCarryEveryByte : Prop :=
  (∀ (w : Nat) (flit : List Byte), w ∈ [1, 2, 4, 8, 16] → flit.length = 256 →
    flitOfLanes w ((List.range w).map (fun k => laneShare w k flit)) = flit) ∧
  (∀ bs : List Byte, pamBytes (bs.flatMap pamSymbols) = bs) ∧
  (∀ (x : BitVec 31) (bs : List Byte), (scramble x (scramble x bs).1).1 = bs ∧ (scramble x (scramble x bs).1).2 = (scramble x bs).2) ∧
  (∀ m : MarkerIn, m.markLane < 32 → m.markCount < 128 → m.steerTag < 16 → m.steerCmd < 16 → m.steerSpare < 4 → m.steerLane < 16 →
    markOf (markBytes m) = { m with crcOk := true })

/-- For every command and state, a step with the command at the front of the queue is the command on the state with the queue's rest. With an
empty queue the block idles and its clocks tick, which is the model's own choice (log 2). -/
def Obligations.StepRunsFrontCommand : Prop :=
  (∀ (c : Instr) (rest : List Instr) (s : State), s.pending = c :: rest → step s = exec c { s with pending := rest }) ∧
  (∀ s : State, s.pending = [] → step s = .next s.tick)

/-- A packet without bytes or with too many, an access across its bounds, a work request that is not eight words, lanes that bring no flit's share,
a fragment, result or image of a wrong length: no event of the interfaces looks like that, so the command stands for no event and the state stays
as it was (the model's own convention, log 4). -/
def Obligations.MalformedCommandsChangeNothing : Prop :=
  (∀ (p : PortId) (x : PacketIn) (cells : List CellIdx) (s : State), packetWf x.image.length = false →
    exec (.packetReceived p x cells) s = .next s) ∧
  (∀ (p : PortId) (c : CompletionIn) (s : State), packetWf c.image.length = false →
    exec (.completionReceived p c) s = .next s) ∧
  (∀ (a : Agent) (off : Nat) (data : List Byte) (cells : List CellIdx) (s : State), cmAccessWf off data.length = false →
    exec (.cmPostedWrite a off data cells) s = .next s) ∧
  (∀ (a : Agent) (off len tag : Nat) (cells : List CellIdx) (s : State), cmAccessWf off len = false →
    exec (.cmRead a off len tag cells) s = .next s) ∧
  (∀ (v : ViewId) (off len tag : Nat) (s : State), cmAccessWf off len = false →
    exec (.reservedLoad v off len tag) s = .next s) ∧
  (∀ (a : Agent) (op : AtomicKind) (off size x y tag : Nat) (cells : List CellIdx) (s : State), atomicSizeOk op size = false →
    exec (.cmAtomicOp a op off size x y tag cells) s = .next s) ∧
  (∀ (q : QpId) (w : List Word) (s : State), w.length ≠ 8 → exec (.workRequestStart q (some w)) s = .next s) ∧
  (∀ (q : QpId) (recv : Bool) (w : List Word) (s : State), w.length ≠ 8 →
    exec (.workRequestCommit q recv (some w)) s = .next s) ∧
  (∀ (pk : LighterPkt) (host : HostReply) (s : State), ltReqWf pk host = false →
    exec (.lighterRequestReceived pk host) s = .next s) ∧
  (∀ (pk : LighterPkt) (s : State), ltRespWf pk = false → exec (.lighterResponseReceived pk) s = .next s) ∧
  (∀ (v : ViewId) (pasid : Option Nat) (page size : Nat) (dst : Option Nat) (s : State), size < 12 ∨ 30 < size →
    exec (.translationComplete v pasid page size dst) s = .next s) ∧
  (∀ (p : PortId) (lanes : List (List PamLevel)) (s : State), s.lanesFit p.val lanes = false →
    exec (.flitReceived p lanes) s = .next s ∧ exec (.initReceived p lanes) s = .next s) ∧
  (∀ (l : LaneId) (symbols : List PamLevel) (s : State), markerWf symbols = false → exec (.markerReceived l symbols) s = .next s) ∧
  (∀ (q : QueueId) (desc code : Option (List Word)) (s : State), fetchWf desc code = false →
    exec (.programFetchComplete q desc code) s = .next s) ∧
  (∀ (m : FwdFragment) (s : State), fwdWf m = false → exec (.tallyFwdReceived m) s = .next s) ∧
  (∀ (id : Nat) (result seq : Word) (rods : List Word) (s : State), resultWf rods = false →
    exec (.tallyResultReceived id result seq rods) s = .next s) ∧
  (∀ (slotA slotB : List Byte) (s : State), flashWf slotA slotB = false → exec (.baseConfiguration ⟨slotA, slotB⟩) s = .next s) ∧
  (∀ (dies : List DieReading) (s : State), diesWf dies = false → exec (.wearGaugeComparison dies) s = .next s)

/-- After reset every image word and register reads as its table's "After cold reset" column says (R8), every version is 0 (R44), every byte of
coordination memory is zero (R195), every counter is 0 (R389), no overlay is stored or in effect (R89), and no program, packet, queue entry or
command waits. -/
def Obligations.ResetIsCold : Prop :=
  (∀ cls sel w, sel < 4294967296 → w < 128 → State.reset.baseWord cls sel w = coldWord cls sel w) ∧
  (∀ cls sel w, sel < 4294967296 → w < 128 → State.reset.effWord cls sel w = coldWord cls sel w) ∧
  (∀ v off, off < 2097152 → State.reset.reg v off = coldReg off) ∧
  (∀ k, State.reset.version k = 0) ∧ (∀ a, State.reset.cmByte a = 0) ∧ (∀ id, State.reset.ctr id = 0) ∧
  State.reset.overlays = [] ∧ State.reset.activeOverlay = none ∧ State.reset.tally.progs = [] ∧ State.reset.log.entries = [] ∧
  State.reset.faults.recs = [] ∧ State.reset.faults.contained = [] ∧ State.reset.core.pkts = [] ∧ State.reset.cms.held = [] ∧
  State.reset.pending = []

/-- The invariant of `EveryStepKeepsTablesCanonical` holds after reset. -/
def Obligations.ResetHasCanonicalTables : Prop := State.reset.wf

/-- From every state whose tables are canonical, whatever command is at the front of the queue and whatever it does to objects, registers,
counters and memory, a step that answers a next state leaves them canonical: no key twice, none out of order, no byte beyond the 8 MiB, and no
entry equal to what an unlisted key reads as. Equal contents are therefore equal data in every reachable state. -/
def Obligations.EveryStepKeepsTablesCanonical : Prop := ∀ s t : State, s.wf → step s = .next t → t.wf

/-- Whatever a command does, resets and power-down included, the commands that wait behind it are what they were: they come from outside the
device. -/
def Obligations.CommandsLeaveTheQueueAlone : Prop := ∀ (c : Instr) (s t : State), exec c s = .next t → t.pending = s.pending

/-- A command that is no store, conditional store, reserved load or AtomicOp, does not put a view's management function to sleep, and is no reset
or loss of power, leaves every byte of coordination memory as it was, unless it ends the last program of an orderly power-down, which drains the
held stores (R345); so may a fault of the Tallyman, which ends programs with FAULTED (R54). -/
def Obligations.OnlyStoresAndResetsChangeCoordinationMemory : Prop :=
  ∀ (c : Instr) (s t : State), touchesCm c = false → exec c s = .next t → t.power.phase ≠ .down → t.cm = s.cm

/-- When PWR_OK rises, and at every device reset (DEV_RST_N low, a requested reset, the end of a halt), the overlay store is empty afterwards and no
overlay is in effect for any object (R89); every byte of coordination memory reads as zero (R195); versions start at 0 only at the cold one (R44).
After that, only the actions of OVERLAY, at once or by a commit, store overlays and put them into effect; every other command leaves both alone or clears them. -/
def Obligations.ResetsClearCoordinationMemoryAndOverlays : Prop :=
  (∀ (x : Straps) (s t : State), s.power.phase = .off → exec (.coldReset x) s = .next t →
    t.overlays = [] ∧ t.activeOverlay = none ∧ (∀ k, t.overlayFor k = none) ∧ (∀ a, t.cmByte a = 0) ∧ (∀ k, t.version k = 0)) ∧
  (∀ (s : State) (cause : Nat) (held : Bool),
    (s.deviceReset cause held).overlays = [] ∧ (s.deviceReset cause held).activeOverlay = none ∧
    (∀ k, (s.deviceReset cause held).overlayFor k = none) ∧ (∀ a, (s.deviceReset cause held).cmByte a = 0)) ∧
  (∀ s : State, s.power.phase = .ready → s.resetReady = false → ∃ u : State, exec .deviceReset s = .next (u.deviceReset 1 true)) ∧
  (∀ s : State, s.running → s.resetReady → exec .deviceReset s = .next (s.deviceReset 2 false)) ∧
  (∀ (s : State) (due : Nat), s.power.haltDue = some due → s.power.phase = .halted → due ≤ s.now →
    exec .haltRestartTimeout s = .next (s.deviceReset 3 false)) ∧
  (∀ (c : Instr) (s t : State), switchesOverlays c = false → exec c s = .next t →
    (t.overlays = s.overlays ∧ t.activeOverlay = s.activeOverlay) ∨ (t.overlays = [] ∧ t.activeOverlay = none))

/-- An accepted program has A1 to A15 zero and keeps them until it starts. A0 reads as zero and drops what is written to it. After an object
instruction A15 holds its status, and `Dst`, where it is another rod than A15, the result if there is one. An instruction gives a result only with
OK, but for OCAS with CONFLICT, which gives the previous word where the comparison was unequal, and RESIZE with NORES or CONFLICT, which gives the
current use (R40). -/
def Obligations.RodsAndStatuses : Prop :=
  (∀ (s : State) (src : ProgSrc) (via : Option ViewId) (desc : List Word) (index : Nat) (irq : Bool) (level view dev : Nat) (ws : List Word),
    ∃ p, (s.accept src via desc index irq level view dev ws).tally.progs = s.tally.progs ++ [p] ∧ ∀ k, p.rod k = 0) ∧
  (∀ (id : Nat) (s t : State) (p : Prog), s.prog id = some p → p.phase = .waiting → p.aborting = false → exec (.programStart id) s = .next t →
    ∃ q, t.prog id = some q ∧ q.rods = p.rods) ∧
  (∀ (p : Prog) (v : Word), p.rod 0 = 0 ∧ p.setRod 0 v = p) ∧
  (∀ (p : Prog) (r : ObjReq) (st : Status) (dst : Option Word), p.wf = true →
    (p.result r st dst).rod 15 = word (stCode st) ∧
    (∀ k, 1 ≤ k → k ≤ 14 → (p.result r st dst).rod k = (if k = r.dst then dst.getD (p.rod k) else p.rod k))) ∧
  (∀ (id : Nat) (s : State) (p : Prog) (r : ObjReq) (st : Status) (dst : Option Word), s.prog id = some p → fCont r.iflags →
    (s.objFail id r st dst).prog id = some (((p.result r st dst).next).onward)) ∧
  (∀ (s : State) (r : ObjReq), (s.applyObj r).status ≠ .ok → (s.applyObj r).dst ≠ none →
    (r.op = 0x22 ∧ (s.applyObj r).status = .conflict) ∨
    (r.op = 0x44 ∧ ((s.applyObj r).status = .nores ∨ (s.applyObj r).status = .conflict))) ∧
  (∀ (s : State) (cls sel : Nat) (r : ObjReq), s.objExists cls sel → r.b 1 0 16 < s.imageLen cls sel → rwMask cls (r.b 1 0 16) ≠ 0 →
    s.imageWord cls sel (r.b 1 0 16) ≠ r.w 2 →
    (s.opOcas cls sel r).status = .conflict ∧ (s.opOcas cls sel r).dst = some (s.imageWord cls sel (r.b 1 0 16))) ∧
  (∀ (s : State) (t : Nat) (r : ObjReq), (s.opResize t r).status = .nores ∨ (s.opResize t r).status = .conflict →
    (s.opResize t r).dst = some (word (s.useOf t (r.b 1 0 3))))

/-- INJECT of a checker that takes injections is armed while `Device.InjectArmUntil` is later than the current tide, and then its injection
waits; otherwise it ends with DENIED and changes nothing. Inside a transaction the field counts as earlier commits left it, not as the program has
staged it. An OWRITE of the field with a value more than 60 s ahead of tide ends with BADOP and changes nothing; one at most 60 s ahead takes
effect (R60). -/
def Obligations.InjectionNeedsArming : Prop :=
  (∀ (s : State) (r : ObjReq), s.fld devInjectArmUntil 0 ≤ s.tide →
    (s.opInject r).status ≠ .ok ∧ (s.opInject r).st = s) ∧
  (∀ (s : State) (r : ObjReq), (r.w 0).toNat < 16777216 → checkerExists (r.w 0).toNat → checkerInjectable (r.w 0).toNat →
    r.b 1 16 2 < 2 → r.b 1 0 16 ≠ 0 →
    s.opInject r = if s.tide < s.fld devInjectArmUntil 0
      then opOk { s with faults := { s.faults with injections := s.faults.injections ++ [⟨(r.w 0).toNat, r.b 1 16 2, r.b 1 0 16, true⟩] } } []
      else opBad s .denied) ∧
  (∀ (s : State) (p : Prog) (r : ObjReq), r.op = 0x70 → (s.applyObj r).status = .denied → fCont r.iflags = false → p.recorded.length ≤ 1024 →
    ∃ u : State, s.stageObj p r = u.endProg p.id .denied) ∧
  (∀ (s : State) (r : ObjReq), r.b 1 0 16 = 13 → (r.w 3).toNat = 2 ^ 64 - 1 → s.tide + 60000000000 < (r.w 2).toNat →
    s.opOwrite cDevice 0 r = opBad s .badop) ∧
  (∀ (s : State) (r : ObjReq), s.wf → r.b 1 0 16 = 13 → (r.w 3).toNat = 2 ^ 64 - 1 → (r.w 2).toNat ≤ s.tide + 60000000000 →
    (s.opOwrite cDevice 0 r).status = .ok ∧ (s.opOwrite cDevice 0 r).st.base devInjectArmUntil 0 = (r.w 2).toNat)

/-- FAULTACK on a record in the log, open or closed, ends OK and sets `Acked` on it; a record raised meanwhile (by the message of a function that
returns) is another one. With `Release` 1 and a grade below 4 exactly the record's own containments and retirements go, those that it carried
forward among them, and those of every other record stay, each under its record or the copy that carries that one forward. Without `Release`, or
with grade 4 or 5, none goes (R354). -/
def Obligations.AcknowledgementReleasesItsOwn : Prop :=
  ∀ (s : State) (slot : Nat) (r : ObjReq) (f : FaultRec), s.recIn slot = some f →
    ∃ t, s.opFaultack slot r = opOk t [okey cFaultRecord slot] ∧
      (∀ q ∈ t.faults.recs, q.id = f.id → q.acked = true ∨ s.faults.nextId ≤ q.id) ∧
      (r.b 1 0 1 = 1 → f.grade < 4 →
        t.faults.contained.map (·.2) = (s.faults.contained.filter (fun c => decide (c.1 ≠ f.id))).map (·.2)) ∧
      (r.b 1 0 1 = 0 ∨ 4 ≤ f.grade → t.faults.contained = s.faults.contained)

/-- A state-changing object instruction that would end OK on a contained object ends with FAULTED and leaves the state as it was, unless it is
one of those allowed on contained objects (R58). A selector word with a bit that its class does not use ends with BADOP, and one out of range
with NOOBJ, with nothing changed (R56). INJECT names no object (R42). -/
def Obligations.ContainedObjectsRefuseChanges : Prop :=
  (∀ (s : State) (r : ObjReq), r.inject = false → isChange r.op → s.exempt r = false → s.objContained r.cls (s.selOf r) →
    (s.applyObj r).status ≠ .ok ∧ ((s.applyObj r).status = .faulted → (s.applyObj r).st = s ∧ (s.applyObj r).dst = none)) ∧
  (∀ (s : State) (r : ObjReq), r.inject = false → blockOk r → selCheck r.cls (r.w 0) = none → isChange r.op → s.exempt r = false →
    s.objContained r.cls (s.selOf r) → (s.runOp r.cls (s.selOf r) r).status = .ok → s.applyObj r = opBad s .faulted) ∧
  (∀ (s : State) (r : ObjReq), r.inject = false → (r.w 0).toNat &&& selMask r.cls ≠ (r.w 0).toNat → s.applyObj r = opBad s .badop) ∧
  (∀ (s : State) (r : ObjReq), r.inject = false → (r.w 0).toNat &&& selMask r.cls = (r.w 0).toNat → selInRange r.cls (r.w 0).toNat = false →
    s.applyObj r = opBad s .noobj)

/-- OREAD of an object that exists gives the image word, or with HI the version, which is a 32-bit number (R44, R57), and a word beyond the image
ends with BADOP. A write of a base word is read back, and leaves every other word of every object alone. The effective value takes the overlay's
bits where the overlay in effect writes them and the base value elsewhere (R86). A version that goes up goes up by one, modulo 2^32, and no other
object's version changes (R44). -/
def Obligations.ReadsGiveWordsAndVersions : Prop :=
  (∀ (s : State) (cls sel : Nat) (r : ObjReq), s.objExists cls sel → r.b 1 0 16 < s.imageLen cls sel →
    (s.opOread cls sel r).status = .ok ∧ (s.opOread cls sel r).dst =
      some (if fOpt r.iflags then word (s.version (okey cls sel)) else s.imageWord cls sel (r.b 1 0 16))) ∧
  (∀ (s : State) (cls sel : Nat) (r : ObjReq), s.objExists cls sel → s.imageLen cls sel ≤ r.b 1 0 16 →
    s.opOread cls sel r = opBad s .badop ∧ s.opOwrite cls sel r = opBad s .badop ∧ s.opOcas cls sel r = opBad s .badop) ∧
  (∀ (s : State) (cls sel w : Nat) (v : Word), s.wf → (s.putWord cls sel w v).baseWord cls sel w = v) ∧
  (∀ (s : State) (cls sel w cls' sel' w' : Nat) (v : Word), wkey cls sel w ≠ wkey cls' sel' w' →
    (s.putWord cls sel w v).baseWord cls' sel' w' = s.baseWord cls' sel' w') ∧
  (∀ (s : State) (cls sel w : Nat) (h : Shadow), s.shadowOf cls sel w = some h → ∀ i < 64,
    (s.effWord cls sel w).getLsbD i = if h.mask.getLsbD i then h.value.getLsbD i else (s.baseWord cls sel w).getLsbD i) ∧
  (∀ (s : State) (cls sel w : Nat), s.shadowOf cls sel w = none → s.effWord cls sel w = s.baseWord cls sel w) ∧
  (∀ (s : State) (k k' : Nat), s.wf → (s.bump k).version k' = if k' = k then (s.version k + 1) % 4294967296 else s.version k')

/-- Writing a field of an object (R6) makes it read as the value modulo the field's width, and leaves every bit outside the field, and every other
word of every object, as it was. -/
def Obligations.FieldsReadBack : Prop :=
  ∀ (s : State) (f : Fld) (sel v : Nat), s.wf → f.lo + f.width ≤ 64 →
    (s.put f sel v).base f sel = v % 2 ^ f.width ∧
    (∀ i < 64, i < f.lo ∨ f.lo + f.width ≤ i →
      ((s.put f sel v).baseWord f.cls sel f.word).getLsbD i = (s.baseWord f.cls sel f.word).getLsbD i) ∧
    (∀ cls' sel' w', wkey cls' sel' w' ≠ wkey f.cls sel f.word → (s.put f sel v).baseWord cls' sel' w' = s.baseWord cls' sel' w') ∧
    (s.put f sel v).cm = s.cm ∧ (s.put f sel v).regs = s.regs ∧ (s.put f sel v).vers = s.vers

/-- A count adds to one counter and stops at 2^48 − 1, where it stays; every other counter is left alone, and a clear sets a counter and its flags
to 0 (R389). -/
def Obligations.CountersSaturate : Prop :=
  (∀ (s : State) (id id' n : Nat), s.wf → (s.count id n).ctr id' = if id' = id then min (s.ctr id + n) (2 ^ 48 - 1) else s.ctr id') ∧
  (∀ (s : State) (id n : Nat), s.wf → s.ctr id = 2 ^ 48 - 1 → (s.count id n).ctr id = 2 ^ 48 - 1) ∧
  (∀ (s : State) (id id' : Nat), s.wf → (s.clearCtr id).ctr id' = (if id' = id then 0 else s.ctr id') ∧
    id ∉ (s.clearCtr id).counters.invalid ∧ id ∉ (s.clearCtr id).counters.saturated)

/-- Applying a view's held store removes it from the buffer. A plain store to a window that is not contained leaves its bytes at its address and
every other byte as it was; a conditional store does so only where it succeeds, and a store to a contained window changes no byte (R202, R208). -/
def Obligations.AppliedStoresWriteTheirBytes : Prop :=
  ∀ (s : State) (v : ViewId) (h : HeldStore), Memory.wf s.cm = true → h.addr + h.data.length ≤ 8388608 →
    (∀ a, a < h.addr ∨ h.addr + h.data.length ≤ a → (s.applyHeld v h).cmByte a = s.cmByte a) ∧
    (s.isContained (.obj cCmWindow (windowOf h.addr)) = false → h.cond = false →
      ∀ i < h.data.length, (s.applyHeld v h).cmByte (h.addr + i) = h.data.getD i 0) ∧
    (s.isContained (.obj cCmWindow (windowOf h.addr)) → h.fails = 0 → (s.applyHeld v h).cm = s.cm) ∧
    (s.isContained (.obj cCmWindow (windowOf h.addr)) = false → h.fails = 0 → h.cond →
      ({ s with cms := { s.cms with held := s.cms.held.erase h } } : State).scReason v (lineOf h.addr) = 0 →
      ∀ i < h.data.length, (s.applyHeld v h).cmByte (h.addr + i) = h.data.getD i 0) ∧
    (s.isContained (.obj cCmWindow (windowOf h.addr)) = false → h.cond →
      ({ s with cms := { s.cms with held := s.cms.held.erase h } } : State).scReason v (lineOf h.addr) ≠ 0 → (s.applyHeld v h).cm = s.cm) ∧
    (h.cond → h.fails ≠ 0 → (s.applyHeld v h).cm = s.cm) ∧
    (s.applyHeld v h).cms.held = s.cms.held.erase h

/-- A live slot whose current is at or above `LimitMa` shows `InLimit` and runs its fault timer for `FaultTimerUs`, without power-good; one whose
current falls below 95% of it shows neither and its timer is cleared; a timer that reaches `FaultTimerUs` trips the channel (R372). Nothing else
of the slot's configuration, no other slot, no memory and no register changes at the entry. -/
def Obligations.CurrentLimitAndFaultTimer : Prop :=
  (∀ (n : SlotId) (ma : Nat) (s : State), s.wf → s.slotDie → s.slotLive n.val → s.fld slotInLimit n.val = 0 → s.lim slotLimitMa n.val ≤ ma →
    ∃ t, exec (.currentLimitEnter n ma) s = .next t ∧ t.base slotInLimit n.val = 1 ∧ t.base slotFaultTimerRunning n.val = 1 ∧
      t.base slotPowerGood n.val = 0 ∧ (t.slotRun n.val).faultDue = some (s.now + s.lim slotFaultTimerUs n.val * 1000) ∧
      (∀ cls sel w, wkey cls sel w ≠ wkey cSlot n.val slotInLimit.word → t.baseWord cls sel w = s.baseWord cls sel w) ∧
      t.cm = s.cm ∧ t.regs = s.regs ∧ t.vers = s.vers ∧ t.tally = s.tally ∧ t.faults = s.faults) ∧
  (∀ (n : SlotId) (ma : Nat) (s : State), s.wf → s.slotDie → s.fld slotInLimit n.val = 1 → ma * 100 < 95 * s.lim slotLimitMa n.val →
    ∃ t, exec (.currentLimitExit n ma) s = .next t ∧ t.base slotInLimit n.val = 0 ∧ t.base slotFaultTimerRunning n.val = 0 ∧
      (t.slotRun n.val).faultDue = none ∧ t.cm = s.cm ∧ t.regs = s.regs ∧ t.vers = s.vers ∧ t.tally = s.tally ∧ t.faults = s.faults) ∧
  (∀ (n : SlotId) (s : State) (due : Nat), s.slotDie → s.slotLive n.val → (s.slotRun n.val).faultDue = some due → due ≤ s.now →
    exec (.faultTimerExpiry n) s = .next (s.slotTrip n.val 1 0 (s.lim slotFaultTimerUs n.val * 1000)))

/-- Testing ends with `TestResult` set, `Test` cleared and the bank out of service. Draining ends when the last cell is freed: out of service with
`Retiring` clear, retired with it set, which clears it. No other image word, version, register, packet or byte of memory changes (R115). -/
def Obligations.BankStatesMove : Prop :=
  (∀ (b : BankId) (pass : Bool) (s : State), s.wf → s.running → s.fld bankState b.val = 3 →
    ∃ t, exec (.bankTestEnd b pass) s = .next t ∧ t.base bankTestResult b.val = (if pass then 1 else 2) ∧ t.base bankTest b.val = 0 ∧
      t.base bankState b.val = 2 ∧ t.base bankRetiring b.val = s.base bankRetiring b.val ∧
      t.cm = s.cm ∧ t.regs = s.regs ∧ t.vers = s.vers ∧ t.core = s.core ∧ t.counters = s.counters) ∧
  (∀ (b : BankId) (s : State), s.wf → s.running → s.fld bankState b.val = 1 → s.bankUse b.val = 0 →
    ∃ t, exec (.bankDrained b) s = .next t ∧ t.base bankState b.val = (if s.fld bankRetiring b.val = 1 then 4 else 2) ∧
      (s.fld bankRetiring b.val = 1 → t.base bankRetiring b.val = 0) ∧
      t.cm = s.cm ∧ t.regs = s.regs ∧ t.vers = s.vers ∧ t.core = s.core ∧ t.counters = s.counters)

/-- With the fields of Table 2-5 packed into a word, the opcode, flags, rods, `Sub` and `Imm` that the device reads are those packed, so no bit of
the layout is dropped or shared; and the words of a program split into instructions and operand blocks join to what they were (R39, R42). -/
def Obligations.InstructionFieldsRoundTrip : Prop :=
  (∀ op fl dst src sub imm, op < 256 → fl < 16 → dst < 16 → src < 16 → sub < 4096 → imm < 4294967296 →
    let w := instrWord op fl dst src sub imm
    iOpcode w = op ∧ iFlags w = fl ∧ iDst w = dst ∧ iSrc w = src ∧ iSub w = sub ∧ iImm w = imm) ∧
  (∀ w : Word, instrWord (iOpcode w) (iFlags w) (iDst w) (iSrc w) (iSub w) (iImm w) = w)
end

