-- ==== Sys2Proof/Laws/Store.lean ====
section
/-! SUPPORT. The laws of sparse tables: a read after a write, the other keys, and the canonical form that every write keeps. -/

namespace Sys2Proof.Machine

variable {α : Type}

/-- Every key of a canonical table lies above a bound. -/
def above (k : Nat) (m : List (Nat × α)) : Prop := ∀ e ∈ m, k < e.1

theorem above_mono {k k' : Nat} {m : List (Nat × α)} (h : above k' m) (hk : k ≤ k') : above k m := fun e he => by
  have := h e he
  omega

/-- A key below every entry reads as an unlisted one. -/
theorem tget_above (d : α) (m : List (Nat × α)) (k : Nat) (h : above k m) : tget d m k = d := by
  induction m with
  | nil => rfl
  | cons e m ih =>
    obtain ⟨j, w⟩ := e
    have hj : k < j := h (j, w) (by simp)
    have : j ≠ k := by omega
    simp only [tget, this, if_false]
    exact ih (fun e he => h e (by simp [he]))

variable [DecidableEq α]

/-- The canonical form, as a head and a tail. -/
theorem twf_cons (d : Nat → α) (k : Nat) (v : α) (m : List (Nat × α)) :
    twf d ((k, v) :: m) = true ↔ v ≠ d k ∧ above k m ∧ twf d m = true := by
  induction m generalizing k v with
  | nil => simp [twf, above]
  | cons e m ih =>
    obtain ⟨k', v'⟩ := e
    have h2 := ih k' v'
    constructor
    · intro h
      simp only [twf, Bool.and_eq_true, decide_eq_true_eq] at h
      obtain ⟨⟨h1, h3⟩, h4⟩ := h
      refine ⟨h1, ?_, h4⟩
      obtain ⟨-, h5, -⟩ := h2.mp h4
      intro e he
      rcases List.mem_cons.mp he with rfl | he
      · exact h3
      · exact Nat.lt_trans h3 (h5 e he)
    · rintro ⟨h1, h3, h4⟩
      have h5 : k < k' := h3 (k', v') (by simp)
      simp [twf, h1, h5, h4]

/-- A canonical table without some of its entries is canonical. -/
@[simp] theorem twf_filter (d : Nat → α) (f : Nat × α → Bool) (m : List (Nat × α)) (h : twf d m = true) : twf d (m.filter f) = true := by
  induction m with
  | nil => rfl
  | cons e m ih =>
    obtain ⟨k, v⟩ := e
    obtain ⟨h1, h2, h3⟩ := (twf_cons d k v m).mp h
    by_cases hf : f (k, v)
    · rw [List.filter_cons_of_pos hf]
      exact (twf_cons d k v _).mpr ⟨h1, fun e he => h2 e (List.mem_of_mem_filter he), ih h3⟩
    · rw [List.filter_cons_of_neg hf]
      exact ih h3

/-- A write adds no key but its own. -/
theorem above_tput (d : α) (m : List (Nat × α)) (k k' : Nat) (v : α) (h : above k' m) (hk : k' < k) : above k' (tput d m k v) := by
  induction m with
  | nil =>
    intro e he
    by_cases hv : v = d <;> simp [tput, hv] at he
    subst he
    exact hk
  | cons e m ih =>
    obtain ⟨j, w⟩ := e
    have hj : k' < j := h (j, w) (by simp)
    have hm : above k' m := fun e he => h e (by simp [he])
    have h3 := ih hm
    intro e he
    unfold tput at he
    split at he
    · split at he
      · exact h e he
      · rcases List.mem_cons.mp he with rfl | he
        · exact hk
        · exact h e he
    · split at he
      · split at he
        · exact hm e he
        · rcases List.mem_cons.mp he with rfl | he
          · exact hk
          · exact hm e he
      · rcases List.mem_cons.mp he with rfl | he
        · exact hj
        · exact h3 e he

/-- A write keeps the canonical form. -/
@[simp] theorem twf_tput (d : Nat → α) (m : List (Nat × α)) (k : Nat) (v : α) (h : twf d m = true) : twf d (tput (d k) m k v) = true := by
  induction m with
  | nil => by_cases hv : v = d k <;> simp [tput, twf, hv]
  | cons e m ih =>
    obtain ⟨j, w⟩ := e
    obtain ⟨h1, h2, h3⟩ := (twf_cons d j w m).mp h
    unfold tput
    split
    · rename_i hk
      split
      · exact h
      · rename_i hv
        refine (twf_cons d k v _).mpr ⟨hv, ?_, h⟩
        intro e he
        rcases List.mem_cons.mp he with rfl | he
        · exact hk
        · exact Nat.lt_trans hk (h2 e he)
    · split
      · rename_i hk
        subst hk
        split
        · exact h3
        · rename_i hv
          exact (twf_cons d k v _).mpr ⟨hv, h2, h3⟩
      · rename_i hn hk
        exact (twf_cons d j w _).mpr ⟨h1, above_tput (d k) m k j v h2 (by omega), ih h3⟩

/-- An entry after a write is the one written, or stood before. -/
theorem mem_tput {d : α} {m : List (Nat × α)} {k : Nat} {v : α} {e : Nat × α} (h : e ∈ tput d m k v) : e = (k, v) ∨ e ∈ m := by
  induction m with
  | nil =>
    by_cases hv : v = d <;> simp [tput, hv] at h
    exact .inl h
  | cons x m ih =>
    obtain ⟨j, w⟩ := x
    unfold tput at h
    split_ifs at h <;> simp only [List.mem_cons] at h ⊢ <;> tauto

/-- A read after a write to the same key gives what was written. -/
theorem tget_tput_same (d : Nat → α) (m : List (Nat × α)) (k : Nat) (v : α) (h : twf d m = true) : tget (d k) (tput (d k) m k v) k = v := by
  induction m with
  | nil => by_cases hv : v = d k <;> simp [tput, tget, hv]
  | cons e m ih =>
    obtain ⟨j, w⟩ := e
    obtain ⟨h1, h2, h3⟩ := (twf_cons d j w m).mp h
    unfold tput
    split
    · rename_i hk
      split
      · rename_i hv
        have hj : j ≠ k := by omega
        simp only [tget, hj, if_false]
        rw [hv]
        exact tget_above _ _ _ (above_mono h2 (Nat.le_of_lt hk))
      · simp [tget]
    · split
      · rename_i hk
        subst hk
        split
        · rename_i hv
          rw [hv]
          exact tget_above _ _ _ h2
        · simp [tget]
      · rename_i hn hk
        have hj : j ≠ k := fun x => hk x.symm
        simp only [tget, hj, if_false]
        exact ih h3

/-- A write leaves every other key alone. -/
theorem tget_tput_other (d d' : α) (m : List (Nat × α)) (k k' : Nat) (v : α) (hk : k' ≠ k) : tget d' (tput d m k v) k' = tget d' m k' := by
  induction m with
  | nil => by_cases hv : v = d <;> simp [tput, tget, hv, Ne.symm hk]
  | cons e m ih =>
    obtain ⟨j, w⟩ := e
    unfold tput
    split
    · split
      · rfl
      · simp [tget, Ne.symm hk]
    · split
      · rename_i hj
        subst hj
        split <;> simp [tget, Ne.symm hk]
      · by_cases hj : j = k'
        · simp [tget, hj]
        · simp only [tget, hj, if_false]
          exact ih

end Sys2Proof.Machine
end

