-- ==== Sys2Proof/Laws/Keeps.lean ====
section
/-! SUPPORT. What the shared operations leave alone: the queue, coordination memory, and the canonical form of every other table. -/

namespace Sys2Proof.Machine

/-- The objects, registers, versions and counters of a state stay canonical from one state to another. -/
abbrev Tables (s t : State) : Prop :=
  (twf coldAt s.objs = true → twf coldAt t.objs = true) ∧ (twf coldRegAt s.regs = true → twf coldRegAt t.regs = true) ∧
  (twf (fun _ => 0) s.vers = true → twf (fun _ => 0) t.vers = true) ∧
  (twf (fun _ => 0) s.counters.vals = true → twf (fun _ => 0) t.counters.vals = true)

/-- An operation leaves the queue, coordination memory and the overlay store as they are, and keeps the tables canonical. -/
abbrev Keeps (s t : State) : Prop :=
  t.pending = s.pending ∧ t.cm = s.cm ∧ t.overlays = s.overlays ∧ t.activeOverlay = s.activeOverlay ∧ Tables s t

/-- The same for an operation that may write coordination memory: its canonical form stays. -/
abbrev Stores (s t : State) : Prop :=
  t.pending = s.pending ∧ (Memory.wf s.cm = true → Memory.wf t.cm = true) ∧ t.overlays = s.overlays ∧ t.activeOverlay = s.activeOverlay ∧
  Tables s t

/-- The same for an operation that may store overlays, or put them into or out of effect. -/
abbrev Overlays (s t : State) : Prop := t.pending = s.pending ∧ t.cm = s.cm ∧ Tables s t

/-- The same for an operation that may do both. -/
abbrev Safe (s t : State) : Prop := t.pending = s.pending ∧ (Memory.wf s.cm = true → Memory.wf t.cm = true) ∧ Tables s t

theorem Keeps.refl (s : State) : Keeps s s := ⟨rfl, rfl, rfl, rfl, id, id, id, id⟩

theorem Tables.trans {a b c : State} (h : Tables a b) (k : Tables b c) : Tables a c :=
  ⟨k.1 ∘ h.1, k.2.1 ∘ h.2.1, k.2.2.1 ∘ h.2.2.1, k.2.2.2 ∘ h.2.2.2⟩

theorem Keeps.trans {a b c : State} (h : Keeps a b) (k : Keeps b c) : Keeps a c :=
  ⟨k.1.trans h.1, k.2.1.trans h.2.1, k.2.2.1.trans h.2.2.1, k.2.2.2.1.trans h.2.2.2.1, Tables.trans h.2.2.2.2 k.2.2.2.2⟩

/-- A choice between two states keeps what both keep. -/
theorem Keeps.ite {c : Prop} [Decidable c] {a b d : State} (h : Keeps a b) (k : Keeps a d) : Keeps a (if c then b else d) := by
  split <;> assumption

@[simp] theorem ite_pending (c : Prop) [Decidable c] (a b : State) : (if c then a else b).pending = if c then a.pending else b.pending := by
  split <;> rfl
@[simp] theorem ite_cm (c : Prop) [Decidable c] (a b : State) : (if c then a else b).cm = if c then a.cm else b.cm := by split <;> rfl
@[simp] theorem ite_overlays (c : Prop) [Decidable c] (a b : State) : (if c then a else b).overlays = if c then a.overlays else b.overlays := by
  split <;> rfl
@[simp] theorem ite_activeOverlay (c : Prop) [Decidable c] (a b : State) :
    (if c then a else b).activeOverlay = if c then a.activeOverlay else b.activeOverlay := by split <;> rfl
@[simp] theorem ite_objs (c : Prop) [Decidable c] (a b : State) : (if c then a else b).objs = if c then a.objs else b.objs := by split <;> rfl
@[simp] theorem ite_regs (c : Prop) [Decidable c] (a b : State) : (if c then a else b).regs = if c then a.regs else b.regs := by split <;> rfl
@[simp] theorem ite_vers (c : Prop) [Decidable c] (a b : State) : (if c then a else b).vers = if c then a.vers else b.vers := by split <;> rfl
@[simp] theorem ite_vals (c : Prop) [Decidable c] (a b : State) :
    (if c then a else b).counters.vals = if c then a.counters.vals else b.counters.vals := by split <;> rfl
@[simp] theorem twf_ite {α : Type} [DecidableEq α] (d : Nat → α) (c : Prop) [Decidable c] (a b : List (Nat × α)) (ha : twf d a = true)
    (hb : twf d b = true) : twf d (if c then a else b) = true := by split <;> assumption

/-- What every step of a loop gives of the state before it, the loop gives. -/
theorem foldl_gives {β : Type} (P : State → Prop) (f : State → β → State) (l : List β) (s : State) (h : ∀ s x, P s → P (f s x)) (hs : P s) :
    P (l.foldl f s) := List.foldlRecOn l f hs fun t ht x _ => h t x ht

@[simp] theorem foldl_pending {β : Type} (f : State → β → State) (l : List β) (s : State) (h : ∀ s x, (f s x).pending = s.pending) :
    (l.foldl f s).pending = s.pending := foldl_gives (fun t => t.pending = s.pending) f l s (fun t x e => (h t x).trans e) rfl
@[simp] theorem foldl_cm {β : Type} (f : State → β → State) (l : List β) (s : State) (h : ∀ s x, (f s x).cm = s.cm) :
    (l.foldl f s).cm = s.cm := foldl_gives (fun t => t.cm = s.cm) f l s (fun t x e => (h t x).trans e) rfl
@[simp] theorem foldl_overlays {β : Type} (f : State → β → State) (l : List β) (s : State) (h : ∀ s x, (f s x).overlays = s.overlays) :
    (l.foldl f s).overlays = s.overlays := foldl_gives (fun t => t.overlays = s.overlays) f l s (fun t x e => (h t x).trans e) rfl
@[simp] theorem foldl_activeOverlay {β : Type} (f : State → β → State) (l : List β) (s : State)
    (h : ∀ s x, (f s x).activeOverlay = s.activeOverlay) : (l.foldl f s).activeOverlay = s.activeOverlay :=
  foldl_gives (fun t => t.activeOverlay = s.activeOverlay) f l s (fun t x e => (h t x).trans e) rfl
@[simp] theorem foldl_objs {β : Type} (f : State → β → State) (l : List β) (s : State)
    (h : ∀ s x, twf coldAt s.objs = true → twf coldAt (f s x).objs = true) (hs : twf coldAt s.objs = true) :
    twf coldAt (l.foldl f s).objs = true := foldl_gives (fun t => twf coldAt t.objs = true) f l s h hs
@[simp] theorem foldl_regs {β : Type} (f : State → β → State) (l : List β) (s : State)
    (h : ∀ s x, twf coldRegAt s.regs = true → twf coldRegAt (f s x).regs = true) (hs : twf coldRegAt s.regs = true) :
    twf coldRegAt (l.foldl f s).regs = true := foldl_gives (fun t => twf coldRegAt t.regs = true) f l s h hs
@[simp] theorem foldl_vers {β : Type} (f : State → β → State) (l : List β) (s : State)
    (h : ∀ s x, twf (fun _ => 0) s.vers = true → twf (fun _ => 0) (f s x).vers = true) (hs : twf (fun _ => 0) s.vers = true) :
    twf (fun _ => 0) (l.foldl f s).vers = true := foldl_gives (fun t => twf (fun _ => 0) t.vers = true) f l s h hs
@[simp] theorem foldl_vals {β : Type} (f : State → β → State) (l : List β) (s : State)
    (h : ∀ s x, twf (fun _ => 0) s.counters.vals = true → twf (fun _ => 0) (f s x).counters.vals = true)
    (hs : twf (fun _ => 0) s.counters.vals = true) : twf (fun _ => 0) (l.foldl f s).counters.vals = true :=
  foldl_gives (fun t => twf (fun _ => 0) t.counters.vals = true) f l s h hs

@[simp] theorem memWf_ite (c : Prop) [Decidable c] (a b : List Host.Cell) (ha : Memory.wf a = true) (hb : Memory.wf b = true) :
    Memory.wf (if c then a else b) = true := by split <;> assumption
@[simp] theorem foldl_cmWf {β : Type} (f : State → β → State) (l : List β) (s : State)
    (h : ∀ s x, Memory.wf s.cm = true → Memory.wf (f s x).cm = true) (hs : Memory.wf s.cm = true) :
    Memory.wf (l.foldl f s).cm = true := foldl_gives (fun t => Memory.wf t.cm = true) f l s h hs

/-- A loop keeps what each of its steps keeps. -/
theorem Keeps.foldl {β : Type} (f : State → β → State) (l : List β) (s : State) (h : ∀ s x, Keeps s (f s x)) : Keeps s (l.foldl f s) :=
  foldl_gives (Keeps s) f l s (fun t x k => k.trans (h t x)) (Keeps.refl s)

/-! An update of one field that no table stands in, by a name of its own, so that proofs about nested updates stay small. -/

def State.upNow (u : State) (x : Nat) : State := { u with now := x }
theorem State.upNow_eq (u : State) (x : Nat) : ({ u with now := x } : State) = u.upNow x := rfl
theorem State.upNow_keeps (u : State) (x : Nat) : Keeps u (u.upNow x) := Keeps.refl u
def State.upTide (u : State) (x : Nat) : State := { u with tide := x }
theorem State.upTide_eq (u : State) (x : Nat) : ({ u with tide := x } : State) = u.upTide x := rfl
theorem State.upTide_keeps (u : State) (x : Nat) : Keeps u (u.upTide x) := Keeps.refl u
def State.upSourceHoldover (u : State) (x : Bool) : State := { u with sourceHoldover := x }
theorem State.upSourceHoldover_eq (u : State) (x : Bool) : ({ u with sourceHoldover := x } : State) = u.upSourceHoldover x := rfl
theorem State.upSourceHoldover_keeps (u : State) (x : Bool) : Keeps u (u.upSourceHoldover x) := Keeps.refl u
def State.upFree (u : State) (x : Nat) : State := { u with free := x }
theorem State.upFree_eq (u : State) (x : Nat) : ({ u with free := x } : State) = u.upFree x := rfl
theorem State.upFree_keeps (u : State) (x : Nat) : Keeps u (u.upFree x) := Keeps.refl u
def State.upOut (u : State) (x : List Output) : State := { u with out := x }
theorem State.upOut_eq (u : State) (x : List Output) : ({ u with out := x } : State) = u.upOut x := rfl
theorem State.upOut_keeps (u : State) (x : List Output) : Keeps u (u.upOut x) := Keeps.refl u
def State.upPower (u : State) (x : Power) : State := { u with power := x }
theorem State.upPower_eq (u : State) (x : Power) : ({ u with power := x } : State) = u.upPower x := rfl
theorem State.upPower_keeps (u : State) (x : Power) : Keeps u (u.upPower x) := Keeps.refl u
def State.upCfg (u : State) (x : List (Nat × Option Nat)) : State := { u with cfg := x }
theorem State.upCfg_eq (u : State) (x : List (Nat × Option Nat)) : ({ u with cfg := x } : State) = u.upCfg x := rfl
theorem State.upCfg_keeps (u : State) (x : List (Nat × Option Nat)) : Keeps u (u.upCfg x) := Keeps.refl u
def State.upTally (u : State) (x : Tally) : State := { u with tally := x }
theorem State.upTally_eq (u : State) (x : Tally) : ({ u with tally := x } : State) = u.upTally x := rfl
theorem State.upTally_keeps (u : State) (x : Tally) : Keeps u (u.upTally x) := Keeps.refl u
def State.upLog (u : State) (x : Logbook) : State := { u with log := x }
theorem State.upLog_eq (u : State) (x : Logbook) : ({ u with log := x } : State) = u.upLog x := rfl
theorem State.upLog_keeps (u : State) (x : Logbook) : Keeps u (u.upLog x) := Keeps.refl u
def State.upOverlayHeld (u : State) (x : List (Nat × Option Nat)) : State := { u with overlayHeld := x }
theorem State.upOverlayHeld_eq (u : State) (x : List (Nat × Option Nat)) : ({ u with overlayHeld := x } : State) = u.upOverlayHeld x := rfl
theorem State.upOverlayHeld_keeps (u : State) (x : List (Nat × Option Nat)) : Keeps u (u.upOverlayHeld x) := Keeps.refl u
def State.upCore (u : State) (x : Core) : State := { u with core := x }
theorem State.upCore_eq (u : State) (x : Core) : ({ u with core := x } : State) = u.upCore x := rfl
theorem State.upCore_keeps (u : State) (x : Core) : Keeps u (u.upCore x) := Keeps.refl u
def State.upFabric (u : State) (x : Fabric) : State := { u with fabric := x }
theorem State.upFabric_eq (u : State) (x : Fabric) : ({ u with fabric := x } : State) = u.upFabric x := rfl
theorem State.upFabric_keeps (u : State) (x : Fabric) : Keeps u (u.upFabric x) := Keeps.refl u
def State.upTenancy (u : State) (x : Tenancy) : State := { u with tenancy := x }
theorem State.upTenancy_eq (u : State) (x : Tenancy) : ({ u with tenancy := x } : State) = u.upTenancy x := rfl
theorem State.upTenancy_keeps (u : State) (x : Tenancy) : Keeps u (u.upTenancy x) := Keeps.refl u
def State.upFaults (u : State) (x : Faults) : State := { u with faults := x }
theorem State.upFaults_eq (u : State) (x : Faults) : ({ u with faults := x } : State) = u.upFaults x := rfl
theorem State.upFaults_keeps (u : State) (x : Faults) : Keeps u (u.upFaults x) := Keeps.refl u
def State.upCms (u : State) (x : CmState) : State := { u with cms := x }
theorem State.upCms_eq (u : State) (x : CmState) : ({ u with cms := x } : State) = u.upCms x := rfl
theorem State.upCms_keeps (u : State) (x : CmState) : Keeps u (u.upCms x) := Keeps.refl u
def State.upLighter (u : State) (x : Lighter) : State := { u with lighter := x }
theorem State.upLighter_eq (u : State) (x : Lighter) : ({ u with lighter := x } : State) = u.upLighter x := rfl
theorem State.upLighter_keeps (u : State) (x : Lighter) : Keeps u (u.upLighter x) := Keeps.refl u
def State.upQuay (u : State) (x : List QlPort) : State := { u with quay := x }
theorem State.upQuay_eq (u : State) (x : List QlPort) : ({ u with quay := x } : State) = u.upQuay x := rfl
theorem State.upQuay_keeps (u : State) (x : List QlPort) : Keeps u (u.upQuay x) := Keeps.refl u
def State.upSdram (u : State) (x : Sdram) : State := { u with sdram := x }
theorem State.upSdram_eq (u : State) (x : Sdram) : ({ u with sdram := x } : State) = u.upSdram x := rfl
theorem State.upSdram_keeps (u : State) (x : Sdram) : Keeps u (u.upSdram x) := Keeps.refl u
def State.upLanes (u : State) (x : Lanes) : State := { u with lanes := x }
theorem State.upLanes_eq (u : State) (x : Lanes) : ({ u with lanes := x } : State) = u.upLanes x := rfl
theorem State.upLanes_keeps (u : State) (x : Lanes) : Keeps u (u.upLanes x) := Keeps.refl u
def State.upPcie (u : State) (x : Pcie) : State := { u with pcie := x }
theorem State.upPcie_eq (u : State) (x : Pcie) : ({ u with pcie := x } : State) = u.upPcie x := rfl
theorem State.upPcie_keeps (u : State) (x : Pcie) : Keeps u (u.upPcie x) := Keeps.refl u
def State.upSlots (u : State) (x : SlotPower) : State := { u with slots := x }
theorem State.upSlots_eq (u : State) (x : SlotPower) : ({ u with slots := x } : State) = u.upSlots x := rfl
theorem State.upSlots_keeps (u : State) (x : SlotPower) : Keeps u (u.upSlots x) := Keeps.refl u
def State.upClock (u : State) (x : TideRun) : State := { u with clock := x }
theorem State.upClock_eq (u : State) (x : TideRun) : ({ u with clock := x } : State) = u.upClock x := rfl
theorem State.upClock_keeps (u : State) (x : TideRun) : Keeps u (u.upClock x) := Keeps.refl u


theorem Stores.trans {a b c : State} (h : Stores a b) (k : Stores b c) : Stores a c :=
  ⟨k.1.trans h.1, k.2.1 ∘ h.2.1, k.2.2.1.trans h.2.2.1, k.2.2.2.1.trans h.2.2.2.1, Tables.trans h.2.2.2.2 k.2.2.2.2⟩
theorem Stores.ite {c : Prop} [Decidable c] {a b d : State} (h : Stores a b) (k : Stores a d) : Stores a (if c then b else d) := by
  split <;> assumption
theorem Keeps.toStores {a b : State} (h : Keeps a b) : Stores a b := by
  obtain ⟨h1, h2, h3, h4, h5⟩ := h
  exact ⟨h1, fun h => h2 ▸ h, h3, h4, h5⟩

theorem Overlays.trans {a b c : State} (h : Overlays a b) (k : Overlays b c) : Overlays a c :=
  ⟨k.1.trans h.1, k.2.1.trans h.2.1, Tables.trans h.2.2 k.2.2⟩
theorem Overlays.ite {c : Prop} [Decidable c] {a b d : State} (h : Overlays a b) (k : Overlays a d) : Overlays a (if c then b else d) := by
  split <;> assumption
theorem Keeps.toOverlays {a b : State} (h : Keeps a b) : Overlays a b := by
  obtain ⟨h1, h2, h3, h4, h5⟩ := h
  exact ⟨h1, h2, h5⟩

theorem Safe.trans {a b c : State} (h : Safe a b) (k : Safe b c) : Safe a c :=
  ⟨k.1.trans h.1, k.2.1 ∘ h.2.1, Tables.trans h.2.2 k.2.2⟩
theorem Safe.ite {c : Prop} [Decidable c] {a b d : State} (h : Safe a b) (k : Safe a d) : Safe a (if c then b else d) := by
  split <;> assumption
theorem Keeps.toSafe {a b : State} (h : Keeps a b) : Safe a b := by
  obtain ⟨h1, h2, h3, h4, h5⟩ := h
  exact ⟨h1, fun h => h2 ▸ h, h5⟩

theorem Stores.toSafe {a b : State} (h : Stores a b) : Safe a b := ⟨h.1, h.2.1, h.2.2.2.2⟩
theorem Overlays.toSafe {a b : State} (h : Overlays a b) : Safe a b := ⟨h.1, fun k => h.2.1 ▸ k, h.2.2⟩

end Sys2Proof.Machine
end

