-- ==== Sys2Proof/Laws/KeepsOps.lean ====
section
/-! SUPPORT. What the operations of Machine/Ops.lean leave alone. -/

namespace Sys2Proof.Machine

@[simp] theorem State.putWord_keeps (s : State) (cls : ℕ) (sel : ℕ) (w : ℕ) (v : Word) :
    Keeps s (State.putWord s cls sel w v) := by
  simp +contextual [Keeps, Tables, State.putWord]

@[simp] theorem State.put_keeps (s : State) (f : Fld) (sel : ℕ) (v : ℕ) :
    Keeps s (State.put s f sel v) := by
  simp +contextual [Keeps, Tables, State.put]

@[simp] theorem State.addSat_keeps (s : State) (f : Fld) (sel : ℕ) (n : ℕ) :
    Keeps s (State.addSat s f sel n) := by
  simp +contextual [Keeps, Tables, State.addSat]

@[simp] theorem State.putWords_keeps (s : State) (cls : ℕ) (sel : ℕ) (w : ℕ) (x0 : List Word) :
    Keeps s (State.putWords s cls sel w x0) := by
  fun_induction State.putWords s cls sel w x0 <;> simp +contextual (maxDischargeDepth := 60) [Keeps, Tables, *]

@[simp] theorem State.coldObj_keeps (s : State) (cls : ℕ) (sel : ℕ) :
    Keeps s (State.coldObj s cls sel) := by
  simp +contextual [Keeps, Tables, State.coldObj]

@[simp] theorem State.bump_keeps (s : State) (obj : ℕ) :
    Keeps s (State.bump s obj) := by
  simp +contextual [Keeps, Tables, State.bump]

@[simp] theorem State.setReg_keeps (s : State) (v : ℕ) (off : ℕ) (w : Word) :
    Keeps s (State.setReg s v off w) := by
  simp +contextual [Keeps, Tables, State.setReg]

@[simp] theorem State.setRegBits_keeps (s : State) (v : ℕ) (off : ℕ) (lo : ℕ) (width : ℕ) (n : ℕ) :
    Keeps s (State.setRegBits s v off lo width n) := by
  simp +contextual [Keeps, Tables, State.setRegBits]

@[simp] theorem State.emit_keeps (s : State) (o : Output) :
    Keeps s (State.emit s o) := by
  simp +contextual [Keeps, Tables, State.emit]

@[simp] theorem State.emits_keeps (s : State) (x0 : List Output) :
    Keeps s (State.emits s x0) := by
  fun_induction State.emits s x0 <;> simp +contextual (maxDischargeDepth := 60) [Keeps, Tables, *]

@[simp] theorem State.draw_keeps (s : State) :
    Keeps s (State.draw s) := by
  simp +contextual [Keeps, Tables, State.draw]

@[simp] theorem State.count_keeps (s : State) (id : ℕ) (n : ℕ) :
    Keeps s (State.count s id n) := by
  simp +contextual [Keeps, Tables, State.count]

@[simp] theorem State.clearCtr_keeps (s : State) (id : ℕ) :
    Keeps s (State.clearCtr s id) := by
  simp +contextual [Keeps, Tables, State.clearCtr]

@[simp] theorem State.setQl_keeps (s : State) (p : ℕ) (st : ℕ) :
    Keeps s (State.setQl s p st) := by
  simp +contextual [Keeps, Tables, State.setQl]

end Sys2Proof.Machine
end

