-- ==== Sys2Proof/Laws/KeepsOrigin.lean ====
section
/-! SUPPORT. What the operations of Machine/Origin.lean leave alone. -/

namespace Sys2Proof.Machine

@[simp] theorem State.post_keeps (s : State) (pk : Packet) :
    Keeps s (State.post s pk) := by
  simp +contextual [Keeps, Tables, State.post]

@[simp] theorem State.mgmtPost_keeps (s : State) (v : ℕ) (body : Body) (data : List Byte) :
    Keeps s (State.mgmtPost s v body data) := by
  unfold State.mgmtPost
  try dsimp only
  repeat' first
    | with_reducible exact Keeps.refl _
    | assumption
    | with_reducible refine Keeps.ite ?_ ?_
    | with_reducible refine Keeps.trans ?_ (State.draw_keeps ..)
    | with_reducible refine Keeps.trans ?_ (State.post_keeps ..)
    | (with_reducible refine Keeps.trans ?_ (Keeps.foldl _ _ _ ?_); intro s x; dsimp only)
    | split
  all_goals simp +contextual (maxDischargeDepth := 60) [Keeps, Tables]

@[simp] theorem State.msix_keeps (s : State) (v : ℕ) (vec : ℕ) :
    Keeps s (State.msix s v vec) := by
  simp +contextual [Keeps, Tables, State.msix]

end Sys2Proof.Machine
end

