-- ==== Sys2Proof/Laws/KeepsRecords.lean ====
section
/-! SUPPORT. What the operations of Machine/Records.lean leave alone. -/

namespace Sys2Proof.Machine

@[simp] theorem notifyViews_keeps (vs : List ℕ) (s : State) : Keeps s (notifyViews vs s) := by
  induction vs generalizing s with
  | nil => exact Keeps.refl s
  | cons v vs ih =>
    rw [notifyViews]
    refine Keeps.trans ?_ (ih _)
    split
    · exact Keeps.refl s
    · exact State.msix_keeps s v 0

@[simp] theorem State.notify_keeps (s : State) :
    Keeps s (State.notify s) := by
  simp +contextual [Keeps, Tables, State.notify]

@[simp] theorem State.newRec_keeps (s : State) (e : FEvent) (lasting : Bool) (injected : Bool) (leaky : ℕ) (related : ℕ) :
    Keeps s ((State.newRec s e lasting injected leaky related).1) := by
  simp +contextual [Keeps, Tables, State.newRec]

@[simp] theorem State.leakUp_keeps (s : State) (src : ℕ) :
    Keeps s (State.leakUp s src) := by
  simp +contextual [Keeps, Tables, State.leakUp]

@[simp] theorem State.takeInjection_keeps (s : State) (checker : ℕ) :
    Keeps s ((State.takeInjection s checker).1) := by
  unfold State.takeInjection
  (repeat' split) <;> simp +contextual (maxDischargeDepth := 60) [Keeps, Tables]

@[simp] theorem State.record_keeps (s : State) (e : FEvent) :
    Keeps s ((State.record s e).1) := by
  simp only [State.record]
  (repeat' split) <;> simp +contextual (maxDischargeDepth := 60) [Keeps, Tables, *]

@[simp] theorem State.fault_keeps (s : State) (e : FEvent) :
    Keeps s (State.fault s e) := by
  simp +contextual [Keeps, Tables, State.fault]

@[simp] theorem State.contain_keeps (s : State) (id : ℕ) (t : ContTarget) :
    Keeps s (State.contain s id t) := by
  simp +contextual [Keeps, Tables, State.contain]

@[simp] theorem State.uncontain_keeps (s : State) (f : ℕ × ContTarget → Bool) :
    Keeps s (State.uncontain s f) := by
  simp +contextual [Keeps, Tables, State.uncontain]

@[simp] theorem State.exitOf_keeps (s : State) (t : ContTarget) :
    Keeps s (State.exitOf s t) := by
  simp +contextual [Keeps, Tables, State.exitOf]

end Sys2Proof.Machine
end

