-- ==== Sys2Proof/Laws/KeepsBuffer.lean ====
section
/-! SUPPORT. What the operations of Machine/Buffer.lean leave alone. -/

namespace Sys2Proof.Machine

@[simp] theorem State.debit_keeps (s : State) (b : ℕ) (m : ℕ) :
    Keeps s (State.debit s b m) := by
  unfold State.debit
  (repeat' split) <;> simp +contextual (maxDischargeDepth := 60) [Keeps, Tables]

@[simp] theorem State.debits_keeps (s : State) (b : ℕ) (x0 : List ℕ) :
    Keeps s (State.debits s b x0) := by
  fun_induction State.debits s b x0 <;> simp +contextual (maxDischargeDepth := 60) [Keeps, Tables, *]

@[simp] theorem State.countReds_keeps (s : State) (old ms : List ℕ) : Keeps s (State.countReds s old ms) := by
  induction ms generalizing s with
  | nil => exact Keeps.refl s
  | cons x xs ih =>
    rw [State.countReds]
    refine Keeps.trans ?_ (ih _)
    split <;> simp +contextual [Keeps, Tables]

@[simp] theorem State.setSpray_keeps (s : State) (g : ℕ) (m : ℕ) (v : ℤ) :
    Keeps s (State.setSpray s g m v) := by
  simp +contextual [Keeps, Tables, State.setSpray]

@[simp] theorem State.sprayAdd_keeps (s : State) (g n : ℕ) (ms : List ℕ) : Keeps s (State.sprayAdd s g n ms) := by
  induction ms generalizing s with
  | nil => exact Keeps.refl s
  | cons x xs ih =>
    rw [State.sprayAdd]
    refine Keeps.trans ?_ (ih _)
    exact State.setSpray_keeps _ _ _ _

@[simp] theorem State.spray_keeps (s : State) (g : ℕ) (n : ℕ) (set : List ℕ) :
    Keeps s ((State.spray s g n set).1) := by
  simp only [State.spray]
  (repeat' split) <;> simp +contextual (maxDischargeDepth := 60) [Keeps, Tables, *]

@[simp] theorem State.nextHop_keeps (s : State) (dev : ℕ) (port : ℕ) (arr : ℕ) (n : ℕ) (cxl : Bool) :
    Keeps s ((State.nextHop s dev port arr n cxl).1) := by
  simp only [State.nextHop]
  (repeat' split) <;> simp +contextual (maxDischargeDepth := 60) [Keeps, Tables, *]

@[simp] theorem State.activateGroup_keeps (s : State) (g : ℕ) :
    Keeps s (State.activateGroup s g) := by
  simp +contextual [Keeps, Tables, State.activateGroup]

@[simp] theorem State.setQlp_keeps (s : State) (r : QlPort) :
    Keeps s (State.setQlp s r) := by
  simp +contextual [Keeps, Tables, State.setQlp]

@[simp] theorem State.returnUnits_keeps (s : State) (p : ℕ) (vc : ℕ) (n : ℕ) :
    Keeps s (State.returnUnits s p vc n) := by
  simp +contextual [Keeps, Tables, State.returnUnits]

@[simp] theorem State.returnCredits_keeps (s : State) (pk : Packet) :
    Keeps s (State.returnCredits s pk) := by
  unfold State.returnCredits
  try dsimp only
  repeat' first
    | with_reducible exact Keeps.refl _
    | assumption
    | with_reducible refine Keeps.ite ?_ ?_
    | with_reducible refine Keeps.trans ?_ (State.emit_keeps ..)
    | with_reducible refine Keeps.trans ?_ (State.returnUnits_keeps ..)
    | (with_reducible refine Keeps.trans ?_ (Keeps.foldl _ _ _ ?_); intro s x; dsimp only)
    | split
  all_goals simp +contextual (maxDischargeDepth := 60) [Keeps, Tables]

@[simp] theorem State.setPkt_keeps (s : State) (pk : Packet) :
    Keeps s (State.setPkt s pk) := by
  simp +contextual [Keeps, Tables, State.setPkt]

@[simp] theorem State.movePkt_keeps (s : State) (pk : Packet) :
    Keeps s (State.movePkt s pk) := by
  simp +contextual [Keeps, Tables, State.movePkt]

@[simp] theorem State.dropPkt_keeps (s : State) (id : ℕ) :
    Keeps s (State.dropPkt s id) := by
  simp +contextual [Keeps, Tables, State.dropPkt]

@[simp] theorem State.countPeak_keeps (s : State) (id : ℕ) (n : ℕ) :
    Keeps s (State.countPeak s id n) := by
  simp +contextual [Keeps, Tables, State.countPeak]

@[simp] theorem State.countAdmit_keeps (s : State) (pk : Packet) (pool : ℕ) :
    Keeps s (State.countAdmit s pk pool) := by
  simp +contextual (maxDischargeDepth := 60) [Keeps, Tables, State.countAdmit]

@[simp] theorem State.stamp_keeps (s : State) (pk : Packet) :
    Keeps s ((State.stamp s pk).1) := by
  fun_cases State.stamp s pk <;> simp +contextual (maxDischargeDepth := 60) [Keeps, Tables, *]

@[simp] theorem State.addReq_keeps (s : State) (r : ReqEntry) :
    Keeps s (State.addReq s r) := by
  simp +contextual [Keeps, Tables, State.addReq]

@[simp] theorem State.dropReq_keeps (s : State) (id : ℕ) :
    Keeps s (State.dropReq s id) := by
  simp +contextual [Keeps, Tables, State.dropReq]

@[simp] theorem State.setCmView_keeps (s : State) (c : CmView) :
    Keeps s (State.setCmView s c) := by
  simp +contextual [Keeps, Tables, State.setCmView]

@[simp] theorem State.countDiscard_keeps (s : State) (v : ℕ) (epoch : ℕ) :
    Keeps s (State.countDiscard s v epoch) := by
  simp +contextual [Keeps, Tables, State.countDiscard]

@[simp] theorem State.track_keeps (s : State) (pk : Packet) :
    Keeps s (State.track s pk) := by
  simp +contextual [Keeps, Tables, State.track]

@[simp] theorem State.numberTracked_keeps (s : State) (pk : Packet) :
    Keeps s (State.numberTracked s pk) := by
  simp +contextual [Keeps, Tables, State.numberTracked]

@[simp] theorem State.discardTracked_keeps (s : State) (t : Tracked) :
    Keeps s (State.discardTracked s t) := by
  simp +contextual [Keeps, Tables, State.discardTracked]

@[simp] theorem State.discardAll_keeps (s : State) (x0 : List Tracked) :
    Keeps s (State.discardAll s x0) := by
  fun_induction State.discardAll s x0 <;> simp +contextual (maxDischargeDepth := 60) [Keeps, Tables, *]

@[simp] theorem State.setRun_keeps (s : State) (r : QpRun) :
    Keeps s (State.setRun s r) := by
  simp +contextual [Keeps, Tables, State.setRun]

@[simp] theorem State.ltCount_keeps (s : State) (t : ℕ) (n : ℕ) (k : ℕ) :
    Keeps s (State.ltCount s t n k) := by
  simp +contextual [Keeps, Tables, State.ltCount]

@[simp] theorem State.ltSent_keeps (s : State) (pk : Packet) :
    Keeps s (State.ltSent s pk) := by
  unfold State.ltSent
  try dsimp only
  repeat' first
    | with_reducible exact Keeps.refl _
    | assumption
    | with_reducible refine Keeps.ite ?_ ?_
    | with_reducible refine Keeps.trans ?_ (State.ltCount_keeps ..)
    | with_reducible refine Keeps.trans ?_ (State.put_keeps ..)
    | with_reducible refine Keeps.trans ?_ (State.setRun_keeps ..)
    | (with_reducible refine Keeps.trans ?_ (Keeps.foldl _ _ _ ?_); intro s x; dsimp only)
    | split
  all_goals simp +contextual (maxDischargeDepth := 60) [Keeps, Tables]

@[simp] theorem State.seeReds_keeps (s : State) (reds : List ℕ) :
    Keeps s (State.seeReds s reds) := by
  simp +contextual [Keeps, Tables, State.seeReds]

@[simp] theorem State.evaluate_keeps (s : State) (pk : Packet) (cells : List CellIdx) :
    Keeps s (State.evaluate s pk cells) := by
  simp only [State.evaluate]
  (repeat' split) <;> simp +contextual (maxDischargeDepth := 60) [Keeps, Tables, *]

@[simp] theorem State.enter_keeps (s : State) (pk : Packet) (cells : List CellIdx) :
    Keeps s (State.enter s pk cells) := by
  unfold State.enter
  try dsimp only
  repeat' first
    | with_reducible exact Keeps.refl _
    | assumption
    | with_reducible refine Keeps.ite ?_ ?_
    | with_reducible refine Keeps.trans ?_ (State.evaluate_keeps ..)
    | with_reducible refine Keeps.trans ?_ (State.post_keeps ..)
    | with_reducible refine Keeps.trans ?_ (State.track_keeps ..)
    | (with_reducible refine Keeps.trans ?_ (Keeps.foldl _ _ _ ?_); intro s x; dsimp only)
    | split
  all_goals simp +contextual (maxDischargeDepth := 60) [Keeps, Tables]

@[simp] theorem State.countNoPath_keeps (s : State) (dev : ℕ) (port : ℕ) :
    Keeps s (State.countNoPath s dev port) := by
  unfold State.countNoPath
  try dsimp only
  repeat' first
    | with_reducible exact Keeps.refl _
    | assumption
    | with_reducible refine Keeps.ite ?_ ?_
    | with_reducible refine Keeps.trans ?_ (State.addSat_keeps ..)
    | with_reducible refine Keeps.trans ?_ (State.count_keeps ..)
    | (with_reducible refine Keeps.trans ?_ (Keeps.foldl _ _ _ ?_); intro s x; dsimp only)
    | split
  all_goals simp +contextual (maxDischargeDepth := 60) [Keeps, Tables]

@[simp] theorem State.originate_keeps (s : State) (pk : Packet) :
    Keeps s (State.originate s pk) := by
  unfold State.originate
  try dsimp only
  repeat' first
    | with_reducible exact Keeps.refl _
    | assumption
    | with_reducible refine Keeps.ite ?_ ?_
    | with_reducible refine Keeps.trans ?_ (State.countNoPath_keeps ..)
    | with_reducible refine Keeps.trans ?_ (State.fault_keeps ..)
    | with_reducible refine Keeps.trans ?_ (State.nextHop_keeps ..)
    | with_reducible refine Keeps.trans ?_ (State.post_keeps ..)
    | (with_reducible refine Keeps.trans ?_ (Keeps.foldl _ _ _ ?_); intro s x; dsimp only)
    | split
  all_goals simp +contextual (maxDischargeDepth := 60) [Keeps, Tables]

@[simp] theorem State.sendMsg_keeps (s : State) (dev : ℕ) (m : FabricMsg) :
    Keeps s (State.sendMsg s dev m) := by
  simp +contextual [Keeps, Tables, State.sendMsg]

@[simp] theorem State.sendLocal_keeps (s : State) (p : ℕ) (m : FabricMsg) :
    Keeps s (State.sendLocal s p m) := by
  simp +contextual [Keeps, Tables, State.sendLocal]

@[simp] theorem State.backTo_keeps (s : State) (dev : ℕ) (port : ℕ) (tc : ℕ) (req : ReqType) (requester : ℕ) (tag : ℕ) (st : CplStatus) (data : List Byte) :
    Keeps s (State.backTo s dev port tc req requester tag st data) := by
  simp +contextual [Keeps, Tables, State.backTo]

@[simp] theorem State.markClosed_keeps (s : State) (id : ℕ) :
    Keeps s (State.markClosed s id) := by
  simp +contextual [Keeps, Tables, State.markClosed]

@[simp] theorem State.closeIn_keeps (s : State) (st : CplStatus) (r : ReqEntry) :
    Keeps s (State.closeIn s st r) := by
  unfold State.closeIn
  try dsimp only
  repeat' first
    | with_reducible exact Keeps.refl _
    | assumption
    | with_reducible refine Keeps.ite ?_ ?_
    | with_reducible refine Keeps.trans ?_ (State.backTo_keeps ..)
    | with_reducible refine Keeps.trans ?_ (State.markClosed_keeps ..)
    | (with_reducible refine Keeps.trans ?_ (Keeps.foldl _ _ _ ?_); intro s x; dsimp only)
    | split
  all_goals simp +contextual (maxDischargeDepth := 60) [Keeps, Tables]

@[simp] theorem State.closeReq_keeps (s : State) (st : CplStatus) (r : ReqEntry) :
    Keeps s (State.closeReq s st r) := by
  unfold State.closeReq
  try dsimp only
  repeat' first
    | with_reducible exact Keeps.refl _
    | assumption
    | with_reducible refine Keeps.ite ?_ ?_
    | with_reducible refine Keeps.trans ?_ (State.backTo_keeps ..)
    | with_reducible refine Keeps.trans ?_ (State.closeIn_keeps ..)
    | with_reducible refine Keeps.trans ?_ (State.dropReq_keeps ..)
    | (with_reducible refine Keeps.trans ?_ (Keeps.foldl _ _ _ ?_); intro s x; dsimp only)
    | split
  all_goals simp +contextual (maxDischargeDepth := 60) [Keeps, Tables]

@[simp] theorem State.closeReqs_keeps (s : State) (st : CplStatus) (x0 : List ReqEntry) :
    Keeps s (State.closeReqs s st x0) := by
  fun_induction State.closeReqs s st x0 <;> simp +contextual (maxDischargeDepth := 60) [Keeps, Tables, *]

@[simp] theorem State.hostReply_keeps (s : State) (v : ℕ) (tag : ℕ) (req : ReqType) (st : CplStatus) (data : List Byte) :
    Keeps s (State.hostReply s v tag req st data) := by
  simp +contextual [Keeps, Tables, State.hostReply]

end Sys2Proof.Machine
end

