-- ==== Sys2Proof/Laws/KeepsGate.lean ====
section
/-! SUPPORT. What the operations of Machine/Gate.lean leave alone. -/

namespace Sys2Proof.Machine

@[simp] theorem State.gateRecord_keeps (s : State) (cls : ℕ) (sel : ℕ) (inst : ℕ) (a : Asker) (x : Access) :
    Keeps s (State.gateRecord s cls sel inst a x) := by
  simp +contextual (maxDischargeDepth := 60) [Keeps, Tables, State.gateRecord]

@[simp] theorem State.answer_keeps (s : State) (pk : Packet) (st : CplStatus) :
    Keeps s (State.answer s pk st) := by
  fun_cases State.answer s pk st <;> simp +contextual (maxDischargeDepth := 60) [Keeps, Tables, *]

@[simp] theorem State.notice_keeps (s : State) (h : FabHdr) :
    Keeps s (State.notice s h) := by
  simp +contextual [Keeps, Tables, State.notice]

@[simp] theorem State.turnAway_keeps (s : State) (pk : Packet) (st : CplStatus) :
    Keeps s (State.turnAway s pk st) := by
  unfold State.turnAway
  try dsimp only
  repeat' first
    | with_reducible exact Keeps.refl _
    | assumption
    | with_reducible refine Keeps.ite ?_ ?_
    | with_reducible refine Keeps.trans ?_ (State.answer_keeps ..)
    | with_reducible refine Keeps.trans ?_ (State.countDiscard_keeps ..)
    | with_reducible refine Keeps.trans ?_ (State.discardAll_keeps ..)
    | with_reducible refine Keeps.trans ?_ (State.notice_keeps ..)
    | (with_reducible refine Keeps.trans ?_ (Keeps.foldl _ _ _ ?_); intro s x; dsimp only)
    | split
  all_goals simp +contextual (maxDischargeDepth := 60) [Keeps, Tables]

@[simp] theorem State.refuse_keeps (s : State) (pk : Packet) (st : CplStatus) :
    Keeps s (State.refuse s pk st) := by
  unfold State.refuse
  try dsimp only
  repeat' first
    | with_reducible exact Keeps.refl _
    | assumption
    | with_reducible refine Keeps.ite ?_ ?_
    | with_reducible refine Keeps.trans ?_ (State.count_keeps ..)
    | with_reducible refine Keeps.trans ?_ (State.turnAway_keeps ..)
    | (with_reducible refine Keeps.trans ?_ (Keeps.foldl _ _ _ ?_); intro s x; dsimp only)
    | split
  all_goals simp +contextual (maxDischargeDepth := 60) [Keeps, Tables]

@[simp] theorem State.aerRequester_keeps (s : State) (a : Asker) (e : AerError) :
    Keeps s (State.aerRequester s a e) := by
  unfold State.aerRequester
  (repeat' split) <;> simp +contextual (maxDischargeDepth := 60) [Keeps, Tables]

@[simp] theorem State.gateRefuse_keeps (s : State) (pk : Packet) (slot : ℕ) (g : Gate) (a : Asker) (x : Access) :
    Keeps s (State.gateRefuse s pk slot g a x) := by
  unfold State.gateRefuse
  (repeat' split) <;> simp +contextual (maxDischargeDepth := 60) [Keeps, Tables]

end Sys2Proof.Machine
end

