-- ==== Sys2Proof/Laws/KeepsPaths.lean ====
section
/-! SUPPORT. What the operations of Machine/Paths.lean leave alone. -/

namespace Sys2Proof.Machine

@[simp] theorem State.sendAll_keeps (s : State) (m : FabricMsg) (x0 : List ℕ) :
    Keeps s (State.sendAll s m x0) := by
  fun_induction State.sendAll s m x0 <;> simp +contextual (maxDischargeDepth := 60) [Keeps, Tables, *]

@[simp] theorem State.sendWithdraw_keeps (s : State) (es : List WithdrawEntry) :
    Keeps s (State.sendWithdraw s es) := by
  simp +contextual [Keeps, Tables, State.sendWithdraw]

@[simp] theorem State.withdrawLost_keeps (s : State) (before : List (ℕ × ℕ)) :
    Keeps s (State.withdrawLost s before) := by
  simp +contextual [Keeps, Tables, State.withdrawLost]

@[simp] theorem State.restoreFound_keeps (s : State) :
    Keeps s (State.restoreFound s) := by
  simp +contextual [Keeps, Tables, State.restoreFound]

@[simp] theorem State.noPath_keeps (s : State) (pk : Packet) (dev : ℕ) (port : ℕ) :
    Keeps s (State.noPath s pk dev port) := by
  unfold State.noPath
  (repeat' split) <;> simp +contextual (maxDischargeDepth := 60) [Keeps, Tables]

@[simp] theorem State.resteer_keeps (s : State) (id : ℕ) :
    Keeps s (State.resteer s id) := by
  simp only [State.resteer]
  (repeat' split) <;> simp +contextual (maxDischargeDepth := 60) [Keeps, Tables, *]

@[simp] theorem State.resteers_keeps (s : State) (x0 : List ℕ) :
    Keeps s (State.resteers s x0) := by
  fun_induction State.resteers s x0 <;> simp +contextual (maxDischargeDepth := 60) [Keeps, Tables, *]

@[simp] theorem State.withdrawPort_keeps (s : State) (p : ℕ) :
    Keeps s (State.withdrawPort s p) := by
  simp +contextual (maxDischargeDepth := 60) [Keeps, Tables, State.withdrawPort]

@[simp] theorem State.reinstatePort_keeps (s : State) (p : ℕ) :
    Keeps s (State.reinstatePort s p) := by
  simp +contextual [Keeps, Tables, State.reinstatePort]

@[simp] theorem State.startRestore_keeps (s : State) (p : ℕ) :
    Keeps s (State.startRestore s p) := by
  simp +contextual [Keeps, Tables, State.startRestore]

@[simp] theorem State.recordLost_keeps (s : State) (x0 : List ReqEntry) :
    Keeps s (State.recordLost s x0) := by
  induction x0 generalizing s with
  | nil => first | exact Keeps.refl _ | simp +contextual (maxDischargeDepth := 60) [Keeps, Tables, State.recordLost]
  | cons a as ih =>
    unfold State.recordLost
    try dsimp only
    repeat' first
      | with_reducible exact Keeps.refl _
      | assumption
      | with_reducible refine Keeps.trans ?_ (ih ..)
      | with_reducible refine Keeps.ite ?_ ?_
      | with_reducible refine Keeps.trans ?_ (State.fault_keeps ..)
      | (with_reducible refine Keeps.trans ?_ (Keeps.foldl _ _ _ ?_); intro s x; dsimp only)
      | split
    all_goals simp +contextual (maxDischargeDepth := 60) [Keeps, Tables]

@[simp] theorem State.closeLink_keeps (s : State) (p : ℕ) :
    Keeps s (State.closeLink s p) := by
  unfold State.closeLink
  try dsimp only
  repeat' first
    | with_reducible exact Keeps.refl _
    | assumption
    | with_reducible refine Keeps.ite ?_ ?_
    | with_reducible refine Keeps.trans ?_ (State.closeReqs_keeps ..)
    | with_reducible refine Keeps.trans ?_ (State.dropReq_keeps ..)
    | with_reducible refine Keeps.trans ?_ (State.recordLost_keeps ..)
    | (with_reducible refine Keeps.trans ?_ (Keeps.foldl _ _ _ ?_); intro s x; dsimp only)
    | split
  all_goals simp +contextual (maxDischargeDepth := 60) [Keeps, Tables]

@[simp] theorem State.closeFn_keeps (s : State) (slot : ℕ) (ld : ℕ) :
    Keeps s (State.closeFn s slot ld) := by
  simp +contextual [Keeps, Tables, State.closeFn]

@[simp] theorem State.bumpGen_keeps (s : State) (sel : ℕ) (i : ℕ) :
    Keeps s (State.bumpGen s sel i) := by
  simp +contextual [Keeps, Tables, State.bumpGen]

@[simp] theorem State.bumpGens_keeps (s : State) (sel : ℕ) :
    Keeps s (State.bumpGens s sel) := by
  simp +contextual [Keeps, Tables, State.bumpGens]

@[simp] theorem State.slotEvent_keeps (s : State) (v : ℕ) (k : ℕ) (kind : PresenceKind) :
    Keeps s (State.slotEvent s v k kind) := by
  simp +contextual [Keeps, Tables, State.slotEvent]

@[simp] theorem State.tellView_keeps (s : State) (sel : ℕ) (i : ℕ) (kind : PresenceKind) :
    Keeps s (State.tellView s sel i kind) := by
  fun_cases State.tellView s sel i kind <;> simp +contextual (maxDischargeDepth := 60) [Keeps, Tables, *]

@[simp] theorem State.tellViews_keeps (s : State) (slot : ℕ) (kind : PresenceKind) :
    Keeps s (State.tellViews s slot kind) := by
  simp +contextual [Keeps, Tables, State.tellViews]

@[simp] theorem State.countLate_keeps (s : State) (dev : ℕ) (slot : ℕ) :
    Keeps s (State.countLate s dev slot) := by
  unfold State.countLate
  try dsimp only
  repeat' first
    | with_reducible exact Keeps.refl _
    | assumption
    | with_reducible refine Keeps.ite ?_ ?_
    | with_reducible refine Keeps.trans ?_ (State.addSat_keeps ..)
    | with_reducible refine Keeps.trans ?_ (State.count_keeps ..)
    | (with_reducible refine Keeps.trans ?_ (Keeps.foldl _ _ _ ?_); intro s x; dsimp only)
    | split
  all_goals simp +contextual (maxDischargeDepth := 60) [Keeps, Tables]

@[simp] theorem State.failPkt_keeps (s : State) (pk : Packet) :
    Keeps s (State.failPkt s pk) := by
  unfold State.failPkt
  try dsimp only
  repeat' first
    | with_reducible exact Keeps.refl _
    | assumption
    | with_reducible refine Keeps.ite ?_ ?_
    | with_reducible refine Keeps.trans ?_ (State.countLate_keeps ..)
    | with_reducible refine Keeps.trans ?_ (State.dropPkt_keeps ..)
    | with_reducible refine Keeps.trans ?_ (State.refuse_keeps ..)
    | (with_reducible refine Keeps.trans ?_ (Keeps.foldl _ _ _ ?_); intro s x; dsimp only)
    | split
  all_goals simp +contextual (maxDischargeDepth := 60) [Keeps, Tables]

@[simp] theorem State.failPkts_keeps (s : State) (x0 : List Packet) :
    Keeps s (State.failPkts s x0) := by
  induction x0 generalizing s with
  | nil => first | exact Keeps.refl _ | simp +contextual (maxDischargeDepth := 60) [Keeps, Tables, State.failPkts]
  | cons a as ih =>
    unfold State.failPkts
    try dsimp only
    repeat' first
      | with_reducible exact Keeps.refl _
      | assumption
      | with_reducible refine Keeps.trans ?_ (ih ..)
      | with_reducible refine Keeps.ite ?_ ?_
      | with_reducible refine Keeps.trans ?_ (State.failPkt_keeps ..)
      | (with_reducible refine Keeps.trans ?_ (Keeps.foldl _ _ _ ?_); intro s x; dsimp only)
      | split
    all_goals simp +contextual (maxDischargeDepth := 60) [Keeps, Tables]

@[simp] theorem State.failLeaving_keeps (s : State) (p : ℕ) :
    Keeps s (State.failLeaving s p) := by
  simp +contextual [Keeps, Tables, State.failLeaving]

@[simp] theorem State.failQueued_keeps (s : State) (p : ℕ) :
    Keeps s (State.failQueued s p) := by
  simp +contextual [Keeps, Tables, State.failQueued]

@[simp] theorem State.goOn_keeps (s : State) (pk : Packet) (cells : List CellIdx) :
    Keeps s (State.goOn s pk cells) := by
  unfold State.goOn
  try dsimp only
  repeat' first
    | with_reducible exact Keeps.refl _
    | assumption
    | with_reducible refine Keeps.ite ?_ ?_
    | with_reducible refine Keeps.trans ?_ (State.enter_keeps ..)
    | with_reducible refine Keeps.trans ?_ (State.fault_keeps ..)
    | with_reducible refine Keeps.trans ?_ (State.nextHop_keeps ..)
    | with_reducible refine Keeps.trans ?_ (State.noPath_keeps ..)
    | with_reducible refine Keeps.trans ?_ (State.refuse_keeps ..)
    | with_reducible refine Keeps.trans ?_ (State.returnCredits_keeps ..)
    | (with_reducible refine Keeps.trans ?_ (Keeps.foldl _ _ _ ?_); intro s x; dsimp only)
    | split
  all_goals simp +contextual (maxDischargeDepth := 60) [Keeps, Tables]

end Sys2Proof.Machine
end

