-- ==== Sys2Proof/Laws/KeepsCm.lean ====
section
/-! SUPPORT. What the operations of Machine/Cm.lean leave alone. -/

namespace Sys2Proof.Machine

@[simp] theorem State.toAgentWith_keeps (s : State) (a : Agent) (tag : ℕ) (st : CplStatus) (data : List Byte) :
    Keeps s (State.toAgentWith s a tag st data) := by
  unfold State.toAgentWith
  try dsimp only
  repeat' first
    | with_reducible exact Keeps.refl _
    | assumption
    | with_reducible refine Keeps.ite ?_ ?_
    | with_reducible refine Keeps.trans ?_ (State.backTo_keeps ..)
    | with_reducible refine Keeps.trans ?_ (State.hostReply_keeps ..)
    | (with_reducible refine Keeps.trans ?_ (Keeps.foldl _ _ _ ?_); intro s x; dsimp only)
    | split
  all_goals simp +contextual (maxDischargeDepth := 60) [Keeps, Tables]

@[simp] theorem State.toAgent_keeps (s : State) (a : Agent) (tag : ℕ) (data : List Byte) :
    Keeps s (State.toAgent s a tag data) := by
  unfold State.toAgent
  (repeat' split) <;> simp +contextual (maxDischargeDepth := 60) [Keeps, Tables]

@[simp] theorem State.toAgentErr_keeps (s : State) (a : Agent) (tag : ℕ) (st : CplStatus) :
    Keeps s (State.toAgentErr s a tag st) := by
  unfold State.toAgentErr
  (repeat' split) <;> simp +contextual (maxDischargeDepth := 60) [Keeps, Tables]

@[simp] theorem State.cmRefuse_keeps (s : State) (ag : Agent) (req : ReqType) (o : ℕ) (len : ℕ) (g : Gate) :
    Keeps s (State.cmRefuse s ag req o len g) := by
  unfold State.cmRefuse
  (repeat' split) <;> simp +contextual (maxDischargeDepth := 60) [Keeps, Tables]

@[simp] theorem State.cmDenyRead_keeps (s : State) (ag : Agent) (req : ReqType) (o : ℕ) (len : ℕ) (tag : ℕ) (g : Gate) :
    Keeps s (State.cmDenyRead s ag req o len tag g) := by
  simp +contextual [Keeps, Tables, State.cmDenyRead]

@[simp] theorem State.winDiscard_keeps (s : State) (w : ℕ) :
    Keeps s (State.winDiscard s w) := by
  simp +contextual [Keeps, Tables, State.winDiscard]

@[simp] theorem State.dropHeld_keeps (s : State) (h : HeldStore) :
    Keeps s (State.dropHeld s h) := by
  simp +contextual [Keeps, Tables, State.dropHeld]

@[simp] theorem State.discardHeld_keeps (s : State) (f : HeldStore → Bool) :
    Keeps s (State.discardHeld s f) := by
  simp +contextual [Keeps, Tables, State.discardHeld]

theorem cmWrite_wf (m : List Host.Cell) (a : ℕ) (bs : List Byte) (h : Memory.wf m = true) : Memory.wf (cmWrite m a bs) = true := by
  induction bs generalizing m a with
  | nil => exact h
  | cons b bs ih =>
    refine ih _ _ ?_
    split
    · rw [Memory.wf, Bool.and_eq_true] at h ⊢
      refine ⟨twf_tput (fun _ => (0 : Byte)) m a b h.1, ?_⟩
      have h2 := h.2
      rw [List.all_eq_true] at h2 ⊢
      intro e he
      rcases mem_tput he with rfl | he
      · exact decide_eq_true ‹_›
      · exact h2 e he
    · exact h
@[simp] theorem State.applyStore_stores (s : State) (ag : Agent) (a : ℕ) (data : List Byte) : Stores s (State.applyStore s ag a data) :=
  ⟨rfl, fun h => cmWrite_wf _ _ _ h, rfl, rfl, id, id, id, id⟩

@[simp] theorem State.scResolve_keeps (s : State) (v : ℕ) (w : ℕ) (reason : ℕ) :
    Keeps s (State.scResolve s v w reason) := by
  simp +contextual (maxDischargeDepth := 60) [Keeps, Tables, State.scResolve]

@[simp] theorem State.scAnswer_keeps (s : State) (v : ℕ) :
    Keeps s (State.scAnswer s v) := by
  simp +contextual (maxDischargeDepth := 60) [Keeps, Tables, State.scAnswer]

@[simp] theorem State.dropResv_keeps (s : State) (a : Agent) :
    Keeps s (State.dropResv s a) := by
  simp +contextual [Keeps, Tables, State.dropResv]

@[simp] theorem State.applyHeld_stores (s : State) (v : ViewId) (h : HeldStore) :
    Stores s (State.applyHeld s v h) := by
  unfold State.applyHeld
  (repeat' split) <;> simp +contextual (maxDischargeDepth := 60) [Stores, Tables]

@[simp] theorem State.drainLine_stores (x0 : ℕ) (x1 : State) (x2 : ViewId) (x3 : ℕ) :
    Stores x1 (State.drainLine x0 x1 x2 x3) := by
  fun_induction State.drainLine x0 x1 x2 x3 <;> simp +contextual (maxDischargeDepth := 60) [Stores, Tables, *]

@[simp] theorem State.drainView_stores (x0 : ℕ) (x1 : State) (x2 : ViewId) :
    Stores x1 (State.drainView x0 x1 x2) := by
  fun_induction State.drainView x0 x1 x2 <;> simp +contextual (maxDischargeDepth := 60) [Stores, Tables, *]

@[simp] theorem State.drainBuffer_stores (s : State) (v : ViewId) :
    Stores s (State.drainBuffer s v) := by
  simp +contextual [Stores, Tables, State.drainBuffer]

@[simp] theorem State.drainFor_stores (s : State) (a : Agent) (line : ℕ) :
    Stores s (State.drainFor s a line) := by
  unfold State.drainFor
  (repeat' split) <;> simp +contextual (maxDischargeDepth := 60) [Stores, Tables]

@[simp] theorem State.setPending_keeps (s : State) (v : ℕ) (n : ℕ) :
    Keeps s (State.setPending s v n) := by
  simp +contextual [Keeps, Tables, State.setPending]

@[simp] theorem State.answerStatus_keeps (s : State) (v : ℕ) :
    Keeps s (State.answerStatus s v) := by
  simp +contextual [Keeps, Tables, State.answerStatus]

@[simp] theorem State.barrierDone_keeps (s : State) (v : ℕ) :
    Keeps s (State.barrierDone s v) := by
  simp only [State.barrierDone]
  (repeat' split) <;> simp +contextual (maxDischargeDepth := 60) [Keeps, Tables, *]

@[simp] theorem State.cmViewReset_keeps (s : State) (v : ViewId) :
    Keeps s (State.cmViewReset s v) := by
  simp +contextual (maxDischargeDepth := 60) [Keeps, Tables, State.cmViewReset]

@[simp] theorem State.cmPortContained_keeps (s : State) (v : ViewId) :
    Keeps s (State.cmPortContained s v) := by
  simp +contextual [Keeps, Tables, State.cmPortContained]

@[simp] theorem State.cmWindowContained_keeps (s : State) (w : ℕ) :
    Keeps s (State.cmWindowContained s w) := by
  unfold State.cmWindowContained
  try dsimp only
  repeat' first
    | with_reducible exact Keeps.refl _
    | assumption
    | with_reducible refine Keeps.ite ?_ ?_
    | (rw [State.upCms_eq]; with_reducible refine Keeps.trans ?_ (State.upCms_keeps ..))
    | with_reducible refine Keeps.trans ?_ (State.discardHeld_keeps ..)
    | with_reducible refine Keeps.trans ?_ (State.scAnswer_keeps ..)
    | with_reducible refine Keeps.trans ?_ (State.scResolve_keeps ..)
    | (with_reducible refine Keeps.trans ?_ (Keeps.foldl _ _ _ ?_); intro s x; dsimp only)
    | split
  all_goals simp +contextual (maxDischargeDepth := 60) [Keeps, Tables]

@[simp] theorem State.remoteAccess_keeps (s : State) (v : ViewId) (req : ReqType) (o : ℕ) (len : ℕ) (tag : ℕ) (data : List Byte) (cells : List CellIdx) :
    Keeps s (State.remoteAccess s v req o len tag data cells) := by
  simp +contextual [Keeps, Tables, State.remoteAccess]

@[simp] theorem State.settleConds_stores (s : State) (a : Agent) (line : ℕ) :
    Stores s (State.settleConds s a line) := by
  unfold State.settleConds
  try dsimp only
  repeat' first
    | with_reducible exact (Keeps.refl _).toStores
    | assumption
    | with_reducible refine Stores.ite ?_ ?_
    | with_reducible refine Stores.trans ?_ (State.drainFor_stores ..)
    | fail
    | split
  all_goals simp +contextual (maxDischargeDepth := 60) [Stores, Tables]

@[simp] theorem State.readLine_stores (s : State) (r : CmPart) :
    Stores s (State.readLine s r) := by
  unfold State.readLine
  try dsimp only
  repeat' first
    | with_reducible exact (Keeps.refl _).toStores
    | assumption
    | with_reducible refine Stores.ite ?_ ?_
    | (rw [State.upCms_eq]; with_reducible refine Stores.trans ?_ (State.upCms_keeps ..).toStores)
    | with_reducible refine Stores.trans ?_ (State.settleConds_stores ..)
    | with_reducible refine Stores.trans ?_ (State.toAgent_keeps ..).toStores
    | fail
    | split
  all_goals simp +contextual (maxDischargeDepth := 60) [Stores, Tables]

@[simp] theorem State.readLines_stores (s : State) (x0 : List CmPart) :
    Stores s (State.readLines s x0) := by
  induction x0 generalizing s with
  | nil => first | exact (Keeps.refl _).toStores | simp +contextual (maxDischargeDepth := 60) [Stores, Tables, State.readLines]
  | cons a as ih =>
    unfold State.readLines
    try dsimp only
    repeat' first
      | with_reducible exact (Keeps.refl _).toStores
      | assumption
      | with_reducible refine Stores.trans ?_ (ih ..)
      | with_reducible refine Stores.ite ?_ ?_
      | with_reducible refine Stores.trans ?_ (State.readLine_stores ..)
      | fail
      | split
    all_goals simp +contextual (maxDischargeDepth := 60) [Stores, Tables]

@[simp] theorem State.readSome_stores (s : State) (f : CmPart → Bool) :
    Stores s (State.readSome s f) := by
  simp +contextual [Stores, Tables, State.readSome]

@[simp] theorem State.finishReads_stores (a : Agent) (x0 : ℕ) (x1 : State) :
    Stores x1 (State.finishReads a x0 x1) := by
  fun_induction State.finishReads a x0 x1 <;> simp +contextual (maxDischargeDepth := 60) [Stores, Tables, *]

@[simp] theorem State.farDone_keeps (s : State) (a : Agent) :
    Keeps s (State.farDone s a) := by
  unfold State.farDone
  try dsimp only
  repeat' first
    | with_reducible exact Keeps.refl _
    | assumption
    | with_reducible refine Keeps.ite ?_ ?_
    | with_reducible refine Keeps.trans ?_ (State.notice_keeps ..)
    | (with_reducible refine Keeps.trans ?_ (Keeps.foldl _ _ _ ?_); intro s x; dsimp only)
    | split
  all_goals simp +contextual (maxDischargeDepth := 60) [Keeps, Tables]

@[simp] theorem State.storeLine_stores (s : State) (x : CmPart) :
    Stores s (State.storeLine s x) := by
  unfold State.storeLine
  try dsimp only
  repeat' first
    | with_reducible exact (Keeps.refl _).toStores
    | assumption
    | with_reducible refine Stores.ite ?_ ?_
    | (rw [State.upCms_eq]; with_reducible refine Stores.trans ?_ (State.upCms_keeps ..).toStores)
    | with_reducible refine Stores.trans ?_ (State.applyStore_stores ..)
    | with_reducible refine Stores.trans ?_ (State.farDone_keeps ..).toStores
    | with_reducible refine Stores.trans ?_ (State.take_keeps ..).toStores
    | fail
    | split
  all_goals simp +contextual (maxDischargeDepth := 60) [Stores, Tables]

@[simp] theorem State.storeLines_stores (s : State) (x0 : List CmPart) :
    Stores s (State.storeLines s x0) := by
  induction x0 generalizing s with
  | nil => first | exact (Keeps.refl _).toStores | simp +contextual (maxDischargeDepth := 60) [Stores, Tables, State.storeLines]
  | cons a as ih =>
    unfold State.storeLines
    try dsimp only
    repeat' first
      | with_reducible exact (Keeps.refl _).toStores
      | assumption
      | with_reducible refine Stores.trans ?_ (ih ..)
      | with_reducible refine Stores.ite ?_ ?_
      | with_reducible refine Stores.trans ?_ (State.storeLine_stores ..)
      | fail
      | split
    all_goals simp +contextual (maxDischargeDepth := 60) [Stores, Tables]

@[simp] theorem State.storeSome_stores (s : State) (f : CmPart → Bool) :
    Stores s (State.storeSome s f) := by
  simp +contextual [Stores, Tables, State.storeSome]

@[simp] theorem State.finishStores_stores (a : Agent) (x0 : ℕ) (x1 : State) :
    Stores x1 (State.finishStores a x0 x1) := by
  fun_induction State.finishStores a x0 x1 <;> simp +contextual (maxDischargeDepth := 60) [Stores, Tables, *]

@[simp] theorem State.finish_stores (s : State) (a : Agent) :
    Stores s (State.finish s a) := by
  simp +contextual [Stores, Tables, State.finish]

@[simp] theorem State.scFailed_keeps (s : State) (v : ViewId) (a : ℕ) (reason : ℕ) :
    Keeps s (State.scFailed s v a reason) := by
  unfold State.scFailed
  try dsimp only
  repeat' first
    | with_reducible exact Keeps.refl _
    | assumption
    | with_reducible refine Keeps.ite ?_ ?_
    | (rw [State.upCms_eq]; with_reducible refine Keeps.trans ?_ (State.upCms_keeps ..))
    | with_reducible refine Keeps.trans ?_ (State.dropResv_keeps ..)
    | with_reducible refine Keeps.trans ?_ (State.scResolve_keeps ..)
    | (with_reducible refine Keeps.trans ?_ (Keeps.foldl _ _ _ ?_); intro s x; dsimp only)
    | split
  all_goals simp +contextual (maxDischargeDepth := 60) [Keeps, Tables]

@[simp] theorem State.storeIn_keeps (s : State) (v : ViewId) (offset : ℕ) (data : List Byte) (cells : List CellIdx) :
    ∀ t, State.storeIn s v offset data cells = some t → Keeps s t := by
  unfold State.storeIn
  try dsimp only
  repeat' first
    | with_reducible exact Keeps.refl _
    | assumption
    | with_reducible refine Keeps.ite ?_ ?_
    | (rw [State.upCms_eq]; with_reducible refine Keeps.trans ?_ (State.upCms_keeps ..))
    | with_reducible refine Keeps.trans ?_ (State.cmRefuse_keeps ..)
    | with_reducible refine Keeps.trans ?_ (State.countDiscard_keeps ..)
    | with_reducible refine Keeps.trans ?_ (State.emit_keeps ..)
    | with_reducible refine Keeps.trans ?_ (State.remoteAccess_keeps ..)
    | with_reducible refine Keeps.trans ?_ (State.scFailed_keeps ..)
    | with_reducible refine Keeps.trans ?_ (State.winDiscard_keeps ..)
    | (with_reducible refine Keeps.trans ?_ (Keeps.foldl _ _ _ ?_); intro s x; dsimp only)
    | split
  all_goals simp +contextual (maxDischargeDepth := 60) [Keeps, Tables]

@[simp] theorem State.barrierIn_keeps (s : State) (v : ViewId) (value : ℕ) :
    ∀ t, State.barrierIn s v value = some t → Keeps s t := by
  simp +contextual [Keeps, Tables, State.barrierIn]

@[simp] theorem State.writeIn_keeps (s : State) (v : ViewId) (w : CmWait) (cells : List CellIdx) :
    ∀ t, State.writeIn s v w cells = some t → Keeps s t := by
  intro t h
  unfold State.writeIn at h
  split at h
  · exact State.barrierIn_keeps _ _ _ t h
  · exact State.storeIn_keeps _ _ _ _ _ t h

@[simp] theorem State.retryWaits_keeps (n : ℕ) (s : State) (v : ViewId) : Keeps s (State.retryWaits n s v) := by
  induction n generalizing s with
  | zero => exact Keeps.refl s
  | succ n ih =>
    unfold State.retryWaits
    split
    · exact Keeps.refl s
    · split
      · exact Keeps.refl s
      · split
        · exact Keeps.refl s
        · rename_i t ht
          refine (State.writeIn_keeps _ _ _ _ t ht).trans (Keeps.trans ?_ (ih _))
          rw [State.upCms_eq]
          exact State.upCms_keeps ..

@[simp] theorem State.retryViews_keeps (s : State) (x0 : List ℕ) :
    Keeps s (State.retryViews s x0) := by
  induction x0 generalizing s with
  | nil => first | exact Keeps.refl _ | simp +contextual (maxDischargeDepth := 60) [Keeps, Tables, State.retryViews]
  | cons a as ih =>
    unfold State.retryViews
    try dsimp only
    repeat' first
      | with_reducible exact Keeps.refl _
      | assumption
      | with_reducible refine Keeps.trans ?_ (ih ..)
      | with_reducible refine Keeps.ite ?_ ?_
      | with_reducible refine Keeps.trans ?_ (State.retryWaits_keeps ..)
      | (with_reducible refine Keeps.trans ?_ (Keeps.foldl _ _ _ ?_); intro s x; dsimp only)
      | split
    all_goals simp +contextual (maxDischargeDepth := 60) [Keeps, Tables]

@[simp] theorem State.writeArrives_keeps (s : State) (v : ViewId) (w : CmWait) (cells : List CellIdx) :
    Keeps s (State.writeArrives s v w cells) := by
  unfold State.writeArrives
  dsimp only
  rw [State.upCms_eq]
  split
  · exact State.upCms_keeps ..
  · cases h : s.writeIn v w cells with
    | none => exact State.upCms_keeps ..
    | some t => exact State.writeIn_keeps _ _ _ _ t h

@[simp] theorem State.sendNotices_keeps (s : State) (x0 : List Notice) :
    Keeps s (State.sendNotices s x0) := by
  induction x0 generalizing s with
  | nil => first | exact Keeps.refl _ | simp +contextual (maxDischargeDepth := 60) [Keeps, Tables, State.sendNotices]
  | cons a as ih =>
    unfold State.sendNotices
    try dsimp only
    repeat' first
      | with_reducible exact Keeps.refl _
      | assumption
      | with_reducible refine Keeps.trans ?_ (ih ..)
      | with_reducible refine Keeps.ite ?_ ?_
      | with_reducible refine Keeps.trans ?_ (State.sendMsg_keeps ..)
      | (with_reducible refine Keeps.trans ?_ (Keeps.foldl _ _ _ ?_); intro s x; dsimp only)
      | split
    all_goals simp +contextual (maxDischargeDepth := 60) [Keeps, Tables]

@[simp] theorem State.cmTick_stores (s : State) :
    Stores s (State.cmTick s) := by
  unfold State.cmTick
  try dsimp only
  repeat' first
    | with_reducible exact (Keeps.refl _).toStores
    | assumption
    | with_reducible refine Stores.ite ?_ ?_
    | (rw [State.upCms_eq]; with_reducible refine Stores.trans ?_ (State.upCms_keeps ..).toStores)
    | with_reducible refine Stores.trans ?_ (State.readSome_stores ..)
    | with_reducible refine Stores.trans ?_ (State.retryViews_keeps ..).toStores
    | with_reducible refine Stores.trans ?_ (State.sendNotices_keeps ..).toStores
    | with_reducible refine Stores.trans ?_ (State.storeSome_stores ..)
    | fail
    | split
  all_goals simp +contextual (maxDischargeDepth := 60) [Stores, Tables]

@[simp] theorem State.ltVisible_keeps (s : State) (v : ℕ) (id : ℕ) :
    Keeps s (State.ltVisible s v id) := by
  simp +contextual [Keeps, Tables, State.ltVisible]

@[simp] theorem State.farVisible_keeps (s : State) (id : ℕ) :
    Keeps s (State.farVisible s id) := by
  unfold State.farVisible
  (repeat' split) <;> simp +contextual (maxDischargeDepth := 60) [Keeps, Tables]

@[simp] theorem State.barriersDone_keeps (x0 : ℕ) (x1 : State) (x2 : ℕ) :
    Keeps x1 (State.barriersDone x0 x1 x2) := by
  fun_induction State.barriersDone x0 x1 x2 <;> simp +contextual (maxDischargeDepth := 60) [Keeps, Tables, *]

end Sys2Proof.Machine
end

