-- ==== Sys2Proof/Laws/KeepsAllot.lean ====
section
/-! SUPPORT. What the operations of Machine/Allot.lean leave alone. -/

namespace Sys2Proof.Machine

@[simp] theorem opBad_keeps (s : State) (st : Status) :
    Keeps s ((opBad s st).st) := by
  simp +contextual [Keeps, Tables, opBad]

@[simp] theorem opOk_keeps (s : State) (changed : List ℕ) :
    Keeps s ((opOk s changed).st) := by
  simp +contextual [Keeps, Tables, opOk]

@[simp] theorem opDst_keeps (s : State) (changed : List ℕ) (w : Word) :
    Keeps s ((opDst s changed w).st) := by
  simp +contextual [Keeps, Tables, opDst]

@[simp] theorem State.take_keeps (s : State) (t : ℕ) (r : ℕ) (obj : ℕ) :
    Keeps s (State.take s t r obj) := by
  simp +contextual [Keeps, Tables, State.take]

@[simp] theorem State.giveBack_keeps (s : State) (t : ℕ) (r : ℕ) (obj : ℕ) :
    Keeps s (State.giveBack s t r obj) := by
  simp +contextual [Keeps, Tables, State.giveBack]

@[simp] theorem opNores_keeps (s : State) (t : ℕ) :
    Keeps s ((opNores s t).st) := by
  simp +contextual [Keeps, Tables, opNores]

end Sys2Proof.Machine
end

