-- ==== Sys2Proof/Laws/KeepsLighter.lean ====
section
/-! SUPPORT. What the operations of Machine/Lighter.lean leave alone. -/

namespace Sys2Proof.Machine

@[simp] theorem State.dropRun_keeps (s : State) (q : ℕ) :
    Keeps s (State.dropRun s q) := by
  simp +contextual [Keeps, Tables, State.dropRun]

@[simp] theorem State.askPage_keeps (s : State) (t : ℕ) (p : PageRef) :
    Keeps s (State.askPage s t p) := by
  simp +contextual [Keeps, Tables, State.askPage]

@[simp] theorem State.hostPost_keeps (s : State) (v : ℕ) (t : ℕ) (body : Body) (data : List Byte) :
    Keeps s (State.hostPost s v t body data) := by
  unfold State.hostPost
  try dsimp only
  repeat' first
    | with_reducible exact Keeps.refl _
    | assumption
    | with_reducible refine Keeps.ite ?_ ?_
    | with_reducible refine Keeps.trans ?_ (State.draw_keeps ..)
    | with_reducible refine Keeps.trans ?_ (State.originate_keeps ..)
    | (with_reducible refine Keeps.trans ?_ (Keeps.foldl _ _ _ ?_); intro s x; dsimp only)
    | split
  all_goals simp +contextual (maxDischargeDepth := 60) [Keeps, Tables]

@[simp] theorem State.hostReads_keeps (s : State) (v : ℕ) (t : ℕ) (x0 : List (ℕ × ℕ)) :
    Keeps s (State.hostReads s v t x0) := by
  induction x0 generalizing s v t with
  | nil => first | exact Keeps.refl _ | simp +contextual (maxDischargeDepth := 60) [Keeps, Tables, State.hostReads]
  | cons a as ih =>
    unfold State.hostReads
    try dsimp only
    repeat' first
      | with_reducible exact Keeps.refl _
      | assumption
      | with_reducible refine Keeps.trans ?_ (ih ..)
      | with_reducible refine Keeps.ite ?_ ?_
      | with_reducible refine Keeps.trans ?_ (State.emit_keeps ..)
      | (with_reducible refine Keeps.trans ?_ (Keeps.foldl _ _ _ ?_); intro s x; dsimp only)
      | split
    all_goals simp +contextual (maxDischargeDepth := 60) [Keeps, Tables]

@[simp] theorem State.hostWrites_keeps (s : State) (v : ℕ) (t : ℕ) (q : Option ℕ) (data : List Byte) (x0 : List (ℕ × ℕ)) :
    Keeps s (State.hostWrites s v t q data x0) := by
  induction x0 generalizing s v t q data with
  | nil => first | exact Keeps.refl _ | simp +contextual (maxDischargeDepth := 60) [Keeps, Tables, State.hostWrites]
  | cons a as ih =>
    unfold State.hostWrites
    try dsimp only
    repeat' first
      | with_reducible exact Keeps.refl _
      | assumption
      | with_reducible refine Keeps.trans ?_ (ih ..)
      | with_reducible refine Keeps.ite ?_ ?_
      | with_reducible refine Keeps.trans ?_ (State.hostPost_keeps ..)
      | with_reducible refine Keeps.trans ?_ (State.setRun_keeps ..)
      | with_reducible refine Keeps.trans ?_ (State.take_keeps ..)
      | (with_reducible refine Keeps.trans ?_ (Keeps.foldl _ _ _ ?_); intro s x; dsimp only)
      | split
    all_goals simp +contextual (maxDischargeDepth := 60) [Keeps, Tables]

@[simp] theorem State.touchCtx_keeps (s : State) (k : ℕ) :
    Keeps s (State.touchCtx s k) := by
  simp +contextual [Keeps, Tables, State.touchCtx]

@[simp] theorem State.touchAll_keeps (s : State) (x0 : List ℕ) :
    Keeps s (State.touchAll s x0) := by
  induction x0 generalizing s with
  | nil => first | exact Keeps.refl _ | simp +contextual (maxDischargeDepth := 60) [Keeps, Tables, State.touchAll]
  | cons a as ih =>
    unfold State.touchAll
    try dsimp only
    repeat' first
      | with_reducible exact Keeps.refl _
      | assumption
      | with_reducible refine Keeps.trans ?_ (ih ..)
      | with_reducible refine Keeps.ite ?_ ?_
      | with_reducible refine Keeps.trans ?_ (State.touchCtx_keeps ..)
      | (with_reducible refine Keeps.trans ?_ (Keeps.foldl _ _ _ ?_); intro s x; dsimp only)
      | split
    all_goals simp +contextual (maxDischargeDepth := 60) [Keeps, Tables]

@[simp] theorem State.ctxMiss_keeps (s : State) (k : ℕ) :
    Keeps s (State.ctxMiss s k) := by
  simp +contextual [Keeps, Tables, State.ctxMiss]

@[simp] theorem State.ltSeal_keeps (s : State) (pk : LighterPkt) :
    Keeps s ((State.ltSeal s pk).1) := by
  unfold State.ltSeal
  try dsimp only
  repeat' first
    | with_reducible exact Keeps.refl _
    | assumption
    | with_reducible refine Keeps.ite ?_ ?_
    | with_reducible refine Keeps.trans ?_ (State.takeInjection_keeps ..)
    | (with_reducible refine Keeps.trans ?_ (Keeps.foldl _ _ _ ?_); intro s x; dsimp only)
    | split
  all_goals simp +contextual (maxDischargeDepth := 60) [Keeps, Tables]

@[simp] theorem State.ltSend_keeps (s0 : State) (t : ℕ) (dev : ℕ) (pk : LighterPkt) :
    Keeps s0 (State.ltSend s0 t dev pk) := by
  simp +contextual (maxDischargeDepth := 60) [Keeps, Tables, State.ltSend]

@[simp] theorem State.ltReply_keeps (s : State) (pk : LighterPkt) (typ : ℕ) (psn : ℕ) (off : ℕ) (payload : List Byte) :
    Keeps s (State.ltReply s pk typ psn off payload) := by
  simp +contextual [Keeps, Tables, State.ltReply]

@[simp] theorem State.ltToPeer_keeps (s : State) (q : ℕ) (typ : ℕ) (psn : ℕ) (off : ℕ) (sack : BitVec 256) :
    Keeps s (State.ltToPeer s q typ psn off sack) := by
  simp +contextual [Keeps, Tables, State.ltToPeer]

@[simp] theorem State.ltNak_keeps (s : State) (pk : LighterPkt) (code : ℕ) :
    Keeps s (State.ltNak s pk code) := by
  simp +contextual [Keeps, Tables, State.ltNak]

@[simp] theorem State.keyNak_keeps (s : State) (pk : LighterPkt) :
    Keeps s (State.keyNak s pk) := by
  unfold State.keyNak
  try dsimp only
  repeat' first
    | with_reducible exact Keeps.refl _
    | assumption
    | with_reducible refine Keeps.ite ?_ ?_
    | with_reducible refine Keeps.trans ?_ (State.addSat_keeps ..)
    | with_reducible refine Keeps.trans ?_ (State.ltNak_keeps ..)
    | (with_reducible refine Keeps.trans ?_ (Keeps.foldl _ _ _ ?_); intro s x; dsimp only)
    | split
  all_goals simp +contextual (maxDischargeDepth := 60) [Keeps, Tables]

@[simp] theorem State.ltQuiet_keeps (s : State) (q : ℕ) :
    Keeps s (State.ltQuiet s q) := by
  simp +contextual [Keeps, Tables, State.ltQuiet]

@[simp] theorem State.qpToError_keeps (s : State) (q : ℕ) :
    Keeps s (State.qpToError s q) := by
  simp +contextual (maxDischargeDepth := 60) [Keeps, Tables, State.qpToError]

@[simp] theorem State.qpsToError_keeps (s : State) (x0 : List ℕ) :
    Keeps s (State.qpsToError s x0) := by
  fun_induction State.qpsToError s x0 <;> simp +contextual (maxDischargeDepth := 60) [Keeps, Tables, *]

@[simp] theorem State.ltBroken_keeps (s : State) (pk : LighterPkt) :
    Keeps s (State.ltBroken s pk) := by
  unfold State.ltBroken
  try dsimp only
  repeat' first
    | with_reducible exact Keeps.refl _
    | assumption
    | with_reducible refine Keeps.ite ?_ ?_
    | with_reducible refine Keeps.trans ?_ (State.fault_keeps ..)
    | with_reducible refine Keeps.trans ?_ (State.ltCount_keeps ..)
    | (with_reducible refine Keeps.trans ?_ (Keeps.foldl _ _ _ ?_); intro s x; dsimp only)
    | split
  all_goals simp +contextual (maxDischargeDepth := 60) [Keeps, Tables]

@[simp] theorem State.cqOverflow_keeps (s : State) (c : ℕ) :
    Keeps s (State.cqOverflow s c) := by
  simp +contextual (maxDischargeDepth := 60) [Keeps, Tables, State.cqOverflow]

@[simp] theorem State.cqInterrupt_keeps (s : State) (v : ℕ) (c : ℕ) :
    Keeps s (State.cqInterrupt s v c) := by
  simp +contextual [Keeps, Tables, State.cqInterrupt]

@[simp] theorem State.complete_keeps (s : State) (q : ℕ) (recv : Bool) (idx : ℕ) (wrId : Word) (op : ℕ) (status : ℕ) (imm : ℕ) (bytes : ℕ) (disc : ℕ) :
    Keeps s (State.complete s q recv idx wrId op status imm bytes disc) := by
  simp only [State.complete]
  (repeat' split) <;> simp +contextual (maxDischargeDepth := 60) [Keeps, Tables, *]

@[simp] theorem State.failWr_keeps (s : State) (q : ℕ) (idx : ℕ) (status : ℕ) :
    Keeps s (State.failWr s q idx status) := by
  simp +contextual [Keeps, Tables, State.failWr]

@[simp] theorem State.failMsg_keeps (s : State) (q : ℕ) (seq : ℕ) (status : ℕ) :
    Keeps s (State.failMsg s q seq status) := by
  simp +contextual [Keeps, Tables, State.failMsg]

@[simp] theorem State.dbError_keeps (s : State) (f : LighterFn) :
    Keeps s (State.dbError s f) := by
  simp +contextual [Keeps, Tables, State.dbError]

@[simp] theorem State.sendWait_keeps (s : State) (q : ℕ) (p : PageRef) :
    Keeps s (State.sendWait s q p) := by
  simp +contextual [Keeps, Tables, State.sendWait]

@[simp] theorem State.advanceBase_keeps (s : State) (q : ℕ) :
    Keeps s (State.advanceBase s q) := by
  simp only [State.advanceBase]
  (repeat' split) <;> simp +contextual (maxDischargeDepth := 60) [Keeps, Tables, *]

@[simp] theorem State.takeAck_keeps (s : State) (pk : LighterPkt) :
    Keeps s (State.takeAck s pk) := by
  unfold State.takeAck
  try dsimp only
  repeat' first
    | with_reducible exact Keeps.refl _
    | assumption
    | with_reducible refine Keeps.ite ?_ ?_
    | with_reducible refine Keeps.trans ?_ (State.advanceBase_keeps ..)
    | with_reducible refine Keeps.trans ?_ (State.ltBroken_keeps ..)
    | with_reducible refine Keeps.trans ?_ (State.ltCount_keeps ..)
    | with_reducible refine Keeps.trans ?_ (State.setRun_keeps ..)
    | (with_reducible refine Keeps.trans ?_ (Keeps.foldl _ _ _ ?_); intro s x; dsimp only)
    | split
  all_goals simp +contextual (maxDischargeDepth := 60) [Keeps, Tables]

@[simp] theorem State.takeAcks_keeps (s : State) (x0 : List LighterPkt) :
    Keeps s (State.takeAcks s x0) := by
  induction x0 generalizing s with
  | nil => first | exact Keeps.refl _ | simp +contextual (maxDischargeDepth := 60) [Keeps, Tables, State.takeAcks]
  | cons a as ih =>
    unfold State.takeAcks
    try dsimp only
    repeat' first
      | with_reducible exact Keeps.refl _
      | assumption
      | with_reducible refine Keeps.trans ?_ (ih ..)
      | with_reducible refine Keeps.ite ?_ ?_
      | with_reducible refine Keeps.trans ?_ (State.takeAck_keeps ..)
      | (with_reducible refine Keeps.trans ?_ (Keeps.foldl _ _ _ ?_); intro s x; dsimp only)
      | split
    all_goals simp +contextual (maxDischargeDepth := 60) [Keeps, Tables]

@[simp] theorem State.takeNak_keeps (s : State) (pk : LighterPkt) :
    Keeps s (State.takeNak s pk) := by
  unfold State.takeNak
  try dsimp only
  repeat' first
    | with_reducible exact Keeps.refl _
    | assumption
    | with_reducible refine Keeps.ite ?_ ?_
    | with_reducible refine Keeps.trans ?_ (State.failWr_keeps ..)
    | with_reducible refine Keeps.trans ?_ (State.ltBroken_keeps ..)
    | with_reducible refine Keeps.trans ?_ (State.ltCount_keeps ..)
    | with_reducible refine Keeps.trans ?_ (State.put_keeps ..)
    | with_reducible refine Keeps.trans ?_ (State.setRun_keeps ..)
    | (with_reducible refine Keeps.trans ?_ (Keeps.foldl _ _ _ ?_); intro s x; dsimp only)
    | split
  all_goals simp +contextual (maxDischargeDepth := 60) [Keeps, Tables]

@[simp] theorem State.resends_keeps (s : State) (q : ℕ) (x0 : List SentPkt) :
    Keeps s (State.resends s q x0) := by
  fun_induction State.resends s q x0 <;> simp +contextual (maxDischargeDepth := 60) [Keeps, Tables, *]

@[simp] theorem State.placedAt_keeps (s : State) (q : ℕ) (psn : ℕ) (last : Bool) :
    Keeps s (State.placedAt s q psn last) := by
  simp +contextual [Keeps, Tables, State.placedAt]

@[simp] theorem State.wantAck_keeps (s : State) (q : ℕ) :
    Keeps s (State.wantAck s q) := by
  simp +contextual [Keeps, Tables, State.wantAck]

@[simp] theorem State.duplicate_keeps (s : State) (q : ℕ) :
    Keeps s (State.duplicate s q) := by
  simp +contextual (maxDischargeDepth := 60) [Keeps, Tables, State.duplicate]

@[simp] theorem State.fetchEntry_keeps (s : State) (pk : LighterPkt) :
    Keeps s (State.fetchEntry s pk) := by
  simp +contextual [Keeps, Tables, State.fetchEntry]

@[simp] theorem State.ltPark_keeps (s : State) (w : LtWait) :
    Keeps s (State.ltPark s w) := by
  simp +contextual [Keeps, Tables, State.ltPark]

@[simp] theorem State.ltRead_keeps (s : State) (pk : LighterPkt) (data : List Byte) (places : List (ℕ × ℕ)) :
    Keeps s (State.ltRead s pk data places) := by
  simp +contextual [Keeps, Tables, State.ltRead]

@[simp] theorem State.ltAtomic_keeps (s : State) (pk : LighterPkt) (old : List Byte) (places : List (ℕ × ℕ)) :
    Keeps s (State.ltAtomic s pk old places) := by
  unfold State.ltAtomic
  try dsimp only
  repeat' first
    | with_reducible exact Keeps.refl _
    | assumption
    | with_reducible refine Keeps.ite ?_ ?_
    | with_reducible refine Keeps.trans ?_ (State.emit_keeps ..)
    | with_reducible refine Keeps.trans ?_ (State.ltReply_keeps ..)
    | with_reducible refine Keeps.trans ?_ (State.setRun_keeps ..)
    | with_reducible refine Keeps.trans ?_ (State.take_keeps ..)
    | (with_reducible refine Keeps.trans ?_ (Keeps.foldl _ _ _ ?_); intro s x; dsimp only)
    | split
  all_goals simp +contextual (maxDischargeDepth := 60) [Keeps, Tables]

@[simp] theorem State.ltStore_keeps (s : State) (pk : LighterPkt) (key : ℕ) (m : Option RecvMsg) (places : List (ℕ × ℕ)) :
    Keeps s (State.ltStore s pk key m places) := by
  unfold State.ltStore
  try dsimp only
  repeat' first
    | with_reducible exact Keeps.refl _
    | assumption
    | with_reducible refine Keeps.ite ?_ ?_
    | with_reducible refine Keeps.trans ?_ (State.hostWrites_keeps ..)
    | with_reducible refine Keeps.trans ?_ (State.setRun_keeps ..)
    | (with_reducible refine Keeps.trans ?_ (Keeps.foldl _ _ _ ?_); intro s x; dsimp only)
    | split
  all_goals simp +contextual (maxDischargeDepth := 60) [Keeps, Tables]

@[simp] theorem State.ltPlace_keeps (s : State) (pk : LighterPkt) (host : HostReply) (m : Option RecvMsg) (dup : Bool) :
    Keeps s (State.ltPlace s pk host m dup) := by
  simp only [State.ltPlace]
  (repeat' split) <;> simp +contextual (maxDischargeDepth := 60) [Keeps, Tables, *]

@[simp] theorem State.ltEntry_keeps (s : State) (pk : LighterPkt) (host : HostReply) :
    Keeps s (State.ltEntry s pk host) := by
  unfold State.ltEntry
  (repeat' split) <;> simp +contextual (maxDischargeDepth := 60) [Keeps, Tables]

@[simp] theorem State.ltChecks_keeps (s : State) (pk : LighterPkt) (host : HostReply) (keyOk : Bool) (dup : Bool) :
    Keeps s (State.ltChecks s pk host keyOk dup) := by
  simp +contextual (maxDischargeDepth := 60) [Keeps, Tables, State.ltChecks]

@[simp] theorem State.ltRequest_keeps (s : State) (pk : LighterPkt) (host : HostReply) (keyOk : Bool) :
    Keeps s (State.ltRequest s pk host keyOk) := by
  simp only [State.ltRequest]
  (repeat' split) <;> simp +contextual (maxDischargeDepth := 60) [Keeps, Tables, *]

@[simp] theorem State.ltResponse_keeps (s : State) (pk : LighterPkt) :
    Keeps s (State.ltResponse s pk) := by
  simp only [State.ltResponse]
  (repeat' split) <;> simp +contextual (maxDischargeDepth := 60) [Keeps, Tables, *]

@[simp] theorem State.ltTake_keeps (s : State) (pk : LighterPkt) (host : HostReply) (keyOk : Bool) :
    Keeps s (State.ltTake s pk host keyOk) := by
  unfold State.ltTake
  try dsimp only
  repeat' first
    | with_reducible exact Keeps.refl _
    | assumption
    | with_reducible refine Keeps.ite ?_ ?_
    | with_reducible refine Keeps.trans ?_ (State.ltRequest_keeps ..)
    | with_reducible refine Keeps.trans ?_ (State.ltResponse_keeps ..)
    | with_reducible refine Keeps.trans ?_ (State.takeAck_keeps ..)
    | with_reducible refine Keeps.trans ?_ (State.takeNak_keeps ..)
    | (with_reducible refine Keeps.trans ?_ (Keeps.foldl _ _ _ ?_); intro s x; dsimp only)
    | split
  all_goals simp +contextual (maxDischargeDepth := 60) [Keeps, Tables]

@[simp] theorem State.ltArrive_keeps (s : State) (pk : LighterPkt) (host : HostReply) (keyOk : Bool) :
    Keeps s (State.ltArrive s pk host keyOk) := by
  unfold State.ltArrive
  try dsimp only
  repeat' first
    | with_reducible exact Keeps.refl _
    | assumption
    | with_reducible refine Keeps.ite ?_ ?_
    | with_reducible refine Keeps.trans ?_ (State.ctxMiss_keeps ..)
    | with_reducible refine Keeps.trans ?_ (State.ltPark_keeps ..)
    | with_reducible refine Keeps.trans ?_ (State.ltTake_keeps ..)
    | with_reducible refine Keeps.trans ?_ (State.touchAll_keeps ..)
    | (with_reducible refine Keeps.trans ?_ (Keeps.foldl _ _ _ ?_); intro s x; dsimp only)
    | split
  all_goals simp +contextual (maxDischargeDepth := 60) [Keeps, Tables]

@[simp] theorem State.ltResume_keeps (s : State) (x0 : List LtWait) :
    Keeps s (State.ltResume s x0) := by
  fun_induction State.ltResume s x0 <;> simp +contextual (maxDischargeDepth := 60) [Keeps, Tables, *]

@[simp] theorem State.ctxFilled_keeps (s : State) (k : ℕ) :
    Keeps s (State.ctxFilled s k) := by
  simp +contextual [Keeps, Tables, State.ctxFilled]

@[simp] theorem State.ltPageFailed_keeps (s : State) (w : LtWait) :
    Keeps s (State.ltPageFailed s w) := by
  unfold State.ltPageFailed
  try dsimp only
  repeat' first
    | with_reducible exact Keeps.refl _
    | assumption
    | with_reducible refine Keeps.ite ?_ ?_
    | with_reducible refine Keeps.trans ?_ (State.failWr_keeps ..)
    | with_reducible refine Keeps.trans ?_ (State.ltNak_keeps ..)
    | (with_reducible refine Keeps.trans ?_ (Keeps.foldl _ _ _ ?_); intro s x; dsimp only)
    | split
  all_goals simp +contextual (maxDischargeDepth := 60) [Keeps, Tables]

@[simp] theorem State.ltPagesFailed_keeps (s : State) (x0 : List LtWait) :
    Keeps s (State.ltPagesFailed s x0) := by
  induction x0 generalizing s with
  | nil => first | exact Keeps.refl _ | simp +contextual (maxDischargeDepth := 60) [Keeps, Tables, State.ltPagesFailed]
  | cons a as ih =>
    unfold State.ltPagesFailed
    try dsimp only
    repeat' first
      | with_reducible exact Keeps.refl _
      | assumption
      | with_reducible refine Keeps.trans ?_ (ih ..)
      | with_reducible refine Keeps.ite ?_ ?_
      | with_reducible refine Keeps.trans ?_ (State.ltPageFailed_keeps ..)
      | (with_reducible refine Keeps.trans ?_ (Keeps.foldl _ _ _ ?_); intro s x; dsimp only)
      | split
    all_goals simp +contextual (maxDischargeDepth := 60) [Keeps, Tables]

@[simp] theorem State.sendsFailed_keeps (s : State) (x0 : List ℕ) :
    Keeps s (State.sendsFailed s x0) := by
  induction x0 generalizing s with
  | nil => first | exact Keeps.refl _ | simp +contextual (maxDischargeDepth := 60) [Keeps, Tables, State.sendsFailed]
  | cons a as ih =>
    unfold State.sendsFailed
    try dsimp only
    repeat' first
      | with_reducible exact Keeps.refl _
      | assumption
      | with_reducible refine Keeps.trans ?_ (ih ..)
      | with_reducible refine Keeps.ite ?_ ?_
      | with_reducible refine Keeps.trans ?_ (State.failWr_keeps ..)
      | (with_reducible refine Keeps.trans ?_ (Keeps.foldl _ _ _ ?_); intro s x; dsimp only)
      | split
    all_goals simp +contextual (maxDischargeDepth := 60) [Keeps, Tables]

@[simp] theorem State.ltLost_keeps (s : State) (v : ℕ) :
    Keeps s (State.ltLost s v) := by
  simp +contextual [Keeps, Tables, State.ltLost]

@[simp] theorem State.commitSend_keeps (s : State) (q : ℕ) (w : WorkReq) (signal : Bool) :
    Keeps s (State.commitSend s q w signal) := by
  simp +contextual (maxDischargeDepth := 60) [Keeps, Tables, State.commitSend]

@[simp] theorem State.commitRecv_keeps (s : State) (q : ℕ) (m : RecvMsg) :
    Keeps s (State.commitRecv s q m) := by
  simp +contextual (maxDischargeDepth := 60) [Keeps, Tables, State.commitRecv]

@[simp] theorem State.flushedEntry_keeps (s : State) (entry : Option (List Word)) :
    Keeps s ((State.flushedEntry s entry).1) := by
  unfold State.flushedEntry
  (repeat' split) <;> simp +contextual (maxDischargeDepth := 60) [Keeps, Tables]

@[simp] theorem State.recvDue_keeps (s : State) (q : ℕ) (entry : Option (List Word)) :
    ∀ r, State.recvDue s q entry = some r → Keeps s r.1 := by
  unfold State.recvDue
  try dsimp only
  repeat' first
    | with_reducible exact Keeps.refl _
    | assumption
    | with_reducible refine Keeps.ite ?_ ?_
    | with_reducible refine Keeps.trans ?_ (State.flushedEntry_keeps ..)
    | (with_reducible refine Keeps.trans ?_ (Keeps.foldl _ _ _ ?_); intro s x; dsimp only)
    | split
  all_goals simp +contextual (maxDischargeDepth := 60) [Keeps, Tables]

@[simp] theorem State.sendDue_keeps (s : State) (q : ℕ) (entry : Option (List Word)) :
    ∀ r, State.sendDue s q entry = some r → Keeps s r.1 := by
  unfold State.sendDue
  try dsimp only
  repeat' first
    | with_reducible exact Keeps.refl _
    | assumption
    | with_reducible refine Keeps.ite ?_ ?_
    | with_reducible refine Keeps.trans ?_ (State.flushedEntry_keeps ..)
    | (with_reducible refine Keeps.trans ?_ (Keeps.foldl _ _ _ ?_); intro s x; dsimp only)
    | split
  all_goals simp +contextual (maxDischargeDepth := 60) [Keeps, Tables]

@[simp] theorem State.qpContext_keeps (s : State) (q : ℕ) (r : ObjReq) (st : ℕ) (gen : ℕ) :
    Keeps s (State.qpContext s q r st gen) := by
  simp +contextual [Keeps, Tables, State.qpContext]

@[simp] theorem State.qpCreate_keeps (s : State) (q : ℕ) (r : ObjReq) :
    Keeps s ((State.qpCreate s q r).st) := by
  simp only [State.qpCreate]
  (repeat' split) <;> simp +contextual (maxDischargeDepth := 60) [Keeps, Tables, *]

@[simp] theorem State.qpModify_keeps (s : State) (q : ℕ) (r : ObjReq) :
    Keeps s ((State.qpModify s q r).st) := by
  unfold State.qpModify
  (repeat' split) <;> simp +contextual (maxDischargeDepth := 60) [Keeps, Tables]

@[simp] theorem State.qpFlush_keeps (s : State) (q : ℕ) :
    Keeps s ((State.qpFlush s q).st) := by
  unfold State.qpFlush
  (repeat' split) <;> simp +contextual (maxDischargeDepth := 60) [Keeps, Tables]

@[simp] theorem State.qpGone_keeps (s : State) (q : ℕ) :
    Keeps s (State.qpGone s q) := by
  simp +contextual (maxDischargeDepth := 60) [Keeps, Tables, State.qpGone]

@[simp] theorem State.qpDestroy_keeps (s : State) (q : ℕ) :
    Keeps s ((State.qpDestroy s q).st) := by
  unfold State.qpDestroy
  (repeat' split) <;> simp +contextual (maxDischargeDepth := 60) [Keeps, Tables]

@[simp] theorem State.opQpctl_keeps (s : State) (q : ℕ) (r : ObjReq) :
    Keeps s ((State.opQpctl s q r).st) := by
  fun_cases State.opQpctl s q r <;> simp +contextual (maxDischargeDepth := 60) [Keeps, Tables, *]

@[simp] theorem State.opRegion_keeps (s : State) (i : ℕ) (r : ObjReq) :
    Keeps s ((State.opRegion s i r).st) := by
  simp only [State.opRegion]
  (repeat' split) <;> simp +contextual (maxDischargeDepth := 60) [Keeps, Tables, *]

@[simp] theorem State.opRevoke_keeps (s : State) (i : ℕ) (r : ObjReq) :
    Keeps s ((State.opRevoke s i r).st) := by
  unfold State.opRevoke
  (repeat' split) <;> simp +contextual (maxDischargeDepth := 60) [Keeps, Tables]

@[simp] theorem State.regionGone_keeps (s : State) (i : ℕ) :
    Keeps s (State.regionGone s i) := by
  simp +contextual (maxDischargeDepth := 60) [Keeps, Tables, State.regionGone]

@[simp] theorem State.nakAll_keeps (s : State) (x0 : List LtWait) :
    Keeps s (State.nakAll s x0) := by
  fun_induction State.nakAll s x0 <;> simp +contextual (maxDischargeDepth := 60) [Keeps, Tables, *]

@[simp] theorem State.cqGone_keeps (s : State) (c : ℕ) :
    Keeps s (State.cqGone s c) := by
  unfold State.cqGone
  try dsimp only
  repeat' first
    | with_reducible exact Keeps.refl _
    | assumption
    | with_reducible refine Keeps.ite ?_ ?_
    | (rw [State.upLighter_eq]; with_reducible refine Keeps.trans ?_ (State.upLighter_keeps ..))
    | with_reducible refine Keeps.trans ?_ (State.coldObj_keeps ..)
    | with_reducible refine Keeps.trans ?_ (State.exitOf_keeps ..)
    | with_reducible refine Keeps.trans ?_ (State.giveBack_keeps ..)
    | (with_reducible refine Keeps.trans ?_ (Keeps.foldl _ _ _ ?_); intro s x; dsimp only)
    | split
  all_goals simp +contextual (maxDischargeDepth := 60) [Keeps, Tables]

@[simp] theorem State.cqFresh_keeps (s : State) (c : ℕ) :
    Keeps s (State.cqFresh s c) := by
  simp +contextual [Keeps, Tables, State.cqFresh]

@[simp] theorem State.cqCreate_keeps (s : State) (c : ℕ) (r : ObjReq) :
    Keeps s ((State.cqCreate s c r).st) := by
  fun_cases State.cqCreate s c r <;> simp +contextual (maxDischargeDepth := 60) [Keeps, Tables, *]

@[simp] theorem State.cqDestroy_keeps (s : State) (c : ℕ) (r : ObjReq) :
    Keeps s ((State.cqDestroy s c r).st) := by
  unfold State.cqDestroy
  (repeat' split) <;> simp +contextual (maxDischargeDepth := 60) [Keeps, Tables]

@[simp] theorem State.cqResize_keeps (s : State) (c : ℕ) (r : ObjReq) :
    Keeps s ((State.cqResize s c r).st) := by
  unfold State.cqResize
  (repeat' split) <;> simp +contextual (maxDischargeDepth := 60) [Keeps, Tables]

@[simp] theorem State.opCqctl_keeps (s : State) (c : ℕ) (r : ObjReq) :
    Keeps s ((State.opCqctl s c r).st) := by
  fun_cases State.opCqctl s c r <;> simp +contextual (maxDischargeDepth := 60) [Keeps, Tables, *]

end Sys2Proof.Machine
end

