-- ==== Sys2Proof/Laws/KeepsLanes.lean ====
section
/-! SUPPORT. What the operations of Machine/Lanes.lean leave alone. -/

namespace Sys2Proof.Machine

@[simp] theorem State.lput_keeps (s : State) (f : Fld) (l : ℕ) (v : ℕ) :
    Keeps s (State.lput s f l v) := by
  simp +contextual [Keeps, Tables, State.lput]

@[simp] theorem State.setLaneRun_keeps (s : State) (r : LaneRun) :
    Keeps s (State.setLaneRun s r) := by
  simp +contextual [Keeps, Tables, State.setLaneRun]

@[simp] theorem State.setSteer_keeps (s : State) (r : SteerPort) :
    Keeps s (State.setSteer s r) := by
  simp +contextual [Keeps, Tables, State.setSteer]

@[simp] theorem State.askGrants_keeps (s : State) (ls : List ℕ) : Keeps s (State.askGrants s ls) := by
  induction ls generalizing s with
  | nil => exact Keeps.refl s
  | cons x xs ih =>
    rw [State.askGrants]
    refine Keeps.trans ?_ (ih _)
    split <;> simp +contextual [Keeps, Tables]

@[simp] theorem State.laneOff_keeps (s : State) (l : ℕ) :
    Keeps s (State.laneOff s l) := by
  simp +contextual (maxDischargeDepth := 60) [Keeps, Tables, State.laneOff]

@[simp] theorem State.lanesOff_keeps (s : State) (x0 : List ℕ) :
    Keeps s (State.lanesOff s x0) := by
  fun_induction State.lanesOff s x0 <;> simp +contextual (maxDischargeDepth := 60) [Keeps, Tables, *]

@[simp] theorem State.laneAcquire_keeps (s : State) (l : ℕ) :
    Keeps s (State.laneAcquire s l) := by
  simp +contextual (maxDischargeDepth := 60) [Keeps, Tables, State.laneAcquire]

@[simp] theorem State.lanesAcquire_keeps (s : State) (x0 : List ℕ) :
    Keeps s (State.lanesAcquire s x0) := by
  fun_induction State.lanesAcquire s x0 <;> simp +contextual (maxDischargeDepth := 60) [Keeps, Tables, *]

@[simp] theorem State.laneSeed_keeps (s : State) (rate : ℕ) (l : ℕ) :
    Keeps s (State.laneSeed s rate l) := by
  unfold State.laneSeed
  (repeat' split) <;> simp +contextual (maxDischargeDepth := 60) [Keeps, Tables]

@[simp] theorem State.leaversOff_keeps (s : State) (p : ℕ) :
    Keeps s (State.leaversOff s p) := by
  simp +contextual [Keeps, Tables, State.leaversOff]

@[simp] theorem State.carryEnds_keeps (s : State) (p : ℕ) :
    Keeps s (State.carryEnds s p) := by
  simp +contextual [Keeps, Tables, State.carryEnds]

@[simp] theorem State.startTraining_keeps (s : State) (p : ℕ) :
    Keeps s (State.startTraining s p) := by
  simp +contextual (maxDischargeDepth := 60) [Keeps, Tables, State.startTraining]

@[simp] theorem State.retrainLanes_keeps (s : State) (p : ℕ) :
    Keeps s (State.retrainLanes s p) := by
  simp +contextual [Keeps, Tables, State.retrainLanes]

@[simp] theorem State.stopLanes_keeps (s : State) (p : ℕ) :
    Keeps s (State.stopLanes s p) := by
  simp +contextual [Keeps, Tables, State.stopLanes]

@[simp] theorem State.takeStreams_keeps (s : State) (p : ℕ) (ls : List ℕ) : Keeps s (State.takeStreams s p ls) := by
  induction ls generalizing s with
  | nil => exact Keeps.refl s
  | cons x xs ih =>
    rw [State.takeStreams]
    refine Keeps.trans ?_ (ih _)
    split
    · exact Keeps.refl s
    · dsimp only
      split
      · split <;> simp +contextual (maxDischargeDepth := 60) [Keeps, Tables]
      · simp +contextual [Keeps, Tables]

@[simp] theorem State.sendSteer_keeps (s : State) (p : ℕ) (cmd : ℕ) (lane : ℕ) (spare : ℕ) (replacement : Bool) :
    Keeps s ((State.sendSteer s p cmd lane spare replacement).1) := by
  simp +contextual [Keeps, Tables, State.sendSteer]

@[simp] theorem State.nextSteer_keeps (s : State) (p : ℕ) :
    Keeps s (State.nextSteer s p) := by
  unfold State.nextSteer
  try dsimp only
  repeat' first
    | with_reducible exact Keeps.refl _
    | assumption
    | with_reducible refine Keeps.ite ?_ ?_
    | with_reducible refine Keeps.trans ?_ (State.setSteer_keeps ..)
    | (with_reducible refine Keeps.trans ?_ (Keeps.foldl _ _ _ ?_); intro s x; dsimp only)
    | split
  all_goals simp +contextual (maxDischargeDepth := 60) [Keeps, Tables]

@[simp] theorem State.laneCount_keeps (s : State) (l : ℕ) (n : ℕ) (k : ℕ) :
    Keeps s (State.laneCount s l n k) := by
  simp +contextual [Keeps, Tables, State.laneCount]

@[simp] theorem State.abandonPasses_keeps (s : State) (p : ℕ) :
    Keeps s (State.abandonPasses s p) := by
  simp +contextual (maxDischargeDepth := 60) [Keeps, Tables, State.abandonPasses]

@[simp] theorem State.abandonTile_keeps (s : State) (t : ℕ) :
    Keeps s (State.abandonTile s t) := by
  simp +contextual [Keeps, Tables, State.abandonTile]

end Sys2Proof.Machine
end

