-- ==== Sys2Proof/Laws/KeepsQuayline.lean ====
section
/-! SUPPORT. What the operations of Machine/Quayline.lean leave alone. -/

namespace Sys2Proof.Machine

@[simp] theorem State.portCount_keeps (s : State) (p : ℕ) (n : ℕ) (k : ℕ) :
    Keeps s (State.portCount s p n k) := by
  simp +contextual [Keeps, Tables, State.portCount]

@[simp] theorem State.qlSend_keeps (s : State) (p : ℕ) (vc : ℕ) (pk : Packet) :
    Keeps s (State.qlSend s p vc pk) := by
  simp +contextual [Keeps, Tables, State.qlSend]

@[simp] theorem State.qlAck_keeps (s : State) (p : ℕ) (ackSeq : ℕ) :
    Keeps s (State.qlAck s p ackSeq) := by
  simp +contextual [Keeps, Tables, State.qlAck]

@[simp] theorem State.resendFlits_keeps (s : State) (p : ℕ) :
    Keeps s (State.resendFlits s p) := by
  simp +contextual [Keeps, Tables, State.resendFlits]

@[simp] theorem State.openRequest_keeps (s : State) (p : ℕ) :
    Keeps s (State.openRequest s p) := by
  unfold State.openRequest
  try dsimp only
  repeat' first
    | with_reducible exact Keeps.refl _
    | assumption
    | with_reducible refine Keeps.ite ?_ ?_
    | with_reducible refine Keeps.trans ?_ (State.portCount_keeps ..)
    | with_reducible refine Keeps.trans ?_ (State.setQlp_keeps ..)
    | (with_reducible refine Keeps.trans ?_ (Keeps.foldl _ _ _ ?_); intro s x; dsimp only)
    | split
  all_goals simp +contextual (maxDischargeDepth := 60) [Keeps, Tables]

@[simp] theorem State.freezeCredits_keeps (s : State) (p : ℕ) :
    Keeps s (State.freezeCredits s p) := by
  simp +contextual [Keeps, Tables, State.freezeCredits]

@[simp] theorem State.thawCredits_keeps (s : State) (p : ℕ) :
    Keeps s (State.thawCredits s p) := by
  unfold State.thawCredits
  try dsimp only
  repeat' first
    | with_reducible exact Keeps.refl _
    | assumption
    | with_reducible refine Keeps.ite ?_ ?_
    | with_reducible refine Keeps.trans ?_ (State.setQlp_keeps ..)
    | with_reducible refine Keeps.trans ?_ (State.take_keeps ..)
    | (with_reducible refine Keeps.trans ?_ (Keeps.foldl _ _ _ ?_); intro s x; dsimp only)
    | split
  all_goals simp +contextual (maxDischargeDepth := 60) [Keeps, Tables]

@[simp] theorem State.showDegraded_keeps (s : State) (p : ℕ) :
    Keeps s (State.showDegraded s p) := by
  unfold State.showDegraded
  try dsimp only
  repeat' first
    | with_reducible exact Keeps.refl _
    | assumption
    | with_reducible refine Keeps.ite ?_ ?_
    | with_reducible refine Keeps.trans ?_ (State.put_keeps ..)
    | with_reducible refine Keeps.trans ?_ (State.startRestore_keeps ..)
    | (with_reducible refine Keeps.trans ?_ (Keeps.foldl _ _ _ ?_); intro s x; dsimp only)
    | split
  all_goals simp +contextual (maxDischargeDepth := 60) [Keeps, Tables]

@[simp] theorem State.linkRecord_keeps (s : State) (p : ℕ) (block : ℕ) (before : ℕ) (after : ℕ) :
    Keeps s (State.linkRecord s p block before after) := by
  simp +contextual [Keeps, Tables, State.linkRecord]

@[simp] theorem State.resizeRecord_keeps (s : State) (p : ℕ) :
    Keeps s (State.resizeRecord s p) := by
  simp +contextual [Keeps, Tables, State.resizeRecord]

@[simp] theorem State.linkLost_keeps (s : State) (p : ℕ) (after : ℕ) :
    Keeps s (State.linkLost s p after) := by
  unfold State.linkLost
  (repeat' split) <;> simp +contextual (maxDischargeDepth := 60) [Keeps, Tables]

@[simp] theorem State.toHeld_keeps (s : State) (p : ℕ) (block : ℕ) :
    Keeps s (State.toHeld s p block) := by
  unfold State.toHeld
  (repeat' split) <;> simp +contextual (maxDischargeDepth := 60) [Keeps, Tables]

@[simp] theorem State.toDown_keeps (s : State) (p : ℕ) :
    Keeps s (State.toDown s p) := by
  unfold State.toDown
  (repeat' split) <;> simp +contextual (maxDischargeDepth := 60) [Keeps, Tables]

@[simp] theorem State.fastRetrain_keeps (s : State) (p : ℕ) :
    Keeps s (State.fastRetrain s p) := by
  unfold State.fastRetrain
  (repeat' split) <;> simp +contextual (maxDischargeDepth := 60) [Keeps, Tables]

@[simp] theorem State.setRun2_keeps (s : State) (p : ℕ) (width : ℕ) (rate : ℕ) :
    Keeps s (State.setRun2 s p width rate) := by
  unfold State.setRun2
  try dsimp only
  repeat' first
    | with_reducible exact Keeps.refl _
    | assumption
    | with_reducible refine Keeps.ite ?_ ?_
    | with_reducible refine Keeps.trans ?_ (State.put_keeps ..)
    | (with_reducible refine Keeps.trans ?_ (Keeps.foldl _ _ _ ?_); intro s x; dsimp only)
    | split
  all_goals simp +contextual (maxDischargeDepth := 60) [Keeps, Tables]

@[simp] theorem State.beginInit_keeps (s : State) (p : ℕ) :
    Keeps s (State.beginInit s p) := by
  unfold State.beginInit
  (repeat' split) <;> simp +contextual (maxDischargeDepth := 60) [Keeps, Tables]

@[simp] theorem State.enterActive_keeps (s : State) (p : ℕ) (partnerAck : ℕ) : Keeps s (State.enterActive s p partnerAck) := by
  unfold State.enterActive
  dsimp only
  refine Keeps.ite ?_ (Keeps.ite (Keeps.trans ?_ (State.startRestore_keeps _ _)) (Keeps.trans ?_ (State.restoreFound_keeps _)))
  all_goals
    refine Keeps.trans ?_ (Keeps.ite (Keeps.ite (State.addSat_keeps _ _ _ _) (State.put_keeps _ _ _ _)) (Keeps.refl _))
    refine Keeps.trans ?_ (Keeps.ite ((State.qlAck_keeps _ _ _).trans (State.resendFlits_keeps _ _)) (Keeps.refl _))
    refine Keeps.trans ?_ ((State.setQl_keeps _ _ _).trans (State.thawCredits_keeps _ _))
    exact (State.setQlp_keeps _ _).trans (Keeps.ite (State.leaversOff_keeps _ _) (Keeps.refl _))

@[simp] theorem State.enterResize_keeps (s : State) (p : ℕ) (rate : ℕ) (width : ℕ) (own : Bool) :
    Keeps s (State.enterResize s p rate width own) := by
  unfold State.enterResize
  (repeat' split) <;> simp +contextual (maxDischargeDepth := 60) [Keeps, Tables]

@[simp] theorem State.reenter_keeps (s : State) (p : ℕ) (e : ReplayEntry) :
    Keeps s (State.reenter s p e) := by
  simp only [State.reenter]
  (repeat' split) <;> simp +contextual (maxDischargeDepth := 60) [Keeps, Tables, *]

@[simp] theorem State.reenters_keeps (s : State) (p : ℕ) (x0 : List ReplayEntry) :
    Keeps s (State.reenters s p x0) := by
  induction x0 generalizing s p with
  | nil => first | exact Keeps.refl _ | simp +contextual (maxDischargeDepth := 60) [Keeps, Tables, State.reenters]
  | cons a as ih =>
    unfold State.reenters
    try dsimp only
    repeat' first
      | with_reducible exact Keeps.refl _
      | assumption
      | with_reducible refine Keeps.trans ?_ (ih ..)
      | with_reducible refine Keeps.ite ?_ ?_
      | with_reducible refine Keeps.trans ?_ (State.reenter_keeps ..)
      | (with_reducible refine Keeps.trans ?_ (Keeps.foldl _ _ _ ?_); intro s x; dsimp only)
      | split
    all_goals simp +contextual (maxDischargeDepth := 60) [Keeps, Tables]

end Sys2Proof.Machine
end

