-- ==== Sys2Proof/Laws/KeepsSlots.lean ====
section
/-! SUPPORT. What the operations of Machine/Slots.lean leave alone. -/

namespace Sys2Proof.Machine

@[simp] theorem State.setSlotRun_keeps (s : State) (r : SlotRun) :
    Keeps s (State.setSlotRun s r) := by
  simp +contextual [Keeps, Tables, State.setSlotRun]

@[simp] theorem State.setFeedRun_keeps (s : State) (r : FeedRun) :
    Keeps s (State.setFeedRun s r) := by
  simp +contextual [Keeps, Tables, State.setFeedRun]

@[simp] theorem State.slotCount_keeps (s : State) (n : ℕ) (k : ℕ) :
    Keeps s (State.slotCount s n k) := by
  simp +contextual [Keeps, Tables, State.slotCount]

@[simp] theorem State.slotJoin_keeps (s : State) (n : ℕ) :
    Keeps s (State.slotJoin s n) := by
  simp +contextual [Keeps, Tables, State.slotJoin]

@[simp] theorem State.slotTry_keeps (s : State) (n : ℕ) :
    Keeps s (State.slotTry s n) := by
  simp +contextual [Keeps, Tables, State.slotTry]

@[simp] theorem State.slotGateOff_keeps (s : State) (n : ℕ) :
    Keeps s (State.slotGateOff s n) := by
  unfold State.slotGateOff
  (repeat' split) <;> simp +contextual (maxDischargeDepth := 60) [Keeps, Tables]

@[simp] theorem State.slotPin_keeps (s : State) (mk : SlotId → OutPin) (n : ℕ) (level : Bool) :
    Keeps s (State.slotPin s mk n level) := by
  unfold State.slotPin
  (repeat' split) <;> simp +contextual (maxDischargeDepth := 60) [Keeps, Tables]

@[simp] theorem State.slotOffNow_keeps (s : State) (n : ℕ) (request : Bool) :
    Keeps s (State.slotOffNow s n request) := by
  simp +contextual (maxDischargeDepth := 60) [Keeps, Tables, State.slotOffNow]

@[simp] theorem State.slotsOff_keeps (s : State) (ns : List ℕ) : Keeps s (State.slotsOff s ns) := by
  induction ns generalizing s with
  | nil => exact Keeps.refl s
  | cons x xs ih =>
    rw [State.slotsOff]
    refine Keeps.trans ?_ (ih _)
    split <;> simp +contextual (maxDischargeDepth := 60) [Keeps, Tables]

end Sys2Proof.Machine
end

