-- ==== Sys2Proof/Laws/KeepsViews.lean ====
section
/-! SUPPORT. What the operations of Machine/Views.lean leave alone. -/

namespace Sys2Proof.Machine

@[simp] theorem State.mgmtRegsReset_keeps (s : State) (v : ViewId) :
    Keeps s (State.mgmtRegsReset s v) := by
  simp +contextual [Keeps, Tables, State.mgmtRegsReset]

@[simp] theorem State.mgmtReset_keeps (s : State) (v : ViewId) :
    Keeps s (State.mgmtReset s v) := by
  simp +contextual (maxDischargeDepth := 60) [Keeps, Tables, State.mgmtReset]

@[simp] theorem State.qpSilentError_keeps (s : State) (q : ℕ) :
    Keeps s (State.qpSilentError s q) := by
  unfold State.qpSilentError
  (repeat' split) <;> simp +contextual (maxDischargeDepth := 60) [Keeps, Tables]

@[simp] theorem State.qpsSilentError_keeps (s : State) (x0 : List ℕ) :
    Keeps s (State.qpsSilentError s x0) := by
  fun_induction State.qpsSilentError s x0 <;> simp +contextual (maxDischargeDepth := 60) [Keeps, Tables, *]

@[simp] theorem State.ltPfReset_keeps (s : State) (v : ℕ) :
    Keeps s (State.ltPfReset s v) := by
  simp +contextual [Keeps, Tables, State.ltPfReset]

@[simp] theorem State.ltVfReset_keeps (s : State) (t : ℕ) :
    Keeps s (State.ltVfReset s t) := by
  simp +contextual [Keeps, Tables, State.ltVfReset]

@[simp] theorem State.ltVfResets_keeps (s : State) (x0 : List ℕ) :
    Keeps s (State.ltVfResets s x0) := by
  fun_induction State.ltVfResets s x0 <;> simp +contextual (maxDischargeDepth := 60) [Keeps, Tables, *]

@[simp] theorem State.cfgClear_keeps (s : State) (v : ℕ) (fn : ℕ) :
    Keeps s (State.cfgClear s v fn) := by
  simp +contextual [Keeps, Tables, State.cfgClear]

@[simp] theorem State.cfgClearView_keeps (s : State) (v : ℕ) :
    Keeps s (State.cfgClearView s v) := by
  simp +contextual [Keeps, Tables, State.cfgClearView]

@[simp] theorem State.bindingReset_keeps (s : State) (v : ℕ) (sel : ℕ) (i : ℕ) :
    Keeps s (State.bindingReset s v sel i) := by
  fun_cases State.bindingReset s v sel i <;> simp +contextual (maxDischargeDepth := 60) [Keeps, Tables, *]

@[simp] theorem State.bindingResets_keeps (s : State) (v : ℕ) (x0 : List (ℕ × ℕ)) :
    Keeps s (State.bindingResets s v x0) := by
  fun_induction State.bindingResets s v x0 <;> simp +contextual (maxDischargeDepth := 60) [Keeps, Tables, *]

@[simp] theorem State.snapsLost_keeps (s : State) (v : ℕ) :
    Keeps s (State.snapsLost s v) := by
  unfold State.snapsLost
  try dsimp only
  repeat' first
    | with_reducible exact Keeps.refl _
    | assumption
    | with_reducible refine Keeps.ite ?_ ?_
    | with_reducible refine Keeps.trans ?_ (State.addSat_keeps ..)
    | with_reducible refine Keeps.trans ?_ (State.put_keeps ..)
    | (with_reducible refine Keeps.trans ?_ (Keeps.foldl _ _ _ ?_); intro s x; dsimp only)
    | split
  all_goals simp +contextual (maxDischargeDepth := 60) [Keeps, Tables]

@[simp] theorem State.viewReset_keeps (s : State) (v : ViewId) (p : ℕ) (contained : Bool) :
    Keeps s (State.viewReset s v p contained) := by
  simp +contextual (maxDischargeDepth := 60) [Keeps, Tables, State.viewReset]

@[simp] theorem State.edgeDetect_keeps (s : State) (p : ℕ) :
    Keeps s (State.edgeDetect s p) := by
  simp +contextual [Keeps, Tables, State.edgeDetect]

@[simp] theorem State.edgeDown_keeps (s0 : State) (p : ℕ) (st : ℕ) :
    Keeps s0 (State.edgeDown s0 p st) := by
  simp +contextual (maxDischargeDepth := 60) [Keeps, Tables, State.edgeDown]

@[simp] theorem State.hostDown_keeps (s : State) (p : ℕ) (st : ℕ) (contained : Bool) :
    Keeps s (State.hostDown s p st contained) := by
  unfold State.hostDown
  try dsimp only
  repeat' first
    | with_reducible exact Keeps.refl _
    | assumption
    | with_reducible refine Keeps.ite ?_ ?_
    | with_reducible refine Keeps.trans ?_ (State.edgeDown_keeps ..)
    | with_reducible refine Keeps.trans ?_ (State.viewReset_keeps ..)
    | (with_reducible refine Keeps.trans ?_ (Keeps.foldl _ _ _ ?_); intro s x; dsimp only)
    | split
  all_goals simp +contextual (maxDischargeDepth := 60) [Keeps, Tables]

@[simp] theorem State.hostLinkDown_keeps (s : State) (p : ℕ) (st : ℕ) :
    Keeps s (State.hostLinkDown s p st) := by
  unfold State.hostLinkDown
  (repeat' split) <;> simp +contextual (maxDischargeDepth := 60) [Keeps, Tables]

@[simp] theorem State.farLost_keeps (s : State) (p : ℕ) :
    Keeps s (State.farLost s p) := by
  simp +contextual [Keeps, Tables, State.farLost]

@[simp] theorem State.deviceLinkDown_keeps (s : State) (p : ℕ) (st : ℕ) :
    Keeps s (State.deviceLinkDown s p st) := by
  simp +contextual (maxDischargeDepth := 60) [Keeps, Tables, State.deviceLinkDown]

@[simp] theorem State.edgeLinkDown_keeps (s : State) (p : ℕ) (st : ℕ) :
    Keeps s (State.edgeLinkDown s p st) := by
  simp +contextual (maxDischargeDepth := 60) [Keeps, Tables, State.edgeLinkDown]

@[simp] theorem State.showPerst_keeps (s : State) (x0 : List ℕ) :
    Keeps s (State.showPerst s x0) := by
  fun_induction State.showPerst s x0 <;> simp +contextual (maxDischargeDepth := 60) [Keeps, Tables, *]

@[simp] theorem State.showHosts_keeps (s : State) :
    Keeps s (State.showHosts s) := by
  simp +contextual [Keeps, Tables, State.showHosts]

@[simp] theorem State.hostsDown_keeps (s : State) (ps : List ℕ) : Keeps s (State.hostsDown s ps) := by
  induction ps generalizing s with
  | nil => exact Keeps.refl s
  | cons x xs ih =>
    rw [State.hostsDown]
    refine Keeps.trans ?_ (ih _)
    exact Keeps.ite (State.hostLinkDown_keeps _ _ _) (Keeps.refl s)

@[simp] theorem State.fabricsDown_keeps (s : State) (ps : List ℕ) : Keeps s (State.fabricsDown s ps) := by
  induction ps generalizing s with
  | nil => exact Keeps.refl s
  | cons x xs ih =>
    rw [State.fabricsDown]
    refine Keeps.trans ?_ (ih _)
    exact Keeps.ite (State.toDown_keeps _ _) (Keeps.refl s)

@[simp] theorem State.devicesDown_keeps (s : State) (ps : List ℕ) : Keeps s (State.devicesDown s ps) := by
  induction ps generalizing s with
  | nil => exact Keeps.refl s
  | cons x xs ih =>
    rw [State.devicesDown]
    refine Keeps.trans ?_ (ih _)
    exact Keeps.ite (State.deviceLinkDown_keeps _ _ _) (Keeps.refl s)

end Sys2Proof.Machine
end

