-- ==== Sys2Proof/Laws/KeepsActions.lean ====
section
/-! SUPPORT. What the operations of Machine/Actions.lean leave alone. -/

namespace Sys2Proof.Machine

@[simp] theorem State.portBringUp_keeps (s : State) (p : ℕ) :
    Keeps s (State.portBringUp s p) := by
  unfold State.portBringUp
  (repeat' split) <;> simp +contextual (maxDischargeDepth := 60) [Keeps, Tables]

@[simp] theorem State.portEnable_keeps (s : State) (p : ℕ) :
    Keeps s (State.portEnable s p) := by
  simp +contextual [Keeps, Tables, State.portEnable]

@[simp] theorem State.portBack_keeps (s : State) (p : ℕ) :
    Keeps s (State.portBack s p) := by
  unfold State.portBack
  (repeat' split) <;> simp +contextual (maxDischargeDepth := 60) [Keeps, Tables]

@[simp] theorem State.aerHolders_keeps (s : State) (slot : ℕ) (ld : ℕ) (e : AerError) :
    Keeps s (State.aerHolders s slot ld e) := by
  unfold State.aerHolders
  try dsimp only
  repeat' first
    | with_reducible exact Keeps.refl _
    | assumption
    | with_reducible refine Keeps.ite ?_ ?_
    | with_reducible refine Keeps.trans ?_ (State.emit_keeps ..)
    | (with_reducible refine Keeps.trans ?_ (Keeps.foldl _ _ _ ?_); intro s x; dsimp only)
    | split
  all_goals simp +contextual (maxDischargeDepth := 60) [Keeps, Tables]

@[simp] theorem State.containFn_keeps (s : State) (id : ℕ) (slot : ℕ) (ld : ℕ) :
    Keeps s (State.containFn s id slot ld) := by
  unfold State.containFn
  try dsimp only
  repeat' first
    | with_reducible exact Keeps.refl _
    | assumption
    | with_reducible refine Keeps.ite ?_ ?_
    | with_reducible refine Keeps.trans ?_ (State.aerHolders_keeps ..)
    | with_reducible refine Keeps.trans ?_ (State.contain_keeps ..)
    | with_reducible refine Keeps.trans ?_ (State.discardAll_keeps ..)
    | (with_reducible refine Keeps.trans ?_ (Keeps.foldl _ _ _ ?_); intro s x; dsimp only)
    | split
  all_goals simp +contextual (maxDischargeDepth := 60) [Keeps, Tables]

@[simp] theorem State.containDevice_keeps (s : State) (id : ℕ) (p : ℕ) :
    Keeps s (State.containDevice s id p) := by
  unfold State.containDevice
  (repeat' split) <;> simp +contextual (maxDischargeDepth := 60) [Keeps, Tables]

@[simp] theorem State.containHost_keeps (s : State) (id : ℕ) (p : ℕ) (st : ℕ) :
    Keeps s (State.containHost s id p st) := by
  unfold State.containHost
  try dsimp only
  repeat' first
    | with_reducible exact Keeps.refl _
    | assumption
    | with_reducible refine Keeps.ite ?_ ?_
    | with_reducible refine Keeps.trans ?_ (State.contain_keeps ..)
    | with_reducible refine Keeps.trans ?_ (State.edgeDown_keeps ..)
    | with_reducible refine Keeps.trans ?_ (State.viewReset_keeps ..)
    | (with_reducible refine Keeps.trans ?_ (Keeps.foldl _ _ _ ?_); intro s x; dsimp only)
    | split
  all_goals simp +contextual (maxDischargeDepth := 60) [Keeps, Tables]

@[simp] theorem State.containPort_keeps (s : State) (id : ℕ) (p : ℕ) : Keeps s (State.containPort s id p) := by
  have h1 := State.contain_keeps s id (.port p)
  unfold State.containPort
  split
  · exact State.containHost_keeps _ _ _ _
  · split
    · exact State.containDevice_keeps _ _ _
    · split
      · dsimp only
        split
        · exact h1.trans (State.withdrawPort_keeps _ _)
        · exact ((h1.trans (State.linkLost_keeps _ _ _)).trans (State.setQlp_keeps _ _)).trans (State.withdrawPort_keeps _ _)
      · exact h1

@[simp] theorem State.containPair_keeps (s : State) (id : ℕ) (syn0 : ℕ) :
    Keeps s (State.containPair s id syn0) := by
  simp +contextual [Keeps, Tables, State.containPair]

@[simp] theorem State.containObj_keeps (s : State) (id : ℕ) (cls : ℕ) (sel : ℕ) :
    Keeps s (State.containObj s id cls sel) := by
  unfold State.containObj
  try dsimp only
  repeat' first
    | with_reducible exact Keeps.refl _
    | assumption
    | with_reducible refine Keeps.ite ?_ ?_
    | with_reducible refine Keeps.trans ?_ (State.cmWindowContained_keeps ..)
    | with_reducible refine Keeps.trans ?_ (State.contain_keeps ..)
    | with_reducible refine Keeps.trans ?_ (State.containFn_keeps ..)
    | with_reducible refine Keeps.trans ?_ (State.qpToError_keeps ..)
    | (with_reducible refine Keeps.trans ?_ (Keeps.foldl _ _ _ ?_); intro s x; dsimp only)
    | split
  all_goals simp +contextual (maxDischargeDepth := 60) [Keeps, Tables]

@[simp] theorem State.containBy_keeps (s : State) (id : ℕ) (e : FEvent) :
    Keeps s (State.containBy s id e) := by
  unfold State.containBy
  try dsimp only
  repeat' first
    | with_reducible exact Keeps.refl _
    | assumption
    | with_reducible refine Keeps.ite ?_ ?_
    | with_reducible refine Keeps.trans ?_ (State.containObj_keeps ..)
    | with_reducible refine Keeps.trans ?_ (State.containPair_keeps ..)
    | with_reducible refine Keeps.trans ?_ (State.containPort_keeps ..)
    | (with_reducible refine Keeps.trans ?_ (Keeps.foldl _ _ _ ?_); intro s x; dsimp only)
    | split
  all_goals simp +contextual (maxDischargeDepth := 60) [Keeps, Tables]

@[simp] theorem State.fabricStop_keeps (s : State) (p : ℕ) :
    Keeps s (State.fabricStop s p) := by
  unfold State.fabricStop
  (repeat' split) <;> simp +contextual (maxDischargeDepth := 60) [Keeps, Tables]

@[simp] theorem State.markOut_keeps (s : State) (p : ℕ) :
    Keeps s (State.markOut s p) := by
  simp +contextual [Keeps, Tables, State.markOut]

@[simp] theorem State.portOutBy_keeps (s : State) (id : ℕ) (p : ℕ) :
    Keeps s (State.portOutBy s id p) := by
  unfold State.portOutBy
  (repeat' split) <;> simp +contextual (maxDischargeDepth := 60) [Keeps, Tables]

@[simp] theorem State.portOut_keeps (s : State) (p : ℕ) :
    Keeps s (State.portOut s p) := by
  unfold State.portOut
  try dsimp only
  repeat' first
    | with_reducible exact Keeps.refl _
    | assumption
    | with_reducible refine Keeps.ite ?_ ?_
    | with_reducible refine Keeps.trans ?_ (State.portOutBy_keeps ..)
    | with_reducible refine Keeps.trans ?_ (State.record_keeps ..)
    | (with_reducible refine Keeps.trans ?_ (Keeps.foldl _ _ _ ?_); intro s x; dsimp only)
    | split
  all_goals simp +contextual (maxDischargeDepth := 60) [Keeps, Tables]

@[simp] theorem State.portDisable_keeps (s : State) (p : ℕ) :
    Keeps s (State.portDisable s p) := by
  simp +contextual [Keeps, Tables, State.portDisable]

@[simp] theorem State.flushLogs_keeps (s : State) :
    Keeps s (State.flushLogs s) := by
  simp +contextual [Keeps, Tables, State.flushLogs]

@[simp] theorem State.halt_keeps (s : State) :
    Keeps s (State.halt s) := by
  unfold State.halt
  (repeat' split) <;> simp +contextual (maxDischargeDepth := 60) [Keeps, Tables]

/-- What a latch leaves of programs and power, once every link and slot is down. -/
def State.latched (u : State) (cause sensor : ℕ) : State :=
  { u with
    tally := { u.tally with progs := [], fwdOut := [], fwdIn := [], base := [] }
    power := { u.power with phase := .latched, latchCause := cause, latchSensor := sensor, haltDue := none } }
theorem State.latched_keeps {s u : State} (cause sensor : ℕ) (k : Keeps s u) : Keeps s (u.latched cause sensor).showHosts :=
  Keeps.trans (b := u.latched cause sensor) k (State.showHosts_keeps _)
theorem State.latch_eq (s : State) (cause sensor : ℕ) (h : ¬ (s.power.phase = .latched || s.power.phase = .off) = true) :
    State.latch s cause sensor = (State.latched (((((s.emit (.pin .devReady false)).hostsDown allPorts).fabricsDown allPorts).devicesDown
      allPorts).slotsOff allSlots) cause sensor).showHosts := by
  rw [State.latch, if_neg h]
  rfl
@[simp] theorem State.latch_keeps (s : State) (cause : ℕ) (sensor : ℕ) : Keeps s (State.latch s cause sensor) := by
  by_cases h : (s.power.phase = .latched || s.power.phase = .off) = true
  · rw [State.latch, if_pos h]
    exact Keeps.refl s
  · rw [State.latch_eq s cause sensor h]
    exact State.latched_keeps _ _ (((((State.emit_keeps s (.pin .devReady false)).trans (State.hostsDown_keeps _ allPorts)).trans
      (State.fabricsDown_keeps _ allPorts)).trans (State.devicesDown_keeps _ allPorts)).trans (State.slotsOff_keeps _ allSlots))

@[simp] theorem State.escalated_keeps (s : State) (e : FEvent) (related : ℕ) (grade : ℕ) (action : ℕ) :
    Keeps s ((State.escalated s e related grade action).1) := by
  simp +contextual [Keeps, Tables, State.escalated]

@[simp] theorem State.retireBank_keeps (s : State) (e : FEvent) (id : ℕ) (b : ℕ) :
    Keeps s (State.retireBank s e id b) := by
  unfold State.retireBank
  try dsimp only
  repeat' first
    | with_reducible exact Keeps.refl _
    | assumption
    | with_reducible refine Keeps.ite ?_ ?_
    | with_reducible refine Keeps.trans ?_ (State.contain_keeps ..)
    | with_reducible refine Keeps.trans ?_ (State.escalated_keeps ..)
    | with_reducible refine Keeps.trans ?_ (State.halt_keeps ..)
    | with_reducible refine Keeps.trans ?_ (State.put_keeps ..)
    | (with_reducible refine Keeps.trans ?_ (Keeps.foldl _ _ _ ?_); intro s x; dsimp only)
    | split
  all_goals simp +contextual (maxDischargeDepth := 60) [Keeps, Tables]

@[simp] theorem State.retirePort_keeps (s : State) (e : FEvent) (id : ℕ) (p : ℕ) :
    Keeps s (State.retirePort s e id p) := by
  unfold State.retirePort
  try dsimp only
  repeat' first
    | with_reducible exact Keeps.refl _
    | assumption
    | with_reducible refine Keeps.ite ?_ ?_
    | with_reducible refine Keeps.trans ?_ (State.contain_keeps ..)
    | with_reducible refine Keeps.trans ?_ (State.escalated_keeps ..)
    | with_reducible refine Keeps.trans ?_ (State.portOutBy_keeps ..)
    | (with_reducible refine Keeps.trans ?_ (Keeps.foldl _ _ _ ?_); intro s x; dsimp only)
    | split
  all_goals simp +contextual (maxDischargeDepth := 60) [Keeps, Tables]

@[simp] theorem State.retireChannel_keeps (s : State) (e : FEvent) (id : ℕ) (c : ℕ) :
    Keeps s (State.retireChannel s e id c) := by
  unfold State.retireChannel
  try dsimp only
  repeat' first
    | with_reducible exact Keeps.refl _
    | assumption
    | with_reducible refine Keeps.ite ?_ ?_
    | (rw [State.upSdram_eq]; with_reducible refine Keeps.trans ?_ (State.upSdram_keeps ..))
    | with_reducible refine Keeps.trans ?_ (State.contain_keeps ..)
    | with_reducible refine Keeps.trans ?_ (State.escalated_keeps ..)
    | (with_reducible refine Keeps.trans ?_ (Keeps.foldl _ _ _ ?_); intro s x; dsimp only)
    | split
  all_goals simp +contextual (maxDischargeDepth := 60) [Keeps, Tables]

@[simp] theorem State.retireLane_keeps (s : State) (e : FEvent) (id : ℕ) : Keeps s (State.retireLane s e id) := by
  unfold State.retireLane
  dsimp only
  split
  · split
    · refine Keeps.ite ?_ (State.escalated_keeps _ _ _ _ _)
      exact ((State.escalated_keeps _ _ _ _ _).trans (State.sendSteer_keeps _ _ _ _ _ _)).trans (State.laneCount_keeps _ _ _ _)
    · exact State.escalated_keeps _ _ _ _ _
  · exact State.escalated_keeps _ _ _ _ _

@[simp] theorem State.escalate_keeps (s : State) (e : FEvent) (id : ℕ) : Keeps s (State.escalate s e id) := by
  have h := fun (e : FEvent) g a => State.escalated_keeps s e id g a
  unfold State.escalate
  dsimp only
  refine Keeps.ite (State.retireLane_keeps _ _ _) (Keeps.ite (State.retireBank_keeps _ _ _ _) (Keeps.ite
    (Keeps.ite (State.retirePort_keeps _ _ _ _) (Keeps.refl s)) (Keeps.ite (State.retireChannel_keeps _ _ _ _) (Keeps.ite ?_ (Keeps.ite ?_
      (Keeps.ite (h _ _ _) ((h _ _ _).trans (State.halt_keeps _))))))))
  · exact Keeps.ite (h _ _ _) ((h _ _ _).trans (State.contain_keeps _ _ _))
  · exact (h _ _ _).trans (State.containObj_keeps _ _ _ _)

@[simp] theorem State.raise_keeps (s : State) (e : FEvent) :
    Keeps s (State.raise s e) := by
  unfold State.raise
  try dsimp only
  repeat' first
    | with_reducible exact Keeps.refl _
    | assumption
    | with_reducible refine Keeps.ite ?_ ?_
    | with_reducible refine Keeps.trans ?_ (State.containBy_keeps ..)
    | with_reducible refine Keeps.trans ?_ (State.escalate_keeps ..)
    | with_reducible refine Keeps.trans ?_ (State.halt_keeps ..)
    | with_reducible refine Keeps.trans ?_ (State.latch_keeps ..)
    | with_reducible refine Keeps.trans ?_ (State.record_keeps ..)
    | (with_reducible refine Keeps.trans ?_ (Keeps.foldl _ _ _ ?_); intro s x; dsimp only)
    | split
  all_goals simp +contextual (maxDischargeDepth := 60) [Keeps, Tables]

@[simp] theorem State.raiseOpen_keeps (s : State) (e : FEvent) :
    Keeps s (State.raiseOpen s e) := by
  unfold State.raiseOpen
  (repeat' split) <;> simp +contextual (maxDischargeDepth := 60) [Keeps, Tables]

@[simp] theorem State.takeIdents_keeps (s : State) (slot : ℕ) :
    Keeps s (State.takeIdents s slot) := by
  unfold State.takeIdents
  (repeat' split) <;> simp +contextual (maxDischargeDepth := 60) [Keeps, Tables]

@[simp] theorem State.liftOne_keeps (s : State) (x0 : ContTarget) :
    Keeps s (State.liftOne s x0) := by
  unfold State.liftOne
  (repeat' split) <;> simp +contextual (maxDischargeDepth := 60) [Keeps, Tables]

@[simp] theorem State.liftAll_keeps (s : State) (x0 : List (ℕ × ContTarget)) :
    Keeps s (State.liftAll s x0) := by
  induction x0 generalizing s with
  | nil => first | exact Keeps.refl _ | simp +contextual (maxDischargeDepth := 60) [Keeps, Tables, State.liftAll]
  | cons a as ih =>
    unfold State.liftAll
    try dsimp only
    repeat' first
      | with_reducible exact Keeps.refl _
      | assumption
      | with_reducible refine Keeps.trans ?_ (ih ..)
      | with_reducible refine Keeps.ite ?_ ?_
      | with_reducible refine Keeps.trans ?_ (State.liftOne_keeps ..)
      | (with_reducible refine Keeps.trans ?_ (Keeps.foldl _ _ _ ?_); intro s x; dsimp only)
      | split
    all_goals simp +contextual (maxDischargeDepth := 60) [Keeps, Tables]

@[simp] theorem State.unlatchSlots_keeps (s : State) (id : ℕ) (ns : List ℕ) : Keeps s (State.unlatchSlots s id ns) := by
  induction ns generalizing s with
  | nil => exact Keeps.refl s
  | cons x xs ih =>
    rw [State.unlatchSlots]
    exact Keeps.trans (Keeps.ite (((State.put_keeps _ _ _ _).trans (State.put_keeps _ _ _ _)).trans (State.setSlotRun_keeps _ _)) (Keeps.refl s)) (ih _)

@[simp] theorem State.release_keeps (s : State) (id : ℕ) :
    Keeps s (State.release s id) := by
  unfold State.release
  try dsimp only
  repeat' first
    | with_reducible exact Keeps.refl _
    | assumption
    | with_reducible refine Keeps.ite ?_ ?_
    | (rw [State.upFaults_eq]; with_reducible refine Keeps.trans ?_ (State.upFaults_keeps ..))
    | with_reducible refine Keeps.trans ?_ (State.liftAll_keeps ..)
    | with_reducible refine Keeps.trans ?_ (State.uncontain_keeps ..)
    | with_reducible refine Keeps.trans ?_ (State.unlatchSlots_keeps ..)
    | (with_reducible refine Keeps.trans ?_ (Keeps.foldl _ _ _ ?_); intro s x; dsimp only)
    | split
  all_goals simp +contextual (maxDischargeDepth := 60) [Keeps, Tables]

@[simp] theorem State.linkReturned_keeps (s : State) (p : ℕ) :
    Keeps s (State.linkReturned s p) := by
  simp +contextual [Keeps, Tables, State.linkReturned]

end Sys2Proof.Machine
end

