-- ==== Sys2Proof/Laws/KeepsSdram.lean ====
section
/-! SUPPORT. What the operations of Machine/Sdram.lean leave alone. -/

namespace Sys2Proof.Machine

@[simp] theorem State.sdramAccess_keeps (s : State) (k : SdramStruct) (i : ℕ) (write : Bool) :
    Keeps s (State.sdramAccess s k i write) := by
  unfold State.sdramAccess
  try dsimp only
  repeat' first
    | with_reducible exact Keeps.refl _
    | assumption
    | with_reducible refine Keeps.ite ?_ ?_
    | with_reducible refine Keeps.trans ?_ (State.count_keeps ..)
    | (with_reducible refine Keeps.trans ?_ (Keeps.foldl _ _ _ ?_); intro s x; dsimp only)
    | split
  all_goals simp +contextual (maxDischargeDepth := 60) [Keeps, Tables]

@[simp] theorem State.served_keeps (s : State) (spill : Bool) :
    Keeps s (State.served s spill) := by
  simp +contextual [Keeps, Tables, State.served]

end Sys2Proof.Machine
end

