-- ==== Sys2Proof/Laws/KeepsLinks.lean ====
section
/-! SUPPORT. What the operations of Machine/Links.lean leave alone. -/

namespace Sys2Proof.Machine

@[simp] theorem State.corrected_keeps (s : State) (p : ℕ) (w : ℕ) (i : ℕ) :
    Keeps s (State.corrected s p w i) := by
  simp +contextual [Keeps, Tables, State.corrected]

@[simp] theorem State.correctedAll_keeps (s : State) (p : ℕ) (w : ℕ) (x0 : List ℕ) :
    Keeps s (State.correctedAll s p w x0) := by
  fun_induction State.correctedAll s p w x0 <;> simp +contextual (maxDischargeDepth := 60) [Keeps, Tables, *]

@[simp] theorem State.collect_keeps (s : State) (p : ℕ) (lanes : List (List PamLevel)) :
    Keeps s ((State.collect s p lanes).1) := by
  simp +contextual [Keeps, Tables, State.collect]

@[simp] theorem State.monitor_keeps (s : State) (p : ℕ) (bad : Bool) :
    Keeps s (State.monitor s p bad) := by
  unfold State.monitor
  (repeat' split) <;> simp +contextual (maxDischargeDepth := 60) [Keeps, Tables]

@[simp] theorem State.startReplay_keeps (s : State) (p : ℕ) (epoch : Bool) :
    Keeps s (State.startReplay s p epoch) := by
  unfold State.startReplay
  try dsimp only
  repeat' first
    | with_reducible exact Keeps.refl _
    | assumption
    | with_reducible refine Keeps.ite ?_ ?_
    | with_reducible refine Keeps.trans ?_ (State.fastRetrain_keeps ..)
    | with_reducible refine Keeps.trans ?_ (State.resendFlits_keeps ..)
    | with_reducible refine Keeps.trans ?_ (State.setQlp_keeps ..)
    | (with_reducible refine Keeps.trans ?_ (Keeps.foldl _ _ _ ?_); intro s x; dsimp only)
    | split
  all_goals simp +contextual (maxDischargeDepth := 60) [Keeps, Tables]

@[simp] theorem State.linkControl_keeps (s : State) (p : ℕ) (c : LinkCtl) : Keeps s (State.linkControl s p c) := by
  unfold State.linkControl
  dsimp only
  have h : ∀ u x, Keeps s u → Keeps s ((State.upFabric u x).showDegraded p) := fun u x k =>
    k.trans ((State.upFabric_keeps u x).trans (State.showDegraded_keeps _ p))
  refine Keeps.ite (Keeps.trans ?_ (State.startReplay_keeps ..)) ?_
  all_goals exact h _ _ ((State.qlAck_keeps ..).trans (State.setQlp_keeps ..))

@[simp] theorem State.takeFlit_keeps (s : State) (p : ℕ) (f : RxFlit) :
    Keeps s (State.takeFlit s p f) := by
  unfold State.takeFlit
  try dsimp only
  repeat' first
    | with_reducible exact Keeps.refl _
    | assumption
    | with_reducible refine Keeps.ite ?_ ?_
    | with_reducible refine Keeps.trans ?_ (State.fastRetrain_keeps ..)
    | with_reducible refine Keeps.trans ?_ (State.openRequest_keeps ..)
    | with_reducible refine Keeps.trans ?_ (State.setQlp_keeps ..)
    | (with_reducible refine Keeps.trans ?_ (Keeps.foldl _ _ _ ?_); intro s x; dsimp only)
    | split
  all_goals simp +contextual (maxDischargeDepth := 60) [Keeps, Tables]

@[simp] theorem State.resizeAsked_keeps (s : State) (p : ℕ) (arg : ℕ) :
    Keeps s (State.resizeAsked s p arg) := by
  simp +contextual [Keeps, Tables, State.resizeAsked]

@[simp] theorem State.resizeAcked_keeps (s : State) (p : ℕ) (arg : ℕ) :
    Keeps s (State.resizeAcked s p arg) := by
  unfold State.resizeAcked
  try dsimp only
  repeat' first
    | with_reducible exact Keeps.refl _
    | assumption
    | with_reducible refine Keeps.ite ?_ ?_
    | with_reducible refine Keeps.trans ?_ (State.enterResize_keeps ..)
    | (with_reducible refine Keeps.trans ?_ (Keeps.foldl _ _ _ ?_); intro s x; dsimp only)
    | split
  all_goals simp +contextual (maxDischargeDepth := 60) [Keeps, Tables]

@[simp] theorem State.resizeRefused_keeps (s : State) (p : ℕ) :
    Keeps s (State.resizeRefused s p) := by
  unfold State.resizeRefused
  try dsimp only
  repeat' first
    | with_reducible exact Keeps.refl _
    | assumption
    | with_reducible refine Keeps.ite ?_ ?_
    | with_reducible refine Keeps.trans ?_ (State.put_keeps ..)
    | with_reducible refine Keeps.trans ?_ (State.resizeRecord_keeps ..)
    | with_reducible refine Keeps.trans ?_ (State.setQlp_keeps ..)
    | (with_reducible refine Keeps.trans ?_ (Keeps.foldl _ _ _ ?_); intro s x; dsimp only)
    | split
  all_goals simp +contextual (maxDischargeDepth := 60) [Keeps, Tables]

@[simp] theorem State.linkCmd_keeps (s : State) (p : ℕ) (c : LinkCtl) :
    Keeps s (State.linkCmd s p c) := by
  unfold State.linkCmd
  try dsimp only
  repeat' first
    | with_reducible exact Keeps.refl _
    | assumption
    | with_reducible refine Keeps.ite ?_ ?_
    | with_reducible refine Keeps.trans ?_ (State.resizeAcked_keeps ..)
    | with_reducible refine Keeps.trans ?_ (State.resizeAsked_keeps ..)
    | with_reducible refine Keeps.trans ?_ (State.resizeRefused_keeps ..)
    | (with_reducible refine Keeps.trans ?_ (Keeps.foldl _ _ _ ?_); intro s x; dsimp only)
    | split
  all_goals simp +contextual (maxDischargeDepth := 60) [Keeps, Tables]

@[simp] theorem State.goodFlit_keeps (s : State) (p : ℕ) (f : RxFlit) : Keeps s (State.goodFlit s p f) := by
  unfold State.goodFlit
  refine Keeps.ite (Keeps.refl _) ?_
  exact Keeps.trans (Keeps.ite ((State.linkControl_keeps ..).trans (State.takeFlit_keeps ..)) (State.linkControl_keeps ..))
    (State.linkCmd_keeps ..)

@[simp] theorem State.initFails_keeps (s : State) (p : ℕ) :
    Keeps s (State.initFails s p) := by
  simp +contextual [Keeps, Tables, State.initFails]

@[simp] theorem State.firstInit_keeps (s : State) (p : ℕ) (m : InitMsg) :
    Keeps s (State.firstInit s p m) := by
  unfold State.firstInit
  try dsimp only
  repeat' first
    | with_reducible exact Keeps.refl _
    | assumption
    | with_reducible refine Keeps.ite ?_ ?_
    | with_reducible refine Keeps.trans ?_ (State.initFails_keeps ..)
    | with_reducible refine Keeps.trans ?_ (State.put_keeps ..)
    | with_reducible refine Keeps.trans ?_ (State.setQlp_keeps ..)
    | (with_reducible refine Keeps.trans ?_ (Keeps.foldl _ _ _ ?_); intro s x; dsimp only)
    | split
  all_goals simp +contextual (maxDischargeDepth := 60) [Keeps, Tables]

@[simp] theorem State.initDone_keeps (s : State) (p : ℕ) :
    Keeps s (State.initDone s p) := by
  simp +contextual [Keeps, Tables, State.initDone]

@[simp] theorem State.initTaken_keeps (s : State) (p : ℕ) (m : InitMsg) :
    Keeps s (State.initTaken s p m) := by
  unfold State.initTaken
  try dsimp only
  repeat' first
    | with_reducible exact Keeps.refl _
    | assumption
    | with_reducible refine Keeps.ite ?_ ?_
    | with_reducible refine Keeps.trans ?_ (State.firstInit_keeps ..)
    | with_reducible refine Keeps.trans ?_ (State.initDone_keeps ..)
    | with_reducible refine Keeps.trans ?_ (State.setQlp_keeps ..)
    | (with_reducible refine Keeps.trans ?_ (Keeps.foldl _ _ _ ?_); intro s x; dsimp only)
    | split
  all_goals simp +contextual (maxDischargeDepth := 60) [Keeps, Tables]

end Sys2Proof.Machine
end

