-- ==== Sys2Proof/Laws/KeepsSteering.lean ====
section
/-! SUPPORT. What the operations of Machine/Steering.lean leave alone. -/

namespace Sys2Proof.Machine

@[simp] theorem State.attemptFails_keeps (s : State) (p : ℕ) :
    Keeps s (State.attemptFails s p) := by
  unfold State.attemptFails
  (repeat' split) <;> simp +contextual (maxDischargeDepth := 60) [Keeps, Tables]

@[simp] theorem State.setRates_keeps (s : State) (rate : ℕ) (x0 : List ℕ) :
    Keeps s (State.setRates s rate x0) := by
  fun_induction State.setRates s rate x0 <;> simp +contextual (maxDischargeDepth := 60) [Keeps, Tables, *]

@[simp] theorem State.markerFound_keeps (s : State) (p : ℕ) (l : ℕ) (m : MarkerIn) :
    Keeps s (State.markerFound s p l m) := by
  unfold State.markerFound
  (repeat' split) <;> simp +contextual (maxDischargeDepth := 60) [Keeps, Tables]

@[simp] theorem State.takeFromSpare_keeps (s : State) (p : ℕ) (i : ℕ) (k : ℕ) (st : ℕ) :
    Keeps s (State.takeFromSpare s p i k st) := by
  unfold State.takeFromSpare
  (repeat' split) <;> simp +contextual (maxDischargeDepth := 60) [Keeps, Tables]

@[simp] theorem State.takeFromOwn_keeps (s : State) (p : ℕ) (i : ℕ) :
    Keeps s (State.takeFromOwn s p i) := by
  unfold State.takeFromOwn
  try dsimp only
  repeat' first
    | with_reducible exact Keeps.refl _
    | assumption
    | with_reducible refine Keeps.ite ?_ ?_
    | with_reducible refine Keeps.trans ?_ (State.lput_keeps ..)
    | with_reducible refine Keeps.trans ?_ (State.setSteer_keeps ..)
    | (with_reducible refine Keeps.trans ?_ (Keeps.foldl _ _ _ ?_); intro s x; dsimp only)
    | split
  all_goals simp +contextual (maxDischargeDepth := 60) [Keeps, Tables]

@[simp] theorem State.replacedRecord_keeps (s : State) (p : ℕ) (l : ℕ) :
    Keeps s (State.replacedRecord s p l) := by
  simp +contextual [Keeps, Tables, State.replacedRecord]

@[simp] theorem State.replacementDone_keeps (s : State) (p : ℕ) (i : ℕ) (k : ℕ) :
    Keeps s (State.replacementDone s p i k) := by
  unfold State.replacementDone
  (repeat' split) <;> simp +contextual (maxDischargeDepth := 60) [Keeps, Tables]

@[simp] theorem State.leaveDone_keeps (s : State) (p : ℕ) (i : ℕ) :
    Keeps s (State.leaveDone s p i) := by
  unfold State.leaveDone
  try dsimp only
  repeat' first
    | with_reducible exact Keeps.refl _
    | assumption
    | with_reducible refine Keeps.ite ?_ ?_
    | with_reducible refine Keeps.trans ?_ (State.lput_keeps ..)
    | with_reducible refine Keeps.trans ?_ (State.setLaneRun_keeps ..)
    | with_reducible refine Keeps.trans ?_ (State.stage_keeps ..)
    | (with_reducible refine Keeps.trans ?_ (Keeps.foldl _ _ _ ?_); intro s x; dsimp only)
    | split
  all_goals simp +contextual (maxDischargeDepth := 60) [Keeps, Tables]

@[simp] theorem State.ownReleased_keeps (s : State) (p : ℕ) (i : ℕ) :
    Keeps s (State.ownReleased s p i) := by
  unfold State.ownReleased
  try dsimp only
  repeat' first
    | with_reducible exact Keeps.refl _
    | assumption
    | with_reducible refine Keeps.ite ?_ ?_
    | with_reducible refine Keeps.trans ?_ (State.setSteer_keeps ..)
    | with_reducible refine Keeps.trans ?_ (State.stage_keeps ..)
    | with_reducible refine Keeps.trans ?_ (State.takeFromSpare_keeps ..)
    | (with_reducible refine Keeps.trans ?_ (Keeps.foldl _ _ _ ?_); intro s x; dsimp only)
    | split
  all_goals simp +contextual (maxDischargeDepth := 60) [Keeps, Tables]

@[simp] theorem State.ownBack_keeps (s : State) (p : ℕ) (i : ℕ) :
    Keeps s (State.ownBack s p i) := by
  unfold State.ownBack
  try dsimp only
  repeat' first
    | with_reducible exact Keeps.refl _
    | assumption
    | with_reducible refine Keeps.ite ?_ ?_
    | with_reducible refine Keeps.trans ?_ (State.laneCount_keeps ..)
    | with_reducible refine Keeps.trans ?_ (State.lput_keeps ..)
    | with_reducible refine Keeps.trans ?_ (State.setSteer_keeps ..)
    | with_reducible refine Keeps.trans ?_ (State.stage_keeps ..)
    | with_reducible refine Keeps.trans ?_ (State.takeFromOwn_keeps ..)
    | (with_reducible refine Keeps.trans ?_ (Keeps.foldl _ _ _ ?_); intro s x; dsimp only)
    | split
  all_goals simp +contextual (maxDischargeDepth := 60) [Keeps, Tables]

@[simp] theorem State.laneShows_keeps (s : State) (p : ℕ) (l : ℕ) (shown : ℕ) :
    Keeps s (State.laneShows s p l shown) := by
  unfold State.laneShows
  try dsimp only
  repeat' first
    | with_reducible exact Keeps.refl _
    | assumption
    | with_reducible refine Keeps.ite ?_ ?_
    | with_reducible refine Keeps.trans ?_ (State.leaveDone_keeps ..)
    | with_reducible refine Keeps.trans ?_ (State.ownBack_keeps ..)
    | with_reducible refine Keeps.trans ?_ (State.ownReleased_keeps ..)
    | with_reducible refine Keeps.trans ?_ (State.replacementDone_keeps ..)
    | with_reducible refine Keeps.trans ?_ (State.takeFromSpare_keeps ..)
    | (with_reducible refine Keeps.trans ?_ (Keeps.foldl _ _ _ ?_); intro s x; dsimp only)
    | split
  all_goals simp +contextual (maxDischargeDepth := 60) [Keeps, Tables]

@[simp] theorem State.steerAsked_keeps (s : State) (p : ℕ) (m : MarkerIn) :
    Keeps s (State.steerAsked s p m) := by
  unfold State.steerAsked
  try dsimp only
  repeat' first
    | with_reducible exact Keeps.refl _
    | assumption
    | with_reducible refine Keeps.ite ?_ ?_
    | with_reducible refine Keeps.trans ?_ (State.setSteer_keeps ..)
    | with_reducible refine Keeps.trans ?_ (State.stage_keeps ..)
    | (with_reducible refine Keeps.trans ?_ (Keeps.foldl _ _ _ ?_); intro s x; dsimp only)
    | split
  all_goals simp +contextual (maxDischargeDepth := 60) [Keeps, Tables]

@[simp] theorem State.steerAnswered_keeps (s : State) (p : ℕ) (tag : ℕ) (ack : Bool) :
    Keeps s (State.steerAnswered s p tag ack) := by
  unfold State.steerAnswered
  try dsimp only
  repeat' first
    | with_reducible exact Keeps.refl _
    | assumption
    | with_reducible refine Keeps.ite ?_ ?_
    | with_reducible refine Keeps.trans ?_ (State.fastRetrain_keeps ..)
    | with_reducible refine Keeps.trans ?_ (State.laneCount_keeps ..)
    | with_reducible refine Keeps.trans ?_ (State.nextSteer_keeps ..)
    | with_reducible refine Keeps.trans ?_ (State.setSteer_keeps ..)
    | with_reducible refine Keeps.trans ?_ (State.stage_keeps ..)
    | with_reducible refine Keeps.trans ?_ (State.thawCredits_keeps ..)
    | (with_reducible refine Keeps.trans ?_ (Keeps.foldl _ _ _ ?_); intro s x; dsimp only)
    | split
  all_goals simp +contextual (maxDischargeDepth := 60) [Keeps, Tables]

@[simp] theorem State.moveStep_keeps (s : State) (p : ℕ) (m : TxMove) :
    Keeps s ((State.moveStep s p m).1) := by
  unfold State.moveStep
  try dsimp only
  repeat' first
    | with_reducible exact Keeps.refl _
    | assumption
    | with_reducible refine Keeps.ite ?_ ?_
    | with_reducible refine Keeps.trans ?_ (State.lput_keeps ..)
    | with_reducible refine Keeps.trans ?_ (State.stage_keeps ..)
    | (with_reducible refine Keeps.trans ?_ (Keeps.foldl _ _ _ ?_); intro s x; dsimp only)
    | split
  all_goals simp +contextual (maxDischargeDepth := 60) [Keeps, Tables]

@[simp] theorem State.moveSteps_keeps (s : State) (p : ℕ) (ms : List TxMove) : Keeps s (State.moveSteps s p ms).1 := by
  induction ms generalizing s with
  | nil => exact Keeps.refl s
  | cons m ms ih => exact (State.moveStep_keeps s p m).trans (ih _)

@[simp] theorem State.sendMarkers_keeps (s : State) (p : ℕ) (count : ℕ) (cmd : ℕ) (tag : ℕ) (spare : ℕ) (lane : ℕ) (repl : Bool) (x0 : List ℕ) :
    Keeps s (State.sendMarkers s p count cmd tag spare lane repl x0) := by
  induction x0 generalizing s p count cmd tag spare lane repl with
  | nil => first | exact Keeps.refl _ | simp +contextual (maxDischargeDepth := 60) [Keeps, Tables, State.sendMarkers]
  | cons a as ih =>
    unfold State.sendMarkers
    try dsimp only
    repeat' first
      | with_reducible exact Keeps.refl _
      | assumption
      | with_reducible refine Keeps.trans ?_ (ih ..)
      | with_reducible refine Keeps.ite ?_ ?_
      | with_reducible refine Keeps.trans ?_ (State.emit_keeps ..)
      | with_reducible refine Keeps.trans ?_ (State.setLaneRun_keeps ..)
      | (with_reducible refine Keeps.trans ?_ (Keeps.foldl _ _ _ ?_); intro s x; dsimp only)
      | split
    all_goals simp +contextual (maxDischargeDepth := 60) [Keeps, Tables]

@[simp] theorem State.windowTaken_keeps (s : State) (p : ℕ) :
    Keeps s (State.windowTaken s p) := by
  simp +contextual [Keeps, Tables, State.windowTaken]

@[simp] theorem State.calPassed_keeps (s : State) (x0 : List ℕ) :
    Keeps s (State.calPassed s x0) := by
  fun_induction State.calPassed s x0 <;> simp +contextual (maxDischargeDepth := 60) [Keeps, Tables, *]

@[simp] theorem State.windowSkipped_keeps (s : State) (p : ℕ) :
    Keeps s (State.windowSkipped s p) := by
  unfold State.windowSkipped
  (repeat' split) <;> simp +contextual (maxDischargeDepth := 60) [Keeps, Tables]

@[simp] theorem State.checkBit_keeps (s : State) (l : ℕ) (code : ℕ) (b : Bool) :
    Keeps s (State.checkBit s l code b) := by
  unfold State.checkBit
  try dsimp only
  repeat' first
    | with_reducible exact Keeps.refl _
    | assumption
    | with_reducible refine Keeps.ite ?_ ?_
    | with_reducible refine Keeps.trans ?_ (State.lput_keeps ..)
    | with_reducible refine Keeps.trans ?_ (State.setLaneRun_keeps ..)
    | with_reducible refine Keeps.trans ?_ (State.take_keeps ..)
    | (with_reducible refine Keeps.trans ?_ (Keeps.foldl _ _ _ ?_); intro s x; dsimp only)
    | split
  all_goals simp +contextual (maxDischargeDepth := 60) [Keeps, Tables]

@[simp] theorem State.checkBitsIn_keeps (s : State) (l : ℕ) (code : ℕ) (x0 : List Bool) :
    Keeps s (State.checkBitsIn s l code x0) := by
  induction x0 generalizing s l code with
  | nil => first | exact Keeps.refl _ | simp +contextual (maxDischargeDepth := 60) [Keeps, Tables, State.checkBitsIn]
  | cons a as ih =>
    unfold State.checkBitsIn
    try dsimp only
    repeat' first
      | with_reducible exact Keeps.refl _
      | assumption
      | with_reducible refine Keeps.trans ?_ (ih ..)
      | with_reducible refine Keeps.ite ?_ ?_
      | with_reducible refine Keeps.trans ?_ (State.checkBit_keeps ..)
      | (with_reducible refine Keeps.trans ?_ (Keeps.foldl _ _ _ ?_); intro s x; dsimp only)
      | split
    all_goals simp +contextual (maxDischargeDepth := 60) [Keeps, Tables]

@[simp] theorem State.laneOut_keeps (s : State) (l : ℕ) :
    Keeps s (State.laneOut s l) := by
  simp only [State.laneOut]
  (repeat' split) <;> simp +contextual (maxDischargeDepth := 60) [Keeps, Tables, *]

@[simp] theorem State.laneBack_keeps (s : State) (l : ℕ) :
    Keeps s (State.laneBack s l) := by
  unfold State.laneBack
  try dsimp only
  repeat' first
    | with_reducible exact Keeps.refl _
    | assumption
    | with_reducible refine Keeps.ite ?_ ?_
    | with_reducible refine Keeps.trans ?_ (State.askGrants_keeps ..)
    | with_reducible refine Keeps.trans ?_ (State.laneAcquire_keeps ..)
    | with_reducible refine Keeps.trans ?_ (State.lput_keeps ..)
    | with_reducible refine Keeps.trans ?_ (State.portBack_keeps ..)
    | with_reducible refine Keeps.trans ?_ (State.sendSteer_keeps ..)
    | with_reducible refine Keeps.trans ?_ (State.setLaneRun_keeps ..)
    | with_reducible refine Keeps.trans ?_ (State.setSteer_keeps ..)
    | (with_reducible refine Keeps.trans ?_ (Keeps.foldl _ _ _ ?_); intro s x; dsimp only)
    | split
  all_goals simp +contextual (maxDischargeDepth := 60) [Keeps, Tables]

end Sys2Proof.Machine
end

