-- ==== Sys2Proof/Laws/KeepsTransmit.lean ====
section
/-! SUPPORT. What the operations of Machine/Transmit.lean leave alone. -/

namespace Sys2Proof.Machine

@[simp] theorem State.syncLeaves_keeps (s : State) (p : ℕ) (id : ℕ) :
    Keeps s (State.syncLeaves s p id) := by
  simp +contextual [Keeps, Tables, State.syncLeaves]

@[simp] theorem State.tideLeaves_keeps (s : State) (p : ℕ) (b : Body) :
    Keeps s (State.tideLeaves s p b) := by
  unfold State.tideLeaves
  try dsimp only
  repeat' first
    | with_reducible exact Keeps.refl _
    | assumption
    | with_reducible refine Keeps.ite ?_ ?_
    | (rw [State.upClock_eq]; with_reducible refine Keeps.trans ?_ (State.upClock_keeps ..))
    | with_reducible refine Keeps.trans ?_ (State.syncLeaves_keeps ..)
    | (with_reducible refine Keeps.trans ?_ (Keeps.foldl _ _ _ ?_); intro s x; dsimp only)
    | split
  all_goals simp +contextual (maxDischargeDepth := 60) [Keeps, Tables]

@[simp] theorem State.ctlNext_keeps (s : State) (p : ℕ) :
    Keeps s ((State.ctlNext s p).1) := by
  simp +contextual [Keeps, Tables, State.ctlNext]

@[simp] theorem State.activeFlit_keeps (s : State) (p : ℕ) :
    Keeps s ((State.activeFlit s p).1) := by
  unfold State.activeFlit
  (repeat' split) <;> simp +contextual (maxDischargeDepth := 60) [Keeps, Tables]

@[simp] theorem State.answered_keeps (s : State) (p : ℕ) :
    Keeps s (State.answered s p) := by
  unfold State.answered
  try dsimp only
  repeat' first
    | with_reducible exact Keeps.refl _
    | assumption
    | with_reducible refine Keeps.ite ?_ ?_
    | with_reducible refine Keeps.trans ?_ (State.answer_keeps ..)
    | with_reducible refine Keeps.trans ?_ (State.enterResize_keeps ..)
    | with_reducible refine Keeps.trans ?_ (State.setQlp_keeps ..)
    | (with_reducible refine Keeps.trans ?_ (Keeps.foldl _ _ _ ?_); intro s x; dsimp only)
    | split
  all_goals simp +contextual (maxDischargeDepth := 60) [Keeps, Tables]

@[simp] theorem State.initSent_keeps (s : State) (p : ℕ) :
    Keeps s (State.initSent s p) := by
  unfold State.initSent
  try dsimp only
  repeat' first
    | with_reducible exact Keeps.refl _
    | assumption
    | with_reducible refine Keeps.ite ?_ ?_
    | with_reducible refine Keeps.trans ?_ (State.initDone_keeps ..)
    | with_reducible refine Keeps.trans ?_ (State.setQlp_keeps ..)
    | (with_reducible refine Keeps.trans ?_ (Keeps.foldl _ _ _ ?_); intro s x; dsimp only)
    | split
  all_goals simp +contextual (maxDischargeDepth := 60) [Keeps, Tables]

@[simp] theorem State.sendBytes_keeps (s : State) (l : ℕ) (bs : List Byte) :
    Keeps s (State.sendBytes s l bs) := by
  simp +contextual [Keeps, Tables, State.sendBytes]

@[simp] theorem State.sendLanes_keeps (s : State) (first : ℕ) (w : ℕ) (n : ℕ) (flit : List Byte) (x0 : List ℕ) :
    Keeps s (State.sendLanes s first w n flit x0) := by
  induction x0 generalizing s first w n flit with
  | nil => first | exact Keeps.refl _ | simp +contextual (maxDischargeDepth := 60) [Keeps, Tables, State.sendLanes]
  | cons a as ih =>
    unfold State.sendLanes
    try dsimp only
    repeat' first
      | with_reducible exact Keeps.refl _
      | assumption
      | with_reducible refine Keeps.trans ?_ (ih ..)
      | with_reducible refine Keeps.ite ?_ ?_
      | with_reducible refine Keeps.trans ?_ (State.sendBytes_keeps ..)
      | (with_reducible refine Keeps.trans ?_ (Keeps.foldl _ _ _ ?_); intro s x; dsimp only)
      | split
    all_goals simp +contextual (maxDischargeDepth := 60) [Keeps, Tables]

@[simp] theorem State.flitOut_keeps (s : State) (p : ℕ) (f : List Byte) :
    Keeps s ((State.flitOut s p f).1) := by
  unfold State.flitOut
  try dsimp only
  repeat' first
    | with_reducible exact Keeps.refl _
    | assumption
    | with_reducible refine Keeps.ite ?_ ?_
    | with_reducible refine Keeps.trans ?_ (State.takeInjection_keeps ..)
    | (with_reducible refine Keeps.trans ?_ (Keeps.foldl _ _ _ ?_); intro s x; dsimp only)
    | split
  all_goals simp +contextual (maxDischargeDepth := 60) [Keeps, Tables]

@[simp] theorem State.putOut_keeps (s : State) (p : ℕ) (w : ℕ) (n : ℕ) (flit : List Byte) :
    Keeps s (State.putOut s p w n flit) := by
  unfold State.putOut
  (repeat' split) <;> simp +contextual (maxDischargeDepth := 60) [Keeps, Tables]

@[simp] theorem State.flitSlot_keeps (s : State) (p : ℕ) :
    Keeps s (State.flitSlot s p) := by
  unfold State.flitSlot
  (repeat' split) <;> simp +contextual (maxDischargeDepth := 60) [Keeps, Tables]

@[simp] theorem State.flitSlots_keeps (s : State) (x0 : List ℕ) :
    Keeps s (State.flitSlots s x0) := by
  induction x0 generalizing s with
  | nil => first | exact Keeps.refl _ | simp +contextual (maxDischargeDepth := 60) [Keeps, Tables, State.flitSlots]
  | cons a as ih =>
    unfold State.flitSlots
    try dsimp only
    repeat' first
      | with_reducible exact Keeps.refl _
      | assumption
      | with_reducible refine Keeps.trans ?_ (ih ..)
      | with_reducible refine Keeps.ite ?_ ?_
      | with_reducible refine Keeps.trans ?_ (State.flitSlot_keeps ..)
      | (with_reducible refine Keeps.trans ?_ (Keeps.foldl _ _ _ ?_); intro s x; dsimp only)
      | split
    all_goals simp +contextual (maxDischargeDepth := 60) [Keeps, Tables]

@[simp] theorem State.marksMissed_keeps (s : State) (x0 : List ℕ) :
    Keeps s (State.marksMissed s x0) := by
  induction x0 generalizing s with
  | nil => first | exact Keeps.refl _ | simp +contextual (maxDischargeDepth := 60) [Keeps, Tables, State.marksMissed]
  | cons a as ih =>
    unfold State.marksMissed
    try dsimp only
    repeat' first
      | with_reducible exact Keeps.refl _
      | assumption
      | with_reducible refine Keeps.trans ?_ (ih ..)
      | with_reducible refine Keeps.ite ?_ ?_
      | with_reducible refine Keeps.trans ?_ (State.lput_keeps ..)
      | with_reducible refine Keeps.trans ?_ (State.setLaneRun_keeps ..)
      | (with_reducible refine Keeps.trans ?_ (Keeps.foldl _ _ _ ?_); intro s x; dsimp only)
      | split
    all_goals simp +contextual (maxDischargeDepth := 60) [Keeps, Tables]

@[simp] theorem State.testLane_keeps (s : State) (l : ℕ) :
    Keeps s (State.testLane s l) := by
  unfold State.testLane
  try dsimp only
  repeat' first
    | with_reducible exact Keeps.refl _
    | assumption
    | with_reducible refine Keeps.ite ?_ ?_
    | with_reducible refine Keeps.trans ?_ (State.checkBitsIn_keeps ..)
    | with_reducible refine Keeps.trans ?_ (State.emit_keeps ..)
    | with_reducible refine Keeps.trans ?_ (State.setLaneRun_keeps ..)
    | (with_reducible refine Keeps.trans ?_ (Keeps.foldl _ _ _ ?_); intro s x; dsimp only)
    | split
  all_goals simp +contextual (maxDischargeDepth := 60) [Keeps, Tables]

@[simp] theorem State.testLanes_keeps (s : State) (x0 : List ℕ) :
    Keeps s (State.testLanes s x0) := by
  induction x0 generalizing s with
  | nil => first | exact Keeps.refl _ | simp +contextual (maxDischargeDepth := 60) [Keeps, Tables, State.testLanes]
  | cons a as ih =>
    unfold State.testLanes
    try dsimp only
    repeat' first
      | with_reducible exact Keeps.refl _
      | assumption
      | with_reducible refine Keeps.trans ?_ (ih ..)
      | with_reducible refine Keeps.ite ?_ ?_
      | with_reducible refine Keeps.trans ?_ (State.testLane_keeps ..)
      | (with_reducible refine Keeps.trans ?_ (Keeps.foldl _ _ _ ?_); intro s x; dsimp only)
      | split
    all_goals simp +contextual (maxDischargeDepth := 60) [Keeps, Tables]

@[simp] theorem State.lanesTick_keeps (s : State) :
    Keeps s (State.lanesTick s) := by
  unfold State.lanesTick
  try dsimp only
  repeat' first
    | with_reducible exact Keeps.refl _
    | assumption
    | with_reducible refine Keeps.ite ?_ ?_
    | with_reducible refine Keeps.trans ?_ (State.flitSlots_keeps ..)
    | with_reducible refine Keeps.trans ?_ (State.marksMissed_keeps ..)
    | with_reducible refine Keeps.trans ?_ (State.testLanes_keeps ..)
    | (with_reducible refine Keeps.trans ?_ (Keeps.foldl _ _ _ ?_); intro s x; dsimp only)
    | split
  all_goals simp +contextual (maxDischargeDepth := 60) [Keeps, Tables]

end Sys2Proof.Machine
end

