-- ==== Sys2Proof/Laws/KeepsSlotRows.lean ====
section
/-! SUPPORT. What the operations of Machine/SlotRows.lean leave alone. -/

namespace Sys2Proof.Machine

@[simp] theorem State.slotRecord_keeps (s : State) (n : ℕ) (measured : ℕ) (limit : ℕ) :
    Keeps s (State.slotRecord s n measured limit) := by
  simp +contextual [Keeps, Tables, State.slotRecord]

@[simp] theorem State.tellSlot_keeps (s : State) (n : ℕ) (k : PresenceKind) :
    Keeps s (State.tellSlot s n k) := by
  unfold State.tellSlot
  (repeat' split) <;> simp +contextual (maxDischargeDepth := 60) [Keeps, Tables]

@[simp] theorem State.slotStart_keeps (s : State) (n : ℕ) :
    Keeps s (State.slotStart s n) := by
  unfold State.slotStart
  (repeat' split) <;> simp +contextual (maxDischargeDepth := 60) [Keeps, Tables]

@[simp] theorem State.slotTrip_keeps (s : State) (n : ℕ) (cause : ℕ) (measured : ℕ) (limit : ℕ) :
    Keeps s (State.slotTrip s n cause measured limit) := by
  unfold State.slotTrip
  (repeat' split) <;> simp +contextual (maxDischargeDepth := 60) [Keeps, Tables]

@[simp] theorem State.limitEnter_keeps (s : State) (n : ℕ) :
    Keeps s (State.limitEnter s n) := by
  unfold State.limitEnter
  try dsimp only
  repeat' first
    | with_reducible exact Keeps.refl _
    | assumption
    | with_reducible refine Keeps.ite ?_ ?_
    | with_reducible refine Keeps.trans ?_ (State.put_keeps ..)
    | with_reducible refine Keeps.trans ?_ (State.setSlotRun_keeps ..)
    | (with_reducible refine Keeps.trans ?_ (Keeps.foldl _ _ _ ?_); intro s x; dsimp only)
    | split
  all_goals simp +contextual (maxDischargeDepth := 60) [Keeps, Tables]

@[simp] theorem State.slotOutNow_keeps (s : State) (n : ℕ) :
    Keeps s (State.slotOutNow s n) := by
  simp +contextual [Keeps, Tables, State.slotOutNow]

@[simp] theorem State.slotBackNow_keeps (s : State) (n : ℕ) :
    Keeps s (State.slotBackNow s n) := by
  unfold State.slotBackNow
  try dsimp only
  repeat' first
    | with_reducible exact Keeps.refl _
    | assumption
    | with_reducible refine Keeps.ite ?_ ?_
    | with_reducible refine Keeps.trans ?_ (State.put_keeps ..)
    | (with_reducible refine Keeps.trans ?_ (Keeps.foldl _ _ _ ?_); intro s x; dsimp only)
    | split
  all_goals simp +contextual (maxDischargeDepth := 60) [Keeps, Tables]

@[simp] theorem State.slotTestStart_keeps (s : State) (n : ℕ) :
    Keeps s (State.slotTestStart s n) := by
  unfold State.slotTestStart
  try dsimp only
  repeat' first
    | with_reducible exact Keeps.refl _
    | assumption
    | with_reducible refine Keeps.ite ?_ ?_
    | with_reducible refine Keeps.trans ?_ (State.put_keeps ..)
    | (with_reducible refine Keeps.trans ?_ (Keeps.foldl _ _ _ ?_); intro s x; dsimp only)
    | split
  all_goals simp +contextual (maxDischargeDepth := 60) [Keeps, Tables]

@[simp] theorem State.slotAutoOnNow_keeps (s : State) (n : ℕ) :
    Keeps s (State.slotAutoOnNow s n) := by
  unfold State.slotAutoOnNow
  try dsimp only
  repeat' first
    | with_reducible exact Keeps.refl _
    | assumption
    | with_reducible refine Keeps.ite ?_ ?_
    | with_reducible refine Keeps.trans ?_ (State.setSlotRun_keeps ..)
    | with_reducible refine Keeps.trans ?_ (State.slotTry_keeps ..)
    | (with_reducible refine Keeps.trans ?_ (Keeps.foldl _ _ _ ?_); intro s x; dsimp only)
    | split
  all_goals simp +contextual (maxDischargeDepth := 60) [Keeps, Tables]

@[simp] theorem State.slotLimitsDone_keeps (s1a : State) (s : State) (n : ℕ) :
    Keeps s1a (State.slotLimitsDone s1a s n) := by
  unfold State.slotLimitsDone
  (repeat' split) <;> simp +contextual (maxDischargeDepth := 60) [Keeps, Tables]

@[simp] theorem State.slotLimits_keeps (s : State) (n : ℕ) (w0 : Word) (w1 : Word) :
    Keeps s (State.slotLimits s n w0 w1) := by
  unfold State.slotLimits
  try dsimp only
  repeat' first
    | with_reducible exact Keeps.refl _
    | assumption
    | with_reducible refine Keeps.ite ?_ ?_
    | with_reducible refine Keeps.trans ?_ (State.putWord_keeps ..)
    | with_reducible refine Keeps.trans ?_ (State.slotLimitsDone_keeps ..)
    | (with_reducible refine Keeps.trans ?_ (Keeps.foldl _ _ _ ?_); intro s x; dsimp only)
    | split
  all_goals simp +contextual (maxDischargeDepth := 60) [Keeps, Tables]

@[simp] theorem State.slotOnNow_keeps (s : State) (n : ℕ) :
    Keeps s (State.slotOnNow s n) := by
  unfold State.slotOnNow
  try dsimp only
  repeat' first
    | with_reducible exact Keeps.refl _
    | assumption
    | with_reducible refine Keeps.ite ?_ ?_
    | with_reducible refine Keeps.trans ?_ (State.setSlotRun_keeps ..)
    | with_reducible refine Keeps.trans ?_ (State.slotTry_keeps ..)
    | (with_reducible refine Keeps.trans ?_ (Keeps.foldl _ _ _ ?_); intro s x; dsimp only)
    | split
  all_goals simp +contextual (maxDischargeDepth := 60) [Keeps, Tables]

@[simp] theorem slotDone_keeps (s : State) (n : ℕ) (acted : Bool) :
    Keeps s ((slotDone s n acted).st) := by
  simp +contextual [Keeps, Tables, slotDone]

@[simp] theorem State.opSlotpwr_keeps (s : State) (n : ℕ) (r : ObjReq) :
    Keeps s ((State.opSlotpwr s n r).st) := by
  unfold State.opSlotpwr
  try dsimp only
  repeat' first
    | with_reducible exact Keeps.refl _
    | assumption
    | with_reducible refine Keeps.ite ?_ ?_
    | with_reducible refine Keeps.trans ?_ (State.slotLimits_keeps ..)
    | with_reducible refine Keeps.trans ?_ (State.slotOffNow_keeps ..)
    | with_reducible refine Keeps.trans ?_ (State.slotOnNow_keeps ..)
    | (with_reducible refine Keeps.trans ?_ (Keeps.foldl _ _ _ ?_); intro s x; dsimp only)
    | split
  all_goals simp +contextual (maxDischargeDepth := 60) [Keeps, Tables]

@[simp] theorem State.opBudget_keeps (s : State) (r : ObjReq) :
    Keeps s ((State.opBudget s r).st) := by
  unfold State.opBudget
  try dsimp only
  repeat' first
    | with_reducible exact Keeps.refl _
    | assumption
    | with_reducible refine Keeps.ite ?_ ?_
    | (rw [State.upLanes_eq]; with_reducible refine Keeps.trans ?_ (State.upLanes_keeps ..))
    | with_reducible refine Keeps.trans ?_ (State.put_keeps ..)
    | (with_reducible refine Keeps.trans ?_ (Keeps.foldl _ _ _ ?_); intro s x; dsimp only)
    | split
  all_goals simp +contextual (maxDischargeDepth := 60) [Keeps, Tables]

@[simp] theorem State.feedTarget_keeps (s : State) (f : ℕ) (v : ℕ) :
    Keeps s (State.feedTarget s f v) := by
  unfold State.feedTarget
  try dsimp only
  repeat' first
    | with_reducible exact Keeps.refl _
    | assumption
    | with_reducible refine Keeps.ite ?_ ?_
    | with_reducible refine Keeps.trans ?_ (State.put_keeps ..)
    | (with_reducible refine Keeps.trans ?_ (Keeps.foldl _ _ _ ?_); intro s x; dsimp only)
    | split
  all_goals simp +contextual (maxDischargeDepth := 60) [Keeps, Tables]

@[simp] theorem State.slotSample_keeps (s : State) (x : SlotSample) :
    Keeps s (State.slotSample s x) := by
  unfold State.slotSample
  try dsimp only
  repeat' first
    | with_reducible exact Keeps.refl _
    | assumption
    | with_reducible refine Keeps.ite ?_ ?_
    | with_reducible refine Keeps.trans ?_ (State.put_keeps ..)
    | with_reducible refine Keeps.trans ?_ (State.setSlotRun_keeps ..)
    | with_reducible refine Keeps.trans ?_ (State.take_keeps ..)
    | (with_reducible refine Keeps.trans ?_ (Keeps.foldl _ _ _ ?_); intro s x; dsimp only)
    | split
  all_goals simp +contextual (maxDischargeDepth := 60) [Keeps, Tables]

@[simp] theorem State.slotSamples_keeps (s : State) (x0 : List SlotSample) :
    Keeps s (State.slotSamples s x0) := by
  fun_induction State.slotSamples s x0 <;> simp +contextual (maxDischargeDepth := 60) [Keeps, Tables, *]

@[simp] theorem State.feedSamples_keeps (s : State) (x0 : List FeedSample) : Keeps s (State.feedSamples s x0) := by
  induction x0 generalizing s with
  | nil => exact Keeps.refl s
  | cons x xs ih =>
    rw [State.feedSamples]
    exact Keeps.trans (State.setFeedRun_keeps ..) (ih _)

@[simp] theorem State.slotPublish_keeps (s : State) (n : ℕ) :
    Keeps s (State.slotPublish s n) := by
  unfold State.slotPublish
  try dsimp only
  repeat' first
    | with_reducible exact Keeps.refl _
    | assumption
    | with_reducible refine Keeps.ite ?_ ?_
    | with_reducible refine Keeps.trans ?_ (State.put_keeps ..)
    | (with_reducible refine Keeps.trans ?_ (Keeps.foldl _ _ _ ?_); intro s x; dsimp only)
    | split
  all_goals simp +contextual (maxDischargeDepth := 60) [Keeps, Tables]

@[simp] theorem State.feedPublish_keeps (s : State) (f : ℕ) :
    Keeps s (State.feedPublish s f) := by
  unfold State.feedPublish
  try dsimp only
  repeat' first
    | with_reducible exact Keeps.refl _
    | assumption
    | with_reducible refine Keeps.ite ?_ ?_
    | with_reducible refine Keeps.trans ?_ (State.put_keeps ..)
    | (with_reducible refine Keeps.trans ?_ (Keeps.foldl _ _ _ ?_); intro s x; dsimp only)
    | split
  all_goals simp +contextual (maxDischargeDepth := 60) [Keeps, Tables]

end Sys2Proof.Machine
end

