-- ==== Sys2Proof/Laws/KeepsSwitch.lean ====
section
/-! SUPPORT. What the operations of Machine/Switch.lean leave alone. -/

namespace Sys2Proof.Machine

@[simp] theorem State.refuseIn_keeps (s : State) (pk : Packet) (st : CplStatus) :
    Keeps s (State.refuseIn s pk st) := by
  simp +contextual [Keeps, Tables, State.refuseIn]

@[simp] theorem State.ecrcFails_keeps (s : State) (p : ℕ) (pk : Packet) :
    Keeps s (State.ecrcFails s p pk) := by
  unfold State.ecrcFails
  try dsimp only
  repeat' first
    | with_reducible exact Keeps.refl _
    | assumption
    | with_reducible refine Keeps.ite ?_ ?_
    | with_reducible refine Keeps.trans ?_ (State.addSat_keeps ..)
    | with_reducible refine Keeps.trans ?_ (State.aerRequester_keeps ..)
    | with_reducible refine Keeps.trans ?_ (State.raiseOpen_keeps ..)
    | (with_reducible refine Keeps.trans ?_ (Keeps.foldl _ _ _ ?_); intro s x; dsimp only)
    | split
  all_goals simp +contextual (maxDischargeDepth := 60) [Keeps, Tables]

@[simp] theorem State.fabricIn_keeps (s : State) (p : ℕ) (x : PacketIn) (h : FabHdr) (cells : List CellIdx) :
    Keeps s (State.fabricIn s p x h cells) := by
  simp only [State.fabricIn]
  (repeat' split) <;> simp +contextual (maxDischargeDepth := 60) [Keeps, Tables, *]

@[simp] theorem State.lateCompletion_keeps (s : State) (p : ℕ) (dev : ℕ) (slot : ℕ) (success : Bool) :
    Keeps s (State.lateCompletion s p dev slot success) := by
  unfold State.lateCompletion
  try dsimp only
  repeat' first
    | with_reducible exact Keeps.refl _
    | assumption
    | with_reducible refine Keeps.ite ?_ ?_
    | with_reducible refine Keeps.trans ?_ (State.countLate_keeps ..)
    | with_reducible refine Keeps.trans ?_ (State.raise_keeps ..)
    | (with_reducible refine Keeps.trans ?_ (Keeps.foldl _ _ _ ?_); intro s x; dsimp only)
    | split
  all_goals simp +contextual (maxDischargeDepth := 60) [Keeps, Tables]

@[simp] theorem State.completionIn_keeps (s : State) (p : ℕ) (c : CompletionIn) :
    Keeps s (State.completionIn s p c) := by
  unfold State.completionIn
  try dsimp only
  repeat' first
    | with_reducible exact Keeps.refl _
    | assumption
    | with_reducible refine Keeps.ite ?_ ?_
    | with_reducible refine Keeps.trans ?_ (State.dropReq_keeps ..)
    | with_reducible refine Keeps.trans ?_ (State.goOn_keeps ..)
    | with_reducible refine Keeps.trans ?_ (State.lateCompletion_keeps ..)
    | with_reducible refine Keeps.trans ?_ (State.raise_keeps ..)
    | with_reducible refine Keeps.trans ?_ (State.returnCredits_keeps ..)
    | (with_reducible refine Keeps.trans ?_ (Keeps.foldl _ _ _ ?_); intro s x; dsimp only)
    | split
  all_goals simp +contextual (maxDischargeDepth := 60) [Keeps, Tables]

@[simp] theorem State.setDeficit_keeps (s : State) (c : ℕ) (q : ℕ) (n : ℕ) :
    Keeps s (State.setDeficit s c q n) := by
  simp +contextual [Keeps, Tables, State.setDeficit]

@[simp] theorem State.nextQueue_keeps (s : State) (c : ℕ) :
    Keeps s (State.nextQueue s c) := by
  simp +contextual [Keeps, Tables, State.nextQueue]

@[simp] theorem State.visit_keeps (s : State) (c : ℕ) (q : ℕ) :
    Keeps s (State.visit s c q) := by
  unfold State.visit
  try dsimp only
  repeat' first
    | with_reducible exact Keeps.refl _
    | assumption
    | with_reducible refine Keeps.ite ?_ ?_
    | (rw [State.upCore_eq]; with_reducible refine Keeps.trans ?_ (State.upCore_keeps ..))
    | with_reducible refine Keeps.trans ?_ (State.count_keeps ..)
    | with_reducible refine Keeps.trans ?_ (State.setDeficit_keeps ..)
    | (with_reducible refine Keeps.trans ?_ (Keeps.foldl _ _ _ ?_); intro s x; dsimp only)
    | split
  all_goals simp +contextual (maxDischargeDepth := 60) [Keeps, Tables]

@[simp] theorem State.drr_keeps (starved : List PktKind) (c : ℕ) (fuel : ℕ) (s : State) :
    ∀ r, State.drr starved c fuel s = some r → Keeps s r.1 := by
  induction fuel generalizing s with
  | zero => intro r h; simp [State.drr] at h
  | succ n ih =>
    intro r h
    unfold State.drr at h
    dsimp only at h
    split at h
    · exact (State.nextQueue_keeps s c).trans (ih _ r h)
    · have k : Keeps s (if s.midVisit c then s else s.visit c (s.roundPtr c)) :=
        Keeps.ite (Keeps.refl s) (State.visit_keeps s c (s.roundPtr c))
      generalize (if s.midVisit c then s else s.visit c (s.roundPtr c)) = y at h k
      split at h
      · exact (k.trans (State.nextQueue_keeps y c)).trans (ih _ r h)
      · split at h
        · cases h
          exact k.trans (State.setDeficit_keeps y _ _ _)
        · exact (k.trans (State.nextQueue_keeps y c)).trans (ih _ r h)

@[simp] theorem State.choose_keeps (s : State) (starved : List PktKind) (c : ℕ) :
    ∀ r, State.choose s starved c = some r → Keeps s r.1 := by
  intro r h
  unfold State.choose at h
  split at h
  · rw [Option.map_eq_some_iff] at h
    obtain ⟨pk, -, rfl⟩ := h
    exact Keeps.refl s
  · split at h
    · exact State.drr_keeps starved c 26 s r h
    · cases h

@[simp] theorem State.uncorrectable_keeps (s : State) (pk : Packet) (e : CellError) (column : ℕ) (cell : ℕ) (action : ℕ) :
    Keeps s (State.uncorrectable s pk e column cell action) := by
  unfold State.uncorrectable
  try dsimp only
  repeat' first
    | with_reducible exact Keeps.refl _
    | assumption
    | with_reducible refine Keeps.ite ?_ ?_
    | with_reducible refine Keeps.trans ?_ (State.addSat_keeps ..)
    | with_reducible refine Keeps.trans ?_ (State.count_keeps ..)
    | with_reducible refine Keeps.trans ?_ (State.raise_keeps ..)
    | with_reducible refine Keeps.trans ?_ (State.raiseOpen_keeps ..)
    | (with_reducible refine Keeps.trans ?_ (Keeps.foldl _ _ _ ?_); intro s x; dsimp only)
    | split
  all_goals simp +contextual (maxDischargeDepth := 60) [Keeps, Tables]

@[simp] theorem State.bitCorrected_keeps (s : State) (pk : Packet) (e : CellError) (column : ℕ) (cell : ℕ) :
    Keeps s (State.bitCorrected s pk e column cell) := by
  unfold State.bitCorrected
  try dsimp only
  repeat' first
    | with_reducible exact Keeps.refl _
    | assumption
    | with_reducible refine Keeps.ite ?_ ?_
    | with_reducible refine Keeps.trans ?_ (State.addSat_keeps ..)
    | with_reducible refine Keeps.trans ?_ (State.count_keeps ..)
    | with_reducible refine Keeps.trans ?_ (State.raiseOpen_keeps ..)
    | (with_reducible refine Keeps.trans ?_ (Keeps.foldl _ _ _ ?_); intro s x; dsimp only)
    | split
  all_goals simp +contextual (maxDischargeDepth := 60) [Keeps, Tables]

@[simp] theorem State.inReplay_keeps (s : State) (pk : Packet) :
    Keeps s (State.inReplay s pk) := by
  simp +contextual [Keeps, Tables, State.inReplay]

@[simp] theorem State.poisonPkt_keeps (s : State) (pk : Packet) :
    Keeps s (State.poisonPkt s pk) := by
  simp +contextual [Keeps, Tables, State.poisonPkt]

@[simp] theorem State.cellError_keeps (s : State) (id : ℕ) (e : CellError) :
    Keeps s (State.cellError s id e) := by
  unfold State.cellError
  try dsimp only
  repeat' first
    | with_reducible exact Keeps.refl _
    | assumption
    | with_reducible refine Keeps.ite ?_ ?_
    | with_reducible refine Keeps.trans ?_ (State.bitCorrected_keeps ..)
    | with_reducible refine Keeps.trans ?_ (State.corrected_keeps ..)
    | with_reducible refine Keeps.trans ?_ (State.poisonPkt_keeps ..)
    | with_reducible refine Keeps.trans ?_ (State.take_keeps ..)
    | with_reducible refine Keeps.trans ?_ (State.uncorrectable_keeps ..)
    | (with_reducible refine Keeps.trans ?_ (Keeps.foldl _ _ _ ?_); intro s x; dsimp only)
    | split
  all_goals simp +contextual (maxDischargeDepth := 60) [Keeps, Tables]

@[simp] theorem State.cmpLost_keeps (s : State) (pk : Packet) (r : ReqEntry) :
    Keeps s (State.cmpLost s pk r) := by
  unfold State.cmpLost
  try dsimp only
  repeat' first
    | with_reducible exact Keeps.refl _
    | assumption
    | with_reducible refine Keeps.ite ?_ ?_
    | with_reducible refine Keeps.trans ?_ (State.emit_keeps ..)
    | (with_reducible refine Keeps.trans ?_ (Keeps.foldl _ _ _ ?_); intro s x; dsimp only)
    | split
  all_goals simp +contextual (maxDischargeDepth := 60) [Keeps, Tables]

@[simp] theorem State.ltTurned_keeps (s : State) (pk : Packet) :
    Keeps s (State.ltTurned s pk) := by
  unfold State.ltTurned
  (repeat' split) <;> simp +contextual (maxDischargeDepth := 60) [Keeps, Tables]

@[simp] theorem State.cplGate_keeps (s : State) (c : ℕ) (pk : Packet) :
    Keeps s ((State.cplGate s c pk).1) := by
  unfold State.cplGate
  try dsimp only
  repeat' first
    | with_reducible exact Keeps.refl _
    | assumption
    | with_reducible refine Keeps.ite ?_ ?_
    | with_reducible refine Keeps.trans ?_ (State.cmpLost_keeps ..)
    | with_reducible refine Keeps.trans ?_ (State.dropPkt_keeps ..)
    | with_reducible refine Keeps.trans ?_ (State.dropReq_keeps ..)
    | with_reducible refine Keeps.trans ?_ (State.lateCompletion_keeps ..)
    | (with_reducible refine Keeps.trans ?_ (Keeps.foldl _ _ _ ?_); intro s x; dsimp only)
    | split
  all_goals simp +contextual (maxDischargeDepth := 60) [Keeps, Tables]

@[simp] theorem State.enterOut_keeps (s : State) (c : ℕ) (pk : Packet) :
    Keeps s (State.enterOut s c pk) := by
  simp +contextual [Keeps, Tables, State.enterOut]

@[simp] theorem State.gateStage_keeps (s : State) (c : ℕ) (pk : Packet) :
    Keeps s ((State.gateStage s c pk).1) := by
  unfold State.gateStage
  try dsimp only
  repeat' first
    | with_reducible exact Keeps.refl _
    | assumption
    | with_reducible refine Keeps.ite ?_ ?_
    | with_reducible refine Keeps.trans ?_ (State.closeFn_keeps ..)
    | with_reducible refine Keeps.trans ?_ (State.count_keeps ..)
    | with_reducible refine Keeps.trans ?_ (State.cplGate_keeps ..)
    | with_reducible refine Keeps.trans ?_ (State.dropPkt_keeps ..)
    | with_reducible refine Keeps.trans ?_ (State.enterOut_keeps ..)
    | with_reducible refine Keeps.trans ?_ (State.failPkt_keeps ..)
    | with_reducible refine Keeps.trans ?_ (State.gateRefuse_keeps ..)
    | with_reducible refine Keeps.trans ?_ (State.ltTurned_keeps ..)
    | (with_reducible refine Keeps.trans ?_ (Keeps.foldl _ _ _ ?_); intro s x; dsimp only)
    | split
  all_goals simp +contextual (maxDischargeDepth := 60) [Keeps, Tables]

@[simp] theorem State.countLeave_keeps (s : State) (c : ℕ) (q : ℕ) (pk : Packet) :
    Keeps s (State.countLeave s c q pk) := by
  unfold State.countLeave
  try dsimp only
  repeat' first
    | with_reducible exact Keeps.refl _
    | assumption
    | with_reducible refine Keeps.ite ?_ ?_
    | with_reducible refine Keeps.trans ?_ (State.count_keeps ..)
    | (with_reducible refine Keeps.trans ?_ (Keeps.foldl _ _ _ ?_); intro s x; dsimp only)
    | split
  all_goals simp +contextual (maxDischargeDepth := 60) [Keeps, Tables]

@[simp] theorem State.leave_keeps (s : State) (c : ℕ) (q : ℕ) (pk : Packet) :
    Keeps s (State.leave s c q pk) := by
  simp only [State.leave]
  (repeat' split) <;> simp +contextual (maxDischargeDepth := 60) [Keeps, Tables, *]

@[simp] theorem State.resendNullified_keeps (s : State) (p : ℕ) (id : ℕ) :
    Keeps s (State.resendNullified s p id) := by
  unfold State.resendNullified
  (repeat' split) <;> simp +contextual (maxDischargeDepth := 60) [Keeps, Tables]

@[simp] theorem State.setPaused_keeps (s : State) (c : ℕ) (b : Bool) :
    Keeps s (State.setPaused s c b) := by
  simp +contextual [Keeps, Tables, State.setPaused]

@[simp] theorem State.moreCells_keeps (s : State) (pk : Packet) (n : ℕ) :
    Keeps s (State.moreCells s pk n) := by
  simp +contextual [Keeps, Tables, State.moreCells]

@[simp] theorem State.orphanCells_keeps (s : State) (cells : List CellIdx) :
    Keeps s (State.orphanCells s cells) := by
  simp +contextual [Keeps, Tables, State.orphanCells]

@[simp] theorem State.gone_keeps (s : State) (c : ℕ) (pk : Packet) :
    Keeps s (State.gone s c pk) := by
  unfold State.gone
  try dsimp only
  repeat' first
    | with_reducible exact Keeps.refl _
    | assumption
    | with_reducible refine Keeps.ite ?_ ?_
    | (rw [State.upCms_eq]; with_reducible refine Keeps.trans ?_ (State.upCms_keeps ..))
    | with_reducible refine Keeps.trans ?_ (State.emit_keeps ..)
    | with_reducible refine Keeps.trans ?_ (State.hostWrite_keeps ..)
    | with_reducible refine Keeps.trans ?_ (State.msix_keeps ..)
    | with_reducible refine Keeps.trans ?_ (State.slotEvent_keeps ..)
    | with_reducible refine Keeps.trans ?_ (State.toAgent_keeps ..)
    | (with_reducible refine Keeps.trans ?_ (Keeps.foldl _ _ _ ?_); intro s x; dsimp only)
    | split
  all_goals simp +contextual (maxDischargeDepth := 60) [Keeps, Tables]

@[simp] theorem State.bankOut_keeps (s : State) (b : ℕ) :
    ∀ t, State.bankOut s b = some t → Keeps s t := by
  unfold State.bankOut
  try dsimp only
  repeat' first
    | with_reducible exact Keeps.refl _
    | assumption
    | with_reducible refine Keeps.ite ?_ ?_
    | with_reducible refine Keeps.trans ?_ (State.put_keeps ..)
    | (with_reducible refine Keeps.trans ?_ (Keeps.foldl _ _ _ ?_); intro s x; dsimp only)
    | split
  all_goals simp +contextual (maxDischargeDepth := 60) [Keeps, Tables]

@[simp] theorem State.bankBack_keeps (s : State) (b : ℕ) :
    ∀ t, State.bankBack s b = some t → Keeps s t := by
  unfold State.bankBack
  try dsimp only
  repeat' first
    | with_reducible exact Keeps.refl _
    | assumption
    | with_reducible refine Keeps.ite ?_ ?_
    | with_reducible refine Keeps.trans ?_ (State.put_keeps ..)
    | (with_reducible refine Keeps.trans ?_ (Keeps.foldl _ _ _ ?_); intro s x; dsimp only)
    | split
  all_goals simp +contextual (maxDischargeDepth := 60) [Keeps, Tables]

@[simp] theorem State.bankTestStart_keeps (s : State) (b : ℕ) :
    ∀ t, State.bankTestStart s b = some t → Keeps s t := by
  unfold State.bankTestStart
  try dsimp only
  repeat' first
    | with_reducible exact Keeps.refl _
    | assumption
    | with_reducible refine Keeps.ite ?_ ?_
    | with_reducible refine Keeps.trans ?_ (State.put_keeps ..)
    | (with_reducible refine Keeps.trans ?_ (Keeps.foldl _ _ _ ?_); intro s x; dsimp only)
    | split
  all_goals simp +contextual (maxDischargeDepth := 60) [Keeps, Tables]

end Sys2Proof.Machine
end

