-- ==== Sys2Proof/Laws/KeepsFabricRows.lean ====
section
/-! SUPPORT. What the operations of Machine/FabricRows.lean leave alone. -/

namespace Sys2Proof.Machine

@[simp] theorem State.peerCount_keeps (s : State) (dev : ℕ) (n : ℕ) :
    Keeps s (State.peerCount s dev n) := by
  simp +contextual [Keeps, Tables, State.peerCount]

@[simp] theorem State.setRecv_keeps (s : State) (r : RecvRec) :
    Keeps s (State.setRecv s r) := by
  simp +contextual [Keeps, Tables, State.setRecv]

@[simp] theorem State.deliver_keeps (s : State) (pk : Packet) :
    Keeps s (State.deliver s pk) := by
  simp +contextual [Keeps, Tables, State.deliver]

@[simp] theorem State.deliverNext_keeps (c : ℕ) (x0 : State) (x1 : RecvRec) : Keeps x0 ((State.deliverNext c x0 x1).1) := by
  induction c generalizing x0 x1 with
  | zero => exact Keeps.refl x0
  | succ n ih =>
    unfold State.deliverNext
    split
    · exact Keeps.refl x0
    · dsimp only
      refine Keeps.trans ?_ (ih _ _)
      split
      · exact State.deliver_keeps _ _
      · exact Keeps.refl x0

@[simp] theorem State.dropHeldPkts_keeps (s : State) (dev : ℕ) (x0 : List (ℕ × ℕ)) :
    Keeps s (State.dropHeldPkts s dev x0) := by
  induction x0 generalizing s dev with
  | nil => first | exact Keeps.refl _ | simp +contextual (maxDischargeDepth := 60) [Keeps, Tables, State.dropHeldPkts]
  | cons a as ih =>
    unfold State.dropHeldPkts
    try dsimp only
    repeat' first
      | with_reducible exact Keeps.refl _
      | assumption
      | with_reducible refine Keeps.trans ?_ (ih ..)
      | with_reducible refine Keeps.ite ?_ ?_
      | with_reducible refine Keeps.trans ?_ (State.dropPkt_keeps ..)
      | with_reducible refine Keeps.trans ?_ (State.peerCount_keeps ..)
      | (with_reducible refine Keeps.trans ?_ (Keeps.foldl _ _ _ ?_); intro s x; dsimp only)
      | split
    all_goals simp +contextual (maxDischargeDepth := 60) [Keeps, Tables]

@[simp] theorem State.reorderWaits_keeps (s : State) (pk : Packet) (dev : ℕ) :
    Keeps s (State.reorderWaits s pk dev) := by
  unfold State.reorderWaits
  try dsimp only
  repeat' first
    | with_reducible exact Keeps.refl _
    | assumption
    | with_reducible refine Keeps.ite ?_ ?_
    | with_reducible refine Keeps.trans ?_ (State.peerCount_keeps ..)
    | with_reducible refine Keeps.trans ?_ (State.setPkt_keeps ..)
    | (with_reducible refine Keeps.trans ?_ (Keeps.foldl _ _ _ ?_); intro s x; dsimp only)
    | split
  all_goals simp +contextual (maxDischargeDepth := 60) [Keeps, Tables]

@[simp] theorem State.inSequence_keeps (s : State) (pk : Packet) (h : FabHdr) (r : RecvRec) :
    Keeps s (State.inSequence s pk h r) := by
  unfold State.inSequence
  try dsimp only
  repeat' first
    | with_reducible exact Keeps.refl _
    | assumption
    | with_reducible refine Keeps.ite ?_ ?_
    | with_reducible refine Keeps.trans ?_ (State.deliver_keeps ..)
    | with_reducible refine Keeps.trans ?_ (State.deliverNext_keeps ..)
    | with_reducible refine Keeps.trans ?_ (State.dropPkt_keeps ..)
    | with_reducible refine Keeps.trans ?_ (State.peerCount_keeps ..)
    | with_reducible refine Keeps.trans ?_ (State.reorderWaits_keeps ..)
    | with_reducible refine Keeps.trans ?_ (State.setPkt_keeps ..)
    | with_reducible refine Keeps.trans ?_ (State.setRecv_keeps ..)
    | (with_reducible refine Keeps.trans ?_ (Keeps.foldl _ _ _ ?_); intro s x; dsimp only)
    | split
  all_goals simp +contextual (maxDischargeDepth := 60) [Keeps, Tables]

@[simp] theorem State.tearHeld_keeps (s : State) (dev : ℕ) (es : List (ℕ × ℕ)) : Keeps s (State.tearHeld s dev es) := by
  induction es generalizing s with
  | nil => exact Keeps.refl s
  | cons e es ih =>
    unfold State.tearHeld
    dsimp only
    refine (Keeps.trans ?_ (State.dropPkt_keeps _ _)).trans ((State.peerCount_keeps _ _ _).trans (ih _))
    split
    · exact State.turnAway_keeps _ _ _
    · exact Keeps.refl s

@[simp] theorem State.withdrawEntry_keeps (s : State) (p : ℕ) (e : WithdrawEntry) :
    Keeps s (State.withdrawEntry s p e) := by
  unfold State.withdrawEntry
  (repeat' split) <;> simp +contextual (maxDischargeDepth := 60) [Keeps, Tables]

end Sys2Proof.Machine
end

