-- ==== Sys2Proof/Laws/KeepsTenancyRows.lean ====
section
/-! SUPPORT. What the operations of Machine/TenancyRows.lean leave alone. -/

namespace Sys2Proof.Machine

@[simp] theorem State.issueReset_keeps (s : State) (t : ℕ) (slot : ℕ) (i : ℕ) :
    Keeps s (State.issueReset s t slot i) := by
  unfold State.issueReset
  try dsimp only
  repeat' first
    | with_reducible exact Keeps.refl _
    | assumption
    | with_reducible refine Keeps.ite ?_ ?_
    | (rw [State.upTenancy_eq]; with_reducible refine Keeps.trans ?_ (State.upTenancy_keeps ..))
    | with_reducible refine Keeps.trans ?_ (State.bumpGen_keeps ..)
    | with_reducible refine Keeps.trans ?_ (State.closeFn_keeps ..)
    | with_reducible refine Keeps.trans ?_ (State.emit_keeps ..)
    | (with_reducible refine Keeps.trans ?_ (Keeps.foldl _ _ _ ?_); intro s x; dsimp only)
    | split
  all_goals simp +contextual (maxDischargeDepth := 60) [Keeps, Tables]

@[simp] theorem State.issueResets_keeps (s : State) (t : ℕ) (x0 : List (ℕ × ℕ)) :
    Keeps s (State.issueResets s t x0) := by
  fun_induction State.issueResets s t x0 <;> simp +contextual (maxDischargeDepth := 60) [Keeps, Tables, *]

@[simp] theorem State.tenantResetStart_keeps (s : State) (t : TenantId) (prog : ℕ) : Keeps s (State.tenantResetStart s t prog) := by
  unfold State.tenantResetStart
  dsimp only
  refine Keeps.trans ?_ (State.upTenancy_keeps _ _)
  refine Keeps.trans ?_ (Keeps.foldl _ _ _ (fun u v => ?_))
  · refine Keeps.trans ?_ (Keeps.foldl _ _ _ (fun u q => State.qpToError_keeps _ _))
    exact (State.put_keeps _ _ _ _).trans (State.issueResets_keeps _ _ _)
  · split
    · exact State.cmViewReset_keeps _ _
    · exact Keeps.refl u

@[simp] theorem State.resetDone_keeps (s : State) (g : GateSlot) (ld : ℕ) :
    Keeps s (State.resetDone s g ld) := by
  simp +contextual [Keeps, Tables, State.resetDone]

@[simp] theorem State.fnRemoved_keeps (s : State) (p : ℕ) (slot : ℕ) :
    Keeps s (State.fnRemoved s p slot) := by
  unfold State.fnRemoved
  try dsimp only
  repeat' first
    | with_reducible exact Keeps.refl _
    | assumption
    | with_reducible refine Keeps.ite ?_ ?_
    | with_reducible refine Keeps.trans ?_ (State.bumpGens_keeps ..)
    | with_reducible refine Keeps.trans ?_ (State.closeFn_keeps ..)
    | with_reducible refine Keeps.trans ?_ (State.put_keeps ..)
    | with_reducible refine Keeps.trans ?_ (State.raise_keeps ..)
    | with_reducible refine Keeps.trans ?_ (State.tellViews_keeps ..)
    | (with_reducible refine Keeps.trans ?_ (Keeps.foldl _ _ _ ?_); intro s x; dsimp only)
    | split
  all_goals simp +contextual (maxDischargeDepth := 60) [Keeps, Tables]

@[simp] theorem State.retriesAnew_keeps (s : State) (p : ℕ) (x0 : List ℕ) :
    Keeps s (State.retriesAnew s p x0) := by
  induction x0 generalizing s p with
  | nil => first | exact Keeps.refl _ | simp +contextual (maxDischargeDepth := 60) [Keeps, Tables, State.retriesAnew]
  | cons a as ih =>
    unfold State.retriesAnew
    try dsimp only
    repeat' first
      | with_reducible exact Keeps.refl _
      | assumption
      | with_reducible refine Keeps.trans ?_ (ih ..)
      | with_reducible refine Keeps.ite ?_ ?_
      | with_reducible refine Keeps.trans ?_ (State.put_keeps ..)
      | (with_reducible refine Keeps.trans ?_ (Keeps.foldl _ _ _ ?_); intro s x; dsimp only)
      | split
    all_goals simp +contextual (maxDischargeDepth := 60) [Keeps, Tables]

@[simp] theorem State.fnTakes_keeps (s : State) (p : ℕ) (slot : ℕ) (bus : ℕ) (devfn : ℕ) (f : FnIdent) :
    Keeps s (State.fnTakes s p slot bus devfn f) := by
  unfold State.fnTakes
  try dsimp only
  repeat' first
    | with_reducible exact Keeps.refl _
    | assumption
    | with_reducible refine Keeps.ite ?_ ?_
    | with_reducible refine Keeps.trans ?_ (State.put_keeps ..)
    | (with_reducible refine Keeps.trans ?_ (Keeps.foldl _ _ _ ?_); intro s x; dsimp only)
    | split
  all_goals simp +contextual (maxDischargeDepth := 60) [Keeps, Tables]

@[simp] theorem State.barsFound_keeps (s : State) (slot : ℕ) (x0 : ℕ) (x1 : List ℕ) :
    Keeps s (State.barsFound s slot x0 x1) := by
  fun_induction State.barsFound s slot x0 x1 <;> simp +contextual (maxDischargeDepth := 60) [Keeps, Tables, *]

@[simp] theorem State.fnLift_keeps (s : State) (slot : ℕ) :
    Keeps s (State.fnLift s slot) := by
  simp +contextual [Keeps, Tables, State.fnLift]

@[simp] theorem State.forgetIds_keeps (s : State) (slot : ℕ) :
    Keeps s (State.forgetIds s slot) := by
  simp +contextual [Keeps, Tables, State.forgetIds]

@[simp] theorem State.enumerated_keeps (s : State) (p : ℕ) (slot : ℕ) (bus : ℕ) (devfn : ℕ) (found : Option FnIdent) :
    Keeps s (State.enumerated s p slot bus devfn found) := by
  unfold State.enumerated
  (repeat' split) <;> simp +contextual (maxDischargeDepth := 60) [Keeps, Tables]

end Sys2Proof.Machine
end

