-- ==== Sys2Proof/Laws/KeepsHosts.lean ====
section
/-! SUPPORT. What the operations of Machine/Hosts.lean leave alone. -/

namespace Sys2Proof.Machine

@[simp] theorem State.edgeLaneUp_keeps (s : State) (rate : ℕ) (l : ℕ) (i : ℕ) :
    Keeps s (State.edgeLaneUp s rate l i) := by
  unfold State.edgeLaneUp
  try dsimp only
  repeat' first
    | with_reducible exact Keeps.refl _
    | assumption
    | with_reducible refine Keeps.ite ?_ ?_
    | with_reducible refine Keeps.trans ?_ (State.draw_keeps ..)
    | with_reducible refine Keeps.trans ?_ (State.lput_keeps ..)
    | (with_reducible refine Keeps.trans ?_ (Keeps.foldl _ _ _ ?_); intro s x; dsimp only)
    | split
  all_goals simp +contextual (maxDischargeDepth := 60) [Keeps, Tables]

@[simp] theorem State.edgeLanesUp_keeps (s : State) (rate : ℕ) (i : ℕ) (x0 : List ℕ) :
    Keeps s (State.edgeLanesUp s rate i x0) := by
  induction x0 generalizing s rate i with
  | nil => first | exact Keeps.refl _ | simp +contextual (maxDischargeDepth := 60) [Keeps, Tables, State.edgeLanesUp]
  | cons a as ih =>
    unfold State.edgeLanesUp
    try dsimp only
    repeat' first
      | with_reducible exact Keeps.refl _
      | assumption
      | with_reducible refine Keeps.trans ?_ (ih ..)
      | with_reducible refine Keeps.ite ?_ ?_
      | with_reducible refine Keeps.trans ?_ (State.edgeLaneUp_keeps ..)
      | (with_reducible refine Keeps.trans ?_ (Keeps.foldl _ _ _ ?_); intro s x; dsimp only)
      | split
    all_goals simp +contextual (maxDischargeDepth := 60) [Keeps, Tables]

@[simp] theorem State.showL0_keeps (s : State) (p : ℕ) (rate : ℕ) (width : ℕ) (flit : Bool) (cxlMem : Bool) :
    Keeps s (State.showL0 s p rate width flit cxlMem) := by
  unfold State.showL0
  try dsimp only
  repeat' first
    | with_reducible exact Keeps.refl _
    | assumption
    | with_reducible refine Keeps.ite ?_ ?_
    | (rw [State.upPcie_eq]; with_reducible refine Keeps.trans ?_ (State.upPcie_keeps ..))
    | with_reducible refine Keeps.trans ?_ (State.edgeLanesUp_keeps ..)
    | with_reducible refine Keeps.trans ?_ (State.put_keeps ..)
    | (with_reducible refine Keeps.trans ?_ (Keeps.foldl _ _ _ ?_); intro s x; dsimp only)
    | split
  all_goals simp +contextual (maxDischargeDepth := 60) [Keeps, Tables]

@[simp] theorem State.dropGrants_keeps (s : State) (ls : List ℕ) :
    Keeps s (State.dropGrants s ls) := by
  simp +contextual [Keeps, Tables, State.dropGrants]

@[simp] theorem State.entersL1_keeps (s : State) (p : ℕ) :
    Keeps s (State.entersL1 s p) := by
  unfold State.entersL1
  try dsimp only
  repeat' first
    | with_reducible exact Keeps.refl _
    | assumption
    | with_reducible refine Keeps.ite ?_ ?_
    | with_reducible refine Keeps.trans ?_ (State.put_keeps ..)
    | (with_reducible refine Keeps.trans ?_ (Keeps.foldl _ _ _ ?_); intro s x; dsimp only)
    | split
  all_goals simp +contextual (maxDischargeDepth := 60) [Keeps, Tables]

@[simp] theorem State.l1Tick_keeps (s : State) :
    Keeps s (State.l1Tick s) := by
  unfold State.l1Tick
  try dsimp only
  repeat' first
    | with_reducible exact Keeps.refl _
    | assumption
    | with_reducible refine Keeps.ite ?_ ?_
    | with_reducible refine Keeps.trans ?_ (State.entersL1_keeps ..)
    | (with_reducible refine Keeps.trans ?_ (Keeps.foldl _ _ _ ?_); intro s x; dsimp only)
    | split
  all_goals simp +contextual (maxDischargeDepth := 60) [Keeps, Tables]

@[simp] theorem State.fnReset_keeps (s : State) (v : ViewId) (f : ViewFn) :
    Keeps s (State.fnReset s v f) := by
  unfold State.fnReset
  try dsimp only
  repeat' first
    | with_reducible exact Keeps.refl _
    | assumption
    | with_reducible refine Keeps.ite ?_ ?_
    | with_reducible refine Keeps.trans ?_ (State.cfgClear_keeps ..)
    | with_reducible refine Keeps.trans ?_ (State.ltPfReset_keeps ..)
    | with_reducible refine Keeps.trans ?_ (State.ltVfReset_keeps ..)
    | with_reducible refine Keeps.trans ?_ (State.mgmtReset_keeps ..)
    | (with_reducible refine Keeps.trans ?_ (Keeps.foldl _ _ _ ?_); intro s x; dsimp only)
    | split
  all_goals simp +contextual (maxDischargeDepth := 60) [Keeps, Tables]

@[simp] theorem State.cfgWrite_keeps (s : State) (v : ℕ) (fn : ℕ) (reg : ℕ) (w : BitVec 32) :
    Keeps s (State.cfgWrite s v fn reg w) := by
  simp +contextual [Keeps, Tables, State.cfgWrite]

@[simp] theorem State.cfgOwn_stores (s : State) (v : ViewId) (fn : ℕ) (ident : ℕ × ℕ × ℕ) (c : CfgReq) :
    Stores s (State.cfgOwn s v fn ident c) := by
  unfold State.cfgOwn
  (repeat' split) <;> simp +contextual (maxDischargeDepth := 60) [Stores, Tables]

@[simp] theorem State.cfgBound_keeps (s : State) (v : ViewId) (k : ℕ) (e : ℕ × ℕ) (c : CfgReq) :
    Keeps s (State.cfgBound s v k e c) := by
  unfold State.cfgBound
  (repeat' split) <;> simp +contextual (maxDischargeDepth := 60) [Keeps, Tables]

theorem State.cfgVport_stores (s : State) (v : ViewId) (k : ℕ) (c : CfgReq) (ur : State) (h : Stores s ur) :
    Stores s (State.cfgVport s v k c ur) := by
  unfold State.cfgVport
  split
  · dsimp only
    have k := State.cfgOwn_stores s v (vportFn k) (0x9146, 0x060400, 1) c
    exact Stores.ite ⟨k.1, k.2.1, k.2.2.1, k.2.2.2.1, k.2.2.2.2⟩ k
  · exact h

end Sys2Proof.Machine
end

