-- ==== Sys2Proof/Laws/KeepsLog.lean ====
section
/-! SUPPORT. What the operations of Machine/Log.lean leave alone. -/

namespace Sys2Proof.Machine

@[simp] theorem State.tallyCount_keeps (s : State) (n : ℕ) :
    Keeps s (State.tallyCount s n) := by
  simp +contextual [Keeps, Tables, State.tallyCount]

@[simp] theorem State.logEntry_keeps (s : State) (e : EntryIn) :
    Keeps s (State.logEntry s e) := by
  simp +contextual [Keeps, Tables, State.logEntry]

@[simp] theorem State.hostPiece_keeps (s : State) (dev : ℕ) (v : ℕ) (addr : ℕ) (ws : List Word) :
    Keeps s (State.hostPiece s dev v addr ws) := by
  unfold State.hostPiece
  (repeat' split) <;> simp +contextual (maxDischargeDepth := 60) [Keeps, Tables]

@[simp] theorem State.hostWrite_keeps (s : State) (dev : ℕ) (v : ℕ) (addr : ℕ) (ws : List Word) :
    Keeps s (State.hostWrite s dev v addr ws) := by
  unfold State.hostWrite
  try dsimp only
  repeat' first
    | with_reducible exact Keeps.refl _
    | assumption
    | with_reducible refine Keeps.ite ?_ ?_
    | with_reducible refine Keeps.trans ?_ (State.hostPiece_keeps ..)
    | (with_reducible refine Keeps.trans ?_ (Keeps.foldl _ _ _ ?_); intro s x; dsimp only)
    | split
  all_goals simp +contextual (maxDischargeDepth := 60) [Keeps, Tables]

@[simp] theorem State.mirrorError_keeps (s : State) (v : ℕ) :
    Keeps s (State.mirrorError s v) := by
  simp +contextual [Keeps, Tables, State.mirrorError]

@[simp] theorem State.setExport_keeps (s : State) (j : ExportJob) :
    Keeps s (State.setExport s j) := by
  simp +contextual [Keeps, Tables, State.setExport]

@[simp] theorem State.exportOne_keeps (s : State) (j : ExportJob) :
    ∀ r, State.exportOne s j = some r → Keeps s r.1 := by
  unfold State.exportOne
  try dsimp only
  repeat' first
    | with_reducible exact Keeps.refl _
    | assumption
    | with_reducible refine Keeps.ite ?_ ?_
    | with_reducible refine Keeps.trans ?_ (State.hostWrite_keeps ..)
    | with_reducible refine Keeps.trans ?_ (State.sdramAccess_keeps ..)
    | with_reducible refine Keeps.trans ?_ (State.setRegBits_keeps ..)
    | (with_reducible refine Keeps.trans ?_ (Keeps.foldl _ _ _ ?_); intro s x; dsimp only)
    | split
  all_goals simp +contextual (maxDischargeDepth := 60) [Keeps, Tables]

@[simp] theorem State.exportSome_keeps (j : ExportJob) (n : ℕ) (s : State) : Keeps s ((State.exportSome j n s).1) := by
  induction n generalizing j s with
  | zero => exact Keeps.refl s
  | succ n ih =>
    unfold State.exportSome
    split
    · exact Keeps.refl s
    · exact (State.exportOne_keeps s j _ ‹_›).trans (ih _ _)

@[simp] theorem State.exportTick_keeps (s : State) :
    Keeps s (State.exportTick s) := by
  unfold State.exportTick
  try dsimp only
  repeat' first
    | with_reducible exact Keeps.refl _
    | assumption
    | with_reducible refine Keeps.ite ?_ ?_
    | with_reducible refine Keeps.trans ?_ (State.exportSome_keeps ..)
    | with_reducible refine Keeps.trans ?_ (State.setExport_keeps ..)
    | (with_reducible refine Keeps.trans ?_ (Keeps.foldl _ _ _ ?_); intro s x; dsimp only)
    | split
  all_goals simp +contextual (maxDischargeDepth := 60) [Keeps, Tables]

end Sys2Proof.Machine
end

