-- ==== Sys2Proof/Laws/KeepsWear.lean ====
section
/-! SUPPORT. What the operations of Machine/Wear.lean leave alone. -/

namespace Sys2Proof.Machine

@[simp] theorem State.tempIs_keeps (s : State) (die : ℕ) (temp : ℤ) :
    Keeps s (State.tempIs s die temp) := by
  unfold State.tempIs
  try dsimp only
  repeat' first
    | with_reducible exact Keeps.refl _
    | assumption
    | with_reducible refine Keeps.ite ?_ ?_
    | with_reducible refine Keeps.trans ?_ (State.put_keeps ..)
    | (with_reducible refine Keeps.trans ?_ (Keeps.foldl _ _ _ ?_); intro s x; dsimp only)
    | split
  all_goals simp +contextual (maxDischargeDepth := 60) [Keeps, Tables]

@[simp] theorem State.measureDie_keeps (s : State) (die : ℕ) (r : DieReading) :
    Keeps s (State.measureDie s die r) := by
  unfold State.measureDie
  try dsimp only
  repeat' first
    | with_reducible exact Keeps.refl _
    | assumption
    | with_reducible refine Keeps.ite ?_ ?_
    | with_reducible refine Keeps.trans ?_ (State.put_keeps ..)
    | with_reducible refine Keeps.trans ?_ (State.raise_keeps ..)
    | with_reducible refine Keeps.trans ?_ (State.tempIs_keeps ..)
    | (with_reducible refine Keeps.trans ?_ (Keeps.foldl _ _ _ ?_); intro s x; dsimp only)
    | split
  all_goals simp +contextual (maxDischargeDepth := 60) [Keeps, Tables]

@[simp] theorem State.measureFrom_keeps (s : State) (i : ℕ) (x0 : List DieReading) :
    Keeps s (State.measureFrom s i x0) := by
  induction x0 generalizing s i with
  | nil => first | exact Keeps.refl _ | simp +contextual (maxDischargeDepth := 60) [Keeps, Tables, State.measureFrom]
  | cons a as ih =>
    unfold State.measureFrom
    try dsimp only
    repeat' first
      | with_reducible exact Keeps.refl _
      | assumption
      | with_reducible refine Keeps.trans ?_ (ih ..)
      | with_reducible refine Keeps.ite ?_ ?_
      | with_reducible refine Keeps.trans ?_ (State.measureDie_keeps ..)
      | (with_reducible refine Keeps.trans ?_ (Keeps.foldl _ _ _ ?_); intro s x; dsimp only)
      | split
    all_goals simp +contextual (maxDischargeDepth := 60) [Keeps, Tables]

@[simp] theorem State.measureDies_keeps (s : State) (rs : List DieReading) :
    Keeps s (State.measureDies s rs) := by
  simp +contextual [Keeps, Tables, State.measureDies]

end Sys2Proof.Machine
end

