-- ==== Sys2Proof/Laws/KeepsClocks.lean ====
section
/-! SUPPORT. What the operations of Machine/Clocks.lean leave alone. -/

namespace Sys2Proof.Machine

@[simp] theorem State.sendTide_keeps (s : State) (id : ℕ) (x0 : List ℕ) :
    Keeps s (State.sendTide s id x0) := by
  induction x0 generalizing s id with
  | nil => first | exact Keeps.refl _ | simp +contextual (maxDischargeDepth := 60) [Keeps, Tables, State.sendTide]
  | cons a as ih =>
    unfold State.sendTide
    try dsimp only
    repeat' first
      | with_reducible exact Keeps.refl _
      | assumption
      | with_reducible refine Keeps.trans ?_ (ih ..)
      | with_reducible refine Keeps.ite ?_ ?_
      | with_reducible refine Keeps.trans ?_ (State.sendLocal_keeps ..)
      | (with_reducible refine Keeps.trans ?_ (Keeps.foldl _ _ _ ?_); intro s x; dsimp only)
      | split
    all_goals simp +contextual (maxDischargeDepth := 60) [Keeps, Tables]

@[simp] theorem State.tideCount_keeps (s : State) (n : ℕ) :
    Keeps s (State.tideCount s n) := by
  simp +contextual [Keeps, Tables, State.tideCount]

@[simp] theorem State.tideStep_keeps (s : State) (o : ℤ) :
    Keeps s (State.tideStep s o) := by
  unfold State.tideStep
  try dsimp only
  repeat' first
    | with_reducible exact Keeps.refl _
    | assumption
    | with_reducible refine Keeps.ite ?_ ?_
    | (rw [State.upTide_eq]; with_reducible refine Keeps.trans ?_ (State.upTide_keeps ..))
    | (rw [State.upCore_eq]; with_reducible refine Keeps.trans ?_ (State.upCore_keeps ..))
    | (rw [State.upClock_eq]; with_reducible refine Keeps.trans ?_ (State.upClock_keeps ..))
    | with_reducible refine Keeps.trans ?_ (State.addSat_keeps ..)
    | with_reducible refine Keeps.trans ?_ (State.raise_keeps ..)
    | with_reducible refine Keeps.trans ?_ (State.served_keeps ..)
    | with_reducible refine Keeps.trans ?_ (State.tideCount_keeps ..)
    | (with_reducible refine Keeps.trans ?_ (Keeps.foldl _ _ _ ?_); intro s x; dsimp only)
    | split
  all_goals simp +contextual (maxDischargeDepth := 60) [Keeps, Tables]

@[simp] theorem State.tideLock_keeps (s : State) :
    Keeps s (State.tideLock s) := by
  unfold State.tideLock
  try dsimp only
  repeat' first
    | with_reducible exact Keeps.refl _
    | assumption
    | with_reducible refine Keeps.ite ?_ ?_
    | with_reducible refine Keeps.trans ?_ (State.notify_keeps ..)
    | with_reducible refine Keeps.trans ?_ (State.put_keeps ..)
    | (with_reducible refine Keeps.trans ?_ (Keeps.foldl _ _ _ ?_); intro s x; dsimp only)
    | split
  all_goals simp +contextual (maxDischargeDepth := 60) [Keeps, Tables]

@[simp] theorem State.tideMeasure_keeps (s : State) (o : ℤ) :
    Keeps s (State.tideMeasure s o) := by
  simp only [State.tideMeasure]
  (repeat' split) <;> simp +contextual (maxDischargeDepth := 60) [Keeps, Tables, *]

@[simp] theorem State.tideLost_keeps (s : State) :
    Keeps s (State.tideLost s) := by
  unfold State.tideLost
  (repeat' split) <;> simp +contextual (maxDischargeDepth := 60) [Keeps, Tables]

@[simp] theorem State.tideSourceChanged_keeps (s : State) :
    Keeps s (State.tideSourceChanged s) := by
  unfold State.tideSourceChanged
  (repeat' split) <;> simp +contextual (maxDischargeDepth := 60) [Keeps, Tables]

@[simp] theorem State.tideTick_keeps (s : State) :
    Keeps s (State.tideTick s) := by
  simp +contextual [Keeps, Tables, State.tideTick]

@[simp] theorem State.clockDown_keeps (s : State) (p : ℕ) :
    Keeps s (State.clockDown s p) := by
  unfold State.clockDown
  (repeat' split) <;> simp +contextual (maxDischargeDepth := 60) [Keeps, Tables]

@[simp] theorem State.keepSlot_keeps (old s : State) (n : ℕ) : Keeps s (State.keepSlot old s n) := by
  unfold State.keepSlot
  dsimp only
  exact ((((((State.put_keeps ..).trans (State.put_keeps ..)).trans (State.put_keeps ..)).trans (State.put_keeps ..)).trans
    (State.put_keeps ..))).trans (State.putWords_keeps ..)

@[simp] theorem State.keepSlots_keeps (old s : State) (ns : List ℕ) : Keeps s (State.keepSlots old s ns) := by
  induction ns generalizing s with
  | nil => exact Keeps.refl s
  | cons n ns ih =>
    unfold State.keepSlots
    exact (State.keepSlot_keeps old s n).trans (ih (State.keepSlot old s n))

@[simp] theorem State.keepLanes_keeps (old s : State) : Keeps s (State.keepLanes old s) :=
  Keeps.foldl _ _ _ (fun u l => State.put_keeps u _ _ _)

@[simp] theorem State.keepRetired_keeps (s : State) (cs : List (ℕ × ContTarget)) : Keeps s (State.keepRetired s cs) := by
  induction cs generalizing s with
  | nil => exact Keeps.refl s
  | cons c cs ih =>
    obtain ⟨id, t⟩ := c
    cases t with
    | resource c =>
      unfold State.keepRetired
      dsimp only
      refine Keeps.trans (Keeps.ite ?_ (Keeps.ite ?_ ?_)) (ih _)
      · exact (State.contain_keeps ..).trans (State.put_keeps ..)
      · exact (State.contain_keeps ..).trans (State.upSdram_keeps _ _)
      · exact State.contain_keeps ..
    | _ => exact ih s

@[simp] theorem State.slotsPerst_keeps (s : State) (x0 : List ℕ) :
    Keeps s (State.slotsPerst s x0) := by
  induction x0 generalizing s with
  | nil => first | exact Keeps.refl _ | simp +contextual (maxDischargeDepth := 60) [Keeps, Tables, State.slotsPerst]
  | cons a as ih =>
    unfold State.slotsPerst
    try dsimp only
    repeat' first
      | with_reducible exact Keeps.refl _
      | assumption
      | with_reducible refine Keeps.trans ?_ (ih ..)
      | with_reducible refine Keeps.ite ?_ ?_
      | with_reducible refine Keeps.trans ?_ (State.slotPin_keeps ..)
      | (with_reducible refine Keeps.trans ?_ (Keeps.foldl _ _ _ ?_); intro s x; dsimp only)
      | split
    all_goals simp +contextual (maxDischargeDepth := 60) [Keeps, Tables]

@[simp] theorem State.reinit_safe (s : State) : Safe s (State.reinit s) := by
  unfold State.reinit
  dsimp only
  refine Safe.trans ?_ (((State.keepSlots_keeps _ _ _).trans (State.keepLanes_keeps _ _)).trans (State.keepRetired_keeps _ _)).toSafe
  exact ⟨rfl, fun _ => rfl, fun _ => rfl, fun _ => rfl, fun h => h, fun _ => rfl⟩

theorem State.deviceReset_down (s : State) : Keeps s ((s.hostsDown allPorts).fabricsDown allPorts).flushLogs :=
  ((State.hostsDown_keeps s allPorts).trans (State.fabricsDown_keeps _ allPorts)).trans (State.flushLogs_keeps _)
theorem State.reinit_slotsPerst (s : State) : Safe s (s.slotsPerst allSlots).reinit :=
  (State.slotsPerst_keeps s allSlots).toSafe.trans (State.reinit_safe _)
@[simp] theorem State.deviceReset_safe (s : State) (cause : ℕ) (held : Bool) : Safe s (State.deviceReset s cause held) := by
  have h (u : State) (p : Power) (k : Safe s u) : Safe s { u with power := p } := k
  refine h _ _ (Safe.trans (Keeps.toSafe ?_) (State.reinit_slotsPerst _))
  exact (Keeps.ite (State.emit_keeps s _) (Keeps.refl s)).trans (State.deviceReset_down _)

@[simp] theorem State.unpowered_safe (s : State) : Safe s (State.unpowered s) :=
  ⟨rfl, fun _ => rfl, fun _ => rfl, fun _ => rfl, fun _ => rfl, fun _ => rfl⟩

@[simp] theorem State.slotsCold_keeps (s : State) :
    Keeps s (State.slotsCold s) := by
  simp +contextual [Keeps, Tables, State.slotsCold]

@[simp] theorem State.badBank_keeps (s : State) (b : ℕ) :
    Keeps s (State.badBank s b) := by
  unfold State.badBank
  try dsimp only
  repeat' first
    | with_reducible exact Keeps.refl _
    | assumption
    | with_reducible refine Keeps.ite ?_ ?_
    | with_reducible refine Keeps.trans ?_ (State.contain_keeps ..)
    | with_reducible refine Keeps.trans ?_ (State.newRec_keeps ..)
    | with_reducible refine Keeps.trans ?_ (State.put_keeps ..)
    | (with_reducible refine Keeps.trans ?_ (Keeps.foldl _ _ _ ?_); intro s x; dsimp only)
    | split
  all_goals simp +contextual (maxDischargeDepth := 60) [Keeps, Tables]

@[simp] theorem State.badBankAll_keeps (s : State) (x0 : List BankId) :
    Keeps s (State.badBankAll s x0) := by
  induction x0 generalizing s with
  | nil => first | exact Keeps.refl _ | simp +contextual (maxDischargeDepth := 60) [Keeps, Tables, State.badBankAll]
  | cons a as ih =>
    unfold State.badBankAll
    try dsimp only
    repeat' first
      | with_reducible exact Keeps.refl _
      | assumption
      | with_reducible refine Keeps.trans ?_ (ih ..)
      | with_reducible refine Keeps.ite ?_ ?_
      | with_reducible refine Keeps.trans ?_ (State.badBank_keeps ..)
      | (with_reducible refine Keeps.trans ?_ (Keeps.foldl _ _ _ ?_); intro s x; dsimp only)
      | split
    all_goals simp +contextual (maxDischargeDepth := 60) [Keeps, Tables]

@[simp] theorem State.replacedLanes_keeps (s : State) (x0 : List Seed) :
    Keeps s (State.replacedLanes s x0) := by
  induction x0 generalizing s with
  | nil => first | exact Keeps.refl _ | simp +contextual (maxDischargeDepth := 60) [Keeps, Tables, State.replacedLanes]
  | cons a as ih =>
    unfold State.replacedLanes
    try dsimp only
    repeat' first
      | with_reducible exact Keeps.refl _
      | assumption
      | with_reducible refine Keeps.trans ?_ (ih ..)
      | with_reducible refine Keeps.ite ?_ ?_
      | with_reducible refine Keeps.trans ?_ (State.lput_keeps ..)
      | (with_reducible refine Keeps.trans ?_ (Keeps.foldl _ _ _ ?_); intro s x; dsimp only)
      | split
    all_goals simp +contextual (maxDischargeDepth := 60) [Keeps, Tables]

@[simp] theorem State.coldFinds_keeps (s : State) (r : StartResult) :
    Keeps s (State.coldFinds s r) := by
  unfold State.coldFinds
  (repeat' split) <;> simp +contextual (maxDischargeDepth := 60) [Keeps, Tables]

end Sys2Proof.Machine
end

