-- ==== Sys2Proof/Laws/KeepsCollector.lean ====
section
/-! SUPPORT. What the operations of Machine/Collector.lean leave alone. -/

namespace Sys2Proof.Machine

@[simp] theorem State.bankError_keeps (s : State) (e : FaultIn) :
    Keeps s (State.bankError s e) := by
  unfold State.bankError
  try dsimp only
  repeat' first
    | with_reducible exact Keeps.refl _
    | assumption
    | with_reducible refine Keeps.ite ?_ ?_
    | with_reducible refine Keeps.trans ?_ (State.addSat_keeps ..)
    | with_reducible refine Keeps.trans ?_ (State.count_keeps ..)
    | (with_reducible refine Keeps.trans ?_ (Keeps.foldl _ _ _ ?_); intro s x; dsimp only)
    | split
  all_goals simp +contextual (maxDischargeDepth := 60) [Keeps, Tables]

@[simp] theorem State.closeRecord_keeps (s : State) (id : ℕ) :
    Keeps s (State.closeRecord s id) := by
  simp +contextual [Keeps, Tables, State.closeRecord]

end Sys2Proof.Machine
end

