-- ==== Sys2Proof/Laws/KeepsSchedRows.lean ====
section
/-! SUPPORT. What the operations of Machine/SchedRows.lean leave alone. -/

namespace Sys2Proof.Machine

@[simp] theorem State.setLevels_keeps (s : State) (m : ℕ) (c : ℤ) (e : ℤ) :
    Keeps s (State.setLevels s m c e) := by
  simp +contextual [Keeps, Tables, State.setLevels]

@[simp] theorem State.refillMeter_keeps (s : State) (m : ℕ) :
    Keeps s (State.refillMeter s m) := by
  unfold State.refillMeter
  try dsimp only
  repeat' first
    | with_reducible exact Keeps.refl _
    | assumption
    | with_reducible refine Keeps.ite ?_ ?_
    | with_reducible refine Keeps.trans ?_ (State.setLevels_keeps ..)
    | (with_reducible refine Keeps.trans ?_ (Keeps.foldl _ _ _ ?_); intro s x; dsimp only)
    | split
  all_goals simp +contextual (maxDischargeDepth := 60) [Keeps, Tables]

@[simp] theorem State.countHeldEpoch_keeps (s : State) (m : ℕ) :
    Keeps s (State.countHeldEpoch s m) := by
  unfold State.countHeldEpoch
  try dsimp only
  repeat' first
    | with_reducible exact Keeps.refl _
    | assumption
    | with_reducible refine Keeps.ite ?_ ?_
    | with_reducible refine Keeps.trans ?_ (State.addSat_keeps ..)
    | with_reducible refine Keeps.trans ?_ (State.count_keeps ..)
    | (with_reducible refine Keeps.trans ?_ (Keeps.foldl _ _ _ ?_); intro s x; dsimp only)
    | split
  all_goals simp +contextual (maxDischargeDepth := 60) [Keeps, Tables]

@[simp] theorem State.refillMeters_keeps (s : State) (x0 : List ℕ) :
    Keeps s (State.refillMeters s x0) := by
  induction x0 generalizing s with
  | nil => first | exact Keeps.refl _ | simp +contextual (maxDischargeDepth := 60) [Keeps, Tables, State.refillMeters]
  | cons a as ih =>
    unfold State.refillMeters
    try dsimp only
    repeat' first
      | with_reducible exact Keeps.refl _
      | assumption
      | with_reducible refine Keeps.trans ?_ (ih ..)
      | with_reducible refine Keeps.ite ?_ ?_
      | with_reducible refine Keeps.trans ?_ (State.countHeldEpoch_keeps ..)
      | with_reducible refine Keeps.trans ?_ (State.refillMeter_keeps ..)
      | (with_reducible refine Keeps.trans ?_ (Keeps.foldl _ _ _ ?_); intro s x; dsimp only)
      | split
    all_goals simp +contextual (maxDischargeDepth := 60) [Keeps, Tables]

@[simp] theorem State.refillShaper_keeps (s : State) (q : ℕ) :
    Keeps s (State.refillShaper s q) := by
  unfold State.refillShaper
  try dsimp only
  repeat' first
    | with_reducible exact Keeps.refl _
    | assumption
    | with_reducible refine Keeps.ite ?_ ?_
    | (rw [State.upCore_eq]; with_reducible refine Keeps.trans ?_ (State.upCore_keeps ..))
    | with_reducible refine Keeps.trans ?_ (State.count_keeps ..)
    | with_reducible refine Keeps.trans ?_ (State.put_keeps ..)
    | (with_reducible refine Keeps.trans ?_ (Keeps.foldl _ _ _ ?_); intro s x; dsimp only)
    | split
  all_goals simp +contextual (maxDischargeDepth := 60) [Keeps, Tables]

@[simp] theorem State.refillShapers_keeps (s : State) (x0 : List ℕ) :
    Keeps s (State.refillShapers s x0) := by
  induction x0 generalizing s with
  | nil => first | exact Keeps.refl _ | simp +contextual (maxDischargeDepth := 60) [Keeps, Tables, State.refillShapers]
  | cons a as ih =>
    unfold State.refillShapers
    try dsimp only
    repeat' first
      | with_reducible exact Keeps.refl _
      | assumption
      | with_reducible refine Keeps.trans ?_ (ih ..)
      | with_reducible refine Keeps.ite ?_ ?_
      | with_reducible refine Keeps.trans ?_ (State.refillShaper_keeps ..)
      | (with_reducible refine Keeps.trans ?_ (Keeps.foldl _ _ _ ?_); intro s x; dsimp only)
      | split
    all_goals simp +contextual (maxDischargeDepth := 60) [Keeps, Tables]

@[simp] theorem State.epochEnd_keeps (s : State) :
    Keeps s (State.epochEnd s) := by
  simp +contextual [Keeps, Tables, State.epochEnd]

@[simp] theorem State.sampleQueue_keeps (s : State) (p : ℕ) (q : ℕ) :
    Keeps s (State.sampleQueue s p q) := by
  unfold State.sampleQueue
  try dsimp only
  repeat' first
    | with_reducible exact Keeps.refl _
    | assumption
    | with_reducible refine Keeps.ite ?_ ?_
    | with_reducible refine Keeps.trans ?_ (State.put_keeps ..)
    | (with_reducible refine Keeps.trans ?_ (Keeps.foldl _ _ _ ?_); intro s x; dsimp only)
    | split
  all_goals simp +contextual (maxDischargeDepth := 60) [Keeps, Tables]

@[simp] theorem State.sampleQueues_keeps (s : State) (p : ℕ) (x0 : List ℕ) :
    Keeps s (State.sampleQueues s p x0) := by
  induction x0 generalizing s p with
  | nil => first | exact Keeps.refl _ | simp +contextual (maxDischargeDepth := 60) [Keeps, Tables, State.sampleQueues]
  | cons a as ih =>
    unfold State.sampleQueues
    try dsimp only
    repeat' first
      | with_reducible exact Keeps.refl _
      | assumption
      | with_reducible refine Keeps.trans ?_ (ih ..)
      | with_reducible refine Keeps.ite ?_ ?_
      | with_reducible refine Keeps.trans ?_ (State.sampleQueue_keeps ..)
      | (with_reducible refine Keeps.trans ?_ (Keeps.foldl _ _ _ ?_); intro s x; dsimp only)
      | split
    all_goals simp +contextual (maxDischargeDepth := 60) [Keeps, Tables]

@[simp] theorem State.stage_keeps (s : State) (r : ℕ) (p : ℕ) :
    Keeps s (State.stage s r p) := by
  unfold State.stage
  try dsimp only
  repeat' first
    | with_reducible exact Keeps.refl _
    | assumption
    | with_reducible refine Keeps.ite ?_ ?_
    | with_reducible refine Keeps.trans ?_ (State.addSat_keeps ..)
    | with_reducible refine Keeps.trans ?_ (State.sdramAccess_keeps ..)
    | (with_reducible refine Keeps.trans ?_ (Keeps.foldl _ _ _ ?_); intro s x; dsimp only)
    | split
  all_goals simp +contextual (maxDischargeDepth := 60) [Keeps, Tables]

@[simp] theorem State.samplePorts_keeps (s : State) (x0 : List ℕ) :
    Keeps s (State.samplePorts s x0) := by
  fun_induction State.samplePorts s x0 <;> simp +contextual (maxDischargeDepth := 60) [Keeps, Tables, *]

@[simp] theorem State.sampleNow_keeps (s : State) :
    Keeps s (State.sampleNow s) := by
  simp +contextual [Keeps, Tables, State.sampleNow]

@[simp] theorem State.clockEnd_keeps (s : State) :
    Keeps s (State.clockEnd s) := by
  unfold State.clockEnd
  try dsimp only
  repeat' first
    | with_reducible exact Keeps.refl _
    | assumption
    | with_reducible refine Keeps.ite ?_ ?_
    | with_reducible refine Keeps.trans ?_ (State.epochEnd_keeps ..)
    | with_reducible refine Keeps.trans ?_ (State.sampleNow_keeps ..)
    | (with_reducible refine Keeps.trans ?_ (Keeps.foldl _ _ _ ?_); intro s x; dsimp only)
    | split
  all_goals simp +contextual (maxDischargeDepth := 60) [Keeps, Tables]

end Sys2Proof.Machine
end

