-- ==== Sys2Proof/Laws/KeepsCounters.lean ====
section
/-! SUPPORT. What the operations of Machine/Counters.lean leave alone. -/

namespace Sys2Proof.Machine

@[simp] theorem State.clearCounter_keeps (s : State) (id : ℕ) :
    Keeps s (State.clearCounter s id) := by
  unfold State.clearCounter
  try dsimp only
  repeat' first
    | with_reducible exact Keeps.refl _
    | assumption
    | with_reducible refine Keeps.ite ?_ ?_
    | with_reducible refine Keeps.trans ?_ (State.clearCtr_keeps ..)
    | with_reducible refine Keeps.trans ?_ (State.put_keeps ..)
    | (with_reducible refine Keeps.trans ?_ (Keeps.foldl _ _ _ ?_); intro s x; dsimp only)
    | split
  all_goals simp +contextual (maxDischargeDepth := 60) [Keeps, Tables]

@[simp] theorem State.setJob_keeps (s : State) (j : SnapJob) :
    Keeps s (State.setJob s j) := by
  simp +contextual [Keeps, Tables, State.setJob]

@[simp] theorem State.takeCtrs_keeps (s : State) (clear : Bool) (x0 : List ℕ) :
    Keeps s (State.takeCtrs s clear x0) := by
  induction x0 generalizing s clear with
  | nil => first | exact Keeps.refl _ | simp +contextual (maxDischargeDepth := 60) [Keeps, Tables, State.takeCtrs]
  | cons a as ih =>
    unfold State.takeCtrs
    try dsimp only
    repeat' first
      | with_reducible exact Keeps.refl _
      | assumption
      | with_reducible refine Keeps.trans ?_ (ih ..)
      | with_reducible refine Keeps.ite ?_ ?_
      | with_reducible refine Keeps.trans ?_ (State.clearCounter_keeps ..)
      | (with_reducible refine Keeps.trans ?_ (Keeps.foldl _ _ _ ?_); intro s x; dsimp only)
      | split
    all_goals simp +contextual (maxDischargeDepth := 60) [Keeps, Tables]

@[simp] theorem State.captureUnit_keeps (s : State) (j : SnapJob) (rs : List (ℕ × ℕ)) :
    Keeps s ((State.captureUnit s j rs).1) := by
  simp +contextual [Keeps, Tables, State.captureUnit]

@[simp] theorem State.capture_keeps (s : State) (j : SnapJob) :
    Keeps s (State.capture s j) := by
  unfold State.capture
  (repeat' split) <;> simp +contextual (maxDischargeDepth := 60) [Keeps, Tables]

@[simp] theorem State.captureTick_keeps (s : State) :
    Keeps s (State.captureTick s) := by
  unfold State.captureTick
  try dsimp only
  repeat' first
    | with_reducible exact Keeps.refl _
    | assumption
    | with_reducible refine Keeps.ite ?_ ?_
    | with_reducible refine Keeps.trans ?_ (State.capture_keeps ..)
    | (with_reducible refine Keeps.trans ?_ (Keeps.foldl _ _ _ ?_); intro s x; dsimp only)
    | split
  all_goals simp +contextual (maxDischargeDepth := 60) [Keeps, Tables]

end Sys2Proof.Machine
end

