-- ==== Sys2Proof/Laws/KeepsImages.lean ====
section
/-! SUPPORT. What the operations of Machine/Images.lean leave alone. -/

namespace Sys2Proof.Machine

@[simp] theorem State.afterRead_keeps (s : State) (cls : ℕ) (sel : ℕ) (w : ℕ) :
    Keeps s (State.afterRead s cls sel w) := by
  simp +contextual [Keeps, Tables, State.afterRead]

@[simp] theorem State.meterDone_keeps (s1 : State) (s0 : State) (m : ℕ) :
    Keeps s1 (State.meterDone s1 s0 m) := by
  unfold State.meterDone
  try dsimp only
  repeat' first
    | with_reducible exact Keeps.refl _
    | assumption
    | with_reducible refine Keeps.ite ?_ ?_
    | (rw [State.upCore_eq]; with_reducible refine Keeps.trans ?_ (State.upCore_keeps ..))
    | with_reducible refine Keeps.trans ?_ (State.put_keeps ..)
    | with_reducible refine Keeps.trans ?_ (State.setLevels_keeps ..)
    | (with_reducible refine Keeps.trans ?_ (Keeps.foldl _ _ _ ?_); intro s x; dsimp only)
    | split
  all_goals simp +contextual (maxDischargeDepth := 60) [Keeps, Tables]

@[simp] theorem State.meterClear_keeps (s : State) (m : ℕ) :
    Keeps s (State.meterClear s m) := by
  simp +contextual [Keeps, Tables, State.meterClear]

@[simp] theorem State.ringStop_keeps (s : State) (r : ℕ) :
    Keeps s (State.ringStop s r) := by
  simp +contextual [Keeps, Tables, State.ringStop]

@[simp] theorem State.deviceDone_keeps (s1 : State) (s0 : State) (w : ℕ) (v : Word) (mask : Word) :
    Keeps s1 (State.deviceDone s1 s0 w v mask) := by
  unfold State.deviceDone
  try dsimp only
  repeat' first
    | with_reducible exact Keeps.refl _
    | assumption
    | with_reducible refine Keeps.ite ?_ ?_
    | (rw [State.upPower_eq]; with_reducible refine Keeps.trans ?_ (State.upPower_keeps ..))
    | with_reducible refine Keeps.trans ?_ (State.ringStop_keeps ..)
    | (with_reducible refine Keeps.trans ?_ (Keeps.foldl _ _ _ ?_); intro s x; dsimp only)
    | split
  all_goals simp +contextual (maxDischargeDepth := 60) [Keeps, Tables]

@[simp] theorem State.portDone_keeps (s1 : State) (s0 : State) (p : ℕ) (w : ℕ) :
    Keeps s1 (State.portDone s1 s0 p w) := by
  unfold State.portDone
  try dsimp only
  repeat' first
    | with_reducible exact Keeps.refl _
    | assumption
    | with_reducible refine Keeps.ite ?_ ?_
    | (rw [State.upTenancy_eq]; with_reducible refine Keeps.trans ?_ (State.upTenancy_keeps ..))
    | with_reducible refine Keeps.trans ?_ (State.windowTaken_keeps ..)
    | (with_reducible refine Keeps.trans ?_ (Keeps.foldl _ _ _ ?_); intro s x; dsimp only)
    | split
  all_goals simp +contextual (maxDischargeDepth := 60) [Keeps, Tables]

@[simp] theorem State.prbsStop_keeps (s : State) (l : ℕ) :
    Keeps s (State.prbsStop s l) := by
  unfold State.prbsStop
  try dsimp only
  repeat' first
    | with_reducible exact Keeps.refl _
    | assumption
    | with_reducible refine Keeps.ite ?_ ?_
    | with_reducible refine Keeps.trans ?_ (State.lput_keeps ..)
    | with_reducible refine Keeps.trans ?_ (State.setLaneRun_keeps ..)
    | (with_reducible refine Keeps.trans ?_ (Keeps.foldl _ _ _ ?_); intro s x; dsimp only)
    | split
  all_goals simp +contextual (maxDischargeDepth := 60) [Keeps, Tables]

@[simp] theorem State.laneSetup_keeps (s : State) (l : ℕ) :
    Keeps s (State.laneSetup s l) := by
  simp +contextual [Keeps, Tables, State.laneSetup]

@[simp] theorem State.spareMoved_keeps (s : State) (l : ℕ) :
    Keeps s (State.spareMoved s l) := by
  unfold State.spareMoved
  (repeat' split) <;> simp +contextual (maxDischargeDepth := 60) [Keeps, Tables]

@[simp] theorem State.laneDone_keeps (s1 : State) (s0 : State) (sel : ℕ) (w : ℕ) (v : Word) (mask : Word) :
    Keeps s1 (State.laneDone s1 s0 sel w v mask) := by
  unfold State.laneDone
  (repeat' split) <;> simp +contextual (maxDischargeDepth := 60) [Keeps, Tables]

@[simp] theorem State.groupDone_keeps (s1 : State) (s0 : State) (g : ℕ) :
    Keeps s1 (State.groupDone s1 s0 g) := by
  simp +contextual [Keeps, Tables, State.groupDone]

@[simp] theorem State.viewDone_keeps (s1 : State) :
    Keeps s1 (State.viewDone s1) := by
  simp +contextual [Keeps, Tables, State.viewDone]

@[simp] theorem State.slotWordDone_keeps (s1 : State) (s0 : State) (n : ℕ) (w : ℕ) (v : Word) (mask : Word) :
    Keeps s1 (State.slotWordDone s1 s0 n w v mask) := by
  unfold State.slotWordDone
  (repeat' split) <;> simp +contextual (maxDischargeDepth := 60) [Keeps, Tables]

/-- A state kept, or replaced by one that keeps it. -/
theorem Keeps.getD {s t : State} (o : Option State) (k : Keeps s t) (h : ∀ u, o = some u → Keeps t u) : Keeps s (o.getD t) := by
  cases o with
  | none => exact k
  | some u => exact k.trans (h u rfl)
@[simp] theorem State.bankDone_keeps (s1 : State) (b : ℕ) (v : Word) (mask : Word) : Keeps s1 (State.bankDone s1 b v mask) := by
  have h : Keeps s1 (if covers mask bankTargetState then (if bankTargetState.of v = 2 then (s1.bankOut b).getD s1 else (s1.bankBack b).getD s1)
      else s1) :=
    Keeps.ite (Keeps.ite (Keeps.getD _ (Keeps.refl s1) (State.bankOut_keeps s1 b)) (Keeps.getD _ (Keeps.refl s1) (State.bankBack_keeps s1 b)))
      (Keeps.refl s1)
  exact Keeps.ite (Keeps.getD _ h (State.bankTestStart_keeps _ b)) h

@[simp] theorem State.channelDone_keeps (s1 : State) (c : ℕ) (v : Word) :
    Keeps s1 (State.channelDone s1 c v) := by
  simp +contextual [Keeps, Tables, State.channelDone]

@[simp] theorem State.wordDone_keeps (s1 : State) (s0 : State) (cls : ℕ) (sel : ℕ) (w : ℕ) (v : Word) (mask : Word) :
    Keeps s1 (State.wordDone s1 s0 cls sel w v mask) := by
  fun_cases State.wordDone s1 s0 cls sel w v mask <;> simp +contextual (maxDischargeDepth := 60) [Keeps, Tables, *]

end Sys2Proof.Machine
end

