-- ==== Sys2Proof/Laws/KeepsInstrs.lean ====
section
/-! SUPPORT. What the operations of Machine/Instrs.lean leave alone. -/

namespace Sys2Proof.Machine

@[simp] theorem State.storeWords_keeps (s : State) (cls : ℕ) (sel : ℕ) (xs : List Written) :
    Keeps s (State.storeWords s cls sel xs) := by
  simp +contextual [Keeps, Tables, State.storeWords]

@[simp] theorem State.applyWords_keeps (s : State) (cls : ℕ) (sel : ℕ) (xs : List Written) :
    Keeps s (State.applyWords s cls sel xs) := by
  simp +contextual [Keeps, Tables, State.applyWords]

@[simp] theorem State.writeOp_keeps (s : State) (cls : ℕ) (sel : ℕ) (xs : List Written) :
    Keeps s ((State.writeOp s cls sel xs).st) := by
  unfold State.writeOp
  try dsimp only
  repeat' first
    | with_reducible exact Keeps.refl _
    | assumption
    | with_reducible refine Keeps.ite ?_ ?_
    | with_reducible refine Keeps.trans ?_ (State.applyWords_keeps ..)
    | (with_reducible refine Keeps.trans ?_ (Keeps.foldl _ _ _ ?_); intro s x; dsimp only)
    | split
  all_goals simp +contextual (maxDischargeDepth := 60) [Keeps, Tables]

@[simp] theorem State.opOread_keeps (s : State) (cls : ℕ) (sel : ℕ) (r : ObjReq) :
    Keeps s ((State.opOread s cls sel r).st) := by
  unfold State.opOread
  try dsimp only
  repeat' first
    | with_reducible exact Keeps.refl _
    | assumption
    | with_reducible refine Keeps.ite ?_ ?_
    | with_reducible refine Keeps.trans ?_ (State.afterRead_keeps ..)
    | (with_reducible refine Keeps.trans ?_ (Keeps.foldl _ _ _ ?_); intro s x; dsimp only)
    | split
  all_goals simp +contextual (maxDischargeDepth := 60) [Keeps, Tables]

@[simp] theorem State.opOwrite_keeps (s : State) (cls : ℕ) (sel : ℕ) (r : ObjReq) :
    Keeps s ((State.opOwrite s cls sel r).st) := by
  unfold State.opOwrite
  try dsimp only
  repeat' first
    | with_reducible exact Keeps.refl _
    | assumption
    | with_reducible refine Keeps.ite ?_ ?_
    | with_reducible refine Keeps.trans ?_ (State.writeOp_keeps ..)
    | (with_reducible refine Keeps.trans ?_ (Keeps.foldl _ _ _ ?_); intro s x; dsimp only)
    | split
  all_goals simp +contextual (maxDischargeDepth := 60) [Keeps, Tables]

@[simp] theorem State.opOcas_keeps (s : State) (cls : ℕ) (sel : ℕ) (r : ObjReq) :
    Keeps s ((State.opOcas s cls sel r).st) := by
  unfold State.opOcas
  try dsimp only
  repeat' first
    | with_reducible exact Keeps.refl _
    | assumption
    | with_reducible refine Keeps.ite ?_ ?_
    | with_reducible refine Keeps.trans ?_ (State.afterRead_keeps ..)
    | with_reducible refine Keeps.trans ?_ (State.writeOp_keeps ..)
    | (with_reducible refine Keeps.trans ?_ (Keeps.foldl _ _ _ ?_); intro s x; dsimp only)
    | split
  all_goals simp +contextual (maxDischargeDepth := 60) [Keeps, Tables]

@[simp] theorem State.readWords_keeps (s : State) (cls : ℕ) (sel : ℕ) (x0 : List ℕ) :
    Keeps s ((State.readWords s cls sel x0).2) := by
  induction x0 generalizing s cls sel with
  | nil => first | exact Keeps.refl _ | simp +contextual (maxDischargeDepth := 60) [Keeps, Tables, State.readWords]
  | cons a as ih =>
    unfold State.readWords
    try dsimp only
    repeat' first
      | with_reducible exact Keeps.refl _
      | assumption
      | with_reducible refine Keeps.trans ?_ (ih ..)
      | with_reducible refine Keeps.ite ?_ ?_
      | with_reducible refine Keeps.trans ?_ (State.afterRead_keeps ..)
      | (with_reducible refine Keeps.trans ?_ (Keeps.foldl _ _ _ ?_); intro s x; dsimp only)
      | split
    all_goals simp +contextual (maxDischargeDepth := 60) [Keeps, Tables]

@[simp] theorem State.queryFrom_keeps (r : ObjReq) (cls n i room : ℕ) (s : State) :
    Keeps s ((State.queryFrom r cls n i room s).2.2) := by
  induction n generalizing i room s with
  | zero => exact Keeps.refl s
  | succ n ih =>
    unfold State.queryFrom
    split
    · exact Keeps.refl s
    · dsimp only
      split
      · exact Keeps.refl s
      · exact Keeps.trans (State.readWords_keeps ..) (ih _ _ _)

@[simp] theorem State.opQuery_keeps (s : State) (cls : ℕ) (sel : ℕ) (r : ObjReq) :
    Keeps s ((State.opQuery s cls sel r).st) := by
  unfold State.opQuery
  try dsimp only
  repeat' first
    | with_reducible exact Keeps.refl _
    | assumption
    | with_reducible refine Keeps.ite ?_ ?_
    | with_reducible refine Keeps.trans ?_ (State.hostWrite_keeps ..)
    | with_reducible refine Keeps.trans ?_ (State.queryFrom_keeps ..)
    | (with_reducible refine Keeps.trans ?_ (Keeps.foldl _ _ _ ?_); intro s x; dsimp only)
    | split
  all_goals simp +contextual (maxDischargeDepth := 60) [Keeps, Tables]

@[simp] theorem State.putCfg_keeps (s : State) (ws : List (ℕ × Word)) :
    Keeps s (State.putCfg s ws) := by
  simp +contextual [Keeps, Tables, State.putCfg]

@[simp] theorem State.forgetTaps_keeps (s : State) (x0 : List ℕ) :
    Keeps s (State.forgetTaps s x0) := by
  induction x0 generalizing s with
  | nil => first | exact Keeps.refl _ | simp +contextual (maxDischargeDepth := 60) [Keeps, Tables, State.forgetTaps]
  | cons a as ih =>
    unfold State.forgetTaps
    try dsimp only
    repeat' first
      | with_reducible exact Keeps.refl _
      | assumption
      | with_reducible refine Keeps.trans ?_ (ih ..)
      | with_reducible refine Keeps.ite ?_ ?_
      | with_reducible refine Keeps.trans ?_ (State.lput_keeps ..)
      | (with_reducible refine Keeps.trans ?_ (Keeps.foldl _ _ _ ?_); intro s x; dsimp only)
      | split
    all_goals simp +contextual (maxDischargeDepth := 60) [Keeps, Tables]

@[simp] theorem State.portLeave_keeps (s : State) (p : ℕ) :
    Keeps s (State.portLeave s p) := by
  unfold State.portLeave
  (repeat' split) <;> simp +contextual (maxDischargeDepth := 60) [Keeps, Tables]

@[simp] theorem State.portJoin_keeps (s : State) (p : ℕ) :
    Keeps s (State.portJoin s p) := by
  unfold State.portJoin
  try dsimp only
  repeat' first
    | with_reducible exact Keeps.refl _
    | assumption
    | with_reducible refine Keeps.ite ?_ ?_
    | with_reducible refine Keeps.trans ?_ (State.portBringUp_keeps ..)
    | with_reducible refine Keeps.trans ?_ (State.put_keeps ..)
    | (with_reducible refine Keeps.trans ?_ (Keeps.foldl _ _ _ ?_); intro s x; dsimp only)
    | split
  all_goals simp +contextual (maxDischargeDepth := 60) [Keeps, Tables]

@[simp] theorem State.askResize_keeps (s : State) (p : ℕ) (rate : ℕ) (width : ℕ) :
    Keeps s (State.askResize s p rate width) := by
  simp +contextual [Keeps, Tables, State.askResize]

@[simp] theorem State.keepCarry_keeps (s : State) (p : ℕ) (width : ℕ) :
    Keeps s (State.keepCarry s p width) := by
  simp +contextual [Keeps, Tables, State.keepCarry]

theorem State.cfgApply_keeps (s : State) (p role width rate : ℕ) (f : State → State) (h : ∀ u, Keeps u (f u)) :
    Keeps s (State.cfgApply s p role width rate f) := by
  unfold State.cfgApply
  split
  · exact (State.keepCarry_keeps s p width).trans (h _)
  · exact ((State.portLeave_keeps s p).trans (h _)).trans (State.portJoin_keeps _ p)
  · exact ((State.keepCarry_keeps s p width).trans (h _)).trans (State.askResize_keeps _ _ _ _)

@[simp] theorem State.opPortCfg_keeps (s : State) (p : ℕ) (r : ObjReq) : Keeps s ((State.opPortCfg s p r).st) := by
  unfold State.opPortCfg
  dsimp only
  split
  · split
    · exact Keeps.refl s
    · exact (State.cfgApply_keeps s _ _ _ _ _ (fun u => State.putCfg_keeps u _)).trans (State.showHosts_keeps _)
  · exact Keeps.refl s

@[simp] theorem State.edgeRetrain_keeps (s : State) (p : ℕ) :
    Keeps s (State.edgeRetrain s p) := by
  unfold State.edgeRetrain
  (repeat' split) <;> simp +contextual (maxDischargeDepth := 60) [Keeps, Tables]

@[simp] theorem State.portHotReset_keeps (s : State) (p : ℕ) :
    Keeps s (State.portHotReset s p) := by
  unfold State.portHotReset
  (repeat' split) <;> simp +contextual (maxDischargeDepth := 60) [Keeps, Tables]

@[simp] theorem portStateDone_keeps (t : State) (p : ℕ) (acted : Bool) :
    Keeps t ((portStateDone t p acted).st) := by
  simp +contextual [Keeps, Tables, portStateDone]

@[simp] theorem State.opPortState_keeps (s : State) (p : ℕ) (r : ObjReq) :
    Keeps s ((State.opPortState s p r).st) := by
  fun_cases State.opPortState s p r <;> simp +contextual (maxDischargeDepth := 60) [Keeps, Tables, *]

@[simp] theorem State.opWithdraw_keeps (s : State) (p : ℕ) (r : ObjReq) :
    Keeps s ((State.opWithdraw s p r).st) := by
  unfold State.opWithdraw
  try dsimp only
  repeat' first
    | with_reducible exact Keeps.refl _
    | assumption
    | with_reducible refine Keeps.ite ?_ ?_
    | with_reducible refine Keeps.trans ?_ (State.reinstatePort_keeps ..)
    | with_reducible refine Keeps.trans ?_ (State.withdrawPort_keeps ..)
    | (with_reducible refine Keeps.trans ?_ (Keeps.foldl _ _ _ ?_); intro s x; dsimp only)
    | split
  all_goals simp +contextual (maxDischargeDepth := 60) [Keeps, Tables]

@[simp] theorem State.opWords_keeps (s : State) (cls : ℕ) (sel : ℕ) (r : ObjReq) :
    Keeps s ((State.opWords s cls sel r).st) := by
  unfold State.opWords
  try dsimp only
  repeat' first
    | with_reducible exact Keeps.refl _
    | assumption
    | with_reducible refine Keeps.ite ?_ ?_
    | with_reducible refine Keeps.trans ?_ (State.writeOp_keeps ..)
    | (with_reducible refine Keeps.trans ?_ (Keeps.foldl _ _ _ ?_); intro s x; dsimp only)
    | split
  all_goals simp +contextual (maxDischargeDepth := 60) [Keeps, Tables]

end Sys2Proof.Machine
end

