-- ==== Sys2Proof/Laws/KeepsTenants.lean ====
section
/-! SUPPORT. What the operations of Machine/Tenants.lean leave alone. -/

namespace Sys2Proof.Machine

@[simp] theorem State.coldMeters_keeps (s : State) (t : ℕ) :
    Keeps s (State.coldMeters s t) := by
  simp +contextual [Keeps, Tables, State.coldMeters]

@[simp] theorem State.opTenant_keeps (s : State) (t : ℕ) (r : ObjReq) :
    Keeps s ((State.opTenant s t r).st) := by
  simp only [State.opTenant]
  (repeat' split) <;> simp +contextual (maxDischargeDepth := 60) [Keeps, Tables, *]

@[simp] theorem State.tellUnbound_keeps (s : State) (sel : ℕ) (i : ℕ) :
    Keeps s (State.tellUnbound s sel i) := by
  unfold State.tellUnbound
  try dsimp only
  repeat' first
    | with_reducible exact Keeps.refl _
    | assumption
    | with_reducible refine Keeps.ite ?_ ?_
    | with_reducible refine Keeps.trans ?_ (State.slotEvent_keeps ..)
    | with_reducible refine Keeps.trans ?_ (State.tellView_keeps ..)
    | (with_reducible refine Keeps.trans ?_ (Keeps.foldl _ _ _ ?_); intro s x; dsimp only)
    | split
  all_goals simp +contextual (maxDischargeDepth := 60) [Keeps, Tables]

@[simp] theorem State.unbindWord_keeps (s : State) (sel : ℕ) (i : ℕ) :
    Keeps s (State.unbindWord s sel i) := by
  unfold State.unbindWord
  (repeat' split) <;> simp +contextual (maxDischargeDepth := 60) [Keeps, Tables]

@[simp] theorem State.dropGates_keeps (s : State) (sel : ℕ) :
    Keeps s (State.dropGates s sel) := by
  unfold State.dropGates
  try dsimp only
  repeat' first
    | with_reducible exact Keeps.refl _
    | assumption
    | with_reducible refine Keeps.ite ?_ ?_
    | with_reducible refine Keeps.trans ?_ (State.putWord_keeps ..)
    | (with_reducible refine Keeps.trans ?_ (Keeps.foldl _ _ _ ?_); intro s x; dsimp only)
    | split
  all_goals simp +contextual (maxDischargeDepth := 60) [Keeps, Tables]

@[simp] theorem State.forceContain_keeps (s : State) (sel : ℕ) :
    Keeps s (State.forceContain s sel) := by
  unfold State.forceContain
  try dsimp only
  repeat' first
    | with_reducible exact Keeps.refl _
    | assumption
    | with_reducible refine Keeps.ite ?_ ?_
    | with_reducible refine Keeps.trans ?_ (State.containFn_keeps ..)
    | with_reducible refine Keeps.trans ?_ (State.record_keeps ..)
    | (with_reducible refine Keeps.trans ?_ (Keeps.foldl _ _ _ ?_); intro s x; dsimp only)
    | split
  all_goals simp +contextual (maxDischargeDepth := 60) [Keeps, Tables]

@[simp] theorem State.unbindAll_keeps (s : State) (sel : ℕ) (force : Bool) :
    Keeps s (State.unbindAll s sel force) := by
  unfold State.unbindAll
  try dsimp only
  repeat' first
    | with_reducible exact Keeps.refl _
    | assumption
    | with_reducible refine Keeps.ite ?_ ?_
    | with_reducible refine Keeps.trans ?_ (State.closeReqs_keeps ..)
    | with_reducible refine Keeps.trans ?_ (State.dropGates_keeps ..)
    | with_reducible refine Keeps.trans ?_ (State.forceContain_keeps ..)
    | with_reducible refine Keeps.trans ?_ (State.unbindWord_keeps ..)
    | (with_reducible refine Keeps.trans ?_ (Keeps.foldl _ _ _ ?_); intro s x; dsimp only)
    | split
  all_goals simp +contextual (maxDischargeDepth := 60) [Keeps, Tables]

@[simp] theorem State.opUnbind_keeps (s : State) (sel : ℕ) (r : ObjReq) :
    Keeps s ((State.opUnbind s sel r).st) := by
  unfold State.opUnbind
  try dsimp only
  repeat' first
    | with_reducible exact Keeps.refl _
    | assumption
    | with_reducible refine Keeps.ite ?_ ?_
    | with_reducible refine Keeps.trans ?_ (State.unbindAll_keeps ..)
    | (with_reducible refine Keeps.trans ?_ (Keeps.foldl _ _ _ ?_); intro s x; dsimp only)
    | split
  all_goals simp +contextual (maxDischargeDepth := 60) [Keeps, Tables]

@[simp] theorem State.openGate_keeps (s : State) (sel : ℕ) (t : ℕ) :
    Keeps s (State.openGate s sel t) := by
  simp +contextual [Keeps, Tables, State.openGate]

@[simp] theorem State.bindDone_keeps (s : State) (sel : ℕ) (r : ObjReq) (i : ℕ) :
    Keeps s (State.bindDone s sel r i) := by
  unfold State.bindDone
  try dsimp only
  repeat' first
    | with_reducible exact Keeps.refl _
    | assumption
    | with_reducible refine Keeps.ite ?_ ?_
    | with_reducible refine Keeps.trans ?_ (State.sendMsg_keeps ..)
    | with_reducible refine Keeps.trans ?_ (State.tellView_keeps ..)
    | (with_reducible refine Keeps.trans ?_ (Keeps.foldl _ _ _ ?_); intro s x; dsimp only)
    | split
  all_goals simp +contextual (maxDischargeDepth := 60) [Keeps, Tables]

@[simp] theorem State.opBind_keeps (s : State) (sel : ℕ) (r : ObjReq) :
    Keeps s ((State.opBind s sel r).st) := by
  simp only [State.opBind]
  (repeat' split) <;> simp +contextual (maxDischargeDepth := 60) [Keeps, Tables, *]

@[simp] theorem State.reclaimed_keeps (s : State) (cls : ℕ) (sel : ℕ) :
    Keeps s (State.reclaimed s cls sel) := by
  simp +contextual [Keeps, Tables, State.reclaimed]

@[simp] theorem State.reclaim_keeps (s : State) (r : ℕ) (obj : ℕ) :
    Keeps s (State.reclaim s r obj) := by
  unfold State.reclaim
  (repeat' split) <;> simp +contextual (maxDischargeDepth := 60) [Keeps, Tables]

@[simp] theorem State.reclaimMeters_keeps (s : State) (t k : ℕ) : Keeps s (State.reclaimMeters s t k) := by
  induction k generalizing s with
  | zero => exact Keeps.refl s
  | succ k ih =>
    unfold State.reclaimMeters
    split
    · exact Keeps.refl s
    · dsimp only
      refine Keeps.trans (Keeps.trans ?_ (State.reclaimed_keeps _ _ _)) (ih _)
      exact (Keeps.foldl _ _ _ (fun u p => State.put_keeps u _ _ _)).trans (State.upTenancy_keeps _ _)

@[simp] theorem State.opResize_keeps (s : State) (t : ℕ) (r : ObjReq) :
    Keeps s ((State.opResize s t r).st) := by
  simp only [State.opResize]
  (repeat' split) <;> simp +contextual (maxDischargeDepth := 60) [Keeps, Tables, *]

end Sys2Proof.Machine
end

