-- ==== Sys2Proof/Laws/KeepsOverlays.lean ====
section
/-! SUPPORT. What the operations of Machine/Overlays.lean leave alone. -/

namespace Sys2Proof.Machine

@[simp] theorem State.ovStore_overlays (s : State) (i : ℕ) (r : ObjReq) :
    Overlays s ((State.ovStore s i r).st) := by
  unfold State.ovStore
  try dsimp only
  repeat' first
    | with_reducible exact (Keeps.refl _).toOverlays
    | assumption
    | with_reducible refine Overlays.ite ?_ ?_
    | fail
    | split
  all_goals simp +contextual (maxDischargeDepth := 60) [Overlays, Tables]

@[simp] theorem State.withOverlay_overlays (s : State) (new : Option ℕ) :
    Overlays s (State.withOverlay s new) := by
  simp +contextual [Overlays, Tables, State.withOverlay]

@[simp] theorem State.slotActs_keeps (s : State) (x0 : List (ℕ × ℕ)) :
    Keeps s ((State.slotActs s x0).2) := by
  induction x0 generalizing s with
  | nil => first | exact Keeps.refl _ | simp +contextual (maxDischargeDepth := 60) [Keeps, Tables, State.slotActs]
  | cons a as ih =>
    unfold State.slotActs
    try dsimp only
    repeat' first
      | with_reducible exact Keeps.refl _
      | assumption
      | with_reducible refine Keeps.trans ?_ (ih ..)
      | with_reducible refine Keeps.ite ?_ ?_
      | with_reducible refine Keeps.trans ?_ (State.opSlotpwr_keeps ..)
      | (with_reducible refine Keeps.trans ?_ (Keeps.foldl _ _ _ ?_); intro s x; dsimp only)
      | split
    all_goals simp +contextual (maxDischargeDepth := 60) [Keeps, Tables]

/-- What every update by `f` and every operation that keeps the tables gives, a carried-out change gives. -/
theorem State.carryOver_gives (R : State → State → Prop) (tr : ∀ {a b c}, R a b → R b c → R a c) (kp : ∀ {a b}, Keeps a b → R a b)
    (s : State) (f : State → State) (cs : List Changed) (h : ∀ u, R u (f u)) : R s (State.carryOver s f cs) := by
  have e : ∀ (a : State) (l : List Changed) (g : Changed → Word × Word),
      Keeps a (l.foldl (fun (t : State) c => t.wordDone s c.cls c.sel c.word (g c).1 (g c).2) a) :=
    fun a l g => Keeps.foldl _ l a (fun t c => State.wordDone_keeps ..)
  have a1 : ∀ (l : List ℕ) (g : ℕ → ℕ), Keeps s (l.foldl (fun (t : State) p => t.keepCarry p (g p)) s) :=
    fun l g => Keeps.foldl _ l s (fun t p => State.keepCarry_keeps ..)
  have a2 : ∀ (u : State) (l : List ℕ), Keeps u (l.foldl (fun (t : State) p => t.portLeave p) u) :=
    fun u l => Keeps.foldl _ l u (fun t p => State.portLeave_keeps ..)
  have a3 : ∀ (u : State) (l : List ℕ), Keeps u (l.foldl (fun (t : State) p => t.portJoin p) u) :=
    fun u l => Keeps.foldl _ l u (fun t p => State.portJoin_keeps ..)
  have a4 : ∀ (u : State) (l : List ℕ), Keeps u (l.foldl (fun (t : State) p => t.askResize p (t.fld portMaxRate p) (t.fld portWidth p)) u) :=
    fun u l => Keeps.foldl _ l u (fun t p => State.askResize_keeps ..)
  unfold State.carryOver
  dsimp only
  have key := fun (x y : List ℕ) (z : List ℕ) (w : List ℕ) (g : ℕ → ℕ) (g2 : Changed → Word × Word) =>
    tr (tr (kp ((a1 x g).trans (a2 _ y))) (h _)) (kp (((a3 _ z).trans (a4 _ w)).trans (e _ cs g2)))
  split
  · exact tr (key _ _ _ _ _ (fun c => ((f s).effWord c.cls c.sel c.word, c.mask))) (kp (State.showHosts_keeps _))
  · exact key _ _ _ _ _ (fun c => ((f s).effWord c.cls c.sel c.word, c.mask))
theorem State.carryOver_keeps (s : State) (f : State → State) (cs : List Changed) (h : ∀ u, Keeps u (f u)) : Keeps s (State.carryOver s f cs) :=
  State.carryOver_gives Keeps Keeps.trans id s f cs h
theorem State.carryOver_overlays (s : State) (f : State → State) (cs : List Changed) (h : ∀ u, Overlays u (f u)) :
    Overlays s (State.carryOver s f cs) :=
  State.carryOver_gives Overlays Overlays.trans Keeps.toOverlays s f cs h

@[simp] theorem State.ovCommit_overlays (s : State) (new : Option ℕ) (cs : List Changed) : Overlays s (State.ovCommit s new cs) :=
  State.carryOver_overlays s _ cs (fun u => State.withOverlay_overlays u new)

@[simp] theorem State.ovSwitch_overlays (s : State) (new : Option ℕ) (i : ℕ) :
    Overlays s ((State.ovSwitch s new i).st) := by
  unfold State.ovSwitch
  try dsimp only
  repeat' first
    | with_reducible exact (Keeps.refl _).toOverlays
    | assumption
    | with_reducible refine Overlays.ite ?_ ?_
    | (rw [State.upSlots_eq]; with_reducible refine Overlays.trans ?_ (State.upSlots_keeps ..).toOverlays)
    | with_reducible refine Overlays.trans ?_ (State.ovCommit_overlays ..)
    | with_reducible refine Overlays.trans ?_ (State.slotActs_keeps ..).toOverlays
    | with_reducible refine Overlays.trans ?_ (State.withOverlay_overlays ..)
    | fail
    | split
  all_goals simp +contextual (maxDischargeDepth := 60) [Overlays, Tables]

@[simp] theorem State.opOverlay_overlays (s : State) (i : ℕ) (r : ObjReq) : Overlays s ((State.opOverlay s i r).st) := by
  have k : Overlays s s := (Keeps.refl s).toOverlays
  unfold State.opOverlay
  dsimp only
  split
  · exact State.ovStore_overlays s i r
  split
  · exact k
  split
  · split
    · exact k
    · exact State.ovSwitch_overlays s _ i
  split
  · split
    · exact State.ovSwitch_overlays s _ i
    · exact k
  split
  · exact k
  · exact ⟨rfl, rfl, id, id, id, id⟩

@[simp] theorem State.unhold_keeps (ks : List ℕ) (s : State) :
    Keeps s (State.unhold ks s) := by
  simp +contextual [Keeps, Tables, State.unhold]

@[simp] theorem State.settleHeld_keeps (s : State) (ks : List ℕ) : Keeps s (State.settleHeld s ks) := by
  unfold State.settleHeld
  dsimp only
  exact Keeps.ite ((State.carryOver_keeps s _ _ (fun u => State.unhold_keeps ks u)).trans (State.slotActs_keeps ..)) (Keeps.refl s)

@[simp] theorem State.settleOverlays_keeps (s : State) :
    Keeps s (State.settleOverlays s) := by
  unfold State.settleOverlays
  (repeat' split) <;> simp +contextual (maxDischargeDepth := 60) [Keeps, Tables]

@[simp] theorem State.opSnap_keeps (s : State) (set : ℕ) (r : ObjReq) :
    Keeps s ((State.opSnap s set r).st) := by
  unfold State.opSnap
  try dsimp only
  repeat' first
    | with_reducible exact Keeps.refl _
    | assumption
    | with_reducible refine Keeps.ite ?_ ?_
    | with_reducible refine Keeps.trans ?_ (State.put_keeps ..)
    | (with_reducible refine Keeps.trans ?_ (Keeps.foldl _ _ _ ?_); intro s x; dsimp only)
    | split
  all_goals simp +contextual (maxDischargeDepth := 60) [Keeps, Tables]

@[simp] theorem State.opInject_keeps (s : State) (r : ObjReq) :
    Keeps s ((State.opInject s r).st) := by
  fun_cases State.opInject s r <;> simp +contextual (maxDischargeDepth := 60) [Keeps, Tables, *]

@[simp] theorem State.acknowledge_keeps (s : State) (f : FaultRec) (release : Bool) :
    Keeps s (State.acknowledge s f release) := by
  unfold State.acknowledge
  (repeat' split) <;> simp +contextual (maxDischargeDepth := 60) [Keeps, Tables]

@[simp] theorem State.opFaultack_keeps (s : State) (slot : ℕ) (r : ObjReq) :
    Keeps s ((State.opFaultack s slot r).st) := by
  unfold State.opFaultack
  try dsimp only
  repeat' first
    | with_reducible exact Keeps.refl _
    | assumption
    | with_reducible refine Keeps.ite ?_ ?_
    | with_reducible refine Keeps.trans ?_ (State.acknowledge_keeps ..)
    | (with_reducible refine Keeps.trans ?_ (Keeps.foldl _ _ _ ?_); intro s x; dsimp only)
    | split
  all_goals simp +contextual (maxDischargeDepth := 60) [Keeps, Tables]

end Sys2Proof.Machine
end

