-- ==== Sys2Proof/Laws/KeepsObjects.lean ====
section
/-! SUPPORT. What the operations of Machine/Objects.lean leave alone. -/

namespace Sys2Proof.Machine

@[simp] theorem State.runOp_overlays (s : State) (cls : ℕ) (sel : ℕ) (r : ObjReq) :
    Overlays s ((State.runOp s cls sel r).st) := by
  fun_cases State.runOp s cls sel r <;> simp +contextual (maxDischargeDepth := 60) [Overlays, Tables, *]

@[simp] theorem State.allChanged_st (s : State) (r : ObjReq) (o : OpRes) : (State.allChanged s r o).st = o.st := by
  unfold State.allChanged
  split <;> rfl

@[simp] theorem State.guarded_overlays (s : State) (r : ObjReq) (o : OpRes) (h : Overlays s o.st) : Overlays s ((State.guarded s r o).st) := by
  unfold State.guarded
  split
  · exact (Keeps.refl s).toOverlays
  · rw [State.allChanged_st]
    exact h

@[simp] theorem State.applyObj_overlays (s : State) (r : ObjReq) :
    Overlays s ((State.applyObj s r).st) := by
  unfold State.applyObj
  try dsimp only
  repeat' first
    | with_reducible exact (Keeps.refl _).toOverlays
    | assumption
    | with_reducible refine Overlays.ite ?_ ?_
    | with_reducible refine Overlays.trans ?_ (State.guarded_overlays ..)
    | with_reducible refine Overlays.trans ?_ (State.opInject_keeps ..).toOverlays
    | with_reducible refine Overlays.trans ?_ (State.runOp_overlays ..)
    | fail
    | split
  all_goals simp +contextual (maxDischargeDepth := 60) [Overlays, Tables]

@[simp] theorem State.bumpAll_keeps (s : State) (ks : List ℕ) :
    Keeps s (State.bumpAll s ks) := by
  simp +contextual [Keeps, Tables, State.bumpAll]

@[simp] theorem State.blame_keeps (s : State) (t : Option ℕ) :
    Keeps s (State.blame s t) := by
  unfold State.blame
  try dsimp only
  repeat' first
    | with_reducible exact Keeps.refl _
    | assumption
    | with_reducible refine Keeps.ite ?_ ?_
    | with_reducible refine Keeps.trans ?_ (State.count_keeps ..)
    | (with_reducible refine Keeps.trans ?_ (Keeps.foldl _ _ _ ?_); intro s x; dsimp only)
    | split
  all_goals simp +contextual (maxDischargeDepth := 60) [Keeps, Tables]

end Sys2Proof.Machine
end

