-- ==== Sys2Proof/Laws/KeepsTally.lean ====
section
/-! SUPPORT. What the operations of Machine/Tally.lean leave alone. -/

namespace Sys2Proof.Machine

@[simp] theorem State.upd_keeps (s : State) (id : ℕ) (f : Prog → Prog) :
    Keeps s (State.upd s id f) := by
  simp +contextual [Keeps, Tables, State.upd]

@[simp] theorem State.orWait_keeps (s t : State) (h : Keeps s t) : Keeps s (State.orWait s t) :=
  Keeps.ite (Keeps.refl s) h
@[simp] theorem State.orWait_safe (s t : State) (h : Safe s t) : Safe s (State.orWait s t) :=
  Safe.ite (Keeps.refl s).toSafe h

@[simp] theorem State.fetchError_keeps (s : State) (v : ℕ) (off : ℕ) :
    Keeps s (State.fetchError s v off) := by
  simp +contextual [Keeps, Tables, State.fetchError]

@[simp] theorem State.completeDesc_keeps (s : State) (q : QueueId) (via : Option ViewId) (desc : List Word) (index : ℕ) (irq : Bool) (st : ℕ) (failWord : ℕ) (seq : Word) (rods : List Word) :
    Keeps s (State.completeDesc s q via desc index irq st failWord seq rods) := by
  unfold State.completeDesc
  try dsimp only
  repeat' first
    | with_reducible exact Keeps.refl _
    | assumption
    | with_reducible refine Keeps.ite ?_ ?_
    | with_reducible refine Keeps.trans ?_ (State.emit_keeps ..)
    | with_reducible refine Keeps.trans ?_ (State.hostWrite_keeps ..)
    | with_reducible refine Keeps.trans ?_ (State.msix_keeps ..)
    | with_reducible refine Keeps.trans ?_ (State.setRegBits_keeps ..)
    | with_reducible refine Keeps.trans ?_ (State.take_keeps ..)
    | (with_reducible refine Keeps.trans ?_ (Keeps.foldl _ _ _ ?_); intro s x; dsimp only)
    | split
  all_goals simp +contextual (maxDischargeDepth := 60) [Keeps, Tables]

@[simp] theorem State.accept_keeps (s : State) (src : ProgSrc) (via : Option ViewId) (desc : List Word) (index : ℕ) (irq : Bool) (level : ℕ) (view : ℕ) (issuerDev : ℕ) (words : List Word) :
    Keeps s (State.accept s src via desc index irq level view issuerDev words) := by
  simp +contextual [Keeps, Tables, State.accept]

@[simp] theorem State.sendFragments_keeps (s : State) (dev : ℕ) (fwdId : ℕ) (count : ℕ) (level : ℕ) (view : ℕ) (x0 : ℕ) (x1 : List (List Word)) :
    Keeps s (State.sendFragments s dev fwdId count level view x0 x1) := by
  fun_induction State.sendFragments s dev fwdId count level view x0 x1 <;> simp +contextual (maxDischargeDepth := 60) [Keeps, Tables, *]

@[simp] theorem State.forward_keeps (s : State) (q : QueueId) (via : Option ViewId) (desc : List Word) (index : ℕ) (irq : Bool) (level : ℕ) (view : ℕ) (words : List Word) :
    Keeps s (State.forward s q via desc index irq level view words) := by
  simp +contextual [Keeps, Tables, State.forward]

@[simp] theorem State.takeIn_keeps (s : State) (q : QueueId) (via : Option ViewId) (desc : List Word) (index : ℕ) (words : List Word) :
    Keeps s (State.takeIn s q via desc index words) := by
  unfold State.takeIn
  try dsimp only
  repeat' first
    | with_reducible exact Keeps.refl _
    | assumption
    | with_reducible refine Keeps.ite ?_ ?_
    | with_reducible refine Keeps.trans ?_ (State.accept_keeps ..)
    | with_reducible refine Keeps.trans ?_ (State.completeDesc_keeps ..)
    | with_reducible refine Keeps.trans ?_ (State.forward_keeps ..)
    | (with_reducible refine Keeps.trans ?_ (Keeps.foldl _ _ _ ?_); intro s x; dsimp only)
    | split
  all_goals simp +contextual (maxDischargeDepth := 60) [Keeps, Tables]

@[simp] theorem State.baseStop_keeps (s : State) (st : Status) :
    Keeps s (State.baseStop s st) := by
  simp +contextual [Keeps, Tables, State.baseStop]

@[simp] theorem State.baseNext_keeps (s : State) :
    Keeps s (State.baseNext s) := by
  unfold State.baseNext
  (repeat' split) <;> simp +contextual (maxDischargeDepth := 60) [Keeps, Tables]

@[simp] theorem State.drainAll_stores (s : State) (x0 : List ℕ) :
    Stores s (State.drainAll s x0) := by
  induction x0 generalizing s with
  | nil => first | exact (Keeps.refl _).toStores | simp +contextual (maxDischargeDepth := 60) [Stores, Tables, State.drainAll]
  | cons a as ih =>
    unfold State.drainAll
    try dsimp only
    repeat' first
      | with_reducible exact (Keeps.refl _).toStores
      | assumption
      | with_reducible refine Stores.trans ?_ (ih ..)
      | with_reducible refine Stores.ite ?_ ?_
      | with_reducible refine Stores.trans ?_ (State.drainBuffer_stores ..)
      | fail
      | split
    all_goals simp +contextual (maxDischargeDepth := 60) [Stores, Tables]

@[simp] theorem State.whenDown_stores (s : State) :
    Stores s (State.whenDown s) := by
  unfold State.whenDown
  try dsimp only
  repeat' first
    | with_reducible exact (Keeps.refl _).toStores
    | assumption
    | with_reducible refine Stores.ite ?_ ?_
    | (rw [State.upPower_eq]; with_reducible refine Stores.trans ?_ (State.upPower_keeps ..).toStores)
    | with_reducible refine Stores.trans ?_ (State.drainAll_stores ..)
    | with_reducible refine Stores.trans ?_ (State.emit_keeps ..).toStores
    | with_reducible refine Stores.trans ?_ (State.notify_keeps ..).toStores
    | with_reducible refine Stores.trans ?_ (State.showHosts_keeps ..).toStores
    | fail
    | split
  all_goals simp +contextual (maxDischargeDepth := 60) [Stores, Tables]

@[simp] theorem State.report_keeps (s : State) (p : Prog) (st : Status) (failWord : ℕ) (seq : ℕ) :
    Keeps s (State.report s p st failWord seq) := by
  unfold State.report
  try dsimp only
  repeat' first
    | with_reducible exact Keeps.refl _
    | assumption
    | with_reducible refine Keeps.ite ?_ ?_
    | with_reducible refine Keeps.trans ?_ (State.baseNext_keeps ..)
    | with_reducible refine Keeps.trans ?_ (State.baseStop_keeps ..)
    | with_reducible refine Keeps.trans ?_ (State.completeDesc_keeps ..)
    | with_reducible refine Keeps.trans ?_ (State.sendMsg_keeps ..)
    | with_reducible refine Keeps.trans ?_ (State.take_keeps ..)
    | (with_reducible refine Keeps.trans ?_ (Keeps.foldl _ _ _ ?_); intro s x; dsimp only)
    | split
  all_goals simp +contextual (maxDischargeDepth := 60) [Keeps, Tables]

@[simp] theorem State.endProg_stores (s : State) (id : ℕ) (st : Status) :
    Stores s (State.endProg s id st) := by
  unfold State.endProg
  (repeat' split) <;> simp +contextual (maxDischargeDepth := 60) [Stores, Tables]

@[simp] theorem State.unpark_keeps (s : State) (p : Prog) :
    Keeps s (State.unpark s p) := by
  simp +contextual [Keeps, Tables, State.unpark]

end Sys2Proof.Machine
end

