-- ==== Sys2Proof/Laws/KeepsTallyRows.lean ====
section
/-! SUPPORT. What the operations of Machine/TallyRows.lean leave alone. -/

namespace Sys2Proof.Machine

@[simp] theorem State.askAbort_stores (s : State) (p : Prog) :
    Stores s (State.askAbort s p) := by
  simp +contextual [Stores, Tables, State.askAbort]

@[simp] theorem State.fetched_keeps (s : State) (q : QueueId) (v : ℕ) (off : ℕ) (index : ℕ) (desc : Option (List Word)) (code : Option (List Word)) :
    Keeps s (State.fetched s q v off index desc code) := by
  unfold State.fetched
  try dsimp only
  repeat' first
    | with_reducible exact Keeps.refl _
    | assumption
    | with_reducible refine Keeps.ite ?_ ?_
    | with_reducible refine Keeps.trans ?_ (State.completeDesc_keeps ..)
    | with_reducible refine Keeps.trans ?_ (State.fetchError_keeps ..)
    | with_reducible refine Keeps.trans ?_ (State.takeIn_keeps ..)
    | (with_reducible refine Keeps.trans ?_ (Keeps.foldl _ _ _ ?_); intro s x; dsimp only)
    | split
  all_goals simp +contextual (maxDischargeDepth := 60) [Keeps, Tables]

@[simp] theorem State.fetchedMgmt_keeps (s : State) (m : MgmtMsg) :
    Keeps s (State.fetchedMgmt s m) := by
  simp +contextual [Keeps, Tables, State.fetchedMgmt]

@[simp] theorem State.programArrived_keeps (s : State) (f : FwdIn) :
    Keeps s (State.programArrived s f) := by
  unfold State.programArrived
  try dsimp only
  repeat' first
    | with_reducible exact Keeps.refl _
    | assumption
    | with_reducible refine Keeps.ite ?_ ?_
    | with_reducible refine Keeps.trans ?_ (State.accept_keeps ..)
    | with_reducible refine Keeps.trans ?_ (State.sendMsg_keeps ..)
    | (with_reducible refine Keeps.trans ?_ (Keeps.foldl _ _ _ ?_); intro s x; dsimp only)
    | split
  all_goals simp +contextual (maxDischargeDepth := 60) [Keeps, Tables]

@[simp] theorem State.fwdEnd_stores (s : State) (f : FwdOut) (st : ℕ) (failWord : ℕ) (seq : Word) (rods : List Word) :
    Stores s (State.fwdEnd s f st failWord seq rods) := by
  unfold State.fwdEnd
  (repeat' split) <;> simp +contextual (maxDischargeDepth := 60) [Stores, Tables]

@[simp] theorem State.bootFrom_keeps (s : State) (slot : ℕ) (img : List Byte) :
    Keeps s (State.bootFrom s slot img) := by
  simp +contextual [Keeps, Tables, State.bootFrom]

@[simp] theorem State.slotsBase_keeps (s : State) (x0 : List ℕ) :
    Keeps s (State.slotsBase s x0) := by
  induction x0 generalizing s with
  | nil => first | exact Keeps.refl _ | simp +contextual (maxDischargeDepth := 60) [Keeps, Tables, State.slotsBase]
  | cons a as ih =>
    unfold State.slotsBase
    try dsimp only
    repeat' first
      | with_reducible exact Keeps.refl _
      | assumption
      | with_reducible refine Keeps.trans ?_ (ih ..)
      | with_reducible refine Keeps.ite ?_ ?_
      | with_reducible refine Keeps.trans ?_ (State.setSlotRun_keeps ..)
      | with_reducible refine Keeps.trans ?_ (State.slotOffNow_keeps ..)
      | (with_reducible refine Keeps.trans ?_ (Keeps.foldl _ _ _ ?_); intro s x; dsimp only)
      | split
    all_goals simp +contextual (maxDischargeDepth := 60) [Keeps, Tables]

@[simp] theorem State.strike_keeps (s : State) :
    Keeps s (State.strike s) := by
  simp +contextual [Keeps, Tables, State.strike]

@[simp] theorem State.endStruck_stores (s : State) (x0 : List ℕ) :
    Stores s (State.endStruck s x0) := by
  induction x0 generalizing s with
  | nil => first | exact (Keeps.refl _).toStores | simp +contextual (maxDischargeDepth := 60) [Stores, Tables, State.endStruck]
  | cons a as ih =>
    unfold State.endStruck
    try dsimp only
    repeat' first
      | with_reducible exact (Keeps.refl _).toStores
      | assumption
      | with_reducible refine Stores.trans ?_ (ih ..)
      | with_reducible refine Stores.ite ?_ ?_
      | with_reducible refine Stores.trans ?_ (State.endProg_stores ..)
      | fail
      | split
    all_goals simp +contextual (maxDischargeDepth := 60) [Stores, Tables]

@[simp] theorem State.tallyFault_stores (s : State) (block : ℕ) (grade : ℕ) :
    Stores s (State.tallyFault s block grade) := by
  unfold State.tallyFault
  try dsimp only
  repeat' first
    | with_reducible exact (Keeps.refl _).toStores
    | assumption
    | with_reducible refine Stores.ite ?_ ?_
    | with_reducible refine Stores.trans ?_ (State.endStruck_stores ..)
    | with_reducible refine Stores.trans ?_ (State.strike_keeps ..).toStores
    | fail
    | split
  all_goals simp +contextual (maxDischargeDepth := 60) [Stores, Tables]

end Sys2Proof.Machine
end

