-- ==== Sys2Proof/Laws/KeepsControl.lean ====
section
/-! SUPPORT. What the operations of Machine/Control.lean leave alone. -/

namespace Sys2Proof.Machine

@[simp] theorem State.proceed_keeps (s : State) (id : ℕ) (f : Prog → Prog) :
    Keeps s (State.proceed s id f) := by
  simp +contextual [Keeps, Tables, State.proceed]

@[simp] theorem State.park_stores (s : State) (id : ℕ) (due : ℕ) :
    Stores s (State.park s id due) := by
  unfold State.park
  try dsimp only
  repeat' first
    | with_reducible exact (Keeps.refl _).toStores
    | assumption
    | with_reducible refine Stores.ite ?_ ?_
    | (rw [State.upTally_eq]; with_reducible refine Stores.trans ?_ (State.upTally_keeps ..).toStores)
    | with_reducible refine Stores.trans ?_ (State.endProg_stores ..)
    | with_reducible refine Stores.trans ?_ (State.tallyCount_keeps ..).toStores
    | with_reducible refine Stores.trans ?_ (State.upd_keeps ..).toStores
    | fail
    | split
  all_goals simp +contextual (maxDischargeDepth := 60) [Stores, Tables]

end Sys2Proof.Machine
end

