-- ==== Sys2Proof/Laws/KeepsCommit.lean ====
section
/-! SUPPORT. What the operations of Machine/Commit.lean leave alone. -/

namespace Sys2Proof.Machine

@[simp] theorem State.objFail_stores (s : State) (id : ℕ) (r : ObjReq) (st : Status) (dst : Option Word) :
    Stores s (State.objFail s id r st dst) := by
  unfold State.objFail
  try dsimp only
  repeat' first
    | with_reducible exact (Keeps.refl _).toStores
    | assumption
    | with_reducible refine Stores.ite ?_ ?_
    | with_reducible refine Stores.trans ?_ (State.endProg_stores ..)
    | with_reducible refine Stores.trans ?_ (State.proceed_keeps ..).toStores
    | with_reducible refine Stores.trans ?_ (State.upd_keeps ..).toStores
    | fail
    | split
  all_goals simp +contextual (maxDischargeDepth := 60) [Stores, Tables]

@[simp] theorem State.settle_keeps (s0 s : State) (id : ℕ) : Keeps s (State.settle s0 s id) := Keeps.refl s

@[simp] theorem State.afterCommit_keeps (s : State) (id : ℕ) :
    Keeps s (State.afterCommit s id) := by
  simp +contextual [Keeps, Tables, State.afterCommit]

@[simp] theorem State.applyNow_safe (s : State) (p : Prog) (r : ObjReq) :
    Safe s (State.applyNow s p r) := by
  unfold State.applyNow
  try dsimp only
  repeat' first
    | with_reducible exact (Keeps.refl _).toSafe
    | assumption
    | with_reducible refine Safe.ite ?_ ?_
    | with_reducible refine Safe.trans ?_ (State.afterCommit_keeps ..).toSafe
    | with_reducible refine Safe.trans ?_ (State.applyObj_overlays ..).toSafe
    | with_reducible refine Safe.trans ?_ (State.blame_keeps ..).toSafe
    | with_reducible refine Safe.trans ?_ (State.bumpAll_keeps ..).toSafe
    | with_reducible refine Safe.trans ?_ (State.logEntry_keeps ..).toSafe
    | with_reducible refine Safe.trans ?_ (State.objFail_stores ..).toSafe
    | with_reducible refine Safe.trans ?_ (State.proceed_keeps ..).toSafe
    | with_reducible refine Safe.trans ?_ (State.settle_keeps ..).toSafe
    | with_reducible refine Safe.trans ?_ (State.tallyCount_keeps ..).toSafe
    | with_reducible refine Safe.trans ?_ (State.upd_keeps ..).toSafe
    | fail
    | split
  all_goals simp +contextual (maxDischargeDepth := 60) [Safe, Tables]

@[simp] theorem State.shadow_overlays (s : State) (rs : List ObjReq) :
    Overlays s (State.shadow s rs) := by
  simp +contextual [Overlays, Tables, State.shadow]

@[simp] theorem State.readEffects_overlays (s : State) (sh : State) (r : ObjReq) (o : OpRes) :
    Overlays s (State.readEffects s sh r o) := by
  simp +contextual [Overlays, Tables, State.readEffects]

@[simp] theorem State.stageObj_safe (s : State) (p : Prog) (r : ObjReq) :
    Safe s (State.stageObj s p r) := by
  simp only [State.stageObj]
  (repeat' split) <;> simp +contextual (maxDischargeDepth := 60) [Safe, Tables, *]

@[simp] theorem State.objNow_safe (s : State) (p : Prog) (r : ObjReq) :
    Safe s (State.objNow s p r) := by
  unfold State.objNow
  (repeat' split) <;> simp +contextual (maxDischargeDepth := 60) [Safe, Tables]

@[simp] theorem State.commitAll_overlays (s : State) (x0 : List ObjReq) :
    Overlays s ((State.commitAll s x0).st) := by
  induction x0 generalizing s with
  | nil => first | exact (Keeps.refl _).toOverlays | simp +contextual (maxDischargeDepth := 60) [Overlays, Tables, State.commitAll]
  | cons a as ih =>
    unfold State.commitAll
    try dsimp only
    repeat' first
      | with_reducible exact (Keeps.refl _).toOverlays
      | assumption
      | with_reducible refine Overlays.trans ?_ (ih ..)
      | with_reducible refine Overlays.ite ?_ ?_
      | with_reducible refine Overlays.trans ?_ (State.applyObj_overlays ..)
      | with_reducible refine Overlays.trans ?_ (State.blame_keeps ..).toOverlays
      | fail
      | split
    all_goals simp +contextual (maxDischargeDepth := 60) [Overlays, Tables]

@[simp] theorem State.commitPoint_safe (s : State) (p : Prog) :
    Safe s (State.commitPoint s p) := by
  unfold State.commitPoint
  try dsimp only
  repeat' first
    | with_reducible exact (Keeps.refl _).toSafe
    | assumption
    | with_reducible refine Safe.ite ?_ ?_
    | with_reducible refine Safe.trans ?_ (State.afterCommit_keeps ..).toSafe
    | with_reducible refine Safe.trans ?_ (State.blame_keeps ..).toSafe
    | with_reducible refine Safe.trans ?_ (State.bumpAll_keeps ..).toSafe
    | with_reducible refine Safe.trans ?_ (State.commitAll_overlays ..).toSafe
    | with_reducible refine Safe.trans ?_ (State.endProg_stores ..).toSafe
    | with_reducible refine Safe.trans ?_ (State.logEntry_keeps ..).toSafe
    | with_reducible refine Safe.trans ?_ (State.settle_keeps ..).toSafe
    | with_reducible refine Safe.trans ?_ (State.tallyCount_keeps ..).toSafe
    | with_reducible refine Safe.trans ?_ (State.upd_keeps ..).toSafe
    | fail
    | split
  all_goals simp +contextual (maxDischargeDepth := 60) [Safe, Tables]

@[simp] theorem State.resetAnswer_stores (s : State) (p : Prog) (failed : Bool) :
    Stores s (State.resetAnswer s p failed) := by
  unfold State.resetAnswer
  try dsimp only
  repeat' first
    | with_reducible exact (Keeps.refl _).toStores
    | assumption
    | with_reducible refine Stores.ite ?_ ?_
    | with_reducible refine Stores.trans ?_ (State.endProg_stores ..)
    | with_reducible refine Stores.trans ?_ (State.objFail_stores ..)
    | with_reducible refine Stores.trans ?_ (State.proceed_keeps ..).toStores
    | fail
    | split
  all_goals simp +contextual (maxDischargeDepth := 60) [Stores, Tables]

end Sys2Proof.Machine
end

