-- ==== Sys2Proof/Laws/KeepsTick.lean ====
section
/-! SUPPORT. What the operations of Machine/Tick.lean leave alone. -/

namespace Sys2Proof.Machine

@[simp] theorem State.tick_stores (s : State) :
    Stores s (State.tick s) := by
  unfold State.tick
  (repeat' split) <;> simp +contextual (maxDischargeDepth := 60) [Stores, Tables]

end Sys2Proof.Machine
end

