-- ==== Sys2Proof/Laws/State.lean ====
section
/-! SUPPORT. What each shared update of the state leaves alone, one lemma per field, and what a step can be. -/

namespace Sys2Proof.Machine

/-! `State.putWord` writes `objs`. -/

@[simp] theorem State.putWord_pending (s : State) (cls sel w : Nat) (v : Word) : (s.putWord cls sel w v).pending = s.pending := rfl
@[simp] theorem State.putWord_now (s : State) (cls sel w : Nat) (v : Word) : (s.putWord cls sel w v).now = s.now := rfl
@[simp] theorem State.putWord_tide (s : State) (cls sel w : Nat) (v : Word) : (s.putWord cls sel w v).tide = s.tide := rfl
@[simp] theorem State.putWord_sourceHoldover (s : State) (cls sel w : Nat) (v : Word) : (s.putWord cls sel w v).sourceHoldover = s.sourceHoldover := rfl
@[simp] theorem State.putWord_free (s : State) (cls sel w : Nat) (v : Word) : (s.putWord cls sel w v).free = s.free := rfl
@[simp] theorem State.putWord_out (s : State) (cls sel w : Nat) (v : Word) : (s.putWord cls sel w v).out = s.out := rfl
@[simp] theorem State.putWord_power (s : State) (cls sel w : Nat) (v : Word) : (s.putWord cls sel w v).power = s.power := rfl
@[simp] theorem State.putWord_vers (s : State) (cls sel w : Nat) (v : Word) : (s.putWord cls sel w v).vers = s.vers := rfl
@[simp] theorem State.putWord_regs (s : State) (cls sel w : Nat) (v : Word) : (s.putWord cls sel w v).regs = s.regs := rfl
@[simp] theorem State.putWord_cfg (s : State) (cls sel w : Nat) (v : Word) : (s.putWord cls sel w v).cfg = s.cfg := rfl
@[simp] theorem State.putWord_tally (s : State) (cls sel w : Nat) (v : Word) : (s.putWord cls sel w v).tally = s.tally := rfl
@[simp] theorem State.putWord_log (s : State) (cls sel w : Nat) (v : Word) : (s.putWord cls sel w v).log = s.log := rfl
@[simp] theorem State.putWord_overlays (s : State) (cls sel w : Nat) (v : Word) : (s.putWord cls sel w v).overlays = s.overlays := rfl
@[simp] theorem State.putWord_activeOverlay (s : State) (cls sel w : Nat) (v : Word) : (s.putWord cls sel w v).activeOverlay = s.activeOverlay := rfl
@[simp] theorem State.putWord_overlayHeld (s : State) (cls sel w : Nat) (v : Word) : (s.putWord cls sel w v).overlayHeld = s.overlayHeld := rfl
@[simp] theorem State.putWord_core (s : State) (cls sel w : Nat) (v : Word) : (s.putWord cls sel w v).core = s.core := rfl
@[simp] theorem State.putWord_fabric (s : State) (cls sel w : Nat) (v : Word) : (s.putWord cls sel w v).fabric = s.fabric := rfl
@[simp] theorem State.putWord_tenancy (s : State) (cls sel w : Nat) (v : Word) : (s.putWord cls sel w v).tenancy = s.tenancy := rfl
@[simp] theorem State.putWord_faults (s : State) (cls sel w : Nat) (v : Word) : (s.putWord cls sel w v).faults = s.faults := rfl
@[simp] theorem State.putWord_counters (s : State) (cls sel w : Nat) (v : Word) : (s.putWord cls sel w v).counters = s.counters := rfl
@[simp] theorem State.putWord_cm (s : State) (cls sel w : Nat) (v : Word) : (s.putWord cls sel w v).cm = s.cm := rfl
@[simp] theorem State.putWord_cms (s : State) (cls sel w : Nat) (v : Word) : (s.putWord cls sel w v).cms = s.cms := rfl
@[simp] theorem State.putWord_lighter (s : State) (cls sel w : Nat) (v : Word) : (s.putWord cls sel w v).lighter = s.lighter := rfl
@[simp] theorem State.putWord_quay (s : State) (cls sel w : Nat) (v : Word) : (s.putWord cls sel w v).quay = s.quay := rfl
@[simp] theorem State.putWord_sdram (s : State) (cls sel w : Nat) (v : Word) : (s.putWord cls sel w v).sdram = s.sdram := rfl
@[simp] theorem State.putWord_lanes (s : State) (cls sel w : Nat) (v : Word) : (s.putWord cls sel w v).lanes = s.lanes := rfl
@[simp] theorem State.putWord_pcie (s : State) (cls sel w : Nat) (v : Word) : (s.putWord cls sel w v).pcie = s.pcie := rfl
@[simp] theorem State.putWord_slots (s : State) (cls sel w : Nat) (v : Word) : (s.putWord cls sel w v).slots = s.slots := rfl
@[simp] theorem State.putWord_clock (s : State) (cls sel w : Nat) (v : Word) : (s.putWord cls sel w v).clock = s.clock := rfl

/-! `State.put` writes `objs`. -/

@[simp] theorem State.put_pending (s : State) (f : Fld) (sel v : Nat) : (s.put f sel v).pending = s.pending := rfl
@[simp] theorem State.put_now (s : State) (f : Fld) (sel v : Nat) : (s.put f sel v).now = s.now := rfl
@[simp] theorem State.put_tide (s : State) (f : Fld) (sel v : Nat) : (s.put f sel v).tide = s.tide := rfl
@[simp] theorem State.put_sourceHoldover (s : State) (f : Fld) (sel v : Nat) : (s.put f sel v).sourceHoldover = s.sourceHoldover := rfl
@[simp] theorem State.put_free (s : State) (f : Fld) (sel v : Nat) : (s.put f sel v).free = s.free := rfl
@[simp] theorem State.put_out (s : State) (f : Fld) (sel v : Nat) : (s.put f sel v).out = s.out := rfl
@[simp] theorem State.put_power (s : State) (f : Fld) (sel v : Nat) : (s.put f sel v).power = s.power := rfl
@[simp] theorem State.put_vers (s : State) (f : Fld) (sel v : Nat) : (s.put f sel v).vers = s.vers := rfl
@[simp] theorem State.put_regs (s : State) (f : Fld) (sel v : Nat) : (s.put f sel v).regs = s.regs := rfl
@[simp] theorem State.put_cfg (s : State) (f : Fld) (sel v : Nat) : (s.put f sel v).cfg = s.cfg := rfl
@[simp] theorem State.put_tally (s : State) (f : Fld) (sel v : Nat) : (s.put f sel v).tally = s.tally := rfl
@[simp] theorem State.put_log (s : State) (f : Fld) (sel v : Nat) : (s.put f sel v).log = s.log := rfl
@[simp] theorem State.put_overlays (s : State) (f : Fld) (sel v : Nat) : (s.put f sel v).overlays = s.overlays := rfl
@[simp] theorem State.put_activeOverlay (s : State) (f : Fld) (sel v : Nat) : (s.put f sel v).activeOverlay = s.activeOverlay := rfl
@[simp] theorem State.put_overlayHeld (s : State) (f : Fld) (sel v : Nat) : (s.put f sel v).overlayHeld = s.overlayHeld := rfl
@[simp] theorem State.put_core (s : State) (f : Fld) (sel v : Nat) : (s.put f sel v).core = s.core := rfl
@[simp] theorem State.put_fabric (s : State) (f : Fld) (sel v : Nat) : (s.put f sel v).fabric = s.fabric := rfl
@[simp] theorem State.put_tenancy (s : State) (f : Fld) (sel v : Nat) : (s.put f sel v).tenancy = s.tenancy := rfl
@[simp] theorem State.put_faults (s : State) (f : Fld) (sel v : Nat) : (s.put f sel v).faults = s.faults := rfl
@[simp] theorem State.put_counters (s : State) (f : Fld) (sel v : Nat) : (s.put f sel v).counters = s.counters := rfl
@[simp] theorem State.put_cm (s : State) (f : Fld) (sel v : Nat) : (s.put f sel v).cm = s.cm := rfl
@[simp] theorem State.put_cms (s : State) (f : Fld) (sel v : Nat) : (s.put f sel v).cms = s.cms := rfl
@[simp] theorem State.put_lighter (s : State) (f : Fld) (sel v : Nat) : (s.put f sel v).lighter = s.lighter := rfl
@[simp] theorem State.put_quay (s : State) (f : Fld) (sel v : Nat) : (s.put f sel v).quay = s.quay := rfl
@[simp] theorem State.put_sdram (s : State) (f : Fld) (sel v : Nat) : (s.put f sel v).sdram = s.sdram := rfl
@[simp] theorem State.put_lanes (s : State) (f : Fld) (sel v : Nat) : (s.put f sel v).lanes = s.lanes := rfl
@[simp] theorem State.put_pcie (s : State) (f : Fld) (sel v : Nat) : (s.put f sel v).pcie = s.pcie := rfl
@[simp] theorem State.put_slots (s : State) (f : Fld) (sel v : Nat) : (s.put f sel v).slots = s.slots := rfl
@[simp] theorem State.put_clock (s : State) (f : Fld) (sel v : Nat) : (s.put f sel v).clock = s.clock := rfl

/-! `State.addSat` writes `objs`. -/

@[simp] theorem State.addSat_pending (s : State) (f : Fld) (sel n : Nat) : (s.addSat f sel n).pending = s.pending := rfl
@[simp] theorem State.addSat_now (s : State) (f : Fld) (sel n : Nat) : (s.addSat f sel n).now = s.now := rfl
@[simp] theorem State.addSat_tide (s : State) (f : Fld) (sel n : Nat) : (s.addSat f sel n).tide = s.tide := rfl
@[simp] theorem State.addSat_sourceHoldover (s : State) (f : Fld) (sel n : Nat) : (s.addSat f sel n).sourceHoldover = s.sourceHoldover := rfl
@[simp] theorem State.addSat_free (s : State) (f : Fld) (sel n : Nat) : (s.addSat f sel n).free = s.free := rfl
@[simp] theorem State.addSat_out (s : State) (f : Fld) (sel n : Nat) : (s.addSat f sel n).out = s.out := rfl
@[simp] theorem State.addSat_power (s : State) (f : Fld) (sel n : Nat) : (s.addSat f sel n).power = s.power := rfl
@[simp] theorem State.addSat_vers (s : State) (f : Fld) (sel n : Nat) : (s.addSat f sel n).vers = s.vers := rfl
@[simp] theorem State.addSat_regs (s : State) (f : Fld) (sel n : Nat) : (s.addSat f sel n).regs = s.regs := rfl
@[simp] theorem State.addSat_cfg (s : State) (f : Fld) (sel n : Nat) : (s.addSat f sel n).cfg = s.cfg := rfl
@[simp] theorem State.addSat_tally (s : State) (f : Fld) (sel n : Nat) : (s.addSat f sel n).tally = s.tally := rfl
@[simp] theorem State.addSat_log (s : State) (f : Fld) (sel n : Nat) : (s.addSat f sel n).log = s.log := rfl
@[simp] theorem State.addSat_overlays (s : State) (f : Fld) (sel n : Nat) : (s.addSat f sel n).overlays = s.overlays := rfl
@[simp] theorem State.addSat_activeOverlay (s : State) (f : Fld) (sel n : Nat) : (s.addSat f sel n).activeOverlay = s.activeOverlay := rfl
@[simp] theorem State.addSat_overlayHeld (s : State) (f : Fld) (sel n : Nat) : (s.addSat f sel n).overlayHeld = s.overlayHeld := rfl
@[simp] theorem State.addSat_core (s : State) (f : Fld) (sel n : Nat) : (s.addSat f sel n).core = s.core := rfl
@[simp] theorem State.addSat_fabric (s : State) (f : Fld) (sel n : Nat) : (s.addSat f sel n).fabric = s.fabric := rfl
@[simp] theorem State.addSat_tenancy (s : State) (f : Fld) (sel n : Nat) : (s.addSat f sel n).tenancy = s.tenancy := rfl
@[simp] theorem State.addSat_faults (s : State) (f : Fld) (sel n : Nat) : (s.addSat f sel n).faults = s.faults := rfl
@[simp] theorem State.addSat_counters (s : State) (f : Fld) (sel n : Nat) : (s.addSat f sel n).counters = s.counters := rfl
@[simp] theorem State.addSat_cm (s : State) (f : Fld) (sel n : Nat) : (s.addSat f sel n).cm = s.cm := rfl
@[simp] theorem State.addSat_cms (s : State) (f : Fld) (sel n : Nat) : (s.addSat f sel n).cms = s.cms := rfl
@[simp] theorem State.addSat_lighter (s : State) (f : Fld) (sel n : Nat) : (s.addSat f sel n).lighter = s.lighter := rfl
@[simp] theorem State.addSat_quay (s : State) (f : Fld) (sel n : Nat) : (s.addSat f sel n).quay = s.quay := rfl
@[simp] theorem State.addSat_sdram (s : State) (f : Fld) (sel n : Nat) : (s.addSat f sel n).sdram = s.sdram := rfl
@[simp] theorem State.addSat_lanes (s : State) (f : Fld) (sel n : Nat) : (s.addSat f sel n).lanes = s.lanes := rfl
@[simp] theorem State.addSat_pcie (s : State) (f : Fld) (sel n : Nat) : (s.addSat f sel n).pcie = s.pcie := rfl
@[simp] theorem State.addSat_slots (s : State) (f : Fld) (sel n : Nat) : (s.addSat f sel n).slots = s.slots := rfl
@[simp] theorem State.addSat_clock (s : State) (f : Fld) (sel n : Nat) : (s.addSat f sel n).clock = s.clock := rfl

/-! `State.setReg` writes `regs`. -/

@[simp] theorem State.setReg_pending (s : State) (v off : Nat) (w : Word) : (s.setReg v off w).pending = s.pending := rfl
@[simp] theorem State.setReg_now (s : State) (v off : Nat) (w : Word) : (s.setReg v off w).now = s.now := rfl
@[simp] theorem State.setReg_tide (s : State) (v off : Nat) (w : Word) : (s.setReg v off w).tide = s.tide := rfl
@[simp] theorem State.setReg_sourceHoldover (s : State) (v off : Nat) (w : Word) : (s.setReg v off w).sourceHoldover = s.sourceHoldover := rfl
@[simp] theorem State.setReg_free (s : State) (v off : Nat) (w : Word) : (s.setReg v off w).free = s.free := rfl
@[simp] theorem State.setReg_out (s : State) (v off : Nat) (w : Word) : (s.setReg v off w).out = s.out := rfl
@[simp] theorem State.setReg_power (s : State) (v off : Nat) (w : Word) : (s.setReg v off w).power = s.power := rfl
@[simp] theorem State.setReg_objs (s : State) (v off : Nat) (w : Word) : (s.setReg v off w).objs = s.objs := rfl
@[simp] theorem State.setReg_vers (s : State) (v off : Nat) (w : Word) : (s.setReg v off w).vers = s.vers := rfl
@[simp] theorem State.setReg_cfg (s : State) (v off : Nat) (w : Word) : (s.setReg v off w).cfg = s.cfg := rfl
@[simp] theorem State.setReg_tally (s : State) (v off : Nat) (w : Word) : (s.setReg v off w).tally = s.tally := rfl
@[simp] theorem State.setReg_log (s : State) (v off : Nat) (w : Word) : (s.setReg v off w).log = s.log := rfl
@[simp] theorem State.setReg_overlays (s : State) (v off : Nat) (w : Word) : (s.setReg v off w).overlays = s.overlays := rfl
@[simp] theorem State.setReg_activeOverlay (s : State) (v off : Nat) (w : Word) : (s.setReg v off w).activeOverlay = s.activeOverlay := rfl
@[simp] theorem State.setReg_overlayHeld (s : State) (v off : Nat) (w : Word) : (s.setReg v off w).overlayHeld = s.overlayHeld := rfl
@[simp] theorem State.setReg_core (s : State) (v off : Nat) (w : Word) : (s.setReg v off w).core = s.core := rfl
@[simp] theorem State.setReg_fabric (s : State) (v off : Nat) (w : Word) : (s.setReg v off w).fabric = s.fabric := rfl
@[simp] theorem State.setReg_tenancy (s : State) (v off : Nat) (w : Word) : (s.setReg v off w).tenancy = s.tenancy := rfl
@[simp] theorem State.setReg_faults (s : State) (v off : Nat) (w : Word) : (s.setReg v off w).faults = s.faults := rfl
@[simp] theorem State.setReg_counters (s : State) (v off : Nat) (w : Word) : (s.setReg v off w).counters = s.counters := rfl
@[simp] theorem State.setReg_cm (s : State) (v off : Nat) (w : Word) : (s.setReg v off w).cm = s.cm := rfl
@[simp] theorem State.setReg_cms (s : State) (v off : Nat) (w : Word) : (s.setReg v off w).cms = s.cms := rfl
@[simp] theorem State.setReg_lighter (s : State) (v off : Nat) (w : Word) : (s.setReg v off w).lighter = s.lighter := rfl
@[simp] theorem State.setReg_quay (s : State) (v off : Nat) (w : Word) : (s.setReg v off w).quay = s.quay := rfl
@[simp] theorem State.setReg_sdram (s : State) (v off : Nat) (w : Word) : (s.setReg v off w).sdram = s.sdram := rfl
@[simp] theorem State.setReg_lanes (s : State) (v off : Nat) (w : Word) : (s.setReg v off w).lanes = s.lanes := rfl
@[simp] theorem State.setReg_pcie (s : State) (v off : Nat) (w : Word) : (s.setReg v off w).pcie = s.pcie := rfl
@[simp] theorem State.setReg_slots (s : State) (v off : Nat) (w : Word) : (s.setReg v off w).slots = s.slots := rfl
@[simp] theorem State.setReg_clock (s : State) (v off : Nat) (w : Word) : (s.setReg v off w).clock = s.clock := rfl

/-! `State.setRegBits` writes `regs`. -/

@[simp] theorem State.setRegBits_pending (s : State) (v off lo width n : Nat) : (s.setRegBits v off lo width n).pending = s.pending := rfl
@[simp] theorem State.setRegBits_now (s : State) (v off lo width n : Nat) : (s.setRegBits v off lo width n).now = s.now := rfl
@[simp] theorem State.setRegBits_tide (s : State) (v off lo width n : Nat) : (s.setRegBits v off lo width n).tide = s.tide := rfl
@[simp] theorem State.setRegBits_sourceHoldover (s : State) (v off lo width n : Nat) : (s.setRegBits v off lo width n).sourceHoldover = s.sourceHoldover := rfl
@[simp] theorem State.setRegBits_free (s : State) (v off lo width n : Nat) : (s.setRegBits v off lo width n).free = s.free := rfl
@[simp] theorem State.setRegBits_out (s : State) (v off lo width n : Nat) : (s.setRegBits v off lo width n).out = s.out := rfl
@[simp] theorem State.setRegBits_power (s : State) (v off lo width n : Nat) : (s.setRegBits v off lo width n).power = s.power := rfl
@[simp] theorem State.setRegBits_objs (s : State) (v off lo width n : Nat) : (s.setRegBits v off lo width n).objs = s.objs := rfl
@[simp] theorem State.setRegBits_vers (s : State) (v off lo width n : Nat) : (s.setRegBits v off lo width n).vers = s.vers := rfl
@[simp] theorem State.setRegBits_cfg (s : State) (v off lo width n : Nat) : (s.setRegBits v off lo width n).cfg = s.cfg := rfl
@[simp] theorem State.setRegBits_tally (s : State) (v off lo width n : Nat) : (s.setRegBits v off lo width n).tally = s.tally := rfl
@[simp] theorem State.setRegBits_log (s : State) (v off lo width n : Nat) : (s.setRegBits v off lo width n).log = s.log := rfl
@[simp] theorem State.setRegBits_overlays (s : State) (v off lo width n : Nat) : (s.setRegBits v off lo width n).overlays = s.overlays := rfl
@[simp] theorem State.setRegBits_activeOverlay (s : State) (v off lo width n : Nat) : (s.setRegBits v off lo width n).activeOverlay = s.activeOverlay := rfl
@[simp] theorem State.setRegBits_overlayHeld (s : State) (v off lo width n : Nat) : (s.setRegBits v off lo width n).overlayHeld = s.overlayHeld := rfl
@[simp] theorem State.setRegBits_core (s : State) (v off lo width n : Nat) : (s.setRegBits v off lo width n).core = s.core := rfl
@[simp] theorem State.setRegBits_fabric (s : State) (v off lo width n : Nat) : (s.setRegBits v off lo width n).fabric = s.fabric := rfl
@[simp] theorem State.setRegBits_tenancy (s : State) (v off lo width n : Nat) : (s.setRegBits v off lo width n).tenancy = s.tenancy := rfl
@[simp] theorem State.setRegBits_faults (s : State) (v off lo width n : Nat) : (s.setRegBits v off lo width n).faults = s.faults := rfl
@[simp] theorem State.setRegBits_counters (s : State) (v off lo width n : Nat) : (s.setRegBits v off lo width n).counters = s.counters := rfl
@[simp] theorem State.setRegBits_cm (s : State) (v off lo width n : Nat) : (s.setRegBits v off lo width n).cm = s.cm := rfl
@[simp] theorem State.setRegBits_cms (s : State) (v off lo width n : Nat) : (s.setRegBits v off lo width n).cms = s.cms := rfl
@[simp] theorem State.setRegBits_lighter (s : State) (v off lo width n : Nat) : (s.setRegBits v off lo width n).lighter = s.lighter := rfl
@[simp] theorem State.setRegBits_quay (s : State) (v off lo width n : Nat) : (s.setRegBits v off lo width n).quay = s.quay := rfl
@[simp] theorem State.setRegBits_sdram (s : State) (v off lo width n : Nat) : (s.setRegBits v off lo width n).sdram = s.sdram := rfl
@[simp] theorem State.setRegBits_lanes (s : State) (v off lo width n : Nat) : (s.setRegBits v off lo width n).lanes = s.lanes := rfl
@[simp] theorem State.setRegBits_pcie (s : State) (v off lo width n : Nat) : (s.setRegBits v off lo width n).pcie = s.pcie := rfl
@[simp] theorem State.setRegBits_slots (s : State) (v off lo width n : Nat) : (s.setRegBits v off lo width n).slots = s.slots := rfl
@[simp] theorem State.setRegBits_clock (s : State) (v off lo width n : Nat) : (s.setRegBits v off lo width n).clock = s.clock := rfl

/-! `State.bump` writes `vers`. -/

@[simp] theorem State.bump_pending (s : State) (obj : Nat) : (s.bump obj).pending = s.pending := rfl
@[simp] theorem State.bump_now (s : State) (obj : Nat) : (s.bump obj).now = s.now := rfl
@[simp] theorem State.bump_tide (s : State) (obj : Nat) : (s.bump obj).tide = s.tide := rfl
@[simp] theorem State.bump_sourceHoldover (s : State) (obj : Nat) : (s.bump obj).sourceHoldover = s.sourceHoldover := rfl
@[simp] theorem State.bump_free (s : State) (obj : Nat) : (s.bump obj).free = s.free := rfl
@[simp] theorem State.bump_out (s : State) (obj : Nat) : (s.bump obj).out = s.out := rfl
@[simp] theorem State.bump_power (s : State) (obj : Nat) : (s.bump obj).power = s.power := rfl
@[simp] theorem State.bump_objs (s : State) (obj : Nat) : (s.bump obj).objs = s.objs := rfl
@[simp] theorem State.bump_regs (s : State) (obj : Nat) : (s.bump obj).regs = s.regs := rfl
@[simp] theorem State.bump_cfg (s : State) (obj : Nat) : (s.bump obj).cfg = s.cfg := rfl
@[simp] theorem State.bump_tally (s : State) (obj : Nat) : (s.bump obj).tally = s.tally := rfl
@[simp] theorem State.bump_log (s : State) (obj : Nat) : (s.bump obj).log = s.log := rfl
@[simp] theorem State.bump_overlays (s : State) (obj : Nat) : (s.bump obj).overlays = s.overlays := rfl
@[simp] theorem State.bump_activeOverlay (s : State) (obj : Nat) : (s.bump obj).activeOverlay = s.activeOverlay := rfl
@[simp] theorem State.bump_overlayHeld (s : State) (obj : Nat) : (s.bump obj).overlayHeld = s.overlayHeld := rfl
@[simp] theorem State.bump_core (s : State) (obj : Nat) : (s.bump obj).core = s.core := rfl
@[simp] theorem State.bump_fabric (s : State) (obj : Nat) : (s.bump obj).fabric = s.fabric := rfl
@[simp] theorem State.bump_tenancy (s : State) (obj : Nat) : (s.bump obj).tenancy = s.tenancy := rfl
@[simp] theorem State.bump_faults (s : State) (obj : Nat) : (s.bump obj).faults = s.faults := rfl
@[simp] theorem State.bump_counters (s : State) (obj : Nat) : (s.bump obj).counters = s.counters := rfl
@[simp] theorem State.bump_cm (s : State) (obj : Nat) : (s.bump obj).cm = s.cm := rfl
@[simp] theorem State.bump_cms (s : State) (obj : Nat) : (s.bump obj).cms = s.cms := rfl
@[simp] theorem State.bump_lighter (s : State) (obj : Nat) : (s.bump obj).lighter = s.lighter := rfl
@[simp] theorem State.bump_quay (s : State) (obj : Nat) : (s.bump obj).quay = s.quay := rfl
@[simp] theorem State.bump_sdram (s : State) (obj : Nat) : (s.bump obj).sdram = s.sdram := rfl
@[simp] theorem State.bump_lanes (s : State) (obj : Nat) : (s.bump obj).lanes = s.lanes := rfl
@[simp] theorem State.bump_pcie (s : State) (obj : Nat) : (s.bump obj).pcie = s.pcie := rfl
@[simp] theorem State.bump_slots (s : State) (obj : Nat) : (s.bump obj).slots = s.slots := rfl
@[simp] theorem State.bump_clock (s : State) (obj : Nat) : (s.bump obj).clock = s.clock := rfl

/-! `State.emit` writes `out`. -/

@[simp] theorem State.emit_pending (s : State) (o : Output) : (s.emit o).pending = s.pending := rfl
@[simp] theorem State.emit_now (s : State) (o : Output) : (s.emit o).now = s.now := rfl
@[simp] theorem State.emit_tide (s : State) (o : Output) : (s.emit o).tide = s.tide := rfl
@[simp] theorem State.emit_sourceHoldover (s : State) (o : Output) : (s.emit o).sourceHoldover = s.sourceHoldover := rfl
@[simp] theorem State.emit_free (s : State) (o : Output) : (s.emit o).free = s.free := rfl
@[simp] theorem State.emit_power (s : State) (o : Output) : (s.emit o).power = s.power := rfl
@[simp] theorem State.emit_objs (s : State) (o : Output) : (s.emit o).objs = s.objs := rfl
@[simp] theorem State.emit_vers (s : State) (o : Output) : (s.emit o).vers = s.vers := rfl
@[simp] theorem State.emit_regs (s : State) (o : Output) : (s.emit o).regs = s.regs := rfl
@[simp] theorem State.emit_cfg (s : State) (o : Output) : (s.emit o).cfg = s.cfg := rfl
@[simp] theorem State.emit_tally (s : State) (o : Output) : (s.emit o).tally = s.tally := rfl
@[simp] theorem State.emit_log (s : State) (o : Output) : (s.emit o).log = s.log := rfl
@[simp] theorem State.emit_overlays (s : State) (o : Output) : (s.emit o).overlays = s.overlays := rfl
@[simp] theorem State.emit_activeOverlay (s : State) (o : Output) : (s.emit o).activeOverlay = s.activeOverlay := rfl
@[simp] theorem State.emit_overlayHeld (s : State) (o : Output) : (s.emit o).overlayHeld = s.overlayHeld := rfl
@[simp] theorem State.emit_core (s : State) (o : Output) : (s.emit o).core = s.core := rfl
@[simp] theorem State.emit_fabric (s : State) (o : Output) : (s.emit o).fabric = s.fabric := rfl
@[simp] theorem State.emit_tenancy (s : State) (o : Output) : (s.emit o).tenancy = s.tenancy := rfl
@[simp] theorem State.emit_faults (s : State) (o : Output) : (s.emit o).faults = s.faults := rfl
@[simp] theorem State.emit_counters (s : State) (o : Output) : (s.emit o).counters = s.counters := rfl
@[simp] theorem State.emit_cm (s : State) (o : Output) : (s.emit o).cm = s.cm := rfl
@[simp] theorem State.emit_cms (s : State) (o : Output) : (s.emit o).cms = s.cms := rfl
@[simp] theorem State.emit_lighter (s : State) (o : Output) : (s.emit o).lighter = s.lighter := rfl
@[simp] theorem State.emit_quay (s : State) (o : Output) : (s.emit o).quay = s.quay := rfl
@[simp] theorem State.emit_sdram (s : State) (o : Output) : (s.emit o).sdram = s.sdram := rfl
@[simp] theorem State.emit_lanes (s : State) (o : Output) : (s.emit o).lanes = s.lanes := rfl
@[simp] theorem State.emit_pcie (s : State) (o : Output) : (s.emit o).pcie = s.pcie := rfl
@[simp] theorem State.emit_slots (s : State) (o : Output) : (s.emit o).slots = s.slots := rfl
@[simp] theorem State.emit_clock (s : State) (o : Output) : (s.emit o).clock = s.clock := rfl

/-! `State.count` writes `counters`. -/

@[simp] theorem State.count_pending (s : State) (id n : Nat) : (s.count id n).pending = s.pending := rfl
@[simp] theorem State.count_now (s : State) (id n : Nat) : (s.count id n).now = s.now := rfl
@[simp] theorem State.count_tide (s : State) (id n : Nat) : (s.count id n).tide = s.tide := rfl
@[simp] theorem State.count_sourceHoldover (s : State) (id n : Nat) : (s.count id n).sourceHoldover = s.sourceHoldover := rfl
@[simp] theorem State.count_free (s : State) (id n : Nat) : (s.count id n).free = s.free := rfl
@[simp] theorem State.count_out (s : State) (id n : Nat) : (s.count id n).out = s.out := rfl
@[simp] theorem State.count_power (s : State) (id n : Nat) : (s.count id n).power = s.power := rfl
@[simp] theorem State.count_objs (s : State) (id n : Nat) : (s.count id n).objs = s.objs := rfl
@[simp] theorem State.count_vers (s : State) (id n : Nat) : (s.count id n).vers = s.vers := rfl
@[simp] theorem State.count_regs (s : State) (id n : Nat) : (s.count id n).regs = s.regs := rfl
@[simp] theorem State.count_cfg (s : State) (id n : Nat) : (s.count id n).cfg = s.cfg := rfl
@[simp] theorem State.count_tally (s : State) (id n : Nat) : (s.count id n).tally = s.tally := rfl
@[simp] theorem State.count_log (s : State) (id n : Nat) : (s.count id n).log = s.log := rfl
@[simp] theorem State.count_overlays (s : State) (id n : Nat) : (s.count id n).overlays = s.overlays := rfl
@[simp] theorem State.count_activeOverlay (s : State) (id n : Nat) : (s.count id n).activeOverlay = s.activeOverlay := rfl
@[simp] theorem State.count_overlayHeld (s : State) (id n : Nat) : (s.count id n).overlayHeld = s.overlayHeld := rfl
@[simp] theorem State.count_core (s : State) (id n : Nat) : (s.count id n).core = s.core := rfl
@[simp] theorem State.count_fabric (s : State) (id n : Nat) : (s.count id n).fabric = s.fabric := rfl
@[simp] theorem State.count_tenancy (s : State) (id n : Nat) : (s.count id n).tenancy = s.tenancy := rfl
@[simp] theorem State.count_faults (s : State) (id n : Nat) : (s.count id n).faults = s.faults := rfl
@[simp] theorem State.count_cm (s : State) (id n : Nat) : (s.count id n).cm = s.cm := rfl
@[simp] theorem State.count_cms (s : State) (id n : Nat) : (s.count id n).cms = s.cms := rfl
@[simp] theorem State.count_lighter (s : State) (id n : Nat) : (s.count id n).lighter = s.lighter := rfl
@[simp] theorem State.count_quay (s : State) (id n : Nat) : (s.count id n).quay = s.quay := rfl
@[simp] theorem State.count_sdram (s : State) (id n : Nat) : (s.count id n).sdram = s.sdram := rfl
@[simp] theorem State.count_lanes (s : State) (id n : Nat) : (s.count id n).lanes = s.lanes := rfl
@[simp] theorem State.count_pcie (s : State) (id n : Nat) : (s.count id n).pcie = s.pcie := rfl
@[simp] theorem State.count_slots (s : State) (id n : Nat) : (s.count id n).slots = s.slots := rfl
@[simp] theorem State.count_clock (s : State) (id n : Nat) : (s.count id n).clock = s.clock := rfl

/-! `State.clearCtr` writes `counters`. -/

@[simp] theorem State.clearCtr_pending (s : State) (id : Nat) : (s.clearCtr id).pending = s.pending := rfl
@[simp] theorem State.clearCtr_now (s : State) (id : Nat) : (s.clearCtr id).now = s.now := rfl
@[simp] theorem State.clearCtr_tide (s : State) (id : Nat) : (s.clearCtr id).tide = s.tide := rfl
@[simp] theorem State.clearCtr_sourceHoldover (s : State) (id : Nat) : (s.clearCtr id).sourceHoldover = s.sourceHoldover := rfl
@[simp] theorem State.clearCtr_free (s : State) (id : Nat) : (s.clearCtr id).free = s.free := rfl
@[simp] theorem State.clearCtr_out (s : State) (id : Nat) : (s.clearCtr id).out = s.out := rfl
@[simp] theorem State.clearCtr_power (s : State) (id : Nat) : (s.clearCtr id).power = s.power := rfl
@[simp] theorem State.clearCtr_objs (s : State) (id : Nat) : (s.clearCtr id).objs = s.objs := rfl
@[simp] theorem State.clearCtr_vers (s : State) (id : Nat) : (s.clearCtr id).vers = s.vers := rfl
@[simp] theorem State.clearCtr_regs (s : State) (id : Nat) : (s.clearCtr id).regs = s.regs := rfl
@[simp] theorem State.clearCtr_cfg (s : State) (id : Nat) : (s.clearCtr id).cfg = s.cfg := rfl
@[simp] theorem State.clearCtr_tally (s : State) (id : Nat) : (s.clearCtr id).tally = s.tally := rfl
@[simp] theorem State.clearCtr_log (s : State) (id : Nat) : (s.clearCtr id).log = s.log := rfl
@[simp] theorem State.clearCtr_overlays (s : State) (id : Nat) : (s.clearCtr id).overlays = s.overlays := rfl
@[simp] theorem State.clearCtr_activeOverlay (s : State) (id : Nat) : (s.clearCtr id).activeOverlay = s.activeOverlay := rfl
@[simp] theorem State.clearCtr_overlayHeld (s : State) (id : Nat) : (s.clearCtr id).overlayHeld = s.overlayHeld := rfl
@[simp] theorem State.clearCtr_core (s : State) (id : Nat) : (s.clearCtr id).core = s.core := rfl
@[simp] theorem State.clearCtr_fabric (s : State) (id : Nat) : (s.clearCtr id).fabric = s.fabric := rfl
@[simp] theorem State.clearCtr_tenancy (s : State) (id : Nat) : (s.clearCtr id).tenancy = s.tenancy := rfl
@[simp] theorem State.clearCtr_faults (s : State) (id : Nat) : (s.clearCtr id).faults = s.faults := rfl
@[simp] theorem State.clearCtr_cm (s : State) (id : Nat) : (s.clearCtr id).cm = s.cm := rfl
@[simp] theorem State.clearCtr_cms (s : State) (id : Nat) : (s.clearCtr id).cms = s.cms := rfl
@[simp] theorem State.clearCtr_lighter (s : State) (id : Nat) : (s.clearCtr id).lighter = s.lighter := rfl
@[simp] theorem State.clearCtr_quay (s : State) (id : Nat) : (s.clearCtr id).quay = s.quay := rfl
@[simp] theorem State.clearCtr_sdram (s : State) (id : Nat) : (s.clearCtr id).sdram = s.sdram := rfl
@[simp] theorem State.clearCtr_lanes (s : State) (id : Nat) : (s.clearCtr id).lanes = s.lanes := rfl
@[simp] theorem State.clearCtr_pcie (s : State) (id : Nat) : (s.clearCtr id).pcie = s.pcie := rfl
@[simp] theorem State.clearCtr_slots (s : State) (id : Nat) : (s.clearCtr id).slots = s.slots := rfl
@[simp] theorem State.clearCtr_clock (s : State) (id : Nat) : (s.clearCtr id).clock = s.clock := rfl

/-! `State.setPkt` writes `core`. -/

@[simp] theorem State.setPkt_pending (s : State) (pk : Packet) : (s.setPkt pk).pending = s.pending := rfl
@[simp] theorem State.setPkt_now (s : State) (pk : Packet) : (s.setPkt pk).now = s.now := rfl
@[simp] theorem State.setPkt_tide (s : State) (pk : Packet) : (s.setPkt pk).tide = s.tide := rfl
@[simp] theorem State.setPkt_sourceHoldover (s : State) (pk : Packet) : (s.setPkt pk).sourceHoldover = s.sourceHoldover := rfl
@[simp] theorem State.setPkt_free (s : State) (pk : Packet) : (s.setPkt pk).free = s.free := rfl
@[simp] theorem State.setPkt_out (s : State) (pk : Packet) : (s.setPkt pk).out = s.out := rfl
@[simp] theorem State.setPkt_power (s : State) (pk : Packet) : (s.setPkt pk).power = s.power := rfl
@[simp] theorem State.setPkt_objs (s : State) (pk : Packet) : (s.setPkt pk).objs = s.objs := rfl
@[simp] theorem State.setPkt_vers (s : State) (pk : Packet) : (s.setPkt pk).vers = s.vers := rfl
@[simp] theorem State.setPkt_regs (s : State) (pk : Packet) : (s.setPkt pk).regs = s.regs := rfl
@[simp] theorem State.setPkt_cfg (s : State) (pk : Packet) : (s.setPkt pk).cfg = s.cfg := rfl
@[simp] theorem State.setPkt_tally (s : State) (pk : Packet) : (s.setPkt pk).tally = s.tally := rfl
@[simp] theorem State.setPkt_log (s : State) (pk : Packet) : (s.setPkt pk).log = s.log := rfl
@[simp] theorem State.setPkt_overlays (s : State) (pk : Packet) : (s.setPkt pk).overlays = s.overlays := rfl
@[simp] theorem State.setPkt_activeOverlay (s : State) (pk : Packet) : (s.setPkt pk).activeOverlay = s.activeOverlay := rfl
@[simp] theorem State.setPkt_overlayHeld (s : State) (pk : Packet) : (s.setPkt pk).overlayHeld = s.overlayHeld := rfl
@[simp] theorem State.setPkt_fabric (s : State) (pk : Packet) : (s.setPkt pk).fabric = s.fabric := rfl
@[simp] theorem State.setPkt_tenancy (s : State) (pk : Packet) : (s.setPkt pk).tenancy = s.tenancy := rfl
@[simp] theorem State.setPkt_faults (s : State) (pk : Packet) : (s.setPkt pk).faults = s.faults := rfl
@[simp] theorem State.setPkt_counters (s : State) (pk : Packet) : (s.setPkt pk).counters = s.counters := rfl
@[simp] theorem State.setPkt_cm (s : State) (pk : Packet) : (s.setPkt pk).cm = s.cm := rfl
@[simp] theorem State.setPkt_cms (s : State) (pk : Packet) : (s.setPkt pk).cms = s.cms := rfl
@[simp] theorem State.setPkt_lighter (s : State) (pk : Packet) : (s.setPkt pk).lighter = s.lighter := rfl
@[simp] theorem State.setPkt_quay (s : State) (pk : Packet) : (s.setPkt pk).quay = s.quay := rfl
@[simp] theorem State.setPkt_sdram (s : State) (pk : Packet) : (s.setPkt pk).sdram = s.sdram := rfl
@[simp] theorem State.setPkt_lanes (s : State) (pk : Packet) : (s.setPkt pk).lanes = s.lanes := rfl
@[simp] theorem State.setPkt_pcie (s : State) (pk : Packet) : (s.setPkt pk).pcie = s.pcie := rfl
@[simp] theorem State.setPkt_slots (s : State) (pk : Packet) : (s.setPkt pk).slots = s.slots := rfl
@[simp] theorem State.setPkt_clock (s : State) (pk : Packet) : (s.setPkt pk).clock = s.clock := rfl

/-! `State.dropPkt` writes `core`. -/

@[simp] theorem State.dropPkt_pending (s : State) (id : Nat) : (s.dropPkt id).pending = s.pending := rfl
@[simp] theorem State.dropPkt_now (s : State) (id : Nat) : (s.dropPkt id).now = s.now := rfl
@[simp] theorem State.dropPkt_tide (s : State) (id : Nat) : (s.dropPkt id).tide = s.tide := rfl
@[simp] theorem State.dropPkt_sourceHoldover (s : State) (id : Nat) : (s.dropPkt id).sourceHoldover = s.sourceHoldover := rfl
@[simp] theorem State.dropPkt_free (s : State) (id : Nat) : (s.dropPkt id).free = s.free := rfl
@[simp] theorem State.dropPkt_out (s : State) (id : Nat) : (s.dropPkt id).out = s.out := rfl
@[simp] theorem State.dropPkt_power (s : State) (id : Nat) : (s.dropPkt id).power = s.power := rfl
@[simp] theorem State.dropPkt_objs (s : State) (id : Nat) : (s.dropPkt id).objs = s.objs := rfl
@[simp] theorem State.dropPkt_vers (s : State) (id : Nat) : (s.dropPkt id).vers = s.vers := rfl
@[simp] theorem State.dropPkt_regs (s : State) (id : Nat) : (s.dropPkt id).regs = s.regs := rfl
@[simp] theorem State.dropPkt_cfg (s : State) (id : Nat) : (s.dropPkt id).cfg = s.cfg := rfl
@[simp] theorem State.dropPkt_tally (s : State) (id : Nat) : (s.dropPkt id).tally = s.tally := rfl
@[simp] theorem State.dropPkt_log (s : State) (id : Nat) : (s.dropPkt id).log = s.log := rfl
@[simp] theorem State.dropPkt_overlays (s : State) (id : Nat) : (s.dropPkt id).overlays = s.overlays := rfl
@[simp] theorem State.dropPkt_activeOverlay (s : State) (id : Nat) : (s.dropPkt id).activeOverlay = s.activeOverlay := rfl
@[simp] theorem State.dropPkt_overlayHeld (s : State) (id : Nat) : (s.dropPkt id).overlayHeld = s.overlayHeld := rfl
@[simp] theorem State.dropPkt_fabric (s : State) (id : Nat) : (s.dropPkt id).fabric = s.fabric := rfl
@[simp] theorem State.dropPkt_tenancy (s : State) (id : Nat) : (s.dropPkt id).tenancy = s.tenancy := rfl
@[simp] theorem State.dropPkt_faults (s : State) (id : Nat) : (s.dropPkt id).faults = s.faults := rfl
@[simp] theorem State.dropPkt_counters (s : State) (id : Nat) : (s.dropPkt id).counters = s.counters := rfl
@[simp] theorem State.dropPkt_cm (s : State) (id : Nat) : (s.dropPkt id).cm = s.cm := rfl
@[simp] theorem State.dropPkt_cms (s : State) (id : Nat) : (s.dropPkt id).cms = s.cms := rfl
@[simp] theorem State.dropPkt_lighter (s : State) (id : Nat) : (s.dropPkt id).lighter = s.lighter := rfl
@[simp] theorem State.dropPkt_quay (s : State) (id : Nat) : (s.dropPkt id).quay = s.quay := rfl
@[simp] theorem State.dropPkt_sdram (s : State) (id : Nat) : (s.dropPkt id).sdram = s.sdram := rfl
@[simp] theorem State.dropPkt_lanes (s : State) (id : Nat) : (s.dropPkt id).lanes = s.lanes := rfl
@[simp] theorem State.dropPkt_pcie (s : State) (id : Nat) : (s.dropPkt id).pcie = s.pcie := rfl
@[simp] theorem State.dropPkt_slots (s : State) (id : Nat) : (s.dropPkt id).slots = s.slots := rfl
@[simp] theorem State.dropPkt_clock (s : State) (id : Nat) : (s.dropPkt id).clock = s.clock := rfl

/-! `State.dropReq` writes `fabric`. -/

@[simp] theorem State.dropReq_pending (s : State) (id : Nat) : (s.dropReq id).pending = s.pending := rfl
@[simp] theorem State.dropReq_now (s : State) (id : Nat) : (s.dropReq id).now = s.now := rfl
@[simp] theorem State.dropReq_tide (s : State) (id : Nat) : (s.dropReq id).tide = s.tide := rfl
@[simp] theorem State.dropReq_sourceHoldover (s : State) (id : Nat) : (s.dropReq id).sourceHoldover = s.sourceHoldover := rfl
@[simp] theorem State.dropReq_free (s : State) (id : Nat) : (s.dropReq id).free = s.free := rfl
@[simp] theorem State.dropReq_out (s : State) (id : Nat) : (s.dropReq id).out = s.out := rfl
@[simp] theorem State.dropReq_power (s : State) (id : Nat) : (s.dropReq id).power = s.power := rfl
@[simp] theorem State.dropReq_objs (s : State) (id : Nat) : (s.dropReq id).objs = s.objs := rfl
@[simp] theorem State.dropReq_vers (s : State) (id : Nat) : (s.dropReq id).vers = s.vers := rfl
@[simp] theorem State.dropReq_regs (s : State) (id : Nat) : (s.dropReq id).regs = s.regs := rfl
@[simp] theorem State.dropReq_cfg (s : State) (id : Nat) : (s.dropReq id).cfg = s.cfg := rfl
@[simp] theorem State.dropReq_tally (s : State) (id : Nat) : (s.dropReq id).tally = s.tally := rfl
@[simp] theorem State.dropReq_log (s : State) (id : Nat) : (s.dropReq id).log = s.log := rfl
@[simp] theorem State.dropReq_overlays (s : State) (id : Nat) : (s.dropReq id).overlays = s.overlays := rfl
@[simp] theorem State.dropReq_activeOverlay (s : State) (id : Nat) : (s.dropReq id).activeOverlay = s.activeOverlay := rfl
@[simp] theorem State.dropReq_overlayHeld (s : State) (id : Nat) : (s.dropReq id).overlayHeld = s.overlayHeld := rfl
@[simp] theorem State.dropReq_core (s : State) (id : Nat) : (s.dropReq id).core = s.core := rfl
@[simp] theorem State.dropReq_tenancy (s : State) (id : Nat) : (s.dropReq id).tenancy = s.tenancy := rfl
@[simp] theorem State.dropReq_faults (s : State) (id : Nat) : (s.dropReq id).faults = s.faults := rfl
@[simp] theorem State.dropReq_counters (s : State) (id : Nat) : (s.dropReq id).counters = s.counters := rfl
@[simp] theorem State.dropReq_cm (s : State) (id : Nat) : (s.dropReq id).cm = s.cm := rfl
@[simp] theorem State.dropReq_cms (s : State) (id : Nat) : (s.dropReq id).cms = s.cms := rfl
@[simp] theorem State.dropReq_lighter (s : State) (id : Nat) : (s.dropReq id).lighter = s.lighter := rfl
@[simp] theorem State.dropReq_quay (s : State) (id : Nat) : (s.dropReq id).quay = s.quay := rfl
@[simp] theorem State.dropReq_sdram (s : State) (id : Nat) : (s.dropReq id).sdram = s.sdram := rfl
@[simp] theorem State.dropReq_lanes (s : State) (id : Nat) : (s.dropReq id).lanes = s.lanes := rfl
@[simp] theorem State.dropReq_pcie (s : State) (id : Nat) : (s.dropReq id).pcie = s.pcie := rfl
@[simp] theorem State.dropReq_slots (s : State) (id : Nat) : (s.dropReq id).slots = s.slots := rfl
@[simp] theorem State.dropReq_clock (s : State) (id : Nat) : (s.dropReq id).clock = s.clock := rfl

/-! `State.setCmView` writes `cms`. -/

@[simp] theorem State.setCmView_pending (s : State) (c : CmView) : (s.setCmView c).pending = s.pending := rfl
@[simp] theorem State.setCmView_now (s : State) (c : CmView) : (s.setCmView c).now = s.now := rfl
@[simp] theorem State.setCmView_tide (s : State) (c : CmView) : (s.setCmView c).tide = s.tide := rfl
@[simp] theorem State.setCmView_sourceHoldover (s : State) (c : CmView) : (s.setCmView c).sourceHoldover = s.sourceHoldover := rfl
@[simp] theorem State.setCmView_free (s : State) (c : CmView) : (s.setCmView c).free = s.free := rfl
@[simp] theorem State.setCmView_out (s : State) (c : CmView) : (s.setCmView c).out = s.out := rfl
@[simp] theorem State.setCmView_power (s : State) (c : CmView) : (s.setCmView c).power = s.power := rfl
@[simp] theorem State.setCmView_objs (s : State) (c : CmView) : (s.setCmView c).objs = s.objs := rfl
@[simp] theorem State.setCmView_vers (s : State) (c : CmView) : (s.setCmView c).vers = s.vers := rfl
@[simp] theorem State.setCmView_regs (s : State) (c : CmView) : (s.setCmView c).regs = s.regs := rfl
@[simp] theorem State.setCmView_cfg (s : State) (c : CmView) : (s.setCmView c).cfg = s.cfg := rfl
@[simp] theorem State.setCmView_tally (s : State) (c : CmView) : (s.setCmView c).tally = s.tally := rfl
@[simp] theorem State.setCmView_log (s : State) (c : CmView) : (s.setCmView c).log = s.log := rfl
@[simp] theorem State.setCmView_overlays (s : State) (c : CmView) : (s.setCmView c).overlays = s.overlays := rfl
@[simp] theorem State.setCmView_activeOverlay (s : State) (c : CmView) : (s.setCmView c).activeOverlay = s.activeOverlay := rfl
@[simp] theorem State.setCmView_overlayHeld (s : State) (c : CmView) : (s.setCmView c).overlayHeld = s.overlayHeld := rfl
@[simp] theorem State.setCmView_core (s : State) (c : CmView) : (s.setCmView c).core = s.core := rfl
@[simp] theorem State.setCmView_fabric (s : State) (c : CmView) : (s.setCmView c).fabric = s.fabric := rfl
@[simp] theorem State.setCmView_tenancy (s : State) (c : CmView) : (s.setCmView c).tenancy = s.tenancy := rfl
@[simp] theorem State.setCmView_faults (s : State) (c : CmView) : (s.setCmView c).faults = s.faults := rfl
@[simp] theorem State.setCmView_counters (s : State) (c : CmView) : (s.setCmView c).counters = s.counters := rfl
@[simp] theorem State.setCmView_cm (s : State) (c : CmView) : (s.setCmView c).cm = s.cm := rfl
@[simp] theorem State.setCmView_lighter (s : State) (c : CmView) : (s.setCmView c).lighter = s.lighter := rfl
@[simp] theorem State.setCmView_quay (s : State) (c : CmView) : (s.setCmView c).quay = s.quay := rfl
@[simp] theorem State.setCmView_sdram (s : State) (c : CmView) : (s.setCmView c).sdram = s.sdram := rfl
@[simp] theorem State.setCmView_lanes (s : State) (c : CmView) : (s.setCmView c).lanes = s.lanes := rfl
@[simp] theorem State.setCmView_pcie (s : State) (c : CmView) : (s.setCmView c).pcie = s.pcie := rfl
@[simp] theorem State.setCmView_slots (s : State) (c : CmView) : (s.setCmView c).slots = s.slots := rfl
@[simp] theorem State.setCmView_clock (s : State) (c : CmView) : (s.setCmView c).clock = s.clock := rfl

/-! `State.upd` writes `tally`. -/

@[simp] theorem State.upd_pending (s : State) (id : Nat) (f : Prog → Prog) : (s.upd id f).pending = s.pending := rfl
@[simp] theorem State.upd_now (s : State) (id : Nat) (f : Prog → Prog) : (s.upd id f).now = s.now := rfl
@[simp] theorem State.upd_tide (s : State) (id : Nat) (f : Prog → Prog) : (s.upd id f).tide = s.tide := rfl
@[simp] theorem State.upd_sourceHoldover (s : State) (id : Nat) (f : Prog → Prog) : (s.upd id f).sourceHoldover = s.sourceHoldover := rfl
@[simp] theorem State.upd_free (s : State) (id : Nat) (f : Prog → Prog) : (s.upd id f).free = s.free := rfl
@[simp] theorem State.upd_out (s : State) (id : Nat) (f : Prog → Prog) : (s.upd id f).out = s.out := rfl
@[simp] theorem State.upd_power (s : State) (id : Nat) (f : Prog → Prog) : (s.upd id f).power = s.power := rfl
@[simp] theorem State.upd_objs (s : State) (id : Nat) (f : Prog → Prog) : (s.upd id f).objs = s.objs := rfl
@[simp] theorem State.upd_vers (s : State) (id : Nat) (f : Prog → Prog) : (s.upd id f).vers = s.vers := rfl
@[simp] theorem State.upd_regs (s : State) (id : Nat) (f : Prog → Prog) : (s.upd id f).regs = s.regs := rfl
@[simp] theorem State.upd_cfg (s : State) (id : Nat) (f : Prog → Prog) : (s.upd id f).cfg = s.cfg := rfl
@[simp] theorem State.upd_log (s : State) (id : Nat) (f : Prog → Prog) : (s.upd id f).log = s.log := rfl
@[simp] theorem State.upd_overlays (s : State) (id : Nat) (f : Prog → Prog) : (s.upd id f).overlays = s.overlays := rfl
@[simp] theorem State.upd_activeOverlay (s : State) (id : Nat) (f : Prog → Prog) : (s.upd id f).activeOverlay = s.activeOverlay := rfl
@[simp] theorem State.upd_overlayHeld (s : State) (id : Nat) (f : Prog → Prog) : (s.upd id f).overlayHeld = s.overlayHeld := rfl
@[simp] theorem State.upd_core (s : State) (id : Nat) (f : Prog → Prog) : (s.upd id f).core = s.core := rfl
@[simp] theorem State.upd_fabric (s : State) (id : Nat) (f : Prog → Prog) : (s.upd id f).fabric = s.fabric := rfl
@[simp] theorem State.upd_tenancy (s : State) (id : Nat) (f : Prog → Prog) : (s.upd id f).tenancy = s.tenancy := rfl
@[simp] theorem State.upd_faults (s : State) (id : Nat) (f : Prog → Prog) : (s.upd id f).faults = s.faults := rfl
@[simp] theorem State.upd_counters (s : State) (id : Nat) (f : Prog → Prog) : (s.upd id f).counters = s.counters := rfl
@[simp] theorem State.upd_cm (s : State) (id : Nat) (f : Prog → Prog) : (s.upd id f).cm = s.cm := rfl
@[simp] theorem State.upd_cms (s : State) (id : Nat) (f : Prog → Prog) : (s.upd id f).cms = s.cms := rfl
@[simp] theorem State.upd_lighter (s : State) (id : Nat) (f : Prog → Prog) : (s.upd id f).lighter = s.lighter := rfl
@[simp] theorem State.upd_quay (s : State) (id : Nat) (f : Prog → Prog) : (s.upd id f).quay = s.quay := rfl
@[simp] theorem State.upd_sdram (s : State) (id : Nat) (f : Prog → Prog) : (s.upd id f).sdram = s.sdram := rfl
@[simp] theorem State.upd_lanes (s : State) (id : Nat) (f : Prog → Prog) : (s.upd id f).lanes = s.lanes := rfl
@[simp] theorem State.upd_pcie (s : State) (id : Nat) (f : Prog → Prog) : (s.upd id f).pcie = s.pcie := rfl
@[simp] theorem State.upd_slots (s : State) (id : Nat) (f : Prog → Prog) : (s.upd id f).slots = s.slots := rfl
@[simp] theorem State.upd_clock (s : State) (id : Nat) (f : Prog → Prog) : (s.upd id f).clock = s.clock := rfl

/-! `State.setRun` writes `lighter`. -/

@[simp] theorem State.setRun_pending (s : State) (r : QpRun) : (s.setRun r).pending = s.pending := rfl
@[simp] theorem State.setRun_now (s : State) (r : QpRun) : (s.setRun r).now = s.now := rfl
@[simp] theorem State.setRun_tide (s : State) (r : QpRun) : (s.setRun r).tide = s.tide := rfl
@[simp] theorem State.setRun_sourceHoldover (s : State) (r : QpRun) : (s.setRun r).sourceHoldover = s.sourceHoldover := rfl
@[simp] theorem State.setRun_free (s : State) (r : QpRun) : (s.setRun r).free = s.free := rfl
@[simp] theorem State.setRun_out (s : State) (r : QpRun) : (s.setRun r).out = s.out := rfl
@[simp] theorem State.setRun_power (s : State) (r : QpRun) : (s.setRun r).power = s.power := rfl
@[simp] theorem State.setRun_objs (s : State) (r : QpRun) : (s.setRun r).objs = s.objs := rfl
@[simp] theorem State.setRun_vers (s : State) (r : QpRun) : (s.setRun r).vers = s.vers := rfl
@[simp] theorem State.setRun_regs (s : State) (r : QpRun) : (s.setRun r).regs = s.regs := rfl
@[simp] theorem State.setRun_cfg (s : State) (r : QpRun) : (s.setRun r).cfg = s.cfg := rfl
@[simp] theorem State.setRun_tally (s : State) (r : QpRun) : (s.setRun r).tally = s.tally := rfl
@[simp] theorem State.setRun_log (s : State) (r : QpRun) : (s.setRun r).log = s.log := rfl
@[simp] theorem State.setRun_overlays (s : State) (r : QpRun) : (s.setRun r).overlays = s.overlays := rfl
@[simp] theorem State.setRun_activeOverlay (s : State) (r : QpRun) : (s.setRun r).activeOverlay = s.activeOverlay := rfl
@[simp] theorem State.setRun_overlayHeld (s : State) (r : QpRun) : (s.setRun r).overlayHeld = s.overlayHeld := rfl
@[simp] theorem State.setRun_core (s : State) (r : QpRun) : (s.setRun r).core = s.core := rfl
@[simp] theorem State.setRun_fabric (s : State) (r : QpRun) : (s.setRun r).fabric = s.fabric := rfl
@[simp] theorem State.setRun_tenancy (s : State) (r : QpRun) : (s.setRun r).tenancy = s.tenancy := rfl
@[simp] theorem State.setRun_faults (s : State) (r : QpRun) : (s.setRun r).faults = s.faults := rfl
@[simp] theorem State.setRun_counters (s : State) (r : QpRun) : (s.setRun r).counters = s.counters := rfl
@[simp] theorem State.setRun_cm (s : State) (r : QpRun) : (s.setRun r).cm = s.cm := rfl
@[simp] theorem State.setRun_cms (s : State) (r : QpRun) : (s.setRun r).cms = s.cms := rfl
@[simp] theorem State.setRun_quay (s : State) (r : QpRun) : (s.setRun r).quay = s.quay := rfl
@[simp] theorem State.setRun_sdram (s : State) (r : QpRun) : (s.setRun r).sdram = s.sdram := rfl
@[simp] theorem State.setRun_lanes (s : State) (r : QpRun) : (s.setRun r).lanes = s.lanes := rfl
@[simp] theorem State.setRun_pcie (s : State) (r : QpRun) : (s.setRun r).pcie = s.pcie := rfl
@[simp] theorem State.setRun_slots (s : State) (r : QpRun) : (s.setRun r).slots = s.slots := rfl
@[simp] theorem State.setRun_clock (s : State) (r : QpRun) : (s.setRun r).clock = s.clock := rfl

/-! `State.setQlp` writes `quay` and `objs`. -/

@[simp] theorem State.setQlp_pending (s : State) (r : QlPort) : (s.setQlp r).pending = s.pending := rfl
@[simp] theorem State.setQlp_now (s : State) (r : QlPort) : (s.setQlp r).now = s.now := rfl
@[simp] theorem State.setQlp_tide (s : State) (r : QlPort) : (s.setQlp r).tide = s.tide := rfl
@[simp] theorem State.setQlp_sourceHoldover (s : State) (r : QlPort) : (s.setQlp r).sourceHoldover = s.sourceHoldover := rfl
@[simp] theorem State.setQlp_free (s : State) (r : QlPort) : (s.setQlp r).free = s.free := rfl
@[simp] theorem State.setQlp_out (s : State) (r : QlPort) : (s.setQlp r).out = s.out := rfl
@[simp] theorem State.setQlp_power (s : State) (r : QlPort) : (s.setQlp r).power = s.power := rfl
@[simp] theorem State.setQlp_vers (s : State) (r : QlPort) : (s.setQlp r).vers = s.vers := rfl
@[simp] theorem State.setQlp_regs (s : State) (r : QlPort) : (s.setQlp r).regs = s.regs := rfl
@[simp] theorem State.setQlp_cfg (s : State) (r : QlPort) : (s.setQlp r).cfg = s.cfg := rfl
@[simp] theorem State.setQlp_tally (s : State) (r : QlPort) : (s.setQlp r).tally = s.tally := rfl
@[simp] theorem State.setQlp_log (s : State) (r : QlPort) : (s.setQlp r).log = s.log := rfl
@[simp] theorem State.setQlp_overlays (s : State) (r : QlPort) : (s.setQlp r).overlays = s.overlays := rfl
@[simp] theorem State.setQlp_activeOverlay (s : State) (r : QlPort) : (s.setQlp r).activeOverlay = s.activeOverlay := rfl
@[simp] theorem State.setQlp_overlayHeld (s : State) (r : QlPort) : (s.setQlp r).overlayHeld = s.overlayHeld := rfl
@[simp] theorem State.setQlp_core (s : State) (r : QlPort) : (s.setQlp r).core = s.core := rfl
@[simp] theorem State.setQlp_fabric (s : State) (r : QlPort) : (s.setQlp r).fabric = s.fabric := rfl
@[simp] theorem State.setQlp_tenancy (s : State) (r : QlPort) : (s.setQlp r).tenancy = s.tenancy := rfl
@[simp] theorem State.setQlp_faults (s : State) (r : QlPort) : (s.setQlp r).faults = s.faults := rfl
@[simp] theorem State.setQlp_counters (s : State) (r : QlPort) : (s.setQlp r).counters = s.counters := rfl
@[simp] theorem State.setQlp_cm (s : State) (r : QlPort) : (s.setQlp r).cm = s.cm := rfl
@[simp] theorem State.setQlp_cms (s : State) (r : QlPort) : (s.setQlp r).cms = s.cms := rfl
@[simp] theorem State.setQlp_lighter (s : State) (r : QlPort) : (s.setQlp r).lighter = s.lighter := rfl
@[simp] theorem State.setQlp_sdram (s : State) (r : QlPort) : (s.setQlp r).sdram = s.sdram := rfl
@[simp] theorem State.setQlp_lanes (s : State) (r : QlPort) : (s.setQlp r).lanes = s.lanes := rfl
@[simp] theorem State.setQlp_pcie (s : State) (r : QlPort) : (s.setQlp r).pcie = s.pcie := rfl
@[simp] theorem State.setQlp_slots (s : State) (r : QlPort) : (s.setQlp r).slots = s.slots := rfl
@[simp] theorem State.setQlp_clock (s : State) (r : QlPort) : (s.setQlp r).clock = s.clock := rfl

/-! `State.setLaneRun` writes `lanes`. -/

@[simp] theorem State.setLaneRun_pending (s : State) (r : LaneRun) : (s.setLaneRun r).pending = s.pending := rfl
@[simp] theorem State.setLaneRun_now (s : State) (r : LaneRun) : (s.setLaneRun r).now = s.now := rfl
@[simp] theorem State.setLaneRun_tide (s : State) (r : LaneRun) : (s.setLaneRun r).tide = s.tide := rfl
@[simp] theorem State.setLaneRun_sourceHoldover (s : State) (r : LaneRun) : (s.setLaneRun r).sourceHoldover = s.sourceHoldover := rfl
@[simp] theorem State.setLaneRun_free (s : State) (r : LaneRun) : (s.setLaneRun r).free = s.free := rfl
@[simp] theorem State.setLaneRun_out (s : State) (r : LaneRun) : (s.setLaneRun r).out = s.out := rfl
@[simp] theorem State.setLaneRun_power (s : State) (r : LaneRun) : (s.setLaneRun r).power = s.power := rfl
@[simp] theorem State.setLaneRun_objs (s : State) (r : LaneRun) : (s.setLaneRun r).objs = s.objs := rfl
@[simp] theorem State.setLaneRun_vers (s : State) (r : LaneRun) : (s.setLaneRun r).vers = s.vers := rfl
@[simp] theorem State.setLaneRun_regs (s : State) (r : LaneRun) : (s.setLaneRun r).regs = s.regs := rfl
@[simp] theorem State.setLaneRun_cfg (s : State) (r : LaneRun) : (s.setLaneRun r).cfg = s.cfg := rfl
@[simp] theorem State.setLaneRun_tally (s : State) (r : LaneRun) : (s.setLaneRun r).tally = s.tally := rfl
@[simp] theorem State.setLaneRun_log (s : State) (r : LaneRun) : (s.setLaneRun r).log = s.log := rfl
@[simp] theorem State.setLaneRun_overlays (s : State) (r : LaneRun) : (s.setLaneRun r).overlays = s.overlays := rfl
@[simp] theorem State.setLaneRun_activeOverlay (s : State) (r : LaneRun) : (s.setLaneRun r).activeOverlay = s.activeOverlay := rfl
@[simp] theorem State.setLaneRun_overlayHeld (s : State) (r : LaneRun) : (s.setLaneRun r).overlayHeld = s.overlayHeld := rfl
@[simp] theorem State.setLaneRun_core (s : State) (r : LaneRun) : (s.setLaneRun r).core = s.core := rfl
@[simp] theorem State.setLaneRun_fabric (s : State) (r : LaneRun) : (s.setLaneRun r).fabric = s.fabric := rfl
@[simp] theorem State.setLaneRun_tenancy (s : State) (r : LaneRun) : (s.setLaneRun r).tenancy = s.tenancy := rfl
@[simp] theorem State.setLaneRun_faults (s : State) (r : LaneRun) : (s.setLaneRun r).faults = s.faults := rfl
@[simp] theorem State.setLaneRun_counters (s : State) (r : LaneRun) : (s.setLaneRun r).counters = s.counters := rfl
@[simp] theorem State.setLaneRun_cm (s : State) (r : LaneRun) : (s.setLaneRun r).cm = s.cm := rfl
@[simp] theorem State.setLaneRun_cms (s : State) (r : LaneRun) : (s.setLaneRun r).cms = s.cms := rfl
@[simp] theorem State.setLaneRun_lighter (s : State) (r : LaneRun) : (s.setLaneRun r).lighter = s.lighter := rfl
@[simp] theorem State.setLaneRun_quay (s : State) (r : LaneRun) : (s.setLaneRun r).quay = s.quay := rfl
@[simp] theorem State.setLaneRun_sdram (s : State) (r : LaneRun) : (s.setLaneRun r).sdram = s.sdram := rfl
@[simp] theorem State.setLaneRun_pcie (s : State) (r : LaneRun) : (s.setLaneRun r).pcie = s.pcie := rfl
@[simp] theorem State.setLaneRun_slots (s : State) (r : LaneRun) : (s.setLaneRun r).slots = s.slots := rfl
@[simp] theorem State.setLaneRun_clock (s : State) (r : LaneRun) : (s.setLaneRun r).clock = s.clock := rfl

/-! `State.setSteer` writes `lanes`. -/

@[simp] theorem State.setSteer_pending (s : State) (r : SteerPort) : (s.setSteer r).pending = s.pending := rfl
@[simp] theorem State.setSteer_now (s : State) (r : SteerPort) : (s.setSteer r).now = s.now := rfl
@[simp] theorem State.setSteer_tide (s : State) (r : SteerPort) : (s.setSteer r).tide = s.tide := rfl
@[simp] theorem State.setSteer_sourceHoldover (s : State) (r : SteerPort) : (s.setSteer r).sourceHoldover = s.sourceHoldover := rfl
@[simp] theorem State.setSteer_free (s : State) (r : SteerPort) : (s.setSteer r).free = s.free := rfl
@[simp] theorem State.setSteer_out (s : State) (r : SteerPort) : (s.setSteer r).out = s.out := rfl
@[simp] theorem State.setSteer_power (s : State) (r : SteerPort) : (s.setSteer r).power = s.power := rfl
@[simp] theorem State.setSteer_objs (s : State) (r : SteerPort) : (s.setSteer r).objs = s.objs := rfl
@[simp] theorem State.setSteer_vers (s : State) (r : SteerPort) : (s.setSteer r).vers = s.vers := rfl
@[simp] theorem State.setSteer_regs (s : State) (r : SteerPort) : (s.setSteer r).regs = s.regs := rfl
@[simp] theorem State.setSteer_cfg (s : State) (r : SteerPort) : (s.setSteer r).cfg = s.cfg := rfl
@[simp] theorem State.setSteer_tally (s : State) (r : SteerPort) : (s.setSteer r).tally = s.tally := rfl
@[simp] theorem State.setSteer_log (s : State) (r : SteerPort) : (s.setSteer r).log = s.log := rfl
@[simp] theorem State.setSteer_overlays (s : State) (r : SteerPort) : (s.setSteer r).overlays = s.overlays := rfl
@[simp] theorem State.setSteer_activeOverlay (s : State) (r : SteerPort) : (s.setSteer r).activeOverlay = s.activeOverlay := rfl
@[simp] theorem State.setSteer_overlayHeld (s : State) (r : SteerPort) : (s.setSteer r).overlayHeld = s.overlayHeld := rfl
@[simp] theorem State.setSteer_core (s : State) (r : SteerPort) : (s.setSteer r).core = s.core := rfl
@[simp] theorem State.setSteer_fabric (s : State) (r : SteerPort) : (s.setSteer r).fabric = s.fabric := rfl
@[simp] theorem State.setSteer_tenancy (s : State) (r : SteerPort) : (s.setSteer r).tenancy = s.tenancy := rfl
@[simp] theorem State.setSteer_faults (s : State) (r : SteerPort) : (s.setSteer r).faults = s.faults := rfl
@[simp] theorem State.setSteer_counters (s : State) (r : SteerPort) : (s.setSteer r).counters = s.counters := rfl
@[simp] theorem State.setSteer_cm (s : State) (r : SteerPort) : (s.setSteer r).cm = s.cm := rfl
@[simp] theorem State.setSteer_cms (s : State) (r : SteerPort) : (s.setSteer r).cms = s.cms := rfl
@[simp] theorem State.setSteer_lighter (s : State) (r : SteerPort) : (s.setSteer r).lighter = s.lighter := rfl
@[simp] theorem State.setSteer_quay (s : State) (r : SteerPort) : (s.setSteer r).quay = s.quay := rfl
@[simp] theorem State.setSteer_sdram (s : State) (r : SteerPort) : (s.setSteer r).sdram = s.sdram := rfl
@[simp] theorem State.setSteer_pcie (s : State) (r : SteerPort) : (s.setSteer r).pcie = s.pcie := rfl
@[simp] theorem State.setSteer_slots (s : State) (r : SteerPort) : (s.setSteer r).slots = s.slots := rfl
@[simp] theorem State.setSteer_clock (s : State) (r : SteerPort) : (s.setSteer r).clock = s.clock := rfl

/-! `State.setSlotRun` writes `slots`. -/

@[simp] theorem State.setSlotRun_pending (s : State) (r : SlotRun) : (s.setSlotRun r).pending = s.pending := rfl
@[simp] theorem State.setSlotRun_now (s : State) (r : SlotRun) : (s.setSlotRun r).now = s.now := rfl
@[simp] theorem State.setSlotRun_tide (s : State) (r : SlotRun) : (s.setSlotRun r).tide = s.tide := rfl
@[simp] theorem State.setSlotRun_sourceHoldover (s : State) (r : SlotRun) : (s.setSlotRun r).sourceHoldover = s.sourceHoldover := rfl
@[simp] theorem State.setSlotRun_free (s : State) (r : SlotRun) : (s.setSlotRun r).free = s.free := rfl
@[simp] theorem State.setSlotRun_out (s : State) (r : SlotRun) : (s.setSlotRun r).out = s.out := rfl
@[simp] theorem State.setSlotRun_power (s : State) (r : SlotRun) : (s.setSlotRun r).power = s.power := rfl
@[simp] theorem State.setSlotRun_objs (s : State) (r : SlotRun) : (s.setSlotRun r).objs = s.objs := rfl
@[simp] theorem State.setSlotRun_vers (s : State) (r : SlotRun) : (s.setSlotRun r).vers = s.vers := rfl
@[simp] theorem State.setSlotRun_regs (s : State) (r : SlotRun) : (s.setSlotRun r).regs = s.regs := rfl
@[simp] theorem State.setSlotRun_cfg (s : State) (r : SlotRun) : (s.setSlotRun r).cfg = s.cfg := rfl
@[simp] theorem State.setSlotRun_tally (s : State) (r : SlotRun) : (s.setSlotRun r).tally = s.tally := rfl
@[simp] theorem State.setSlotRun_log (s : State) (r : SlotRun) : (s.setSlotRun r).log = s.log := rfl
@[simp] theorem State.setSlotRun_overlays (s : State) (r : SlotRun) : (s.setSlotRun r).overlays = s.overlays := rfl
@[simp] theorem State.setSlotRun_activeOverlay (s : State) (r : SlotRun) : (s.setSlotRun r).activeOverlay = s.activeOverlay := rfl
@[simp] theorem State.setSlotRun_overlayHeld (s : State) (r : SlotRun) : (s.setSlotRun r).overlayHeld = s.overlayHeld := rfl
@[simp] theorem State.setSlotRun_core (s : State) (r : SlotRun) : (s.setSlotRun r).core = s.core := rfl
@[simp] theorem State.setSlotRun_fabric (s : State) (r : SlotRun) : (s.setSlotRun r).fabric = s.fabric := rfl
@[simp] theorem State.setSlotRun_tenancy (s : State) (r : SlotRun) : (s.setSlotRun r).tenancy = s.tenancy := rfl
@[simp] theorem State.setSlotRun_faults (s : State) (r : SlotRun) : (s.setSlotRun r).faults = s.faults := rfl
@[simp] theorem State.setSlotRun_counters (s : State) (r : SlotRun) : (s.setSlotRun r).counters = s.counters := rfl
@[simp] theorem State.setSlotRun_cm (s : State) (r : SlotRun) : (s.setSlotRun r).cm = s.cm := rfl
@[simp] theorem State.setSlotRun_cms (s : State) (r : SlotRun) : (s.setSlotRun r).cms = s.cms := rfl
@[simp] theorem State.setSlotRun_lighter (s : State) (r : SlotRun) : (s.setSlotRun r).lighter = s.lighter := rfl
@[simp] theorem State.setSlotRun_quay (s : State) (r : SlotRun) : (s.setSlotRun r).quay = s.quay := rfl
@[simp] theorem State.setSlotRun_sdram (s : State) (r : SlotRun) : (s.setSlotRun r).sdram = s.sdram := rfl
@[simp] theorem State.setSlotRun_lanes (s : State) (r : SlotRun) : (s.setSlotRun r).lanes = s.lanes := rfl
@[simp] theorem State.setSlotRun_pcie (s : State) (r : SlotRun) : (s.setSlotRun r).pcie = s.pcie := rfl
@[simp] theorem State.setSlotRun_clock (s : State) (r : SlotRun) : (s.setSlotRun r).clock = s.clock := rfl

/-- A step that answers a next state idled on an empty queue, or ran the command at its front on the state with the queue's rest. -/
theorem step_next {s t : State} (h : step s = .next t) :
    (s.pending = [] ∧ t = s.tick) ∨ ∃ c rest, s.pending = c :: rest ∧ exec c { s with pending := rest } = .next t := by
  unfold step at h
  split at h
  · exact .inl ⟨‹_›, (Host.Outcome.next.inj h).symm⟩
  · exact .inr ⟨_, _, ‹_›, h⟩

end Sys2Proof.Machine
end

