-- ==== Sys2Proof/Tests/Slice0.lean ====
section
/-! SUPPORT. The model's own tests: ill-formed operands refused, a witness for every clause of every statement that has conditions, and small
one-step tests from the manual's tables. -/

namespace Sys2Proof.Tests

open Sys2Proof Sys2Proof.Machine

/-! ## Small states -/

/-- The device with DEV_READY high. -/
def up : State := { State.reset with power := { State.reset.power with phase := .ready } }

/-- Time for every timer. -/
def late : State := { up with now := 100000000000, tide := 100000000000 }

/-- The state before start-up ends. -/
def managed : State := { late with power := { late.power with phase := .managed } }

/-- Port 0 a host port in L0, held by view 5. -/
def hostS : State := ((late.put portRole 0 roleHost).put portLinkState 0 3).put viewPort 5 0

/-- Port 0 a fabric port, its link in a state. -/
def fabS (st : Nat) : State := (late.put portRole 0 roleFabric).setQl 0 st

/-- Port 0 a device port in a PCI Express link state. -/
def devS (st : Nat) : State := (late.put portRole 0 roleDevice).put portLinkState 0 st

/-- View 5 with the fabric-manager queue. -/
def fmS : State := hostS.put viewFmQueue 5 1

/-- The binding word of view 5, virtual port 3, with Side `side` and matched. -/
def bw (side : Nat) : Word := word (2 ^ 55 + 2 ^ 54 + side * 2 ^ 40 + 0xFF * 2 ^ 32 + 3 * 2 ^ 24 + 5 * 2 ^ 16)

/-- A present function at gate slot 7 of port 0, bound to view 5. -/
def boundS : State := ((hostS.put fnState (homeSel 7) 1).put fnPort (homeSel 7) 0).putWord cFunction (homeSel 7) 1 (bw 0)

def fk : FlowKey := ⟨0, 1, 2, 3, 0⟩
def hdr0 : FabHdr := ⟨0, 0, 7, 1, 0, 0, 0, 0, 0, false, false, 0⟩
def in0 : PacketIn :=
  { kind := .posted, req := .memWrite, image := List.replicate 64 0, status := .success, tc := 0, target := .agent, requester := 0, tag := 0
    slot := 16384, ld := 0xFF, view := 0x7F, ecrcBad := false, poison := false, ide := false, hdr := none, written := 1, dests := [] }
def pk0 : Packet :=
  { id := 0, ingress := 0, group := 0, kind := .posted, req := .memWrite, body := .plain, image := List.replicate 64 0, tc := 0, flowClass := 0
    egress := 0, queue := 0, acctQueue := 0, arr := 0, outLevel := 0, tenant := 0, hdr := none, dest := .host, view := 0x7F, viewDev := 0
    srcSlot := 16384, srcLd := 0xFF, requester := 0, tag := 0, pool := 3, idxs := [], poison := false, cutThrough := false, written := 1
    writtenAt := 0, yellow := false, cm := false, resent := false, ecrcBad := false, ide := false, loc := .ingress, linkedAt := 0, redBy := []
    redNow := [], unreached := 0, dests := [] }
def rq0 : ReqEntry :=
  { id := 9, port := 0, inbound := false, tag := 4, requester := 0, origTag := 0, origDev := 0, origPort := 0, req := .memRead, flow := fk
    view := 0x7F, slot := 16384, ld := 0xFF, gen := 1, due := 5, cm := false, far := 0, closed := false }
def snd0 : SendRec := ⟨fk, 0, 0, 0⟩
def rcv0 : RecvRec := ⟨fk, 0, 0, none, [], some 0, 0⟩
def job0 : SnapJob := ⟨3, 0, 0, 5, 0, false, false, true, [], []⟩
def held0 : HeldStore := ⟨5, 64, [1, 2], false, 0, 0⟩
def heldC : HeldStore := ⟨5, 64, [1, 2], true, 0, 0⟩
def rec0 : FaultRec := ⟨1, 1, true, false, false, false, false, 0, 0, 1, 0, 0, 0, 0, 0, 0, 0, 0, 0, false⟩
def init0 : InitMsg := ⟨true, 5, 0, 0, 1, false, true, 0, 0, 0⟩
def mark0 : MarkerIn := ⟨true, 0, false, 0, 0, 0, false, 0, 0⟩
def lt0 (typ : Nat) : LighterPkt :=
  { srcDev := 0, typ := typ, first := true, last := true, retransmit := false, dstGen := 0, dstQp := 0, psn := 0, srcQp := 0, srcGen := 0
    remoteKey := 0, offset := 1, aux := 0, immediate := 0, recvSeq := 0, payload := [], sack := 0, e2e := 0, poisoned := false }
def reply0 : HostReply := ⟨none, true, []⟩

/-- A program of view 5's admin queue at its first word. -/
def pr (code : List Word) : Prog :=
  { id := 1, src := .queue (.admin 5), desc := [0, word (8 * code.length + 32)], via := none, descIndex := 0, irq := false, level := 2, view := 5, issuerDev := 0,
    words := 0 :: 0 :: 0 :: 0 :: code, phase := .running, slot := true, aborting := false, faulting := false, pc := 0, rods := List.replicate 15 0, executed := 0, begun := false,
    committed := false, staged := [], recorded := [], logSeq := 0, silent := false }

/-- A state with one program. -/
def prS (s : State) (p : Prog) : State := { s with tally := { s.tally with progs := [p] } }

/-- A state with one packet in the buffer. -/
def pkS (pk : Packet) : State := { late with core := { late.core with pkts := [pk] } }

/-- A state in which an egress port sends a packet. -/
def sendS (s : State) (c : Nat) (pk : Packet) (paused : Bool) : State :=
  { s with core := { s.core with pkts := [pk], egress := [⟨c, pk.id, paused⟩] } }

/-- A state with one fault record. -/
def recS (r : FaultRec) : State := { late with faults := { late.faults with recs := [r] } }

/-- A state with one outgoing request entry, or an incoming one. -/
def rqS (r : ReqEntry) : State := { late with fabric := { late.fabric with reqs := [r] } }

/-- A state with one snapshot job of set 3, in the given state. -/
def snapS (j : SnapJob) (st : Nat) : State :=
  let s : State := { hostS with counters := { hostS.counters with jobs := [j] } }
  ((s.put snapState 3 st).put snapRangeCount 3 1).put (snapCount.up 0) 3 2

/-- A state with one held store. -/
def heldS (h : HeldStore) : State := { hostS with cms := { hostS.cms with held := [h] } }

/-- A live tenant 4 whose Lighter function is view 5's virtual function 4. -/
def ltS : State := ((hostS.put tenState 4 1).put tenHomeView 4 5)

/-- Queue pair 0 of tenant 4, ready, and one completion queue of its own. -/
def qpS : State := (((((ltS.put qpState 0 qpReady).put qpTenantId 0 4).put qpLog2SqEntries 0 4).put qpLog2RqEntries 0 4).put cqState 0 1).put cqTenantId 0 4

/-- Its record with one work request of opcode `op` and `n` packets. -/
def wr0 (op n st : Nat) : WorkReq := ⟨0, [0, word (op * 2 ^ 56), 0, 0, 0, 0, 0, 0], 0, n, st, 0, 0⟩
def run0 (w : WorkReq) : QpRun := { newRun 0 with wrs := [w], sqProducer := 1 }

/-- Window 63 open to every agent. -/
def gateS : State := (hostS.putWord cCmWindow 63 1 0xF000000000000000).putWord cCmWindow 63 2 (word (15 * 2 ^ 60))

/-- Port 0 a host port whose link is down and may train. -/
def detS : State :=
  let s := hostS.put portLinkState 0 0
  { s with power := { s.power with perstN := true } }

/-- A staged change that no commit can make: a write of object class 0xFFF. -/
def badReq : ObjReq := ⟨0, 0x21, 0, 0, 0xFFF, [0, 0, 0, 0], 0, 5, 0, 0, 1, none, false⟩

/-- Requests: a write of Device word 8, a compare of it, an injection, a write of InjectArmUntil `extra` ns past the limit. -/
def owrR : ObjReq := { badReq with sub := cDevice, blk := [0, 8, 1000, 0xFFFFFFFF] }
def ocasR : ObjReq := { badReq with op := 0x22, sub := cDevice, blk := [0, 8, 12345, 1] }
def injR : ObjReq := { badReq with op := 0x70, blk := [0x10000, 1] }
def armR (extra : Nat) : ObjReq := { badReq with sub := cDevice, blk := [0, 13, word (160000000000 + extra), BitVec.allOnes 64] }

/-- Device contained, and an overlay in effect that writes bits of port 0's word 3. -/
def contS : State := { late with faults := { late.faults with contained := [(1, .obj cDevice 0)] } }
def shadowS : State :=
  { late with overlays := [⟨2, 0, [okey cPort 0], [⟨wkey cPort 0 3, 255, 7⟩], []⟩], activeOverlay := some 2 }

/-- The next state of an outcome. -/
def nxt (o : Host.Outcome State Fault Refusal) : State := match o with | .next t => t | _ => late

/-! ## Object instructions -/

/-- An object instruction with its block. -/
def objCode (op sub : Nat) (blk : List Word) : List Word := instrWord op 0 0 0 sub blk.length :: blk

/-- An `OWRITE` of one field. -/
def owCode (f : Fld) (sel v : Nat) : List Word :=
  objCode 0x21 f.cls [word sel, word f.word, word (v * 2 ^ f.lo), word ((2 ^ f.width - 1) * 2 ^ f.lo)]

/-- The conditions that `ObjRuleWith` puts on a program and its state, the status of the effect apart. -/
def rowStands (s : State) (p : Prog) (r : ObjReq) (want : ObjReq → Bool) : Bool :=
  decide (s.prog 1 = some p) && s.atInstr p && !p.aborting && isObj (iOpcode p.instr) && want r && s.logReady
    && !(s.counted 1).mustDrain p r

/-- A program of one object instruction meets the conditions of `ObjRuleWith`: outside a transaction, where its effect ends OK, and inside one. -/
def rowMet (s : State) (code : List Word) (want : ObjReq → Bool) (image : Option (List Word) := none) : Bool :=
  let p := pr code
  let q := { p with begun := true }
  let r := { p.objReq with image := image }
  rowStands (prS s p) p r want && !p.trans && decide ((((prS s p).counted 1).applyObj r).status = .ok)
    && rowStands (prS s q) q { q.objReq with image := image } want

/-- An `OWRITE` that is no row of its own: Device word 8. -/
def owrC : List Word := objCode 0x21 cDevice [0, 8, 1000, 0xFFFFFFFF]

/-- Five trained channels, the last in service. -/
def sdS : State := { late with sdram := { late.sdram with trained := [7, 8, 9, 10, 11] } }

/-- Words with their CRC in word 3. -/
def withCrc (ws : List Word) : List Word := ws.take 3 ++ [word (crcWords (crcZeroed ws))] ++ ws.drop 4

/-- An overlay image with port 0 in its scope, and a program of one `HALT` (Table 3-6). -/
def ovImage : List Word :=
  withCrc ([0x10001, 0, 0, 0, word (cPort * 2 ^ 32)] ++ withCrc [word (0xFFFF * 2 ^ 48 + 2 ^ 40 + 1), 0, 0, 0, instrWord 0x01 0 0 0 0 0])

/-- A state whose context store holds queue pair 0, its completion queue and region 0. -/
def cachedS (s : State) : State := { s with lighter := { s.lighter with cached := [qpCtx 0, okey cCompletionQueue 0, okey cRegion 0] } }

/-- The state in which egress `c` no longer sends. -/
def freed (s : State) (c : Nat) : State := { s with core := { s.core with egress := s.core.egress.filter (fun x => decide (x.port ≠ c)) } }

/-- A state with the lanes of port 0 granted. -/
def grantAll (s : State) : Nat → State
  | 0 => s
  | n + 1 => (grantAll s n).setLaneRun { (grantAll s n).laneRun n with granted := true }

/-- One stream's symbols of a flit (×1). -/
def lanesOf (f : List Byte) : List (List PamLevel) := [f.flatMap pamSymbols]

/-- Flits: of a reserved type, with an uncorrectable interleave, IDLE, and INIT. -/
def flit3 : List Byte := flitBytes (flitHead 0 0 3) 0 []
def flitBad : List Byte := ((List.replicate 256 0).set 0 1).set 4 1
def flit1 : List Byte := flitBytes (flitHead 0 0 1) 0 []
def flitI : List Byte := initFlit init0

/-- A link at ×1, so that one stream carries each flit. -/
def q1 (st : Nat) (f : QlPort → QlPort) : State := ((fabS st).put qlActiveWidth 0 0).setQlp (f ((fabS st).qlp 0))

/-- Lane 0 waits for its grant; and the state once it has it. -/
def waitS (s : State) (l : Nat) : State := { s with lanes := { s.lanes with waiting := [l] } }
def grantS (s : State) (l : Nat) : State :=
  ({ s with lanes := { s.lanes with waiting := [], grants := s.now :: s.lanes.grants.filter (fun t => decide (s.now < t + 2000)) } } : State).setLaneRun
    { ({ s with lanes := { s.lanes with waiting := [], grants := s.now :: s.lanes.grants.filter (fun t => decide (s.now < t + 2000)) } } : State).laneRun l
      with granted := true }

/-- A marker's symbols. -/
def markSyms : List PamLevel := (markBytes mark0).flatMap pamSymbols

/-! ## Ill-formed operands (one refused term for each check of WellFormed.lean, and the bounds that pass) -/

theorem test_packetWf_refuses : packetWf 0 = false ∧ packetWf 4225 = false ∧ packetWf 4224 = true := by decide

theorem test_cmAccessWf_refuses : cmAccessWf 0 0 = false ∧ cmAccessWf 0 4097 = false ∧ cmAccessWf 16777215 2 = false ∧
    cmAccessWf 16777215 1 = true := by decide

/-- No lane; and a lane with one symbol too few. -/
theorem test_flitWf_refuses : flitWf [] = false ∧ flitWf [List.replicate 1023 .m3] = false := by
  simp only [flitWf, List.all_cons, List.length_replicate]; decide

/-- A marker is 16 bytes: 64 symbols (Table 11-2). -/
theorem test_markerWf_refuses : markerWf (List.replicate 63 PamLevel.m3) = false ∧ markerWf (List.replicate 64 PamLevel.m3) = true := by decide

theorem test_diesWf_refuses : diesWf [] = false := by decide

/-- A descriptor of three words, and a program shorter than `ProgramBytes`. -/
theorem test_fetchWf_refuses : fetchWf (some [0, 0, 0]) none = false ∧ fetchWf (some [0, 16]) (some [0]) = false := by decide

/-- The fragment's index is its count. -/
theorem test_fwdWf_refuses : fwdWf ⟨0, 0, 5, 5, 1, 0, []⟩ = false := by decide

theorem test_resultWf_refuses : resultWf [0, 0, 0] = false := by decide

/-- A boot slot holds 4 MiB. -/
theorem test_flashWf_refuses : flashWf (List.replicate 4194305 0) [] = false := by
  simp only [flashWf, List.length_replicate]; decide

/-- A malformed command changes nothing. -/
theorem test_step_malformed : step { late with pending := [.wearGaugeComparison []] } = .next late := rfl

/-! ## One step each, against the manual's tables and worked examples -/

/-- Port 53 lies in tile 2, local index 17: lanes LT2_LN68 to LT2_LN71 (chapter 1, worked example). -/
theorem test_lanes_of_port53 : ownLane 53 0 = 2 * 76 + 68 ∧ ownLane 53 3 = 2 * 76 + 71 := by decide

/-- Word 4 of program A: opcode `BIND`, OPEN, Dst A2, two words (chapter 2, worked example). -/
theorem test_bind_word : iOpcode 0x4142000000000002 = 0x41 ∧ fOpt (iFlags 0x4142000000000002) = true ∧ iDst 0x4142000000000002 = 2 ∧
    iImm 0x4142000000000002 = 2 := by decide

/-- `ADD A1, 1` wraps at 2^64 (Table 2-7; its word from chapter 15's worked example). -/
theorem test_add_wraps :
    let s := nxt (exec (.add 1) (prS late { pr [0x1201000000000001] with rods := BitVec.allOnes 64 :: List.replicate 14 0 }))
    (s.prog 1).map (fun p => (p.rod 1, p.pc)) = some (0, 1) := by decide

/-- `BNZ A2, 0` with A2 not zero goes back to word 0 (chapter 15's worked example). -/
theorem test_bnz_taken :
    let s := nxt (exec (.bnz 1) (prS late { pr [0, 0x0A00200000000000] with pc := 1, rods := [0, 1] ++ List.replicate 13 0 }))
    (s.prog 1).map (·.pc) = some 0 := by decide

/-- `LDI.HI A1, 0x41` keeps the low half (chapter 2, worked example). -/
theorem test_ldi_hi :
    let s := nxt (exec (.ldi 1) (prS late { pr [0x1041000000000041] with rods := 0x7C000000 :: List.replicate 14 0 }))
    (s.prog 1).map (·.rod 1) = some 0x000000417C000000 := by decide

/-- `REGION` of selector 0xA000 for tenant 0x123 answers with the key 0x00A00000 (chapter 2, worked example). -/
theorem test_region_key :
    let s := (late.put tenState 0x123 1).put (tenQuota.up 2) 0x123 1
    let o := s.applyObj (pr [0x5103000000000004, 0xA000, 0x0000004000000000, 0x400000, 0x30123]).objReq
    o.status = .ok ∧ o.dst = some 0x00A00000 := by decide

/-- The level-1 administrator of view 5 is denied a region of a tenant whose `HomeView` is 9 (chapter 2, worked example). -/
theorem test_region_denied :
    let s := ((late.put tenState 0x200 1).put tenHomeView 0x200 9).put (tenQuota.up 2) 0x200 1
    (s.applyObj { (pr [0x5104000000000004, 0xA001, 0x0000004000400000, 0x400000, 0x30200]).objReq with level := 1 }).status = .denied := by
  decide

/-- The three decisions of chapter 7's worked example on entry 1. -/
theorem test_gate_window :
    let a : Asker := ⟨0x200, 0, 0x7F, 9, 0xFF⟩
    entryPasses 0xA000001000000100 0x2000000000000200 a ⟨.memWrite, 2, 0x1FFE00, 256⟩ = true ∧
    entryPasses 0xA000001000000100 0x2000000000000200 a ⟨.memWrite, 2, 0x1FFF00, 512⟩ = false ∧
    entryPasses 0xA000001000000100 0x2000000000000200 a ⟨.memRead, 2, 0x150000, 64⟩ = false := by decide

/-- A spray set at levels 0, 0 and 8 (chapter 5, worked example): the counters −8, 32, 16 choose member 1 and leave −8, −8, 16. -/
theorem test_spray_row2 :
    let s : State := { late with fabric := { late.fabric with spray := [(0, -24), (1, 16), (2, 8)], congestion := [(2, 8)] } }
    (s.spray 0 1 [0, 1, 2]).2 = some 1 ∧ (s.spray 0 1 [0, 1, 2]).1.fabric.spray = [(0, -8), (1, -8), (2, 16)] := by decide

/-- Tenant 0x123's meter in epoch 7 of chapter 6's worked example: 4,112 B finds C at 912 and E at 3,600, so it is red; the refill gives 6,032. -/
theorem test_meter_epoch7 :
    let s := ((late.putWord cMeter 0x246 0 0x0000000102625A00).putWord cMeter 0x246 2 0x0002000000040000).putWord cMeter 0x246 4
      (word (912 * 2 ^ 32 + 3600))
    s.colour 0x246 4112 = .red ∧ (s.refillMeter 0x246).fld meterTokensC 0x246 = 6032 := by decide

/-- A write of 4,112 B is 65 units; credit 1,329 against 1,250 consumed lets it begin (chapter 10, worked example). -/
theorem test_credit_example : unitsOf 4112 = 65 ∧
    ({ late.qlp 0 with limits := [(3, 1329)], consumed := [(3, 1250)] } : QlPort).credit 3 4112 = true := by decide

/-- Leaf 5 in Locked measures 62 ns (chapter 13, worked example). -/
theorem test_tide_offset :
    let s0 := ((((fabS qlActive).put tideSource 0 3).put tideSourcePort 0 0).put tideState 0 2).put tideStepThresholdNs 0 1000
    let s : State := { s0 with clock := { s0.clock with sync := some (1, 0x417C1004EE), follow := some (1, 0x417C100000), dreq := some (1, 0x417C10148E) } }
    (nxt (exec (.tideDrespReceived 0 1 0x417C101900) s)).fld tideOffsetNs 0 = 62 := by decide

/-- View 4's conditional store fails after view 3's took the lock: CM_SC_STATUS reads 0x01000004 (chapter 8, worked example). -/
theorem test_lock_loser :
    let s : State := { late with cms := { late.cms with held := [⟨4, 0xA0040, [1], true, 0, 0⟩], resvs := [⟨.here 4, 0xA0040 / 64, 0, 2⟩] } }
    let t := nxt (exec (.conditionalStoreApplied 4 (0xA0040 / 64)) s)
    t.reg 4 0x010010 = 0x01000004 ∧ t.cmByte 0xA0040 = 0 := by decide

/-- The barrier with `Tag` 7 completes: CM_BARRIER_STATUS reads 0x70001 (chapter 8, worked example). -/
theorem test_barrier_done :
    let s : State := { late with cms := { late.cms with views := [⟨3, 1, [(0, 7)], []⟩] } }
    (nxt (exec (.barrierComplete 3) s)).reg 3 0x010008 = 0x70001 := by decide

/-- The E3 slot's words are within Table 15-3, and limits that break R368 are not (chapter 15, worked example: 8 A × 5 mΩ is 40 mV). -/
theorem test_slot_words : slotRangesOk 0x3008643207D00FA0 0x290F03E800643232 = true ∧
    slotRangesOk 0x3010643207D01F40 0x290F03E800643232 = true ∧ slotRangesOk 0x3011643207D01F40 0x290F03E800643232 = false := by decide

/-- A remote window's lock word: offset 0xA0040 is in window 5, line 1 of it; 0x8A0040 is its alias (chapter 8, worked example). -/
theorem test_alias : windowOf (plainOf 0x8A0040) = 5 ∧ plainOf 0x8A0040 = 0xA0040 ∧ inAlias 0x8A0040 = true := by decide

/-- A 65-cell packet from a ×4 to a ×16 port at one rate begins after 49 cells (R109's example). -/
theorem test_cut_through : cutCells 65 4 16 = 49 := by decide


set_option maxRecDepth 20000 in
/-- The catalogued check value of CRC-64/WE over the bytes of "123456789" (R251). -/
theorem test_crc64 : crc64 [0x31, 0x32, 0x33, 0x34, 0x35, 0x36, 0x37, 0x38, 0x39] = 0x62EC59E3F1A4F00A := by decide

set_option maxRecDepth 20000 in
/-- The parity of one data symbol of value 1 at the end: (α + 1) and α (R252), and the correction of that symbol (R253). -/
theorem test_fec : fecParity [1] = (3, 2) ∧ fecDecode (List.replicate 61 0 ++ [0x51, 3, 2]) = some (some (61, 0x50)) := by decide

/-- Table 17-13's examples, and LT5_LN0_TXP at ED57. -/
theorem test_lane_balls :
    laneBall 0 0 true false = ⟨1, 1⟩ ∧ laneBall 0 13 true true = ⟨1, 41⟩ ∧ laneBall 0 69 true false = ⟨5, 40⟩ ∧ laneBall 0 75 true true = ⟨7, 17⟩ ∧
    laneBall 0 7 false true = ⟨7, 41⟩ ∧ laneBall 0 71 false false = ⟨13, 22⟩ ∧ laneSupplyBall 0 0 false = ⟨15, 3⟩ ∧
    laneBall 5 0 true false = ⟨99, 57⟩ ∧ rowName 99 = ['E', 'D'] := by decide

/-- Row DH ends with DNC5 in column 71 (Table 17-12). -/
theorem test_clock_field : rowName 84 = ['D', 'H'] ∧ clockSignal ⟨84, 71⟩ = some "DNC5" ∧ clockSignal ⟨84, 40⟩ = some "PWR_OK" := by decide

/-! ## A witness for every clause of every statement that has conditions -/

theorem witness_IngressPacketsGoOn :
    (∃ (p : PortId) (x : PacketIn) (s : State) (h : FabHdr), packetWf x.image.length ∧ s.takesPackets p.val ∧ s.role p.val = roleFabric ∧
      x.hdr = some h) ∧
    (∃ (p : PortId) (x : PacketIn) (s : State), packetWf x.image.length ∧ s.takesPackets p.val ∧ s.role p.val ≠ roleFabric ∧ edgeReq x.req ∧
      kindOf x.req = .completion) ∧
    (∃ (p : PortId) (x : PacketIn) (s : State) (pk : Packet), packetWf x.image.length ∧ s.takesPackets p.val ∧ s.role p.val ≠ roleFabric ∧
      edgeReq x.req ∧ kindOf x.req ≠ .completion ∧ (if s.role p.val = roleHost then s.fromHost p.val x else s.fromDevice p.val x) = some pk
      ∧ ¬(x.ecrcBad = true ∧ s.fld portEcrcCheck p.val = 1)) ∧
    (∃ (p : PortId) (x : PacketIn) (s : State) (pk : Packet), packetWf x.image.length ∧ s.takesPackets p.val ∧ s.role p.val ≠ roleFabric ∧
      edgeReq x.req ∧ kindOf x.req ≠ .completion ∧ (if s.role p.val = roleHost then s.fromHost p.val x else s.fromDevice p.val x) = some pk
      ∧ x.ecrcBad = true ∧ s.fld portEcrcCheck p.val = 1) ∧
    (∃ (p : PortId) (x : PacketIn) (s : State), packetWf x.image.length ∧ s.takesPackets p.val ∧ s.role p.val ≠ roleFabric ∧ edgeReq x.req ∧
      kindOf x.req ≠ .completion ∧ (if s.role p.val = roleHost then s.fromHost p.val x else s.fromDevice p.val x) = none) ∧
    (∃ (pkt : Nat) (s : State) (pk : Packet), s.running ∧ s.pkt pkt = some pk ∧ pk.loc = .ingress ∧ pk.pool = 3) :=
  ⟨
    ⟨0, { in0 with hdr := some hdr0 }, fabS qlActive, hdr0, by decide⟩,
    ⟨0, { in0 with image := [0], req := .cpl }, hostS, by decide⟩,
    ⟨0, { in0 with image := [0], req := .broadcast, dests := [0] }, hostS, (hostS.fromHost 0 { in0 with image := [0], req := .broadcast, dests := [0] }).getD pk0, by decide⟩,
    ⟨0, { in0 with image := [0], req := .broadcast, ecrcBad := true, dests := [0] }, hostS.put portEcrcCheck 0 1, ((hostS.put portEcrcCheck 0 1).fromHost 0 { in0 with image := [0], req := .broadcast, ecrcBad := true, dests := [0] }).getD pk0, by decide⟩,
    ⟨0, { in0 with image := [0], req := .broadcast }, hostS, by decide⟩,
    ⟨0, pkS pk0, pk0, by decide⟩⟩

theorem witness_EgressSendsAndPauses :
    (∃ (p : EgressId) (s : State) (e : Nat × Nat), s.running ∧ s.egressFree (egressCode p) ∧ s.pcie.nullified.find? (fun (e : Nat × Nat) =>
      decide (e.1 = egressCode p)) = some e) ∧
    (∃ (p : EgressId) (starved : List PktKind) (s s1 : State) (pk : Packet) (q : Nat), s.running ∧ s.egressFree (egressCode p) ∧
      s.pcie.nullified.find? (fun (e : Nat × Nat) => decide (e.1 = egressCode p)) = none ∧ s.choose starved (egressCode p) = some (s1, pk,
      q) ∧ (egressCode p = 255 ∨ s.role (egressCode p) = roleFabric)) ∧
    (∃ (p : EgressId) (starved : List PktKind) (s s1 : State) (pk : Packet) (q : Nat), s.running ∧ s.egressFree (egressCode p) ∧
      s.pcie.nullified.find? (fun (e : Nat × Nat) => decide (e.1 = egressCode p)) = none ∧ s.choose starved (egressCode p) = some (s1, pk,
      q) ∧ ¬(egressCode p = 255 ∨ s.role (egressCode p) = roleFabric) ∧ (s1.gateStage (egressCode p) pk).2 = true) ∧
    (∃ (p : EgressId) (starved : List PktKind) (s s1 : State) (pk : Packet) (q : Nat), s.running ∧ s.egressFree (egressCode p) ∧
      s.pcie.nullified.find? (fun (e : Nat × Nat) => decide (e.1 = egressCode p)) = none ∧ s.choose starved (egressCode p) = some (s1, pk,
      q) ∧ ¬(egressCode p = 255 ∨ s.role (egressCode p) = roleFabric) ∧ (s1.gateStage (egressCode p) pk).2 = false) ∧
    (∃ (p : EgressId) (cell : Nat) (s : State) (e : Egress) (pk : Packet), s.running ∧ s.sending (egressCode p) = some (e, pk) ∧ cell <
      pk.cells) ∧
    (∃ (p : EgressId) (s : State) (e : Egress) (pk : Packet), s.running ∧ s.sending (egressCode p) = some (e, pk) ∧ pk.cutThrough ∧ e.paused
      = false ∧ egressCode p < 144 ∧ s.writtenNow pk < pk.cells) ∧
    (∃ (p : EgressId) (s : State) (e : Egress) (pk : Packet), s.running ∧ s.sending (egressCode p) = some (e, pk) ∧ e.paused) ∧
    (∃ (p : EgressId) (s : State) (e : Nat × Nat) (pk : Packet), s.running ∧ s.sending (egressCode p) = none ∧ s.pcie.nullified.find? (fun
      (e : Nat × Nat) => decide (e.1 = egressCode p)) = some e ∧ s.pkt e.2 = some pk) ∧
    (∃ (p : PortId) (s : State) (e : Egress) (pk : Packet), s.running ∧ s.sending p.val = some (e, pk) ∧ e.paused ∧ (s.role p.val = roleHost
      ∨ s.role p.val = roleDevice)) :=
  ⟨
    ⟨143, { late with pcie := { late.pcie with nullified := [(143, 0)] } }, (143, 0), by decide⟩,
    ⟨144, [], (pkS { pk0 with egress := 255, loc := .linked }), (((pkS { pk0 with egress := 255, loc := .linked }).choose [] 255).getD (late, pk0, 0)).1, (((pkS { pk0 with egress := 255, loc := .linked }).choose [] 255).getD (late, pk0, 0)).2.1, (((pkS { pk0 with egress := 255, loc := .linked }).choose [] 255).getD (late, pk0, 0)).2.2, by decide⟩,
    ⟨0, [], ({ hostS with core := { hostS.core with pkts := [{ pk0 with loc := .linked }] } } : State), ((({ hostS with core := { hostS.core with pkts := [{ pk0 with loc := .linked }] } } : State).choose [] 0).getD (late, pk0, 0)).1, ((({ hostS with core := { hostS.core with pkts := [{ pk0 with loc := .linked }] } } : State).choose [] 0).getD (late, pk0, 0)).2.1, ((({ hostS with core := { hostS.core with pkts := [{ pk0 with loc := .linked }] } } : State).choose [] 0).getD (late, pk0, 0)).2.2, by decide⟩,
    ⟨0, [], ({ hostS with core := { hostS.core with pkts := [{ pk0 with loc := .linked, kind := .nonPosted, req := .io, dest := .fn 7 0xFF 0 0 4 }] } } : State), ((({ hostS with core := { hostS.core with pkts := [{ pk0 with loc := .linked, kind := .nonPosted, req := .io, dest := .fn 7 0xFF 0 0 4 }] } } : State).choose [] 0).getD (late, pk0, 0)).1, ((({ hostS with core := { hostS.core with pkts := [{ pk0 with loc := .linked, kind := .nonPosted, req := .io, dest := .fn 7 0xFF 0 0 4 }] } } : State).choose [] 0).getD (late, pk0, 0)).2.1, ((({ hostS with core := { hostS.core with pkts := [{ pk0 with loc := .linked, kind := .nonPosted, req := .io, dest := .fn 7 0xFF 0 0 4 }] } } : State).choose [] 0).getD (late, pk0, 0)).2.2, by decide⟩,
    ⟨144, 0, sendS late 255 pk0 false, ⟨255, 0, false⟩, pk0, by decide⟩,
    ⟨143, sendS late 143 { pk0 with cutThrough := true, written := 0, writtenAt := 100000000000 } false, ⟨143, 0, false⟩, { pk0 with cutThrough := true, written := 0, writtenAt := 100000000000 }, by decide⟩,
    ⟨144, sendS late 255 pk0 true, ⟨255, 0, true⟩, pk0, by decide⟩,
    ⟨143, { pkS pk0 with pcie := { late.pcie with nullified := [(143, 0)] } }, (143, 0), pk0, by decide⟩,
    ⟨0, sendS hostS 0 pk0 true, ⟨0, 0, true⟩, pk0, by decide⟩⟩

theorem witness_BuffersFreeAndAudit :
    (∃ (p : EgressId) (s u : State) (e : Egress) (pk : Packet), s.running ∧ s.sending (egressCode p) = some (e, pk) ∧ e.paused = false ∧ pk.cells ≤ s.writtenNow pk ∧ u = { s with core := { s.core with egress := s.core.egress.filter (fun x => decide (x.port ≠ egressCode p)) } } ∧ (!pk.dests.isEmpty || u.core.egress.any (fun x => decide (x.pkt = pk.id))) = true) ∧
    (∃ (p : EgressId) (s u : State) (e : Egress) (pk : Packet), s.running ∧ s.sending (egressCode p) = some (e, pk) ∧ e.paused = false ∧ pk.cells ≤ s.writtenNow pk ∧ u = { s with core := { s.core with egress := s.core.egress.filter (fun x => decide (x.port ≠ egressCode p)) } } ∧ (!pk.dests.isEmpty || u.core.egress.any (fun x => decide (x.pkt = pk.id))) = false) ∧
    (∃ (s : State), s.running) ∧
    (∃ (b : BankId) (s : State), s.running ∧ s.fld bankState b.val = 3) ∧
    (∃ (b : BankId) (s : State), s.running ∧ s.fld bankState b.val = 1 ∧ s.bankUse b.val = 0 ∧ s.fld bankRetiring b.val = 1) ∧
    (∃ (b : BankId) (s : State), s.running ∧ s.fld bankState b.val = 1 ∧ s.bankUse b.val = 0 ∧ s.fld bankRetiring b.val ≠ 1) :=
  ⟨
    ⟨144, sendS late 255 { pk0 with dests := [1] } false, freed (sendS late 255 { pk0 with dests := [1] } false) 255, ⟨255, 0, false⟩, { pk0 with dests := [1] }, by decide, by decide, by decide, by decide, rfl, by decide⟩,
    ⟨144, sendS late 255 pk0 false, freed (sendS late 255 pk0 false) 255, ⟨255, 0, false⟩, pk0, by decide, by decide, by decide, by decide, rfl, by decide⟩,
    ⟨late, by decide⟩,
    ⟨255, late.put bankState 255 3, by decide⟩,
    ⟨255, (late.put bankState 255 1).put bankRetiring 255 1, by decide⟩,
    ⟨0, late.put bankState 0 1, by decide⟩⟩

theorem witness_FlowRecordsOpenAndClose :
    (∃ (f : FlowKey) (s : State) (r : SendRec), s.running ∧ s.sendRec f = some r ∧ r.lastAt + 5000000 ≤ s.now) ∧
    (∃ (f : FlowKey) (s : State) (r : RecvRec), s.running ∧ s.recvRec f = some r ∧ r.held = [] ∧ r.lastAt + 10000000 ≤ s.now) ∧
    (∃ (pkt : Nat) (s : State) (pk : Packet) (h : FabHdr) (r : RecvRec), s.running ∧ s.pkt pkt = some pk ∧ pk.hdr = some h ∧ (pk.loc =
      .reorderIn ∨ pk.loc = .reorderWait) ∧ s.recvRec (hdrFlow h) = some r ∧ r.gen = h.gen) ∧
    (∃ (pkt : Nat) (s : State) (pk : Packet) (h : FabHdr), s.running ∧ s.pkt pkt = some pk ∧ pk.hdr = some h ∧ (pk.loc = .reorderIn ∨ pk.loc
      = .reorderWait) ∧ s.recvRec (hdrFlow h) = none ∧ s.fabric.recv.length < 262144 ∧ h.birthValid = false) ∧
    (∃ (f : FlowKey) (s : State) (r : RecvRec) (due : Nat), s.running ∧ s.recvRec f = some r ∧ r.gapDue = some due ∧ due ≤ s.now ∧
      s.gapFills r = false) ∧
    (∃ (s : State), s.running) ∧
    (∃ (s : State), s.running) :=
  ⟨
    ⟨fk, { late with now := 5000000, fabric := { late.fabric with send := [snd0] } }, snd0, by decide⟩,
    ⟨fk, { late with now := 10000000, fabric := { late.fabric with recv := [{ rcv0 with gapDue := none }] } }, { rcv0 with gapDue := none }, by decide⟩,
    ⟨0, { pkS { pk0 with hdr := some hdr0, loc := .reorderIn } with fabric := { late.fabric with recv := [{ rcv0 with flow := hdrFlow hdr0 }] } }, { pk0 with hdr := some hdr0, loc := .reorderIn }, hdr0, { rcv0 with flow := hdrFlow hdr0 }, by decide⟩,
    ⟨0, pkS { pk0 with hdr := some hdr0, loc := .reorderIn }, { pk0 with hdr := some hdr0, loc := .reorderIn }, hdr0, by decide⟩,
    ⟨fk, { late with fabric := { late.fabric with recv := [rcv0] } }, rcv0, 0, by decide⟩,
    ⟨late, by decide⟩,
    ⟨late, by decide⟩⟩

theorem witness_PathsWithdrawAndReturn :
    (∃ (s : State), s.running) ∧
    (∃ (g : Fin 16384) (s : State), s.running ∧ tget 0 s.fabric.coldUntil g.val ≠ 0 ∧ tget 0 s.fabric.coldUntil g.val ≤ s.now) ∧
    (∃ (p : PortId) (s : State), s.fabricLink p.val ∧ s.ql p.val = qlActive) ∧
    (∃ (p : PortId) (s : State) (e : Nat × Nat), s.fabric.restoring.find? (fun e => decide (e.1 = p.val)) = some e ∧ s.fabricLink p.val ∧
      s.ql p.val = qlActive ∧ e.2 ≤ s.now ∧ s.fld qlDegraded p.val ≠ 1) ∧
    (∃ (p : PortId) (s : State) (e : Nat × Nat), s.fabric.restoring.find? (fun e => decide (e.1 = p.val)) = some e ∧ s.fabricLink p.val ∧
      s.ql p.val = qlActive ∧ e.2 ≤ s.now ∧ s.fld qlDegraded p.val = 1) :=
  ⟨
    ⟨late, by decide⟩,
    ⟨16383, { late with fabric := { late.fabric with coldUntil := [(16383, 100000000000)] } }, by decide⟩,
    ⟨0, fabS qlActive, by decide⟩,
    ⟨0, { fabS qlActive with fabric := { late.fabric with restoring := [(0, 100000000000)] } }, (0, 100000000000), by decide⟩,
    ⟨0, ({ fabS qlActive with fabric := { late.fabric with restoring := [(0, 100000000000)] } } : State).put qlDegraded 0 1, (0, 100000000000), by decide⟩⟩

theorem witness_OutstandingRequestsEnd :
    (∃ (p : PortId) (c : CompletionIn) (s : State), packetWf c.image.length ∧ s.takesPackets p.val ∧ s.role p.val ≠ roleFabric ∧ kindOf
      c.req = .completion) ∧
    (∃ (p : PortId) (tag : Nat) (s : State) (r : ReqEntry), s.running ∧ s.fabric.reqs.find? (fun r => decide (r.port = p.val) && !r.inbound
      && decide (r.tag = tag) && decide (r.due ≤ s.now)) = some r) ∧
    (∃ (entry : Nat) (s : State) (r : ReqEntry), s.running ∧ s.openReqs.find? (fun r => decide (r.id = entry) && r.cm && decide (r.due ≤
      s.now) && !s.dataBack r) = some r) ∧
    (∃ (p : PortId) (s : State), s.running ∧ s.lane0 p.val = p.val ∧ s.edgeStands p.val) :=
  ⟨
    ⟨0, ⟨.cpl, 4, .success, [0], false, 1, []⟩, hostS, by decide⟩,
    ⟨0, 4, rqS rq0, rq0, by decide⟩,
    ⟨9, rqS { rq0 with cm := true }, { rq0 with cm := true }, by decide⟩,
    ⟨0, hostS, by decide⟩⟩

theorem witness_BindingMessagesAct :
    (∃ (m : PresenceMsg) (s : State), s.running ∧ m.view.val < 96) ∧
    (∃ (m : BindNotice) (s : State), s.running ∧ s.noticeAgrees m) ∧
    (∃ (m : BindNotice) (s : State), s.running ∧ ¬ s.noticeAgrees m) ∧
    (∃ (dev : Nat) (m : BindConfirm) (s u : State) (sel : Nat) (w : Word), s.running ∧ (m.ld = 0xFF ∨ m.ld < 16) ∧ sel = dev % 4096 * 65536
      + m.slot.val ∧ w = s.bindW sel (ldIndex m.ld) ∧ bBound w ∧ dev % 4096 ≠ s.fabricId ∧ u = (s.put (fnMatched.up (ldIndex m.ld)) sel
      1).put fnPort sel m.port ∧ m.fnState = 1) ∧
    (∃ (dev : Nat) (m : BindConfirm) (s u : State) (sel : Nat) (w : Word), s.running ∧ (m.ld = 0xFF ∨ m.ld < 16) ∧ sel = dev % 4096 * 65536
      + m.slot.val ∧ w = s.bindW sel (ldIndex m.ld) ∧ bBound w ∧ dev % 4096 ≠ s.fabricId ∧ u = (s.put (fnMatched.up (ldIndex m.ld)) sel
      1).put fnPort sel m.port ∧ m.fnState ≠ 1) ∧
    (∃ (m : BindResetMsg) (s : State), s.running ∧ (m.ld = 0xFF ∨ m.ld < 16) ∧ bBound (s.bindW (homeSel m.slot.val) (ldIndex m.ld)) ∧
      bMatched (s.bindW (homeSel m.slot.val) (ldIndex m.ld)) ∧ bView (s.bindW (homeSel m.slot.val) (ldIndex m.ld)) = m.hostView ∧ bViewDev
      (s.bindW (homeSel m.slot.val) (ldIndex m.ld)) = m.viewDev) :=
  ⟨
    ⟨⟨95, 255, .attention⟩, late, by decide⟩,
    ⟨⟨7, 0xFF, 1, 5, 3, 0, 0⟩, boundS.putWord cFunction (homeSel 7) 1 (bw 1), by decide⟩,
    ⟨⟨7, 0xFF, 1, 6, 3, 0, 0⟩, boundS.putWord cFunction (homeSel 7) 1 (bw 1), by decide⟩,
    ⟨1, ⟨7, 0xFF, 0, 1⟩, hostS.putWord cFunction 65543 1 (bw 2), ((hostS.putWord cFunction 65543 1 (bw 2)).put (fnMatched.up (ldIndex 0xFF)) 65543 1).put fnPort 65543 0, 65543, (hostS.putWord cFunction 65543 1 (bw 2)).bindW 65543 (ldIndex 0xFF), by decide, by decide, by decide, by decide, by decide, by decide, rfl, by decide⟩,
    ⟨1, ⟨7, 0xFF, 0, 0⟩, hostS.putWord cFunction 65543 1 (bw 2), ((hostS.putWord cFunction 65543 1 (bw 2)).put (fnMatched.up (ldIndex 0xFF)) 65543 1).put fnPort 65543 0, 65543, (hostS.putWord cFunction 65543 1 (bw 2)).bindW 65543 (ldIndex 0xFF), by decide, by decide, by decide, by decide, by decide, by decide, rfl, by decide⟩,
    ⟨⟨7, 0xFF, 5, 0⟩, boundS, by decide⟩⟩

theorem witness_BucketsSamplesAndTelemetry :
    (∃ (s : State), s.running ∧ s.core.epoch < s.tide / 1024 ∧ s.pending.any commitsMeter = false) ∧
    (∃ (s : State), s.running ∧ s.core.epoch < s.tide / 1024 ∧ s.pending.any commitsMeter = true) ∧
    (∃ (s : State), s.running ∧ s.core.sampledEpoch ≠ s.core.epoch ∧ s.core.epochWaits = false ∧ s.pending.any readsLast = false) ∧
    (∃ (s : State), s.running ∧ s.core.sampledEpoch ≠ s.core.epoch ∧ (s.core.epochWaits = true ∨ s.pending.any readsLast = true)) ∧
    (∃ (r : Fin 8) (s : State) (e : Staged), (s.stagedOf r.val).head? = some e ∧ s.viewLive (s.fld (ringFld ringHostView r.val) 0) ∧
      s.mgmtQuiet (s.fld (ringFld ringHostView r.val) 0) = false ∧ s.telemetryTurn) :=
  ⟨
    ⟨late, by decide⟩,
    ⟨{ late with pending := [.commit 1] }, by decide⟩,
    ⟨{ late with core := { late.core with epoch := 1 } }, by decide⟩,
    ⟨{ late with core := { late.core with epoch := 1, epochWaits := true } }, by decide⟩,
    ⟨7, (({ hostS with counters := { hostS.counters with staged := [⟨7, 0, []⟩] } } : State).put (ringFld ringHostView 7) 0 5), ⟨7, 0, []⟩, by decide⟩⟩

theorem witness_SnapshotsAndCounters :
    (∃ (set : Fin 256) (s : State) (j : SnapJob), s.running ∧ s.jobOf set = some j ∧ j.instant ≤ s.tide ∧ (s.base snapState set.val = 1 ∨
      s.base snapState set.val = 2) ∧ j.frozen) ∧
    (∃ (set : Fin 256) (s : State) (j : SnapJob), s.running ∧ s.jobOf set = some j ∧ j.instant ≤ s.tide ∧ (s.base snapState set.val = 1 ∨
      s.base snapState set.val = 2) ∧ j.frozen = false) ∧
    (∃ (set : Fin 256) (s : State) (j : SnapJob), s.running ∧ s.jobOf set = some j ∧ s.base snapState set.val = 3 ∧ j.issuerDev = s.fabricId
      ∧ s.viewUp j.view ∧ s.mgmtQuiet j.view = false) ∧
    (∃ (set : Fin 256) (s : State) (j : SnapJob), s.running ∧ s.jobOf set = some j ∧ s.base snapState set.val = 3) ∧
    (∃ (id : Nat) (s : State), s.collects ∧ ctrExists id) :=
  ⟨
    ⟨3, snapS job0 1, job0, by decide⟩,
    ⟨3, snapS { job0 with frozen := false } 2, { job0 with frozen := false }, by decide⟩,
    ⟨3, snapS job0 3, job0, by decide⟩,
    ⟨3, snapS job0 3, job0, by decide⟩,
    ⟨0x11000000, late, by decide⟩⟩

theorem witness_PackageMonitorsReport :
    (∃ (die : Fin 10) (sensor : Fin 16) (s : State), s.collects ∧ sensor.val < sensorsOf die.val) ∧
    (∃ (die : Fin 10) (sensor : Fin 16) (temp : Nat) (s : State), s.collects ∧ sensor.val < sensorsOf die.val ∧ 800 < temp) ∧
    (∃ (rail : Fin 21) (mv : Nat) (s : State), s.collects ∧ (mv * 10 < (railLimits rail.val).2.2.1 ∨ (railLimits rail.val).2.2.2 < mv * 10)) ∧
    (∃ (rail : Fin 21) (mv : Nat) (s : State), s.collects ∧ (railLimits rail.val).2.2.1 ≤ mv * 10 ∧ mv * 10 ≤ (railLimits rail.val).2.2.2 ∧
      (mv * 10 < (railLimits rail.val).1 ∨ (railLimits rail.val).2.1 < mv * 10)) ∧
    (∃ (dies : List DieReading) (s : State), diesWf dies ∧ s.collects ∧ s.power.phase ≠ .starting) :=
  ⟨
    ⟨9, 1, late, by decide⟩,
    ⟨0, 15, 801, late, by decide⟩,
    ⟨0, (railLimits 0).2.2.2 / 10 + 1, late, by decide⟩,
    ⟨0, (railLimits 0).2.1 / 10 + 1, late, by decide⟩,
    ⟨List.replicate 10 ⟨0, 0⟩, late, by decide⟩⟩

theorem witness_FaultCollectorActs :
    (∃ (e : FaultIn) (s : State), s.collects ∧ e.grade ≤ 5 ∧ checkerExists e.checker) ∧
    (∃ (id : Nat) (s : State) (r : FaultRec), s.faults.recs.find? (fun r => decide (r.id = id)) = some r ∧ s.collects ∧ r.isOpen ∧
      s.holdsRec r = false ∧ r.quietFrom + s.fld devMergeQuietMs 0 * 1000000 ≤ s.now) ∧
    (∃ (c : Nat) (s : State) (l : Leak), s.faults.leaks.find? (fun l => decide (l.source = c)) = some l ∧ s.power.phase ≠ .off ∧ l.due ≤
      s.now) ∧
    (∃ (s : State) (r : FaultRec), (s.faults.recs.filter (fun r => !r.logged)).getLast? = some r ∧ s.power.phase ≠ .off ∧
      s.sdram.selfRefresh = false ∧ s.log.pendingCopy = []) ∧
    (∃ (s : State), s.running ∧ s.earlierMismatch = false) ∧
    (∃ (s : State), s.running ∧ s.earlierMismatch = true) ∧
    (∃ (s : State), s.power.phase ≠ .off ∧ s.fld devInjectArmUntil 0 ≤ s.tide) ∧
    (∃ (ch : Fin 12) (s : State), s.running ∧ s.sdram.migrating.contains ch.val) :=
  ⟨
    ⟨⟨5, 0x10000, 0, 0, 0, 0, 13⟩, late, by decide⟩,
    ⟨1, recS { rec0 with quietFrom := 0 }, rec0, by decide⟩,
    ⟨7, { late with faults := { late.faults with leaks := [⟨7, 1, 100000000000⟩] } }, ⟨7, 1, 100000000000⟩, by decide⟩,
    ⟨{ recS rec0 with sdram := { late.sdram with selfRefresh := false } }, rec0, by decide⟩,
    ⟨late, by decide⟩,
    ⟨recS { rec0 with checker := 0x0E0000, last := 100000000000 }, by decide⟩,
    ⟨late, by decide⟩,
    ⟨11, { late with sdram := { late.sdram with migrating := [11] } }, by decide⟩⟩

set_option maxRecDepth 40000 in
theorem witness_CmAccessesComplete :
    (∃ (v : ViewId) (off : Nat) (data : List Byte) (s u : State), cmAccessWf off data.length ∧ s.agentLive (.here v) ∧ u = s.finish (.here
      v) ∧ u.cms.waits.any (fun x => decide (x.view = v.val)) = false ∧ u.behindPackets v.val u.core.nextPkt = false ∧ u.isRemote (windowOf
      (plainOf off)) = false ∧ inAlias off = false ∧ u.cmGate (.here v) .memWrite off data.length = .pass ∧ (u.cms.held.filter (fun h =>
      decide (h.view = v.val))).length + (lineParts (data.length + 1) (plainOf off) data).length ≤ 256) ∧
    (∃ (v : ViewId) (off : Nat) (data : List Byte) (s u : State), cmAccessWf off data.length ∧ s.agentLive (.here v) ∧ u = s.finish (.here
      v) ∧ u.cms.waits.any (fun x => decide (x.view = v.val)) = false ∧ u.behindPackets v.val u.core.nextPkt = false ∧ u.isRemote (windowOf
      (plainOf off)) = false ∧ inAlias off = false ∧ u.cmGate (.here v) .memWrite off data.length = .pass ∧ 256 < (u.cms.held.filter (fun h
      => decide (h.view = v.val))).length + (lineParts (data.length + 1) (plainOf off) data).length) ∧
    (∃ (v : ViewId) (off : Nat) (data : List Byte) (s u : State), cmAccessWf off data.length ∧ s.agentLive (.here v) ∧ u = s.finish (.here
      v) ∧ u.cms.waits.any (fun x => decide (x.view = v.val)) = false ∧ u.behindPackets v.val u.core.nextPkt = false ∧ u.isRemote (windowOf
      (plainOf off)) = false ∧ inAlias off = false ∧ u.cmGate (.here v) .memWrite off data.length ≠ .pass) ∧
    (∃ (d p n g off : Nat) (data : List Byte) (s : State), cmAccessWf off data.length ∧ s.agentLive (.far d p n g) ∧ s.cmGate (.far d p n g)
      .memWrite off data.length = .pass) ∧
    (∃ (d p n g off : Nat) (data : List Byte) (s : State), cmAccessWf off data.length ∧ s.agentLive (.far d p n g) ∧ s.cmGate (.far d p n g)
      .memWrite off data.length ≠ .pass) ∧
    (∃ (v : ViewId) (line : Nat) (s : State) (h : HeldStore), s.oldestHeld v.val line = some h ∧ h.cond = false ∧ s.running) ∧
    (∃ (v : ViewId) (off len : Nat) (s : State), cmAccessWf off len ∧ s.agentLive (.here v) ∧ inAlias off = false ∧ s.isRemote (windowOf
      off) = false ∧ s.cmGate (.here v) .memRead off len = .pass) ∧
    (∃ (v : ViewId) (off len tag : Nat) (s : State), s.readBlocked ⟨.here v, off, tag, len, [], []⟩ = false ∧ len ≤ lineLen off len) ∧
    (∃ (v : ViewId) (off len : Nat) (s : State), cmAccessWf off len ∧ s.agentLive (.here v) ∧ inAlias off = false ∧ s.isRemote (windowOf
      off) = false ∧ s.cmGate (.here v) .memRead off len ≠ .pass) ∧
    (∃ (v : ViewId) (op : AtomicKind) (off size : Nat) (s : State), cmAccessWf off size ∧ atomicSizeOk op size ∧ s.agentLive (.here v) ∧
      inAlias off = false ∧ off % size = 0 ∧ s.isRemote (windowOf (plainOf off)) = false ∧ s.cmGate (.here v) .atomicOp off size = .pass) ∧
    (∃ (a : Agent) (op : AtomicKind) (off size : Nat) (s : State), cmAccessWf off size ∧ atomicSizeOk op size ∧ s.agentLive a ∧ (inAlias off
      ∨ off % size ≠ 0) ∧ s.cmGate a .atomicOp off size = .pass) :=
  ⟨
    ⟨5, 8388604, [1, 2, 3, 4], gateS, (gateS : State).finish (.here 5), by decide, by decide, rfl, by decide⟩,
    ⟨5, 8388604, [1, 2, 3, 4], ({ gateS with cms := { gateS.cms with held := List.replicate 256 held0 } }), (({ gateS with cms := { gateS.cms with held := List.replicate 256 held0 } }) : State).finish (.here 5), by decide, by decide, rfl, by decide⟩,
    ⟨5, 8388604, [1, 2, 3, 4], (hostS.put viewOwnerTenant 5 4), ((hostS.put viewOwnerTenant 5 4) : State).finish (.here 5), by decide, by decide, rfl, by decide⟩,
    ⟨1, 5, 0, 0, 8388604, [1, 2, 3, 4], late, by decide⟩,
    ⟨1, 5, 0, 4, 0, [1, 2, 3, 4], late, by decide⟩,
    ⟨5, 1, heldS held0, held0, by decide⟩,
    ⟨5, 8388604, 4, gateS, by decide⟩,
    ⟨5, 8388604, 4, 0, gateS, by decide⟩,
    ⟨5, 0, 4096, hostS.put viewOwnerTenant 5 4, by decide⟩,
    ⟨5, .cas, 8388592, 16, gateS, by decide⟩,
    ⟨.here 5, .swap, 8388596, 8, gateS, by decide⟩⟩

theorem witness_ReservationsAndBarriersComplete :
    (∃ (v : ViewId) (off len : Nat) (s : State), cmAccessWf off len ∧ s.viewLive v.val ∧ inAlias off ∧ s.isRemote (windowOf (plainOf off)) =
      false ∧ lineOf (plainOf off) = lineOf (plainOf off + len - 1) ∧ s.cmGate (.here v) .memRead off len = .pass) ∧
    (∃ (v : ViewId) (off len : Nat) (s : State), cmAccessWf off len ∧ s.viewLive v.val ∧ inAlias off ∧ s.isRemote (windowOf (plainOf off)) =
      false ∧ lineOf (plainOf off) ≠ lineOf (plainOf off + len - 1) ∧ s.cmGate (.here v) .memRead off len = .pass) ∧
    (∃ (v : ViewId) (line : Nat) (s : State) (h : HeldStore), s.oldestHeld v.val line = some h ∧ h.cond ∧ s.running ∧ h.fails = 0) ∧
    (∃ (v : ViewId) (id : Nat) (s u : State), s.pkt id = none ∧ u = (s.ltVisible v.val id).farVisible id) ∧
    (∃ (v : ViewId) (s : State), s.viewLive v.val ∧ s.cms.waits.any (fun x => decide (x.view = v.val)) = false ∧ s.behindPackets v.val
      s.core.nextPkt = false ∧ (s.cmView v.val).barriers.length < 8) ∧
    (∃ (v : ViewId) (s : State), s.barrierReady v.val) ∧
    (∃ (v : ViewId) (s : State), s.viewLive v.val ∧ (s.cmView v.val).barriers = [] ∧ s.cms.waits.any (fun w => decide (w.view = v.val)) =
      false) ∧
    (∃ (v : ViewId) (s : State), s.viewLive v.val ∧ (s.cmView v.val).barriers ≠ []) ∧
    (∃ (v : ViewId) (s u : State) (r : Nat × Nat × Nat), u = State.barriersDone 8 s v.val ∧ u.cms.statusReads.find? (fun r => decide (r.1 =
      v.val) && decide (r.2.2 ≤ u.now)) = some r) ∧
    (∃ (v : ViewId) (s : State), s.viewLive v.val) :=
  ⟨
    ⟨5, 16777212, 4, gateS, by decide⟩,
    ⟨5, 16777150, 4, gateS, by decide⟩,
    ⟨5, 1, heldS heldC, heldC, by decide⟩,
    ⟨5, 0, late, (late.ltVisible 5 0).farVisible 0, by decide, rfl⟩,
    ⟨5, { hostS with cms := { hostS.cms with views := [⟨5, 7, List.replicate 7 (0, 0), []⟩] } }, by decide⟩,
    ⟨5, { hostS with cms := { hostS.cms with views := [⟨5, 1, [(0, 9)], []⟩] } }, by decide⟩,
    ⟨5, hostS, by decide⟩,
    ⟨5, { hostS with cms := { hostS.cms with views := [⟨5, 1, [(0, 9)], []⟩] } }, by decide⟩,
    ⟨5, { hostS with cms := { hostS.cms with statusReads := [(5, 0, 100000000000)] } }, State.barriersDone 8 ({ hostS with cms := { hostS.cms with statusReads := [(5, 0, 100000000000)] } }) 5, (5, 0, 100000000000), rfl, by decide⟩,
    ⟨5, hostS, by decide⟩⟩

theorem witness_LighterDoorbellsAct :
    (∃ (f : LighterFn) (whole : Bool) (value : Word) (s : State), s.ltFnLive f ∧ dbMine 0 value ∧ dbFormOk whole value ∧ s.dbQpOk f value
      (s.fld qpSqConsumer (dbQueue value)) (s.fld qpLog2SqEntries (dbQueue value))) ∧
    (∃ (f : LighterFn) (whole : Bool) (value : Word) (s : State), s.ltFnLive f ∧ dbMine 0 value ∧ (dbFormOk whole value && s.dbQpOk f value
      (s.fld qpSqConsumer (dbQueue value)) (s.fld qpLog2SqEntries (dbQueue value))) = false) ∧
    (∃ (f : LighterFn) (whole : Bool) (value : Word) (s : State), s.ltFnLive f ∧ dbMine 1 value ∧ dbFormOk whole value ∧ s.fld
      qpLog2RqEntries (dbQueue value) ≠ 0 ∧ s.dbQpOk f value (s.fld qpRqConsumer (dbQueue value)) (s.fld qpLog2RqEntries (dbQueue value))) ∧
    (∃ (f : LighterFn) (whole : Bool) (value : Word) (s : State), s.ltFnLive f ∧ dbMine 2 value ∧ dbFormOk whole value ∧ s.dbCqOk f value ∧
      ((s.put cqConsumer (dbQueue value) (dbIndex value)).put cqArmed (dbQueue value) 1).fld cqProducer (dbQueue value) = dbIndex value) ∧
    (∃ (f : LighterFn) (whole : Bool) (value : Word) (s u : State), s.ltFnLive f ∧ dbMine 2 value ∧ dbFormOk whole value ∧ s.dbCqOk f value
      ∧ u = (s.put cqConsumer (dbQueue value) (dbIndex value)).put cqArmed (dbQueue value) 1 ∧ u.fld cqProducer (dbQueue value) ≠ dbIndex
      value) ∧
    (∃ (f : LighterFn) (whole : Bool) (value : Word) (s : State), s.ltFnLive f ∧ dbMine 3 value ∧ dbFormOk whole value ∧ s.dbCqOk f value) :=
  ⟨
    ⟨.vf 4, true, (word 1), qpS, by decide⟩,
    ⟨.vf 4, false, (word 1), qpS, by decide⟩,
    ⟨.vf 4, true, (word 1099511627777), qpS, by decide⟩,
    ⟨.vf 4, true, (word 2199023255552), qpS, by decide⟩,
    ⟨.vf 4, true, (word 2199023255552), ((qpS.put cqEntries 0 4).put cqProducer 0 2), (((qpS.put cqEntries 0 4).put cqProducer 0 2).put cqConsumer (dbQueue (word 2199023255552)) (dbIndex (word 2199023255552))).put cqArmed (dbQueue (word 2199023255552)) 1, by decide, by decide, by decide, by decide, rfl, by decide⟩,
    ⟨.vf 4, true, (word 3298534883328), qpS, by decide⟩⟩

set_option maxRecDepth 40000 in
theorem witness_LighterRequesterCompletes :
    (∃ (q : QpId) (wr : Option (List Word)) (s : State) (ks : List Nat), (∀ w ∈ wr, w.length = 8) ∧ s.canStart q.val ∧ ks = qpCtx q.val ::
      (if (wr.getD []).length = 8 && wOpcode (wr.getD []) ≠ 6 then regCtx (wLocalKey (wr.getD [])) else []) ∧ s.lacks ks = none) ∧
    (∃ (q : QpId) (s : State) (w : WorkReq) (d : List Byte) (op i n key : Nat) (ks : List Nat) (places : List (Nat × Nat)), wrOf (s.run
      q.val) (s.fld qpNextPsn q.val) = some w ∧ op = wOpcode w.words ∧ i = distMod 24 (s.fld qpNextPsn q.val) w.first ∧ n = (if op = 0 || op
      = 1 || op = 3 then pieceLen (wLength w.words) i else 0) ∧ key = wLocalKey w.words ∧ d.length = n ∧ s.running ∧ s.qpIs q.val qpReady ∧
      s.ltHeld q.val = false ∧ distMod 24 (s.fld qpNextPsn q.val) (s.fld qpBasePsn q.val) < s.fld qpWindow q.val ∧ (op ≠ 6 ∨ (s.run
      q.val).wrs.head? = some w) ∧ ((op ≠ 4 ∧ op ≠ 5) ∨ atomicsOut (s.run q.val) < 8) ∧ ks = qpCtx q.val :: (if n = 0 then [] else regCtx
      key) ∧ s.lacks ks = none ∧ (n = 0 ∨ s.keyOk (s.fld qpTenantId q.val) key = true) ∧ s.xlate key (wLocalOffset w.words + 4096 * i) n =
      .hit places) ∧
    (∃ (pk : LighterPkt) (s u : State) (ks : List Nat), pk.typ = 9 ∧ s.running ∧ ltIntact pk ∧ s.ltPeerOk pk ∧ ks = s.ltNeeds pk ⟨none,
      true, []⟩ ∧ s.lacks ks = none ∧ u = s.touchAll ks ∧ u.ackOk pk) ∧
    (∃ (pk : LighterPkt) (s u : State) (ks : List Nat) (w : WorkReq), pk.typ = 10 ∧ s.running ∧ ltIntact pk ∧ s.ltPeerOk pk ∧ ks = s.ltNeeds
      pk ⟨none, true, []⟩ ∧ s.lacks ks = none ∧ u = s.touchAll ks ∧ u.ltPeerOk pk ∧ u.outstanding pk.dstQp.val pk.psn ∧ 1 ≤ pk.offset % 256
      ∧ pk.offset % 256 ≤ 8 ∧ pk.offset % 256 ≠ 4 ∧ wrOf (u.run pk.dstQp.val) pk.psn = some w) ∧
    (∃ (q : QpId) (s : State) (due : Nat) (w : WorkReq), (s.run q.val).timer = some due ∧ due ≤ s.now ∧ s.running ∧ s.qpIs q.val qpReady ∧
      s.acksAdvance q.val (acksFor q.val s.pending) = false ∧ s.fld qpRetryLimit q.val ≤ s.fld qpRetryCount q.val ∧ s.oldestOpen q.val =
      some w) ∧
    (∃ (q : QpId) (s : State) (due : Nat), (s.run q.val).timer = some due ∧ due ≤ s.now ∧ s.running ∧ s.qpIs q.val qpReady ∧ s.acksAdvance
      q.val (acksFor q.val s.pending) = false ∧ s.fld qpRetryCount q.val < s.fld qpRetryLimit q.val) ∧
    (∃ (q : QpId) (entry : Option (List Word)) (s : State) (w : WorkReq) (ws : List WorkReq) (ks : List Nat), (∀ e ∈ entry, e.length = 8) ∧
      s.running ∧ s.qpIs q.val qpReady ∧ (s.run q.val).wrs = w :: ws ∧ (w.status ≠ 0 ∨ s.wrDone q.val w) ∧ ks = (if wSignal w.words ||
      w.status ≠ 0 then [qpCtx q.val, okey cCompletionQueue (s.fld qpSendCq q.val)] else [qpCtx q.val]) ∧ s.lacks ks = none) ∧
    (∃ (q : QpId) (entry : Option (List Word)) (s : State) (m : RecvMsg) (ks : List Nat), (∀ e ∈ entry, e.length = 8) ∧ s.running ∧ s.qpIs
      q.val qpReady ∧ (s.run q.val).msgs.head? = some m ∧ m.seq % 65536 = s.fld qpRqConsumer q.val ∧ msgDone (s.fld qpExpectedPsn q.val) m ∧
      ks = [qpCtx q.val, okey cCompletionQueue (s.fld qpRecvCq q.val)] ∧ s.lacks ks = none) :=
  ⟨
    ⟨0, none, cachedS (qpS.setRun { newRun 0 with sqProducer := 1 }), [qpCtx 0], by decide⟩,
    ⟨0, cachedS ((qpS.put qpWindow 0 1).setRun (run0 (wr0 2 1 0))), wr0 2 1 0, [], 2, 0, 0, 0, [qpCtx 0], [], by decide⟩,
    ⟨ltSealed (lt0 9), cachedS qpS, (cachedS qpS).touchAll ((cachedS qpS).ltNeeds (ltSealed (lt0 9)) reply0), (cachedS qpS).ltNeeds (ltSealed (lt0 9)) reply0, by decide, by decide, by decide, by decide, by decide, by decide, rfl, by decide⟩,
    ⟨ltSealed { lt0 10 with psn := 0, offset := 8 }, cachedS ((qpS.put qpNextPsn 0 1).setRun (run0 (wr0 0 1 0))), (cachedS ((qpS.put qpNextPsn 0 1).setRun (run0 (wr0 0 1 0)))).touchAll ((cachedS ((qpS.put qpNextPsn 0 1).setRun (run0 (wr0 0 1 0)))).ltNeeds (ltSealed { lt0 10 with psn := 0, offset := 8 }) reply0), (cachedS ((qpS.put qpNextPsn 0 1).setRun (run0 (wr0 0 1 0)))).ltNeeds (ltSealed { lt0 10 with psn := 0, offset := 8 }) reply0, wr0 0 1 0, by decide, by decide, by decide, by decide, by decide, by decide, rfl, by decide⟩,
    ⟨0, ((qpS.put qpRetryLimit 0 0).setRun { run0 (wr0 0 1 0) with timer := some 100000000000 }), 100000000000, wr0 0 1 0, by decide⟩,
    ⟨0, ((qpS.put qpRetryLimit 0 1).setRun { run0 (wr0 0 1 0) with timer := some 100000000000 }), 100000000000, by decide⟩,
    ⟨0, none, cachedS (qpS.setRun (run0 (wr0 0 1 2))), wr0 0 1 2, [], [qpCtx 0, okey cCompletionQueue 0], by decide⟩,
    ⟨0, none, cachedS (qpS.setRun { run0 (wr0 0 1 0) with msgs := [⟨0, [], 0, 0, 0, some 16777215, 0⟩] }), ⟨0, [], 0, 0, 0, some 16777215, 0⟩, [qpCtx 0, okey cCompletionQueue 0], by decide⟩⟩

set_option maxRecDepth 40000 in
theorem witness_LighterResponderCompletes :
    (∃ (pk : LighterPkt) (host : HostReply) (s : State) (ks : List Nat), ltReqWf pk host ∧ ltIsReq pk.typ ∧ s.running ∧ ltIntact pk ∧
      s.ltPeerOk pk ∧ ks = s.ltNeeds pk host ∧ s.lacks ks = none) ∧
    (∃ (pk : LighterPkt) (host : HostReply) (s : State) (k : Nat), ltReqWf pk host ∧ ltIsReq pk.typ ∧ s.running ∧ ltIntact pk ∧ s.ltPeerOk
      pk ∧ s.lacks (s.ltNeeds pk host) = some k) ∧
    (∃ (c : LtCtx) (s : State), s.lighter.missing.contains (ctxKey c) ∧ s.lighterTurn) ∧
    (∃ (pk : LighterPkt) (s : State) (ks : List Nat), ltRespWf pk ∧ s.running ∧ (pk.typ = 4 ∨ pk.typ = 6 ∨ pk.typ = 8) ∧ ltIntact pk ∧
      s.ltPeerOk pk ∧ ks = s.ltNeeds pk ⟨none, true, []⟩ ∧ s.lacks ks = none) ∧
    (∃ (v : ViewId) (size : Nat) (s : State), 12 ≤ size ∧ size ≤ 30 ∧ s.viewLive v.val) ∧
    (∃ (v : ViewId) (s : State), s.viewLive v.val) ∧
    (∃ (q : QpId) (s : State), s.running ∧ s.qpIs q.val qpReady ∧ (s.run q.val).ackNow) ∧
    (∃ (q : QpId) (s : State) (p : Nat) (rest : List Nat), (s.run q.val).fences = p :: rest ∧ s.running ∧ s.qpIs q.val qpReady ∧
      s.fenceReady q.val) ∧
    (∃ (r : Fin 4194304) (s : State) (e : Nat × Nat), s.lighter.revoking.find? (fun e => decide (e.1 = r.val)) = some e ∧ e.2 ≤ s.now) :=
  ⟨
    ⟨ltSealed { lt0 3 with aux := 4096, psn := 16777215 }, { reply0 with success := false }, cachedS qpS, (cachedS qpS).ltNeeds (ltSealed { lt0 3 with aux := 4096, psn := 16777215 }) { reply0 with success := false }, by decide⟩,
    ⟨ltSealed { lt0 3 with aux := 4096, psn := 16777215 }, { reply0 with success := false }, qpS, (qpS.lacks (qpS.ltNeeds (ltSealed { lt0 3 with aux := 4096, psn := 16777215 }) { reply0 with success := false })).getD 0, by decide⟩,
    ⟨.cq 262143, { qpS with lighter := { qpS.lighter with missing := [ctxKey (.cq 262143)] } }, by decide⟩,
    ⟨ltSealed { lt0 8 with psn := 16777215 }, cachedS qpS, (cachedS qpS).ltNeeds (ltSealed { lt0 8 with psn := 16777215 }) reply0, by decide⟩,
    ⟨5, 30, hostS, by decide⟩,
    ⟨5, hostS, by decide⟩,
    ⟨0, qpS.setRun { newRun 0 with ackNow := true }, by decide⟩,
    ⟨0, (qpS.put qpExpectedPsn 0 1).setRun { newRun 0 with fences := [0] }, 0, [], by decide⟩,
    ⟨4194303, { late with lighter := { late.lighter with revoking := [(4194303, 100000000000)] } }, (4194303, 100000000000), by decide⟩⟩

theorem witness_HostLinksTrainAndFall :
    (∃ (s : State), s.power.perstN = false) ∧
    (∃ (s : State), s.power.perstN = true) ∧
    (∃ (p : PortId) (s : State), s.role p.val = roleHost ∧ s.lane0 p.val = p.val ∧ s.hostMayDetect p.val ∧ s.fld portLinkState p.val = 0) ∧
    (∃ (p : PortId) (rate width : Nat) (flit cxl : Bool) (s : State), s.mayReachL0 p.val ∧ s.settles p.val rate width flit cxl ∧ s.role
      p.val = roleDevice) ∧
    (∃ (p : PortId) (rate width : Nat) (flit cxl : Bool) (s : State) (v : Nat), s.mayReachL0 p.val ∧ s.settles p.val rate width flit cxl ∧
      s.role p.val ≠ roleDevice ∧ s.viewOfPort p.val = some v ∧ s.pcie.inL2.contains v = false) ∧
    (∃ (p : PortId) (rate width : Nat) (flit cxl : Bool) (s : State) (v : Nat), s.mayReachL0 p.val ∧ s.settles p.val rate width flit cxl ∧
      s.role p.val ≠ roleDevice ∧ s.viewOfPort p.val = some v ∧ s.pcie.inL2.contains v = true) ∧
    (∃ (p : PortId) (s : State), s.running ∧ s.lane0 p.val = p.val ∧ (s.role p.val = roleHost ∨ s.role p.val = roleDevice) ∧ s.fld
      portLinkState p.val = 6) ∧
    (∃ (p : PortId) (util wish : Nat) (s : State), s.running ∧ s.lane0 p.val = p.val ∧ (s.role p.val = roleHost ∨ s.role p.val = roleDevice)
      ∧ (s.fld portLinkState p.val = 3 ∨ s.fld portLinkState p.val = 4) ∧ wish = s.l0pWish p.val (s.fld portNegWidth p.val) util ∧ wish <
      s.fld portNegWidth p.val) ∧
    (∃ (p : PortId) (util wish : Nat) (s : State), s.running ∧ s.lane0 p.val = p.val ∧ (s.role p.val = roleHost ∨ s.role p.val = roleDevice)
      ∧ (s.fld portLinkState p.val = 3 ∨ s.fld portLinkState p.val = 4) ∧ wish = s.l0pWish p.val (s.fld portNegWidth p.val) util ∧ s.fld
      portNegWidth p.val < wish ∧ s.fld portNegWidth p.val < tget 0 s.pcie.trainedWidth p.val ∧ (s.lanesOfWidth p.val wish).all (fun x =>
      (s.laneRun x).granted) = true) ∧
    (∃ (p : PortId) (util wish : Nat) (s : State), s.running ∧ s.lane0 p.val = p.val ∧ (s.role p.val = roleHost ∨ s.role p.val = roleDevice)
      ∧ (s.fld portLinkState p.val = 3 ∨ s.fld portLinkState p.val = 4) ∧ wish = s.l0pWish p.val (s.fld portNegWidth p.val) util ∧ s.fld
      portNegWidth p.val < wish ∧ s.fld portNegWidth p.val < tget 0 s.pcie.trainedWidth p.val ∧ (s.lanesOfWidth p.val wish).all (fun x =>
      (s.laneRun x).granted) = false) ∧
    (∃ (p : PortId) (s : State), s.running ∧ s.role p.val = roleHost ∧ s.lane0 p.val = p.val ∧ s.edgeStands p.val) :=
  ⟨
    ⟨late, by decide⟩,
    ⟨detS, by decide⟩,
    ⟨0, detS, by decide⟩,
    ⟨0, 0, 0, false, false, devS 0, by decide⟩,
    ⟨0, 0, 0, false, false, detS, 5, by decide⟩,
    ⟨0, 0, 0, false, false, ({ detS with pcie := { detS.pcie with inL2 := [5] } } : State), 5, by decide⟩,
    ⟨0, devS 6, by decide⟩,
    ⟨0, 24, ((((devS 3).put portL0pEnable 0 1).put portNegWidth 0 4).l0pWish 0 ((((devS 3).put portL0pEnable 0 1).put portNegWidth 0 4).fld portNegWidth 0) 24), ((devS 3).put portL0pEnable 0 1).put portNegWidth 0 4, by decide⟩,
    ⟨0, 51, ((((({ devS 3 with pcie := { late.pcie with trainedWidth := [(0, 4)] } } : State).put portL0pEnable 0 1).put portNegWidth 0 3)).l0pWish 0 ((((({ devS 3 with pcie := { late.pcie with trainedWidth := [(0, 4)] } } : State).put portL0pEnable 0 1).put portNegWidth 0 3)).fld portNegWidth 0) 51), grantAll (((({ devS 3 with pcie := { late.pcie with trainedWidth := [(0, 4)] } } : State).put portL0pEnable 0 1).put portNegWidth 0 3)) 16, by decide⟩,
    ⟨0, 51, ((((({ devS 3 with pcie := { late.pcie with trainedWidth := [(0, 4)] } } : State).put portL0pEnable 0 1).put portNegWidth 0 3)).l0pWish 0 ((((({ devS 3 with pcie := { late.pcie with trainedWidth := [(0, 4)] } } : State).put portL0pEnable 0 1).put portNegWidth 0 3)).fld portNegWidth 0) 51), ((({ devS 3 with pcie := { late.pcie with trainedWidth := [(0, 4)] } } : State).put portL0pEnable 0 1).put portNegWidth 0 3), by decide⟩,
    ⟨0, hostS, by decide⟩⟩

theorem witness_ViewFunctionsReset :
    (∃ (v : ViewId) (f : ViewFn) (s : State), s.viewLive v.val ∧ s.fnExists v.val f ∧ f ≠ .upstream) ∧
    (∃ (v : ViewId) (f : ViewFn) (s : State), s.fnResetting v.val f) ∧
    (∃ (v : ViewId) (k : Fin 256) (s : State) (e : Nat × Nat), s.viewLive v.val ∧ s.vportBinding v.val k.val = some e) ∧
    (∃ (v : ViewId) (s : State), s.viewLive v.val) ∧
    (∃ (v : ViewId) (k : Fin 256) (s : State) (e : Nat × Nat), s.viewLive v.val ∧ s.vportBinding v.val k.val = some e ∧ s.inDpc v.val k.val
      = false) ∧
    (∃ (v : ViewId) (k : Fin 256) (s s1 s2 s3 : State) (d : Dpc), s.viewLive v.val ∧ s.pcie.dpcs.find? (fun d => decide (d.view = v.val) && decide (d.k = k.val)) = some d ∧ s1 = s.bindingReset v.val d.sel d.word ∧ s2 = s1.uncontain (fun c => decide (c.1 = d.recId) && decide (c.2 = dpcTarget d.sel (bLd (s.bindW d.sel d.word)))) ∧ s3 = { s2 with faults := { s2.faults with recs := closeRec d.recId s2.faults.recs }, pcie := { s2.pcie with dpcs := s2.pcie.dpcs.filter (fun x => decide (x ≠ d)) } }) :=
  ⟨
    ⟨5, .lighterVf 4, ltS, by decide⟩,
    ⟨5, .management, { hostS with pcie := { hostS.pcie with resets := [⟨5, .management, 0⟩] } }, by decide⟩,
    ⟨5, 3, boundS, (homeSel 7, 0), by decide⟩,
    ⟨5, hostS, by decide⟩,
    ⟨5, 3, boundS, (homeSel 7, 0), by decide⟩,
    ⟨5, 3, ({ boundS with pcie := { boundS.pcie with dpcs := [⟨5, 3, 1, homeSel 7, 0⟩] } } : State), (({ boundS with pcie := { boundS.pcie with dpcs := [⟨5, 3, 1, homeSel 7, 0⟩] } } : State).bindingReset 5 (homeSel 7) 0), ((({ boundS with pcie := { boundS.pcie with dpcs := [⟨5, 3, 1, homeSel 7, 0⟩] } } : State).bindingReset 5 (homeSel 7) 0).uncontain (fun c => decide (c.1 = 1) && decide (c.2 = dpcTarget (homeSel 7) (bLd (({ boundS with pcie := { boundS.pcie with dpcs := [⟨5, 3, 1, homeSel 7, 0⟩] } } : State).bindW (homeSel 7) 0))))), { ((({ boundS with pcie := { boundS.pcie with dpcs := [⟨5, 3, 1, homeSel 7, 0⟩] } } : State).bindingReset 5 (homeSel 7) 0).uncontain (fun c => decide (c.1 = 1) && decide (c.2 = dpcTarget (homeSel 7) (bLd (({ boundS with pcie := { boundS.pcie with dpcs := [⟨5, 3, 1, homeSel 7, 0⟩] } } : State).bindW (homeSel 7) 0))))) with faults := { ((({ boundS with pcie := { boundS.pcie with dpcs := [⟨5, 3, 1, homeSel 7, 0⟩] } } : State).bindingReset 5 (homeSel 7) 0).uncontain (fun c => decide (c.1 = 1) && decide (c.2 = dpcTarget (homeSel 7) (bLd (({ boundS with pcie := { boundS.pcie with dpcs := [⟨5, 3, 1, homeSel 7, 0⟩] } } : State).bindW (homeSel 7) 0))))).faults with recs := closeRec 1 ((({ boundS with pcie := { boundS.pcie with dpcs := [⟨5, 3, 1, homeSel 7, 0⟩] } } : State).bindingReset 5 (homeSel 7) 0).uncontain (fun c => decide (c.1 = 1) && decide (c.2 = dpcTarget (homeSel 7) (bLd (({ boundS with pcie := { boundS.pcie with dpcs := [⟨5, 3, 1, homeSel 7, 0⟩] } } : State).bindW (homeSel 7) 0))))).faults.recs }, pcie := { ((({ boundS with pcie := { boundS.pcie with dpcs := [⟨5, 3, 1, homeSel 7, 0⟩] } } : State).bindingReset 5 (homeSel 7) 0).uncontain (fun c => decide (c.1 = 1) && decide (c.2 = dpcTarget (homeSel 7) (bLd (({ boundS with pcie := { boundS.pcie with dpcs := [⟨5, 3, 1, homeSel 7, 0⟩] } } : State).bindW (homeSel 7) 0))))).pcie with dpcs := ((({ boundS with pcie := { boundS.pcie with dpcs := [⟨5, 3, 1, homeSel 7, 0⟩] } } : State).bindingReset 5 (homeSel 7) 0).uncontain (fun c => decide (c.1 = 1) && decide (c.2 = dpcTarget (homeSel 7) (bLd (({ boundS with pcie := { boundS.pcie with dpcs := [⟨5, 3, 1, homeSel 7, 0⟩] } } : State).bindW (homeSel 7) 0))))).pcie.dpcs.filter (fun x => decide (x ≠ ⟨5, 3, 1, homeSel 7, 0⟩)) } }, ⟨5, 3, 1, homeSel 7, 0⟩, by decide, by decide, rfl, rfl, rfl⟩⟩

theorem witness_ViewRequestsAnswered :
    (∃ (v : ViewId) (c : CfgReq) (s : State) (off : Nat) (f : ViewFn), s.viewLive v.val ∧ c.target = .routing off ∧ fnAt off = some f ∧
      s.fnExists v.val f) ∧
    (∃ (v : ViewId) (c : CfgReq) (s : State) (dev fn : Nat), s.viewLive v.val ∧ c.target = .secondary dev fn ∧ dev < 32 ∧ fn < 8) ∧
    (∃ (v : ViewId) (c : CfgReq) (s : State) (k : Nat) (e : Nat × Nat), s.viewLive v.val ∧ c.target = .bound k ∧ s.vportBinding v.val k =
      some e) ∧
    (∃ (v : ViewId) (c : CfgReq) (s : State), s.viewLive v.val ∧ ((∃ off, c.target = .routing off ∧ (∀ f, fnAt off = some f → s.fnExists
      v.val f = false)) ∨ (∃ dev fn, c.target = .secondary dev fn ∧ (32 ≤ dev ∨ 8 ≤ fn)) ∨ (∃ k, c.target = .bound k ∧ s.vportBinding v.val
      k = none))) ∧
    (∃ (v : ViewId) (r : UrReq) (s : State), s.viewLive v.val ∧ urWantsCpl r) ∧
    (∃ (v : ViewId) (r : UrReq) (s : State), s.viewLive v.val ∧ urWantsCpl r = false ∧ r.kind ≠ .vdmType1) ∧
    (∃ (v : ViewId) (r : UrReq) (s : State), s.viewLive v.val ∧ r.kind = .vdmType1) ∧
    (∃ (v : ViewId) (s : State), s.viewLive v.val) ∧
    (∃ (v : ViewId) (s : State), s.viewLive v.val) ∧
    (∃ (v : ViewId) (s : State), s.viewLive v.val) ∧
    (∃ (m : MctpIn) (v : ViewId) (s : State), m.viaView = some v ∧ s.viewLive v.val ∧ s.power.phase ≠ .off ∧ s.fmGranted v.val = false) ∧
    (∃ (m : MctpIn) (s : State), m.viaView = none ∧ s.running ∧ m.control = false ∧ m.msgType = 0x7E ∧ m.vendor = 0x1D4E) :=
  ⟨
    ⟨5, ⟨.routing 1, false, 0, 0, 0⟩, hostS, 1, .management, by decide⟩,
    ⟨5, ⟨.secondary 31 7, false, 0, 0, 0⟩, hostS, 31, 7, by decide⟩,
    ⟨5, ⟨.bound 3, false, 0, 0, 0⟩, boundS, 3, (homeSel 7, 0), by decide⟩,
    ⟨5, ⟨.bound 200, false, 0, 0, 0⟩, hostS, by decide, .inr (.inr ⟨200, rfl, by decide⟩)⟩,
    ⟨5, ⟨.ioRequest, true, 0⟩, hostS, by decide⟩,
    ⟨5, ⟨.vdmType0, false, 0⟩, hostS, by decide⟩,
    ⟨5, ⟨.vdmType1, false, 0⟩, hostS, by decide⟩,
    ⟨5, hostS, by decide⟩,
    ⟨5, hostS, by decide⟩,
    ⟨5, hostS, by decide⟩,
    ⟨⟨some 5, 0x7E, 0x1D4E, false, [], []⟩, 5, hostS, by decide⟩,
    ⟨⟨none, 0x7E, 0x1D4E, false, [], []⟩, late, by decide⟩⟩

theorem witness_FunctionsResetComeAndGo :
    (∃ (g : GateSlot) (s : State), s.running ∧ s.tenancy.flrs.any (fun f => decide (f.slot = g) && decide (f.ld = 0xFF) && decide (f.readAt
      ≤ s.now))) ∧
    (∃ (g : GateSlot) (ld : Fin 16) (s : State), s.running ∧ s.tenancy.flrs.any (fun f => decide (f.slot = g) && decide (f.ld = ld.val))) ∧
    (∃ (g : GateSlot) (ld : Nat) (s : State) (f : FlrWait), s.running ∧ s.tenancy.flrs.find? (fun f => decide (f.slot = g) && decide (f.ld =
      ld) && decide (f.deadline ≤ s.now)) = some f) ∧
    (∃ (p : PortId) (s : State), s.running ∧ s.role p.val = roleDevice) ∧
    (∃ (p : PortId) (bus devfn slot : Nat) (f : FnIdent) (s u : State), s.enumerates p.val bus ∧ (bus - 1) * 256 + devfn % 256 < s.fld
      portSlotCount p.val ∧ slot = s.fld portSlotBase p.val + ((bus - 1) * 256 + devfn % 256) ∧ slot < 16384 ∧ u = s.barsFound slot 0
      (f.bars.take 6) ∧ s.fld fnState (homeSel slot) = 0) ∧
    (∃ (p : PortId) (bus devfn slot : Nat) (f : FnIdent) (s u : State), s.enumerates p.val bus ∧ (bus - 1) * 256 + devfn % 256 < s.fld
      portSlotCount p.val ∧ slot = s.fld portSlotBase p.val + ((bus - 1) * 256 + devfn % 256) ∧ slot < 16384 ∧ u = s.barsFound slot 0
      (f.bars.take 6) ∧ s.fld fnState (homeSel slot) = 2 ∧ s.fld fnVendorId (homeSel slot) = f.vendor % 65536 ∧ s.fld fnDeviceId (homeSel
      slot) = f.device % 65536) ∧
    (∃ (p : PortId) (bus devfn slot : Nat) (f : FnIdent) (s u : State), s.enumerates p.val bus ∧ (bus - 1) * 256 + devfn % 256 < s.fld
      portSlotCount p.val ∧ slot = s.fld portSlotBase p.val + ((bus - 1) * 256 + devfn % 256) ∧ slot < 16384 ∧ u = s.barsFound slot 0
      (f.bars.take 6) ∧ s.fld fnState (homeSel slot) = 2 ∧ ¬(s.fld fnVendorId (homeSel slot) = f.vendor % 65536 ∧ s.fld fnDeviceId (homeSel
      slot) = f.device % 65536)) ∧
    (∃ (p : PortId) (bus devfn : Nat) (s : State), s.enumerates p.val bus ∧ s.fld portSlotCount p.val ≤ (bus - 1) * 256 + devfn % 256) :=
  ⟨
    ⟨7, { late with tenancy := { late.tenancy with flrs := [⟨7, 0xFF, 4, 0, 100000000000⟩] } }, by decide⟩,
    ⟨7, 15, { late with tenancy := { late.tenancy with flrs := [⟨7, 15, 4, 0, 100000000000⟩] } }, by decide⟩,
    ⟨7, 0xFF, { late with tenancy := { late.tenancy with flrs := [⟨7, 0xFF, 4, 0, 100000000000⟩] } }, ⟨7, 0xFF, 4, 0, 100000000000⟩, by decide⟩,
    ⟨0, devS 3, by decide⟩,
    ⟨0, 1, 255, 16383, ⟨0xFFFF, 0, false, []⟩, ((devS 3).put portSlotCount 0 256).put portSlotBase 0 16128, (((devS 3).put portSlotCount 0 256).put portSlotBase 0 16128).barsFound 16383 0 ((⟨0xFFFF, 0, false, []⟩ : FnIdent).bars.take 6), by decide, by decide, by decide, by decide, rfl, by decide⟩,
    ⟨0, 1, 0, 16128, ⟨0, 0, false, []⟩, ((((devS 3).put portSlotCount 0 256).put portSlotBase 0 16128).put fnState (homeSel 16128) 2), (((((devS 3).put portSlotCount 0 256).put portSlotBase 0 16128).put fnState (homeSel 16128) 2)).barsFound 16128 0 ((⟨0, 0, false, []⟩ : FnIdent).bars.take 6), by decide, by decide, by decide, by decide, rfl, by decide⟩,
    ⟨0, 1, 0, 16128, ⟨1, 2, false, []⟩, ((((devS 3).put portSlotCount 0 256).put portSlotBase 0 16128).put fnState (homeSel 16128) 2), (((((devS 3).put portSlotCount 0 256).put portSlotBase 0 16128).put fnState (homeSel 16128) 2)).barsFound 16128 0 ((⟨1, 2, false, []⟩ : FnIdent).bars.take 6), by decide, by decide, by decide, by decide, rfl, by decide⟩,
    ⟨0, 2, 0, ((devS 3).put portSlotCount 0 256).put portSlotBase 0 16128, by decide⟩⟩

theorem witness_LogbookCopiesMirrorsAndExports :
    (∃ (v : ViewId) (value : BitVec 32) (s : State), s.viewLive v.val ∧ bitsOf (word value.toNat) 8 2 = 0) ∧
    (∃ (v : ViewId) (value : BitVec 32) (s : State), s.viewLive v.val ∧ (bitsOf (word value.toNat) 8 2 = 1 ∨ bitsOf (word value.toNat) 8 2 =
      2) ∧ 8 ≤ bitsOf (word value.toNat) 0 5 ∧ bitsOf (word value.toNat) 0 5 ≤ 20 ∧ s.mirrorMode v.val = 0) ∧
    (∃ (v : ViewId) (value : BitVec 32) (s : State), s.viewLive v.val ∧ bitsOf (word value.toNat) 8 2 ≠ 0 ∧ (bitsOf (word value.toNat) 8 2 =
      3 ∨ bitsOf (word value.toNat) 0 5 < 8 ∨ 20 < bitsOf (word value.toNat) 0 5)) ∧
    (∃ (v : ViewId) (s : State), s.viewLive v.val ∧ s.mirrorMode v.val = 0) ∧
    (∃ (v : ViewId) (s : State), s.viewLive v.val ∧ s.mirrorMode v.val ≠ 0) ∧
    (∃ (s : State) (n : Nat) (rest : List Nat), s.log.pendingCopy = n :: rest ∧ s.power.phase ≠ .off ∧ s.sdram.selfRefresh = false) ∧
    (∃ (v : ViewId) (s : State) (e : ViewId × Nat) (n : LogEntry), s.running ∧ s.viewUp v.val ∧ s.log.mirrorQ.find? (fun e => decide (e.1 =
      v)) = some e ∧ s.entry e.2 = some n) ∧
    (∃ (v : ViewId) (s : State) (e : ViewId × Nat), s.running ∧ s.log.mirrorQ.find? (fun e => decide (e.1 = v)) = some e ∧ s.regBits v.val
      0x120 16 16 ≠ 65535) ∧
    (∃ (v : ViewId) (value : BitVec 32) (s : State), s.viewLive v.val ∧ bitsOf (word value.toNat) 31 1 = 1 ∧ s.exportOf v = none ∧ 1 ≤
      bitsOf (word value.toNat) 0 21 ∧ bitsOf (word value.toNat) 0 21 ≤ 1048576) ∧
    (∃ (v : ViewId) (n : Nat) (s u : State) (j k : ExportJob), s.running ∧ s.viewLive v.val ∧ s.exportOf v = some j ∧ j.start + n = j.stop ∧
      State.exportSome j (j.start + n - j.next) s = (u, k) ∧ k.next = j.stop) :=
  ⟨
    ⟨5, 0, hostS, by decide⟩,
    ⟨5, 0x114, hostS, by decide⟩,
    ⟨5, 0x107, hostS, by decide⟩,
    ⟨5, hostS, by decide⟩,
    ⟨5, (hostS.setReg 5 0x114 (word 0x108)), by decide⟩,
    ⟨{ { hostS with log := { hostS.log with pendingCopy := [1] } } with sdram := { hostS.sdram with selfRefresh := false } }, 1, [], by decide⟩,
    ⟨5, { hostS with log := { hostS.log with mirrorQ := [(5, 1)], entries := [⟨1, []⟩] } }, (5, 1), ⟨1, []⟩, by decide⟩,
    ⟨5, { hostS with log := { hostS.log with mirrorQ := [(5, 1)] } }, (5, 1), by decide⟩,
    ⟨5, 0x80100000, hostS, by decide⟩,
    ⟨5, 0, { hostS with log := { hostS.log with exportJobs := [⟨5, 1, 1, 1, 0, 0⟩] } }, { hostS with log := { hostS.log with exportJobs := [⟨5, 1, 1, 1, 0, 0⟩] } }, ⟨5, 1, 1, 1, 0, 0⟩, ⟨5, 1, 1, 1, 0, 0⟩, by decide⟩⟩

theorem witness_TideFollowsItsSource :
    (∃ (s : State), s.running ∧ s.clock.served < s.tide / tideInterval ∧ s.servesTide) ∧
    (∃ (p : PortId) (s : State), s.tideFrom p.val) ∧
    (∃ (p : PortId) (m t2 : Nat) (l h : Bool) (s : State), s.tideFrom p.val ∧ s.clock.sync = some (m, t2) ∧ s.clock.follow = none ∧ (l ||
      h)) ∧
    (∃ (p : PortId) (s : State), s.running ∧ s.servesTide ∧ s.fabricUp p.val ∧ s.lane0 p.val = p.val ∧ ¬(s.fld tideSource 0 = 3 ∧ s.fld
      tideSourcePort 0 = p.val)) ∧
    (∃ (p : PortId) (m t1 t2 t3 : Nat) (s : State), s.tideFrom p.val ∧ s.clock.sync = some (m, t2) ∧ s.clock.follow = some (m, t1) ∧
      s.clock.dreq = some (m, t3)) ∧
    (∃ (s : State), s.running ∧ s.fld tideSource 0 = 1) ∧
    (∃ (s : State), s.running ∧ s.fld tideSource 0 = 2 ∧ s.edgeLinkUp (s.fld tideSourcePort 0)) ∧
    (∃ (s : State), s.running ∧ s.fld tideSource 0 ≠ 0) ∧
    (∃ (s : State) (v : Nat), s.running ∧ s.fld tideSource 0 = 2 ∧ s.edgeLinkUp (s.fld tideSourcePort 0) ∧ s.viewOfPort (s.fld
      tideSourcePort 0) = some v ∧ s.clock.asked < s.tide / tideInterval) :=
  ⟨
    ⟨{ (late.put tideState 0 2) with tide := tideInterval }, by decide⟩,
    ⟨0, (((fabS qlActive).put tideSource 0 3).put tideSourcePort 0 0), by decide⟩,
    ⟨0, 7, 3, true, false, ({ (((fabS qlActive).put tideSource 0 3).put tideSourcePort 0 0) with clock := { late.clock with sync := some (7, 3) } } : State), by decide⟩,
    ⟨0, ((fabS qlActive).put tideState 0 2), by decide⟩,
    ⟨0, 7, 1, 3, 4, ({ (((fabS qlActive).put tideSource 0 3).put tideSourcePort 0 0) with clock := { late.clock with sync := some (7, 3), follow := some (7, 1), dreq := some (7, 4) } } : State), by decide⟩,
    ⟨late.put tideSource 0 1, by decide⟩,
    ⟨((hostS.put tideSource 0 2).put tideSourcePort 0 0), by decide⟩,
    ⟨late.put tideSource 0 3, by decide⟩,
    ⟨((hostS.put tideSource 0 2).put tideSourcePort 0 0), 5, by decide⟩⟩

theorem witness_ResetsAndClockInputs :
    (∃ (i : Fin 11) (s : State), s.power.phase ≠ .off ∧ s.power.phase ≠ .latched ∧ s.power.lost.contains i.val = false ∧ i.val = 0) ∧
    (∃ (i : Fin 11) (s : State), s.running ∧ s.power.lost.contains i.val = false ∧ 1 ≤ i.val ∧ i.val ≤ 8) ∧
    (∃ (i : Fin 11) (s : State), s.running ∧ s.power.lost.contains i.val = false ∧ 9 ≤ i.val ∧ s.fld tideSource 0 = 1) ∧
    (∃ (t : Fin 8) (s : State), s.power.lost.contains (t.val + 1)) ∧
    (∃ (s : State), s.running ∧ s.resetReady) ∧
    (∃ (s : State), s.power.phase = .ready ∧ s.resetReady = false) ∧
    (∃ (s : State) (t : Nat), s.power.haltDue = some t ∧ s.power.phase = .halted ∧ t ≤ s.now) ∧
    (∃ (s : State), s.power.phase = .held ∧ s.power.devRstN = false) ∧
    (∃ (s : State), s.power.phase = .off) ∧
    (∃ (s : State), s.power.phase ≠ .off) ∧
    (∃ (r : StartResult) (s : State), s.power.phase = .starting ∧ r.fuseOk = false) ∧
    (∃ (r : StartResult) (s s1 s2 : State), s.power.phase = .starting ∧ r.fuseOk ∧ s.logReady ∧ s.power.lost.contains 0 = false ∧ s1 = (if s.power.warm then s else s.coldFinds r).measureDies r.dies ∧ s2 = { s1 with sdram := { s1.sdram with selfRefresh := false }, power := { s1.power with phase := .managed }, core := { s1.core with epoch := s1.tide / 1024, sampledEpoch := s1.tide / 1024 } }) :=
  ⟨
    ⟨0, late, by decide⟩,
    ⟨8, late, by decide⟩,
    ⟨10, late.put tideSource 0 1, by decide⟩,
    ⟨7, { late with power := { late.power with lost := [8] } }, by decide⟩,
    ⟨{ late with power := { late.power with resetDue := some 100000000000 } }, by decide⟩,
    ⟨late, by decide⟩,
    ⟨{ late with power := { late.power with phase := .halted, haltDue := some 100000000000 } }, 100000000000, by decide⟩,
    ⟨{ late with power := { late.power with phase := .held, devRstN := false } }, by decide⟩,
    ⟨{ late with power := { late.power with phase := .off } }, by decide⟩,
    ⟨late, by decide⟩,
    ⟨⟨false, [], [], false, []⟩, { late with power := { late.power with phase := .starting } }, by decide⟩,
    ⟨⟨true, [], [], false, List.replicate 10 ⟨0, 0⟩⟩, { late with power := { late.power with phase := .starting } }, ((if ({ late with power := { late.power with phase := .starting } } : State).power.warm then { late with power := { late.power with phase := .starting } } else ({ late with power := { late.power with phase := .starting } } : State).coldFinds ⟨true, [], [], false, List.replicate 10 ⟨0, 0⟩⟩).measureDies (⟨true, [], [], false, List.replicate 10 ⟨0, 0⟩⟩ : StartResult).dies), { ((if ({ late with power := { late.power with phase := .starting } } : State).power.warm then { late with power := { late.power with phase := .starting } } else ({ late with power := { late.power with phase := .starting } } : State).coldFinds ⟨true, [], [], false, List.replicate 10 ⟨0, 0⟩⟩).measureDies (⟨true, [], [], false, List.replicate 10 ⟨0, 0⟩⟩ : StartResult).dies) with sdram := { ((if ({ late with power := { late.power with phase := .starting } } : State).power.warm then { late with power := { late.power with phase := .starting } } else ({ late with power := { late.power with phase := .starting } } : State).coldFinds ⟨true, [], [], false, List.replicate 10 ⟨0, 0⟩⟩).measureDies (⟨true, [], [], false, List.replicate 10 ⟨0, 0⟩⟩ : StartResult).dies).sdram with selfRefresh := false }, power := { ((if ({ late with power := { late.power with phase := .starting } } : State).power.warm then { late with power := { late.power with phase := .starting } } else ({ late with power := { late.power with phase := .starting } } : State).coldFinds ⟨true, [], [], false, List.replicate 10 ⟨0, 0⟩⟩).measureDies (⟨true, [], [], false, List.replicate 10 ⟨0, 0⟩⟩ : StartResult).dies).power with phase := .managed }, core := { ((if ({ late with power := { late.power with phase := .starting } } : State).power.warm then { late with power := { late.power with phase := .starting } } else ({ late with power := { late.power with phase := .starting } } : State).coldFinds ⟨true, [], [], false, List.replicate 10 ⟨0, 0⟩⟩).measureDies (⟨true, [], [], false, List.replicate 10 ⟨0, 0⟩⟩ : StartResult).dies).core with epoch := ((if ({ late with power := { late.power with phase := .starting } } : State).power.warm then { late with power := { late.power with phase := .starting } } else ({ late with power := { late.power with phase := .starting } } : State).coldFinds ⟨true, [], [], false, List.replicate 10 ⟨0, 0⟩⟩).measureDies (⟨true, [], [], false, List.replicate 10 ⟨0, 0⟩⟩ : StartResult).dies).tide / 1024, sampledEpoch := ((if ({ late with power := { late.power with phase := .starting } } : State).power.warm then { late with power := { late.power with phase := .starting } } else ({ late with power := { late.power with phase := .starting } } : State).coldFinds ⟨true, [], [], false, List.replicate 10 ⟨0, 0⟩⟩).measureDies (⟨true, [], [], false, List.replicate 10 ⟨0, 0⟩⟩ : StartResult).dies).tide / 1024 } }, by decide, by decide, by decide, by decide, rfl, rfl⟩⟩

theorem witness_SlotChannelsSwitch :
    (∃ (n : SlotId) (s : State), s.slotDie ∧ s.fld slotPresent n.val = 0) ∧
    (∃ (n : SlotId) (s : State), s.slotDie ∧ s.fld slotPresent n.val = 1 ∧ (s.slotSt n.val = slWaiting ∨ s.slotSt n.val = slRamping ∨
      s.slotSt n.val = slOn ∨ s.slotSt n.val = slRetryWait)) ∧
    (∃ (n : SlotId) (s : State), s.slotDie ∧ s.fld slotAttnOut n.val = 0) ∧
    (∃ (n : SlotId) (s : State), s.slotDie ∧ s.dwellOver n.val ∧ (s.slotRun n.val).gateDue = none ∧ s.slotSt n.val = slDwell) ∧
    (∃ (n : SlotId) (s : State), s.slotDie ∧ s.dwellOver n.val ∧ (s.slotRun n.val).gateDue = none ∧ s.slotSt n.val = slRetryWait ∧ s.running
      ∧ s.fld slotPresent n.val = 1 ∧ 10000 < s.fld slotInputMv n.val) ∧
    (∃ (s : State) (n : Nat) (ns : List Nat), s.slots.queue = n :: ns ∧ s.running ∧ s.slotMayStart n) ∧
    (∃ (n : SlotId) (s : State), s.slotDie ∧ s.powerGoodNow n.val ∧ s.slotSt n.val = slRamping) ∧
    (∃ (n : SlotId) (s : State), s.slotDie ∧ s.slotSt n.val = slOn ∧ s.dueNow (s.slotRun n.val).perstDue) ∧
    (∃ (n : SlotId) (s : State), s.slotDie ∧ s.dueNow (s.slotRun n.val).gateDue) ∧
    (∃ (n : SlotId) (s : State), s.slotDie ∧ s.fld slotTest n.val = 1 ∧ s.fld slotTestResult n.val = 3) :=
  ⟨
    ⟨63, late, by decide⟩,
    ⟨63, (late.put slotPresent 63 1).put slotState 63 slOn, by decide⟩,
    ⟨63, late, by decide⟩,
    ⟨0, late.put slotState 0 slDwell, by decide⟩,
    ⟨0, ((late.put slotState 0 slRetryWait).put slotPresent 0 1).put slotInputMv 0 10001, by decide⟩,
    ⟨{ late with slots := { late.slots with queue := [0] } }, 0, [], by decide⟩,
    ⟨63, late.put slotState 63 slRamping, by decide⟩,
    ⟨63, (late.put slotState 63 slOn).setSlotRun { late.slotRun 63 with perstDue := some 100000000000 }, by decide⟩,
    ⟨63, late.setSlotRun { late.slotRun 63 with gateDue := some 100000000000 }, by decide⟩,
    ⟨63, (late.put slotTest 63 1).put slotTestResult 63 3, by decide⟩⟩

theorem witness_SlotTripsFeedsAndMeasurements :
    (∃ (n : SlotId) (ma : Nat) (s : State), s.slotDie ∧ s.slotLive n.val ∧ s.fld slotInLimit n.val = 0 ∧ s.lim slotLimitMa n.val ≤ ma) ∧
    (∃ (n : SlotId) (ma : Nat) (s : State), s.slotDie ∧ s.fld slotInLimit n.val = 1 ∧ ma * 100 < 95 * s.lim slotLimitMa n.val) ∧
    (∃ (n : SlotId) (s : State), s.slotDie ∧ s.slotLive n.val ∧ s.dueNow (s.slotRun n.val).faultDue) ∧
    (∃ (n : SlotId) (ma : Nat) (s : State), s.slotDie ∧ s.slotLive n.val ∧ s.lim slotLimitMa n.val * s.lim slotBreakerQuarters n.val ≤ 4 *
      ma) ∧
    (∃ (n : SlotId) (s : State), s.slotDie ∧ s.slotSt n.val = slRamping ∧ s.dueNow (s.slotRun n.val).rampDue) ∧
    (∃ (n : SlotId) (s : State), s.slotDie ∧ s.slotLive n.val) ∧
    (∃ (n : SlotId) (s : State), s.slotDie ∧ s.slotSt n.val = slOn ∧ (s.slotRun n.val).onAt + 10000000000 ≤ s.now) ∧
    (∃ (f : Fin 2) (inMv busMv : Nat) (s : State), s.slotDie ∧ s.feedOn f.val ∧ inMv + 10 ≤ busMv) ∧
    (∃ (f : Fin 2) (inMv : Nat) (s : State), s.slotDie ∧ (s.fld feedState f.val = 1 ∨ s.fld feedState f.val = 2) ∧ (inMv < s.fld feedUvMv
      f.val ∨ s.fld feedOvMv f.val < inMv)) ∧
    (∃ (f : Fin 2) (inMv busMv : Nat) (s : State), s.slotDie ∧ s.fld feedTargetState f.val = 0 ∧ s.fld feedUvMv f.val ≤ inMv ∧ inMv ≤ s.fld
      feedOvMv f.val ∧ busMv < inMv) ∧
    (∃ (s : State), s.slotDie) ∧
    (∃ (s : State), s.slotDie) :=
  ⟨
    ⟨63, late.lim slotLimitMa 63, late.put slotState 63 slOn, by decide⟩,
    ⟨63, late.lim slotLimitMa 63 * 95 / 100 - 1, late.put slotInLimit 63 1, by decide⟩,
    ⟨63, (late.put slotState 63 slOn).setSlotRun { late.slotRun 63 with faultDue := some 100000000000 }, by decide⟩,
    ⟨63, 65535 * 255, late.put slotState 63 slOn, by decide⟩,
    ⟨63, (late.put slotState 63 slRamping).setSlotRun { late.slotRun 63 with rampDue := some 100000000000 }, by decide⟩,
    ⟨63, late.put slotState 63 slOn, by decide⟩,
    ⟨63, (late.put slotState 63 slOn).setSlotRun { late.slotRun 63 with onAt := 90000000000 }, by decide⟩,
    ⟨1, 12000, 12010, late.put feedState 1 1, by decide⟩,
    ⟨1, 0, late.put feedState 1 2, by decide⟩,
    ⟨1, late.fld feedUvMv 1, late.fld feedUvMv 1 - 1, late, by decide⟩,
    ⟨late, by decide⟩,
    ⟨late, by decide⟩⟩

set_option maxRecDepth 40000 in
theorem witness_QuaylineLinksRunAndFail :
    (∃ (p : PortId) (lanes : List (List PamLevel)) (s u : State) (bytes : List Byte) (d : List Byte × List Nat), s.fabricLink p.val ∧ s.ql
      p.val = qlActive ∧ s.lanesFit p.val lanes ∧ s.collect p.val lanes = (u, bytes) ∧ flitDecode bytes = some d ∧ rxFlit bytes = none) ∧
    (∃ (p : PortId) (lanes : List (List PamLevel)) (s u : State) (bytes : List Byte), s.fabricLink p.val ∧ s.ql p.val = qlActive ∧
      s.lanesFit p.val lanes ∧ s.collect p.val lanes = (u, bytes) ∧ flitDecode bytes = none ∧ rxFlit bytes = none) ∧
    (∃ (p : PortId) (lanes : List (List PamLevel)) (s u : State) (bytes : List Byte) (d : List Byte × List Nat) (f : RxFlit), s.fabricLink
      p.val ∧ s.ql p.val = qlActive ∧ s.lanesFit p.val lanes ∧ s.collect p.val lanes = (u, bytes) ∧ flitDecode bytes = some d ∧ rxFlit bytes
      = some f ∧ f.typ ≠ 2 ∧ (((u.monitor p.val false).correctedAll p.val lanes.length d.2).linkControl p.val f.ctl).ql p.val = qlActive) ∧
    (∃ (p : PortId) (epoch : Bool) (s : State), s.fabricLink p.val ∧ s.ql p.val = qlActive ∧ (s.qlp p.val).actedEpoch ≠ epoch) ∧
    (∃ (p : PortId) (vc : Fin 13) (s : State) (t : Nat), s.fabricLink p.val ∧ s.ql p.val = qlActive ∧ (s.qlp p.val).frozenFrom = none ∧
      s.creditWaits p.val vc.val = [t] ∧ s.fld qlCreditTimeoutUs p.val * 1000 ≤ s.creditRun p.val (max t (tget 0 (s.qlp p.val).advertised
      vc.val))) ∧
    (∃ (p : PortId) (s : State), s.fabricLink p.val ∧ s.ql p.val = qlActive ∧ (s.qlp p.val).ownDegraded ∧ 16777216 ≤ (s.qlp p.val).declFlits
      ∧ (s.qlp p.val).errors ≤ s.fld qlErrThreshold p.val) ∧
    (∃ (p : PortId) (s u : State), s.fabricLink p.val ∧ s.ql p.val = qlActive ∧ (s.qlp p.val).ownDegraded ∧ 16777216 ≤ (s.qlp p.val).declFlits ∧ s.fld qlErrThreshold p.val < (s.qlp p.val).errors ∧ u = s.setQlp { s.qlp p.val with overRuns := (s.qlp p.val).overRuns + 1, declFlits := (s.qlp p.val).declFlits - 16777216 }) ∧
    (∃ (p : PortId) (s : State), s.fabricLink p.val ∧ s.ql p.val = qlActive) ∧
    (∃ (p : PortId) (s : State) (due : Nat), s.fabricLink p.val ∧ s.ql p.val = qlActive ∧ (s.qlp p.val).drainDue = some due ∧ (due ≤ s.now ∨
      (s.queuedTo p.val = [] ∧ (s.qlp p.val).replay = []))) ∧
    (∃ (p : PortId) (s u : State), s.fabricLink p.val ∧ (s.qlp p.val).failure = 1 ∧ u = (s.setQlp { s.qlp p.val with failure := 2 }).withdrawPort p.val) ∧
    (∃ (p : PortId) (s : State), s.fabricLink p.val ∧ (s.qlp p.val).failure = 2) ∧
    (∃ (p : PortId) (s : State), s.fabricLink p.val ∧ (s.qlp p.val).failure = 3 ∧ s.ql p.val = qlActive) ∧
    (∃ (p : PortId) (s : State), s.running ∧ s.role p.val = roleFabric ∧ s.lane0 p.val = p.val ∧ s.fld portSpillEnable p.val = 1 ∧ s.ql
      p.val = qlActive ∧ s.onDie p.val ≤ (s.qlp p.val).outstanding - (s.qlp p.val).spilled ∧ s.spillGranted p.val ∧ s.spillTurn) ∧
    (∃ (p : PortId) (s : State), s.running ∧ s.role p.val = roleFabric ∧ s.lane0 p.val = p.val ∧ s.fld portSpillEnable p.val = 1 ∧ s.ql
      p.val = qlActive ∧ s.onDie p.val ≤ (s.qlp p.val).outstanding - (s.qlp p.val).spilled ∧ s.spillGranted p.val = false ∧ (s.qlp
      p.val).throttled = false) :=
  ⟨
    ⟨0, lanesOf flit3, (q1 qlActive (fun r => r)), ((q1 qlActive (fun r => r)).collect 0 (lanesOf flit3)).1, flit3, (flit3, []), by decide +kernel, by decide +kernel, by decide +kernel, by decide +kernel, by decide +kernel, by decide +kernel⟩,
    ⟨0, lanesOf flitBad, (q1 qlActive (fun r => r)), ((q1 qlActive (fun r => r)).collect 0 (lanesOf flitBad)).1, flitBad, by decide +kernel, by decide +kernel, by decide +kernel, by decide +kernel, by decide +kernel, by decide +kernel⟩,
    ⟨0, lanesOf flit1, (q1 qlActive (fun r => r)), ((q1 qlActive (fun r => r)).collect 0 (lanesOf flit1)).1, flit1, (flit1, []), ⟨1, 0, 0, linkCtlOf 0, List.replicate 228 0⟩, by decide +kernel, by decide +kernel, by decide +kernel, by decide +kernel, by decide +kernel, by decide +kernel, by decide +kernel, by decide +kernel⟩,
    ⟨0, true, (fabS qlActive), by decide⟩,
    ⟨0, Fin.ofNat 13 (vcOf 0 .posted .memWrite), ({ fabS qlActive with core := { late.core with pkts := [{ pk0 with loc := .linked }] } } : State), 0, by decide⟩,
    ⟨0, ((fabS qlActive).setQlp { (fabS qlActive).qlp 0 with ownDegraded := true, declFlits := 16777216 }), by decide⟩,
    ⟨0, ((fabS qlActive).setQlp { (fabS qlActive).qlp 0 with ownDegraded := true, declFlits := 16777216, errSubs := [1000000] }), ((fabS qlActive).setQlp { (fabS qlActive).qlp 0 with ownDegraded := true, declFlits := 16777216, errSubs := [1000000] }).setQlp { ((fabS qlActive).setQlp { (fabS qlActive).qlp 0 with ownDegraded := true, declFlits := 16777216, errSubs := [1000000] }).qlp 0 with overRuns := (((fabS qlActive).setQlp { (fabS qlActive).qlp 0 with ownDegraded := true, declFlits := 16777216, errSubs := [1000000] }).qlp 0).overRuns + 1, declFlits := (((fabS qlActive).setQlp { (fabS qlActive).qlp 0 with ownDegraded := true, declFlits := 16777216, errSubs := [1000000] }).qlp 0).declFlits - 16777216 }, by decide, by decide, by decide, by decide, by decide, rfl⟩,
    ⟨0, (fabS qlActive), by decide⟩,
    ⟨0, ((fabS qlActive).setQlp { (fabS qlActive).qlp 0 with drainDue := some 100000000000 }), 100000000000, by decide⟩,
    ⟨0, ((fabS qlActive).setQlp { (fabS qlActive).qlp 0 with failure := 1 }), (((fabS qlActive).setQlp { (fabS qlActive).qlp 0 with failure := 1 }).setQlp { ((fabS qlActive).setQlp { (fabS qlActive).qlp 0 with failure := 1 }).qlp 0 with failure := 2 }).withdrawPort 0, by decide, by decide, rfl⟩,
    ⟨0, ((fabS qlActive).setQlp { (fabS qlActive).qlp 0 with failure := 2 }), by decide⟩,
    ⟨0, ((fabS qlActive).setQlp { (fabS qlActive).qlp 0 with failure := 3 }), by decide⟩,
    ⟨0, ({ (((fabS qlActive).setQlp { (fabS qlActive).qlp 0 with nextSeq := 16384 }).put portSpillEnable 0 1) with sdram := { late.sdram with trained := List.range 12 } } : State), by decide⟩,
    ⟨0, (((fabS qlActive).setQlp { (fabS qlActive).qlp 0 with nextSeq := 16384 }).put portSpillEnable 0 1), by decide⟩⟩

set_option maxRecDepth 40000 in
theorem witness_QuaylineLinksInitAndResize :
    (∃ (p : PortId) (lanes : List (List PamLevel)) (s u : State) (bytes : List Byte) (f : RxFlit), s.fabricLink p.val ∧ (s.qlp
      p.val).aligned ∧ (s.ql p.val = qlInit ∨ s.ql p.val = qlRetrain ∨ s.ql p.val = qlResize) ∧ s.lanesFit p.val lanes ∧ s.collect p.val
      lanes = (u, bytes) ∧ rxFlit bytes = some f ∧ f.typ = 2 ∧ (initOf f.payload).valid ∧ (u.qlp p.val).heardAt = none) ∧
    (∃ (p : PortId) (lanes : List (List PamLevel)) (s u : State) (bytes : List Byte) (f : RxFlit) (t : Nat), s.fabricLink p.val ∧ (s.qlp
      p.val).aligned ∧ (s.ql p.val = qlInit ∨ s.ql p.val = qlRetrain ∨ s.ql p.val = qlResize) ∧ s.lanesFit p.val lanes ∧ s.collect p.val
      lanes = (u, bytes) ∧ rxFlit bytes = some f ∧ f.typ = 2 ∧ (initOf f.payload).valid ∧ (u.qlp p.val).heardAt = some t) ∧
    (∃ (p : PortId) (s : State) (due : Nat), s.fabricLink p.val ∧ s.ql p.val = qlRetrain ∧ (s.qlp p.val).retrainDue = some due ∧ due ≤ s.now
      ∧ (s.qlp p.val).failedAt = none) ∧
    (∃ (p : PortId) (s : State) (due t : Nat), s.fabricLink p.val ∧ s.ql p.val = qlRetrain ∧ (s.qlp p.val).retrainDue = some due ∧ due ≤
      s.now ∧ (s.qlp p.val).failedAt = some t ∧ s.now < t + 1000000) ∧
    (∃ (p : PortId) (s : State) (due : Nat), s.fabricLink p.val ∧ s.ql p.val = qlInit ∧ (s.qlp p.val).initDue = some due ∧ due ≤ s.now) ∧
    (∃ (p : PortId) (s : State) (due : Nat), s.fabricLink p.val ∧ s.ql p.val = qlHeld ∧ (s.qlp p.val).heldDue = some due ∧ due ≤ s.now ∧
      s.portEnabled p.val) ∧
    (∃ (p : PortId) (arg : BitVec 8) (s : State) (fits : Bool), s.fabricLink p.val ∧ s.ql p.val = qlActive ∧ (s.qlp p.val).wanted = none ∧
      fits = ((arg.toNat % 16 ≤ s.cfgWidth p.val && (arg.toNat / 16 = 5 || arg.toNat / 16 = 6) && arg.toNat / 16 ≤ s.fld portMaxRate p.val)
      || (arg.toNat / 16 = s.fld qlActiveRate p.val && arg.toNat % 16 = s.fld qlActiveWidth p.val))) ∧
    (∃ (p : PortId) (arg : BitVec 8) (rate width : Nat) (s : State), s.fabricLink p.val ∧ s.ql p.val = qlActive ∧ (s.qlp p.val).wanted =
      some (rate, width) ∧ arg.toNat = rate * 16 + width) ∧
    (∃ (p : PortId) (s : State), s.fabricLink p.val ∧ s.ql p.val = qlActive ∧ (s.qlp p.val).wanted.isSome ∧ (s.qlp p.val).byWindow = false) ∧
    (∃ (p : PortId) (s : State), s.fabricLink p.val ∧ s.ql p.val = qlActive ∧ (s.qlp p.val).wanted.isSome ∧ (s.qlp p.val).byWindow = true) ∧
    (∃ (p : PortId) (s : State) (due : Nat), s.fabricLink p.val ∧ s.ql p.val = qlResize ∧ (s.qlp p.val).resizeDue = some due ∧ due ≤ s.now ∧
      (s.qlp p.val).byWindow = false) ∧
    (∃ (p : PortId) (s : State) (due : Nat), s.fabricLink p.val ∧ s.ql p.val = qlResize ∧ (s.qlp p.val).resizeDue = some due ∧ due ≤ s.now ∧
      (s.qlp p.val).byWindow = true) :=
  ⟨
    ⟨0, lanesOf flitI, (q1 qlInit (fun r => { r with aligned := true })), ((q1 qlInit (fun r => { r with aligned := true })).collect 0 (lanesOf flitI)).1, flitI, ⟨2, 0, 0, linkCtlOf 0, padTo 228 (initPayload init0)⟩, by decide +kernel, by decide +kernel, by decide +kernel, by decide +kernel, by decide +kernel, by decide +kernel, by decide +kernel, by decide +kernel, by decide +kernel⟩,
    ⟨0, lanesOf flitI, (q1 qlResize (fun r => { r with aligned := true, heardAt := some 0 })), ((q1 qlResize (fun r => { r with aligned := true, heardAt := some 0 })).collect 0 (lanesOf flitI)).1, flitI, ⟨2, 0, 0, linkCtlOf 0, padTo 228 (initPayload init0)⟩, 0, by decide +kernel, by decide +kernel, by decide +kernel, by decide +kernel, by decide +kernel, by decide +kernel, by decide +kernel, by decide +kernel, by decide +kernel⟩,
    ⟨0, ((fabS qlRetrain).setQlp { (fabS qlRetrain).qlp 0 with retrainDue := some 100000000000 }), 100000000000, by decide⟩,
    ⟨0, ((fabS qlRetrain).setQlp { (fabS qlRetrain).qlp 0 with retrainDue := some 100000000000, failedAt := some 99999000001 }), 100000000000, 99999000001, by decide⟩,
    ⟨0, ((fabS qlInit).setQlp { (fabS qlInit).qlp 0 with initDue := some 100000000000 }), 100000000000, by decide⟩,
    ⟨0, ((fabS qlHeld).setQlp { (fabS qlHeld).qlp 0 with heldDue := some 100000000000 }), 100000000000, by decide⟩,
    ⟨0, 0x54, (fabS qlActive), false, by decide⟩,
    ⟨0, 0x54, 5, 4, ((fabS qlActive).setQlp { (fabS qlActive).qlp 0 with wanted := some (5, 4) }), by decide⟩,
    ⟨0, ((fabS qlActive).setQlp { (fabS qlActive).qlp 0 with wanted := some (5, 4) }), by decide⟩,
    ⟨0, ((fabS qlActive).setQlp { (fabS qlActive).qlp 0 with wanted := some (5, 4), byWindow := true }), by decide⟩,
    ⟨0, ((fabS qlResize).setQlp { (fabS qlResize).qlp 0 with resizeDue := some 100000000000 }), 100000000000, by decide⟩,
    ⟨0, ((fabS qlResize).setQlp { (fabS qlResize).qlp 0 with resizeDue := some 100000000000, byWindow := true }), 100000000000, by decide⟩⟩

set_option maxRecDepth 40000 in
theorem witness_LanesTrainAndSteer :
    (∃ (s u : State) (l : Nat) (ls : List Nat) (p i : Nat), s.lanes.waiting = l :: ls ∧ s.running ∧ s.recentGrants < s.fld budLanesPer2us 0 ∧ u = ({ s with lanes := { s.lanes with waiting := ls, grants := s.now :: s.lanes.grants.filter (fun t => decide (s.now < t + 2000)) } } : State).setLaneRun { ({ s with lanes := { s.lanes with waiting := ls, grants := s.now :: s.lanes.grants.filter (fun t => decide (s.now < t + 2000)) } } : State).laneRun l with granted := true } ∧ u.linkOfLane l = some (p, some i) ∧ u.role p = roleFabric ∧ u.txSpareOf p i = none) ∧
    (∃ (s u : State) (l : Nat) (ls : List Nat) (p i k : Nat), s.lanes.waiting = l :: ls ∧ s.running ∧ s.recentGrants < s.fld budLanesPer2us 0 ∧ u = ({ s with lanes := { s.lanes with waiting := ls, grants := s.now :: s.lanes.grants.filter (fun t => decide (s.now < t + 2000)) } } : State).setLaneRun { ({ s with lanes := { s.lanes with waiting := ls, grants := s.now :: s.lanes.grants.filter (fun t => decide (s.now < t + 2000)) } } : State).laneRun l with granted := true } ∧ u.linkOfLane l = some (p, some i) ∧ u.role p = roleFabric ∧ u.txSpareOf p i = some k) ∧
    (∃ (s u : State) (l : Nat) (ls : List Nat) (p i : Nat), s.lanes.waiting = l :: ls ∧ s.running ∧ s.recentGrants < s.fld budLanesPer2us 0 ∧ u = ({ s with lanes := { s.lanes with waiting := ls, grants := s.now :: s.lanes.grants.filter (fun t => decide (s.now < t + 2000)) } } : State).setLaneRun { ({ s with lanes := { s.lanes with waiting := ls, grants := s.now :: s.lanes.grants.filter (fun t => decide (s.now < t + 2000)) } } : State).laneRun l with granted := true } ∧ u.linkOfLane l = some (p, some i) ∧ u.role p ≠ roleFabric) ∧
    (∃ (s u : State) (l : Nat) (ls : List Nat) (p : Nat), s.lanes.waiting = l :: ls ∧ s.running ∧ s.recentGrants < s.fld budLanesPer2us 0 ∧ u = ({ s with lanes := { s.lanes with waiting := ls, grants := s.now :: s.lanes.grants.filter (fun t => decide (s.now < t + 2000)) } } : State).setLaneRun { ({ s with lanes := { s.lanes with waiting := ls, grants := s.now :: s.lanes.grants.filter (fun t => decide (s.now < t + 2000)) } } : State).laneRun l with granted := true } ∧ u.linkOfLane l = some (p, none) ∧ (u.steer p).moves.find? (fun m => decide (m.spare = u.lfld laneLinkSpare l) && decide (m.stage = 2)) = none) ∧
    (∃ (p : PortId) (s : State), s.fabricLink p.val ∧ (s.steer p.val).training ∧ s.ql p.val = qlDown) ∧
    (∃ (p : PortId) (good : BitVec 16) (s : State) (width first : Nat), s.fabricLink p.val ∧ s.ql p.val = qlDown ∧ (s.steer p.val).training
      ∧ (∀ i, i < 16 → good.getLsbD i = (decide (i < streamsOf (s.aimWidth p.val)) && s.streamGood p.val i)) ∧ goodBlock (s.streamGood
      p.val) (streamsOf (s.aimWidth p.val)) (s.aimWidth p.val) = some (width, first) ∧ s.fld qlMinWidth p.val ≤ width) ∧
    (∃ (l : LaneId) (symbols : List PamLevel) (s u : State) (p : Nat) (i : Option Nat) (m : MarkerIn), markerWf symbols ∧ (pamBytes
      symbols).take 6 = markPattern ∧ s.linkOfLane l.val = some (p, i) ∧ s.fabricLink p ∧ s.portEnabled p ∧ m = markOf (pamBytes symbols) ∧
      u = s.markerFound p l.val m) ∧
    (∃ (l : LaneId) (s u w : State) (p : Nat) (i : Option Nat), s.running ∧ s.lfld laneLocked l.val ≠ 0 ∧ s.linkOfLane l.val = some (p, i) ∧ u = ((s.lput laneLocked l.val 0).lput laneMarkerLock l.val 0).laneCount l.val 1 1 ∧ w = u.setLaneRun { u.laneRun l.val with found := 0, shows := 0x1F, partnerOk := false }) ∧
    (∃ (p : PortId) (s : State) (due : Nat), s.fabricLink p.val ∧ s.ql p.val = qlActive ∧ (s.qlp p.val).steerDue = some due ∧ due ≤ s.now) ∧
    (∃ (p : PortId) (s u v w : State) (count : Nat), s.fabricLink p.val ∧ s.portEnabled p.val ∧ 65536 ≤ (s.qlp p.val).laneBytes ∧ count = ((s.steer p.val).markCount + 1) % 128 ∧ u = (s.moveSteps p.val (s.steer p.val).moves).1.setSteer { s.steer p.val with moves := (s.moveSteps p.val (s.steer p.val).moves).2, markCount := count, answer := none } ∧ v = ((s.moveSteps p.val (s.steer p.val).moves).2.map (·.lane)).foldl (fun (t : State) i => t.leaveDone p.val i) u ∧ w = v.setQlp { v.qlp p.val with laneBytes := 0 }) :=
  ⟨
    ⟨waitS (fabS qlDown) 0, grantS (waitS (fabS qlDown) 0) 0, 0, [], 0, 0, by decide, by decide, by decide, rfl, by decide⟩,
    ⟨waitS (((fabS qlActive).setSteer { (fabS qlActive).steer 0 with moves := [⟨0, 0, true, 2, 0⟩] })) 0, grantS (waitS (((fabS qlActive).setSteer { (fabS qlActive).steer 0 with moves := [⟨0, 0, true, 2, 0⟩] })) 0) 0, 0, [], 0, 0, 0, by decide, by decide, by decide, rfl, by decide⟩,
    ⟨waitS (devS 0) 0, grantS (waitS (devS 0) 0) 0, 0, [], 0, 0, by decide, by decide, by decide, rfl, by decide⟩,
    ⟨waitS (((fabS qlActive).lput laneLinkPort 72 0)) 72, grantS (waitS (((fabS qlActive).lput laneLinkPort 72 0)) 72) 72, 72, [], 0, by decide, by decide, by decide, rfl, by decide⟩,
    ⟨0, ((fabS qlDown).setSteer { (fabS qlDown).steer 0 with training := true }), by decide⟩,
    ⟨0, 1, (((((fabS qlDown).setSteer { (fabS qlDown).steer 0 with training := true })).lput laneMarkerLock 0 1).setLaneRun { late.laneRun 0 with partnerOk := true, shows := 0 }), 0, 0, by decide⟩,
    ⟨0, markSyms, (fabS qlActive), (fabS qlActive).markerFound 0 0 (markOf (pamBytes markSyms)), 0, some 0, markOf (pamBytes markSyms), by decide, by decide, by decide, by decide, by decide, by decide, rfl⟩,
    ⟨0, ((fabS qlActive).lput laneLocked 0 1), (((((fabS qlActive).lput laneLocked 0 1).lput laneLocked 0 0).lput laneMarkerLock 0 0).laneCount 0 1 1), (((((fabS qlActive).lput laneLocked 0 1).lput laneLocked 0 0).lput laneMarkerLock 0 0).laneCount 0 1 1).setLaneRun { (((((fabS qlActive).lput laneLocked 0 1).lput laneLocked 0 0).lput laneMarkerLock 0 0).laneCount 0 1 1).laneRun 0 with found := 0, shows := 0x1F, partnerOk := false }, 0, some 0, by decide, by decide, by decide, rfl, by decide⟩,
    ⟨0, ((fabS qlActive).setQlp { (fabS qlActive).qlp 0 with steerDue := some 100000000000 }), 100000000000, by decide⟩,
    ⟨0, (fabS qlActive), (((fabS qlActive).moveSteps 0 ((fabS qlActive).steer 0).moves).1.setSteer { (fabS qlActive).steer 0 with moves := ((fabS qlActive).moveSteps 0 ((fabS qlActive).steer 0).moves).2, markCount := (((fabS qlActive).steer 0).markCount + 1) % 128, answer := none }), ((((fabS qlActive).moveSteps 0 ((fabS qlActive).steer 0).moves).2.map (·.lane)).foldl (fun (t : State) i => t.leaveDone 0 i) (((fabS qlActive).moveSteps 0 ((fabS qlActive).steer 0).moves).1.setSteer { (fabS qlActive).steer 0 with moves := ((fabS qlActive).moveSteps 0 ((fabS qlActive).steer 0).moves).2, markCount := (((fabS qlActive).steer 0).markCount + 1) % 128, answer := none })), ((((fabS qlActive).moveSteps 0 ((fabS qlActive).steer 0).moves).2.map (·.lane)).foldl (fun (t : State) i => t.leaveDone 0 i) (((fabS qlActive).moveSteps 0 ((fabS qlActive).steer 0).moves).1.setSteer { (fabS qlActive).steer 0 with moves := ((fabS qlActive).moveSteps 0 ((fabS qlActive).steer 0).moves).2, markCount := (((fabS qlActive).steer 0).markCount + 1) % 128, answer := none })).setQlp { ((((fabS qlActive).moveSteps 0 ((fabS qlActive).steer 0).moves).2.map (·.lane)).foldl (fun (t : State) i => t.leaveDone 0 i) (((fabS qlActive).moveSteps 0 ((fabS qlActive).steer 0).moves).1.setSteer { (fabS qlActive).steer 0 with moves := ((fabS qlActive).moveSteps 0 ((fabS qlActive).steer 0).moves).2, markCount := (((fabS qlActive).steer 0).markCount + 1) % 128, answer := none })).qlp 0 with laneBytes := 0 }, (((fabS qlActive).steer 0).markCount + 1) % 128, by decide, by decide, by decide, by decide, rfl, by decide⟩⟩

theorem witness_LanesCalibrateAndMeasure :
    (∃ (p : PortId) (k : Fin 4) (s : State), s.fabricLink p.val ∧ s.ql p.val = qlActive ∧ s.fld qlLiveCal p.val = 1 ∧ s.tileReplaced (p.val
      / 18) = false ∧ s.tilePaused (p.val / 18) = false ∧ s.spareIdle p.val k.val ∧ (s.steer p.val).req = none ∧ (s.steer p.val).lastPass =
      [] ∧ s.lfld laneRxState (ownLane p.val ((s.steer p.val).nextStream % streamsOf (s.linkWidth p.val))) = 2) ∧
    (∃ (p : PortId) (k : Fin 4) (s : State) (c : CalPass), s.running ∧ (s.steer p.val).passes.find? (fun c => decide (c.spare = k.val) &&
      c.stage = .requested) = some c ∧ c.due ≤ s.now) ∧
    (∃ (p : PortId) (k : Fin 4) (h v : Nat) (s : State) (c : CalPass), s.running ∧ (s.steer p.val).passes.find? (fun c => decide (c.spare =
      k.val) && c.stage = .calibrating) = some c ∧ 150 ≤ h ∧ 8 ≤ v) ∧
    (∃ (p : PortId) (k : Fin 4) (h v : Nat) (s : State) (c : CalPass), s.running ∧ (s.steer p.val).passes.find? (fun c => decide (c.spare =
      k.val) && c.stage = .calibrating) = some c ∧ (h < 150 ∨ v < 8)) ∧
    (∃ (p : PortId) (s : State), s.running ∧ s.lane0 p.val = p.val ∧ s.role p.val = roleFabric ∧ s.fld qlCalWindows p.val ≠ 0 ∧ s.windowSeen
      p.val < s.windowIndex p.val ∧ s.needsWindow p.val ∧ s.ql p.val = qlActive ∧ (s.qlp p.val).wanted = none) ∧
    (∃ (p : PortId) (s : State), s.running ∧ s.lane0 p.val = p.val ∧ (s.role p.val = roleHost ∨ s.role p.val = roleDevice) ∧ s.fld
      qlCalWindows p.val ≠ 0 ∧ s.windowSeen p.val < s.windowIndex p.val ∧ s.fld portLinkState p.val = 3) ∧
    (∃ (p : PortId) (s : State), s.running ∧ s.lane0 p.val = p.val ∧ (s.role p.val = roleHost ∨ s.role p.val = roleDevice) ∧ s.fld
      qlCalWindows p.val ≠ 0 ∧ s.windowSeen p.val < s.windowIndex p.val ∧ s.fld portLinkState p.val ≠ 3) ∧
    (∃ (l : LaneId) (symbols : List PamLevel) (s : State), s.running ∧ symbols ≠ [] ∧ s.lfld laneRxState l.val = 4 ∧ s.lfld laneCheckPattern
      l.val ≠ 0 ∧ (s.lfld laneTxState l.val ≠ 4 ∨ s.lfld laneLoop l.val ≠ 3)) ∧
    (∃ (l : LaneId) (s : State), s.running ∧ (s.laneRun l.val).measuring) :=
  ⟨
    ⟨0, 0, (((((fabS qlActive).put qlLiveCal 0 1).lput laneMarkerLock 72 1).lput laneLinkPort 72 0).lput laneRxState 0 2).setLaneRun { late.laneRun 72 with shows := 0x1F }, by decide⟩,
    ⟨0, 0, ((fabS qlActive).setSteer { (fabS qlActive).steer 0 with passes := [⟨0, 0, .requested, 0, 0⟩] }), ⟨0, 0, .requested, 0, 0⟩, by decide⟩,
    ⟨0, 0, 150, 8, ((fabS qlActive).setSteer { (fabS qlActive).steer 0 with passes := [⟨0, 0, .calibrating, 0, 0⟩] }), ⟨0, 0, .calibrating, 0, 0⟩, by decide⟩,
    ⟨0, 0, 149, 8, ((fabS qlActive).setSteer { (fabS qlActive).steer 0 with passes := [⟨0, 0, .calibrating, 0, 0⟩] }), ⟨0, 0, .calibrating, 0, 0⟩, by decide⟩,
    ⟨0, (fabS qlActive).put qlCalWindows 0 1, by decide⟩,
    ⟨0, (hostS.put qlCalWindows 0 1), by decide⟩,
    ⟨0, ((hostS.put qlCalWindows 0 1).put portLinkState 0 4), by decide⟩,
    ⟨607, [.m3], (late.lput laneRxState 607 4).lput laneCheckPattern 607 1, by decide⟩,
    ⟨607, late.setLaneRun { late.laneRun 607 with measuring := true }, by decide⟩⟩

theorem witness_TallyQueuesTakePrograms :
    (∃ (q : QueueId) (value : BitVec 32) (s : State) (v off : Nat), qAt q = some (v, off) ∧ s.qLive q ∧ value.toNat % 65536 < s.ringSize v
      off) ∧
    (∃ (q : QueueId) (value : BitVec 32) (s : State) (v off : Nat), qAt q = some (v, off) ∧ s.qLive q ∧ s.ringSize v off ≤ value.toNat %
      65536) ∧
    (∃ (q : QueueId) (value : BitVec 32) (s : State) (v off : Nat), qAt q = some (v, off) ∧ s.qLive q ∧ s.regBits v (off + 8) 31 1 = 0 ∧
      s.inFlight q = 0 ∧ 4 ≤ bitsOf (word value.toNat) 0 5 ∧ bitsOf (word value.toNat) 0 5 ≤ 16) ∧
    (∃ (q : QueueId) (value : BitVec 32) (s : State) (v off : Nat), qAt q = some (v, off) ∧ s.qLive q ∧ bitsOf (word value.toNat) 0 5 =
      s.regBits v (off + 8) 0 5 ∧ bitsOf (word value.toNat) 31 1 = 0) ∧
    (∃ (q : QueueId) (value : BitVec 32) (s : State) (v off : Nat), qAt q = some (v, off) ∧ s.qLive q ∧ bitsOf (word value.toNat) 0 5 ≠
      s.regBits v (off + 8) 0 5 ∧ (s.regBits v (off + 8) 31 1 = 1 ∨ s.inFlight q ≠ 0)) ∧
    (∃ (q : QueueId) (s : State) (v off : Nat), qAt q = some (v, off) ∧ s.qLive q ∧ s.regBits v (off + 8) 31 1 = 0 ∧ s.inFlight q = 0) ∧
    (∃ (q : QueueId) (s : State) (v off : Nat), qAt q = some (v, off) ∧ s.qLive q ∧ (s.regBits v (off + 8) 31 1 = 1 ∨ s.inFlight q ≠ 0)) ∧
    (∃ (q : QueueId) (value : BitVec 32) (s : State) (v off : Nat), qAt q = some (v, off) ∧ s.qLive q ∧ bitsOf (word value.toNat) 31 1 = 1 ∧
      s.inDescriptor q (bitsOf (word value.toNat) 0 16) = none) ∧
    (∃ (q : QueueId) (value : BitVec 32) (s : State) (v off : Nat) (p : Prog), qAt q = some (v, off) ∧ s.qLive q ∧ bitsOf (word value.toNat)
      31 1 = 1 ∧ s.inDescriptor q (bitsOf (word value.toNat) 0 16) = some p ∧ p.committed) ∧
    (∃ (q : QueueId) (value : BitVec 32) (s : State) (v off : Nat) (p : Prog), qAt q = some (v, off) ∧ s.qLive q ∧ bitsOf (word value.toNat)
      31 1 = 1 ∧ s.inDescriptor q (bitsOf (word value.toNat) 0 16) = some p ∧ p.committed = false) ∧
    (∃ (q : QueueId) (value : BitVec 32) (s : State) (v off : Nat), qAt q = some (v, off) ∧ s.qLive q ∧ bitsOf (word value.toNat) 31 1 = 0) ∧
    (∃ (q : QueueId) (desc code : Option (List Word)) (s : State) (v off : Nat), fetchWf desc code ∧ s.running ∧ s.power.downAsked = false ∧
      qAt q = some (v, off) ∧ s.qLive q ∧ s.regBits v (off + 8) 31 1 = 1 ∧ s.regBits v (off + 0x10) 0 16 ≠ s.regBits v (off + 0xC) 0 16) ∧
    (∃ (desc code : Option (List Word)) (s : State) (m : MgmtMsg) (rest : List MgmtMsg), fetchWf desc code ∧ s.running ∧ s.power.downAsked =
      false ∧ s.tally.mgmtQ = m :: rest) ∧
    (∃ (id : Nat) (s : State) (p : Prog), s.running ∧ s.prog id = some p ∧ p.phase = .waiting ∧ p.aborting = false ∧ s.slotFree ∧
      s.slotClaimed = false ∧ s.firstWaiting p) ∧
    (∃ (id : Nat) (s : State) (p : Prog), s.running ∧ s.prog id = some p ∧ p.phase = .resuming ∧ p.aborting = false ∧ s.slotFree) ∧
    (∃ (id : Nat) (s : State) (p : Prog), s.running ∧ s.prog id = some p ∧ p.phase = .running ∧ 1048576 ≤ p.executed ∧ p.pc < p.len ∧
      s.logReady) ∧
    (∃ (id : Nat) (s : State) (p : Prog) (due order : Nat), s.running ∧ s.prog id = some p ∧ p.phase = .parked due order ∧ p.aborting =
      false ∧ s.mayUnpark p) ∧
    (∃ (s : State) (p : Prog), s.running ∧ s.tally.progs.find? (fun p => s.mayUnpark p && !p.aborting) = some p) ∧
    (∃ (s : State) (j : SnapJob), s.running ∧ s.tally.progs.find? (fun p => s.mayUnpark p && !p.aborting) = none ∧ s.counters.jobs.find?
      (fun j => decide (j.instant ≤ s.tide) && (s.base snapState j.set.val = 1 || s.base snapState j.set.val = 2)) = some j) :=
  ⟨
    ⟨.admin 5, 0, hostS, 5, 0x1000, by decide⟩,
    ⟨.admin 5, 65535, hostS, 5, 0x1000, by decide⟩,
    ⟨.admin 5, 0x80000010, hostS, 5, 0x1000, by decide⟩,
    ⟨.admin 5, 0, hostS, 5, 0x1000, by decide⟩,
    ⟨.admin 5, 5, (hostS.setRegBits 5 0x1008 31 1 1), 5, 0x1000, by decide⟩,
    ⟨.fm 5, fmS, 5, 0x1040, by decide⟩,
    ⟨.admin 5, (hostS.setRegBits 5 0x1008 31 1 1), 5, 0x1000, by decide⟩,
    ⟨.admin 5, 0x80000000, hostS, 5, 0x1000, by decide⟩,
    ⟨.admin 5, 0x80000000, (prS hostS { pr [0] with committed := true }), 5, 0x1000, { pr [0] with committed := true }, by decide⟩,
    ⟨.admin 5, 0x80000000, (prS hostS { pr [0] with irq := true }), 5, 0x1000, { pr [0] with irq := true }, by decide⟩,
    ⟨.admin 5, 0, hostS, 5, 0x1000, by decide⟩,
    ⟨.admin 5, some [0, 16], some [0, 0], (hostS.setReg 5 0x1008 (word 0x80000004)).setReg 5 0x100C 1, 5, 0x1000, by decide⟩,
    ⟨none, none, { late with tally := { late.tally with mgmtQ := [⟨none, [], []⟩] } }, ⟨none, [], []⟩, [], by decide⟩,
    ⟨1, (prS hostS { pr [0] with phase := .waiting, slot := false }), { pr [0] with phase := .waiting, slot := false }, by decide⟩,
    ⟨1, (prS hostS { pr [0] with phase := .resuming, slot := false }), { pr [0] with phase := .resuming, slot := false }, by decide⟩,
    ⟨1, (prS hostS { pr [0] with executed := 1048576 }), { pr [0] with executed := 1048576 }, by decide⟩,
    ⟨1, (prS hostS { pr [0] with phase := .parked 100000000000 0, slot := false }), { pr [0] with phase := .parked 100000000000 0, slot := false }, 100000000000, 0, by decide⟩,
    ⟨(prS hostS { pr [0] with phase := .parked 100000000000 0, slot := false }), { pr [0] with phase := .parked 100000000000 0, slot := false }, by decide⟩,
    ⟨snapS job0 1, job0, by decide⟩⟩

theorem witness_RegisterWritesTakeEffect :
    (∃ (v : ViewId) (s : State), s.viewLive v.val) ∧
    (∃ (v : ViewId) (s : State), s.viewLive v.val ∧ s.fmGranted v.val) ∧
    (∃ (v : ViewId) (s : State), s.viewLive v.val ∧ s.fmGranted v.val = false) ∧
    (∃ (v : ViewId) (value : Word) (s : State), s.viewLive v.val ∧ bitsOf value 1 1 = 1) ∧
    (∃ (v : ViewId) (value : Word) (s : State), s.viewLive v.val ∧ bitsOf value 28 1 = 1) ∧
    (∃ (v : ViewId) (s : State), s.viewLive v.val) ∧
    (∃ (v : ViewId) (s : State), s.viewLive v.val) ∧
    (∃ (v : ViewId) (s : State), s.viewLive v.val) ∧
    (∃ (v : ViewId) (k : Nat) (s : State), s.viewLive v.val ∧ k < 8) ∧
    (∃ (v : ViewId) (s : State), s.viewLive v.val) :=
  ⟨
    ⟨5, hostS, by decide⟩,
    ⟨5, fmS, by decide⟩,
    ⟨5, hostS, by decide⟩,
    ⟨5, 2, hostS, by decide⟩,
    ⟨5, 0x10000000, hostS, by decide⟩,
    ⟨5, hostS, by decide⟩,
    ⟨5, hostS, by decide⟩,
    ⟨5, hostS, by decide⟩,
    ⟨5, 7, hostS, by decide⟩,
    ⟨5, hostS, by decide⟩⟩

theorem witness_ForwardedProgramsAndBaseConfiguration :
    (∃ (m : FwdFragment) (s : State), fwdWf m ∧ s.running ∧ (s.gather m).got.length < (s.gather m).count) ∧
    (∃ (m : FwdFragment) (s : State), fwdWf m ∧ s.running ∧ (s.gather m).count ≤ (s.gather m).got.length) ∧
    (∃ (s : State), s.running) ∧
    (∃ (s : State), s.running) ∧
    (∃ (id : Nat) (rods : List Word) (s : State) (f : FwdOut), resultWf rods ∧ s.running ∧ s.tally.fwdOut.find? (fun f => decide (f.fwdId =
      id)) = some f) ∧
    (∃ (id : Nat) (s : State) (f : FwdOut), s.running ∧ s.tally.fwdOut.find? (fun f => decide (f.fwdId = id)) = some f ∧ f.accepted = false
      ∧ f.due ≤ s.now) ∧
    (∃ (slotA slotB : List Byte) (s : State), flashWf slotA slotB ∧ s.power.phase = .managed ∧ s.power.baseBegun = false) ∧
    (∃ (s : State), s.power.phase = .managed ∧ s.power.baseBegun ∧ s.tally.base = [] ∧ s.tally.progs.any (fun p => decide (p.src = .base)) =
      false ∧ s.logReady) :=
  ⟨
    ⟨⟨1, 65535, 0, 5, 1, 127, [0, 0, 0, 0]⟩, late, by decide⟩,
    ⟨⟨1, 65535, 0, 1, 2, 0, [0, 0, 0, 0]⟩, late, by decide⟩,
    ⟨late, by decide⟩,
    ⟨late, by decide⟩,
    ⟨9, [0, 0, 0, 0], { late with tally := { late.tally with fwdOut := [⟨9, .admin 5, [0, 0], none, 0, false, 2, 0, false, 0, false⟩] } }, ⟨9, .admin 5, [0, 0], none, 0, false, 2, 0, false, 0, false⟩, by decide⟩,
    ⟨9, { late with tally := { late.tally with fwdOut := [⟨9, .admin 5, [0, 0], none, 0, false, 2, 0, false, 0, false⟩] } }, ⟨9, .admin 5, [0, 0], none, 0, false, 2, 0, false, 0, false⟩, by decide⟩,
    ⟨[], [], managed, by decide⟩,
    ⟨{ managed with power := { managed.power with baseBegun := true } }, by decide⟩⟩

theorem witness_ControlInstructionsAct :
    (∃ (id : Nat) (s : State) (p : Prog), s.stands id p ∧ iOpcode p.instr = 0x00) ∧
    (∃ (id : Nat) (s : State) (p : Prog), s.stands id p ∧ iOpcode p.instr = 0x01 ∧ s.logReady) ∧
    (∃ (id : Nat) (s : State) (p : Prog), s.stands id p ∧ iOpcode p.instr = 0x02 ∧ p.begun = false) ∧
    (∃ (id : Nat) (s : State) (p : Prog), s.stands id p ∧ iOpcode p.instr = 0x04 ∧ s.logReady) ∧
    (∃ (id : Nat) (s : State) (p : Prog), s.prog id = some p ∧ s.atInstr p ∧ p.aborting ∧ s.logReady ∧ iOpcode p.instr = 0x00) ∧
    (∃ (id : Nat) (s : State) (p : Prog), s.stands id p ∧ iOpcode p.instr = 0x05 ∧ s.logReady ∧ s.everLocked = false) ∧
    (∃ (id : Nat) (s : State) (p : Prog), s.stands id p ∧ iOpcode p.instr = 0x05 ∧ s.logReady ∧ s.everLocked ∧ s.tide < (p.rod (iSrc
      p.instr)).toNat) ∧
    (∃ (id : Nat) (s : State) (p : Prog), s.stands id p ∧ iOpcode p.instr = 0x05 ∧ s.logReady ∧ s.everLocked ∧ (p.rod (iSrc p.instr)).toNat
      < s.tide ∧ fOpt (iFlags p.instr) = false) ∧
    (∃ (id : Nat) (s : State) (p : Prog), s.stands id p ∧ iOpcode p.instr = 0x05 ∧ s.logReady ∧ s.everLocked ∧ ((p.rod (iSrc p.instr)).toNat
      = s.tide ∨ ((p.rod (iSrc p.instr)).toNat < s.tide ∧ fOpt (iFlags p.instr)))) ∧
    (∃ (id : Nat) (s : State) (p : Prog), s.stands id p ∧ iOpcode p.instr = 0x06 ∧ s.logReady ∧ p.rod (iSrc p.instr) ≠ 0) ∧
    (∃ (id : Nat) (s : State) (p : Prog), s.stands id p ∧ iOpcode p.instr = 0x78 ∧ iSub p.instr = 0) ∧
    (∃ (id : Nat) (s : State) (p : Prog), s.stands id p ∧ iOpcode p.instr = 0x78 ∧ iSub p.instr = 1) ∧
    (∃ (id : Nat) (s : State) (p : Prog) (due : Nat), s.running ∧ s.prog id = some p ∧ p.aborting = false ∧ p.phase = .syncCommits due ∧ due
      ≤ s.now) ∧
    (∃ (id : Nat) (s : State) (p : Prog), s.running ∧ s.prog id = some p ∧ p.aborting = false ∧ p.phase = .syncQueue ∧ s.earlierEnded p) ∧
    (∃ (id : Nat) (s : State) (p : Prog), s.stands id p ∧ iOpcode p.instr = 0x7F ∧ s.logReady) :=
  ⟨
    ⟨1, (prS (late) { pr [instrWord 0 0 0 0 0 0] with irq := false }), { pr [instrWord 0 0 0 0 0 0] with irq := false }, ⟨by decide, by decide, by decide⟩, by decide⟩,
    ⟨1, (prS (late) { pr [instrWord 1 0 0 0 0 0] with irq := false }), { pr [instrWord 1 0 0 0 0 0] with irq := false }, ⟨by decide, by decide, by decide⟩, by decide⟩,
    ⟨1, (prS (late) { pr [instrWord 2 0 0 0 0 0] with irq := false }), { pr [instrWord 2 0 0 0 0 0] with irq := false }, ⟨by decide, by decide, by decide⟩, by decide⟩,
    ⟨1, (prS (late) { pr [instrWord 4 0 0 0 0 0] with irq := false }), { pr [instrWord 4 0 0 0 0 0] with irq := false }, ⟨by decide, by decide, by decide⟩, by decide⟩,
    ⟨1, (prS (late) { pr [instrWord 0 0 0 0 0 0] with aborting := true }), { pr [instrWord 0 0 0 0 0 0] with aborting := true }, by decide⟩,
    ⟨1, (prS (late) { pr [instrWord 5 0 0 0 0 0] with irq := false }), { pr [instrWord 5 0 0 0 0 0] with irq := false }, ⟨by decide, by decide, by decide⟩, by decide⟩,
    ⟨1, (prS (late.put tideEverLocked 0 1) { pr [instrWord 5 0 0 1 0 0] with rods := word 100000000001 :: List.replicate 14 0 }), { pr [instrWord 5 0 0 1 0 0] with rods := word 100000000001 :: List.replicate 14 0 }, ⟨by decide, by decide, by decide⟩, by decide⟩,
    ⟨1, (prS (late.put tideEverLocked 0 1) { pr [instrWord 5 0 0 0 0 0] with irq := false }), { pr [instrWord 5 0 0 0 0 0] with irq := false }, ⟨by decide, by decide, by decide⟩, by decide⟩,
    ⟨1, (prS (late.put tideEverLocked 0 1) { pr [instrWord 5 0 0 1 0 0] with rods := word 100000000000 :: List.replicate 14 0 }), { pr [instrWord 5 0 0 1 0 0] with rods := word 100000000000 :: List.replicate 14 0 }, ⟨by decide, by decide, by decide⟩, by decide⟩,
    ⟨1, (prS (late) { pr [instrWord 6 0 0 1 0 0] with rods := word 1 :: List.replicate 14 0 }), { pr [instrWord 6 0 0 1 0 0] with rods := word 1 :: List.replicate 14 0 }, ⟨by decide, by decide, by decide⟩, by decide⟩,
    ⟨1, (prS (late) { pr [instrWord 120 0 0 0 0 0] with irq := false }), { pr [instrWord 120 0 0 0 0 0] with irq := false }, ⟨by decide, by decide, by decide⟩, by decide⟩,
    ⟨1, (prS (late) { pr [instrWord 120 0 0 0 1 0] with irq := false }), { pr [instrWord 120 0 0 0 1 0] with irq := false }, ⟨by decide, by decide, by decide⟩, by decide⟩,
    ⟨1, (prS (late) { pr [instrWord 120 0 0 0 0 0] with phase := .syncCommits 100000000000 }), { pr [instrWord 120 0 0 0 0 0] with phase := .syncCommits 100000000000 }, 100000000000, by decide⟩,
    ⟨1, (prS (late) { pr [instrWord 120 0 0 0 1 0] with phase := .syncQueue }), { pr [instrWord 120 0 0 0 1 0] with phase := .syncQueue }, by decide⟩,
    ⟨1, (prS (late) { pr [instrWord 127 0 0 0 0 0] with irq := false }), { pr [instrWord 127 0 0 0 0 0] with irq := false }, ⟨by decide, by decide, by decide⟩, by decide⟩⟩

theorem witness_CommitsAndDrainsComplete :
    (∃ (id : Nat) (s : State) (p : Prog), s.stands id p ∧ iOpcode p.instr = 0x03 ∧ p.begun ∧ p.committed = false ∧ s.logReady ∧ (s.counted
      id).overlayGone p) ∧
    (∃ (id : Nat) (s : State) (p : Prog), s.stands id p ∧ iOpcode p.instr = 0x03 ∧ p.begun ∧ p.committed = false ∧ s.logReady ∧ (s.counted
      id).overlayGone p = false ∧ (s.counted id).conflicts p) ∧
    (∃ (id : Nat) (s : State) (p : Prog), s.stands id p ∧ iOpcode p.instr = 0x03 ∧ p.begun ∧ p.committed = false ∧ s.logReady ∧ (s.counted
      id).overlayGone p = false ∧ (s.counted id).conflicts p = false ∧ ((s.counted id).commitAll p.staged).status ≠ .ok) ∧
    (∃ (id : Nat) (s : State) (p : Prog), s.stands id p ∧ iOpcode p.instr = 0x03 ∧ p.begun ∧ p.committed = false ∧ s.logReady ∧ (s.counted
      id).overlayGone p = false ∧ (s.counted id).conflicts p = false ∧ ((s.counted id).commitAll p.staged).status = .ok) ∧
    (∃ (id : Nat) (s : State) (p : Prog) (due : Nat), s.running ∧ s.prog id = some p ∧ p.phase = .draining due ∧ p.aborting = false ∧
      s.recordReqs (s.selOf p.objReq) = [] ∧ s.logReady) ∧
    (∃ (id : Nat) (s : State) (p : Prog) (due : Nat), s.running ∧ s.prog id = some p ∧ p.phase = .draining due ∧ p.aborting = false ∧
      s.recordReqs (s.selOf p.objReq) ≠ [] ∧ due ≤ s.now ∧ s.logReady) ∧
    (∃ (t : TenantId) (s : State) (r : TenReset) (p : Prog), s.running ∧ s.tenancy.resets = [r] ∧ r.tenant = t ∧ s.tenancy.flrs.any (fun f
      => decide (f.tenant = t.val)) = false ∧ s.prog r.prog = some p ∧ p.phase = .tenantWait ∧ s.logReady) :=
  ⟨
    ⟨1, (prS (late) { pr [instrWord 3 0 0 0 0 0] with begun := true, staged := [{ badReq with op := 0x60, blk := [2, 1] }] }), { pr [instrWord 3 0 0 0 0 0] with begun := true, staged := [{ badReq with op := 0x60, blk := [2, 1] }] }, ⟨by decide, by decide, by decide⟩, by decide⟩,
    ⟨1, (prS (late) { pr [instrWord 3 0 0 0 0 0] with begun := true, recorded := [(0, 1)] }), { pr [instrWord 3 0 0 0 0 0] with begun := true, recorded := [(0, 1)] }, ⟨by decide, by decide, by decide⟩, by decide⟩,
    ⟨1, (prS (late) { pr [instrWord 3 0 0 0 0 0] with begun := true, staged := [badReq] }), { pr [instrWord 3 0 0 0 0 0] with begun := true, staged := [badReq] }, ⟨by decide, by decide, by decide⟩, by decide⟩,
    ⟨1, (prS (late) { pr [instrWord 3 0 0 0 0 0] with begun := true }), { pr [instrWord 3 0 0 0 0 0] with begun := true }, ⟨by decide, by decide, by decide⟩, by decide⟩,
    ⟨1, (prS (late) { pr [instrWord 66 0 0 0 0 0] with phase := .draining 0 }), { pr [instrWord 66 0 0 0 0 0] with phase := .draining 0 }, 0, by decide⟩,
    ⟨1, ({ ((prS (late) { pr [instrWord 0x42 0 0 0 0 2, 7, 0] with phase := .draining 0 })) with fabric := { late.fabric with reqs := [{ rq0 with slot := 7 }] } } : State), { pr [instrWord 0x42 0 0 0 0 2, 7, 0] with phase := .draining 0 }, 0, by decide⟩,
    ⟨4095, ({ (prS (late) { pr [0] with phase := .tenantWait }) with tenancy := { late.tenancy with resets := [⟨4095, 1, 1, false⟩] } } : State), ⟨4095, 1, 1, false⟩, { pr [0] with phase := .tenantWait }, by decide⟩⟩

theorem witness_FlitsReadBack :
    (∃ (seq vc typ : Nat) (c : LinkCtl), seq < 16777216 ∧ vc < 16 ∧ typ < 3 ∧ c.ackSeq < 16777216 ∧ c.creditCount < 65536 ∧ c.creditVc < 16
      ∧ c.congHop < 4 ∧ c.congLevel < 16 ∧ c.cmd < 8 ∧ c.arg < 256) ∧
    (∃ (m : InitMsg), m.valid ∧ m.rate < 16 ∧ m.width < 16 ∧ m.port < 256 ∧ m.fabricId < 4096 ∧ m.nextSeq < 16777216 ∧ m.ackSeq < 16777216 ∧
      m.nonce < 4294967296) :=
  ⟨
    ⟨16777215, 15, 2, ⟨16777215, 65535, 15, 3, 15, true, true, true, 7, 255⟩, by decide⟩,
    ⟨⟨true, 15, 15, 255, 4095, true, true, 16777215, 16777215, 4294967295⟩, by decide⟩⟩

theorem witness_LanesCarryEveryByte :
    (∃ (w : Nat) (flit : List Byte), w ∈ [1, 2, 4, 8, 16] ∧ flit.length = 256) ∧
    (∃ (m : MarkerIn), m.markLane < 32 ∧ m.markCount < 128 ∧ m.steerTag < 16 ∧ m.steerCmd < 16 ∧ m.steerSpare < 4 ∧ m.steerLane < 16) :=
  ⟨
    ⟨16, List.replicate 256 0, by decide, List.length_replicate⟩,
    ⟨⟨true, 31, true, 127, 15, 15, true, 3, 15⟩, by decide⟩⟩

theorem witness_StepRunsFrontCommand :
    (∃ (c : Instr) (rest : List Instr) (s : State), s.pending = c :: rest) ∧
    (∃ (s : State), s.pending = []) :=
  ⟨
    ⟨.pwrOkFall, [], { late with pending := [.pwrOkFall] }, by decide⟩,
    ⟨late, by decide⟩⟩

theorem witness_MalformedCommandsChangeNothing :
    (∃ (x : PacketIn), packetWf x.image.length = false) ∧
    (∃ (c : CompletionIn), packetWf c.image.length = false) ∧
    (∃ (off : Nat) (data : List Byte), cmAccessWf off data.length = false) ∧
    (∃ (off len : Nat), cmAccessWf off len = false) ∧
    (∃ (off len : Nat), cmAccessWf off len = false) ∧
    (∃ (op : AtomicKind) (size : Nat), atomicSizeOk op size = false) ∧
    (∃ (w : List Word), w.length ≠ 8) ∧
    (∃ (w : List Word), w.length ≠ 8) ∧
    (∃ (pk : LighterPkt) (host : HostReply), ltReqWf pk host = false) ∧
    (∃ (pk : LighterPkt), ltRespWf pk = false) ∧
    (∃ (size : Nat), (size < 12 ∨ 30 < size)) ∧
    (∃ (p : PortId) (lanes : List (List PamLevel)) (s : State), s.lanesFit p.val lanes = false) ∧
    (∃ (symbols : List PamLevel), markerWf symbols = false) ∧
    (∃ (desc code : Option (List Word)), fetchWf desc code = false) ∧
    (∃ (m : FwdFragment), fwdWf m = false) ∧
    (∃ (rods : List Word), resultWf rods = false) ∧
    (∃ (slotA slotB : List Byte), flashWf slotA slotB = false) ∧
    (∃ (dies : List DieReading), diesWf dies = false) :=
  ⟨
    ⟨{ in0 with image := [] }, by decide⟩,
    ⟨⟨.cpl, 4, .success, [], false, 1, []⟩, by decide⟩,
    ⟨16777215, [0, 0], by decide⟩,
    ⟨0, 0, by decide⟩,
    ⟨0, 4097, by decide⟩,
    ⟨.swap, 16, by decide⟩,
    ⟨[], by decide⟩,
    ⟨[], by decide⟩,
    ⟨lt0 3, reply0, by decide⟩,
    ⟨lt0 4, by decide⟩,
    ⟨31, by decide⟩,
    ⟨0, [], late, by decide⟩,
    ⟨[], by decide⟩,
    ⟨none, some [], by decide⟩,
    ⟨⟨0, 0, 6, 6, 1, 0, []⟩, by decide⟩,
    ⟨[0, 0, 0], by decide⟩,
    ⟨[], List.replicate 4194305 0, (by simp only [flashWf, List.length_replicate]; decide)⟩,
    ⟨List.replicate 9 ⟨0, 0⟩, by decide⟩⟩

theorem witness_ResetIsCold :
    (∃ (sel w : Nat), sel < 4294967296 ∧ w < 128) ∧
    (∃ (sel w : Nat), sel < 4294967296 ∧ w < 128) ∧
    (∃ (off : Nat), off < 2097152) :=
  ⟨
    ⟨4294967295, 127, by decide⟩,
    ⟨4294967295, 127, by decide⟩,
    ⟨2097151, by decide⟩⟩

theorem witness_EveryStepKeepsTablesCanonical :
    (∃ (s t : State), s.wf ∧ step s = .next t) :=
    ⟨{ (late.put bankState 0 1) with pending := [.bankDrained 0] }, (nxt (step { (late.put bankState 0 1) with pending := [.bankDrained 0] })), ⟨by decide, by decide, by decide, by decide, by decide⟩, rfl⟩

theorem witness_CommandsLeaveTheQueueAlone :
    (∃ (c : Instr) (s t : State), exec c s = .next t) :=
    ⟨.bankDrained 0, { (late.put bankState 0 1) with pending := [.bankDrained 0] }, (nxt (exec (.bankDrained 0) { (late.put bankState 0 1) with pending := [.bankDrained 0] })), rfl⟩

theorem witness_OnlyStoresAndResetsChangeCoordinationMemory :
    (∃ (c : Instr) (s t : State), touchesCm c = false ∧ exec c s = .next t ∧ t.power.phase ≠ .down) :=
    ⟨.bankDrained 0, (late.put bankState 0 1), (nxt (exec (.bankDrained 0) (late.put bankState 0 1))), by decide, rfl, by decide⟩

theorem witness_ResetsClearCoordinationMemoryAndOverlays :
    (∃ (x : Straps) (s t : State), s.power.phase = .off ∧ exec (.coldReset x) s = .next t) ∧
    (∃ (s : State), s.power.phase = .ready ∧ s.resetReady = false) ∧
    (∃ (s : State), s.running ∧ s.resetReady) ∧
    (∃ (s : State) (due : Nat), s.power.haltDue = some due ∧ s.power.phase = .halted ∧ due ≤ s.now) ∧
    (∃ (c : Instr) (s t : State), switchesOverlays c = false ∧ exec c s = .next t) :=
  ⟨
    ⟨⟨0, 0, true⟩, { late with power := { late.power with phase := .off } }, (nxt (exec (.coldReset ⟨0, 0, true⟩) { late with power := { late.power with phase := .off } })), by decide, rfl⟩,
    ⟨late, by decide⟩,
    ⟨{ late with power := { late.power with resetDue := some 100000000000 } }, by decide⟩,
    ⟨{ late with power := { late.power with phase := .halted, haltDue := some 100000000000 } }, 100000000000, by decide⟩,
    ⟨.bankDrained 0, (late.put bankState 0 1), (nxt (exec (.bankDrained 0) (late.put bankState 0 1))), by decide, rfl⟩⟩

theorem witness_RodsAndStatuses :
    (∃ (id : Nat) (s t : State) (p : Prog), s.prog id = some p ∧ p.phase = .waiting ∧ p.aborting = false ∧ exec (.programStart id) s = .next
      t) ∧
    (∃ (p : Prog), p.wf = true) ∧
    (∃ (id : Nat) (s : State) (p : Prog) (r : ObjReq), s.prog id = some p ∧ fCont r.iflags) ∧
    (∃ (s : State) (r : ObjReq), (s.applyObj r).status ≠ .ok ∧ (s.applyObj r).dst ≠ none) ∧
    (∃ (s : State) (cls sel : Nat) (r : ObjReq), s.objExists cls sel ∧ r.b 1 0 16 < s.imageLen cls sel ∧ rwMask cls (r.b 1 0 16) ≠ 0 ∧
      s.imageWord cls sel (r.b 1 0 16) ≠ r.w 2) ∧
    (∃ (s : State) (t : Nat) (r : ObjReq), ((s.opResize t r).status = .nores ∨ (s.opResize t r).status = .conflict)) :=
  ⟨
    ⟨1, (prS (late) { pr [0] with phase := .waiting, slot := false }), (nxt (exec (.programStart 1) (prS (late) { pr [0] with phase := .waiting, slot := false }))), { pr [0] with phase := .waiting, slot := false }, by decide, by decide, by decide, rfl⟩,
    ⟨{ pr [0] with rods := List.replicate 15 7 }, by decide⟩,
    ⟨1, (prS (late) { pr [0] with irq := false }), { pr [0] with irq := false }, { badReq with iflags := 1 }, by decide⟩,
    ⟨late.put devInjectArmUntil 0 1, ocasR, by decide⟩,
    ⟨late, cDevice, 0, ocasR, by decide⟩,
    ⟨((late.put tenState 4 1).put tenState 5 1).put (tenQuota.up 1) 5 1048576, 4, { badReq with op := 0x44, blk := [4, 1, 1] }, by decide⟩⟩

theorem witness_InjectionNeedsArming :
    (∃ (s : State), s.fld devInjectArmUntil 0 ≤ s.tide) ∧
    (∃ (r : ObjReq), (r.w 0).toNat < 16777216 ∧ checkerExists (r.w 0).toNat ∧ checkerInjectable (r.w 0).toNat ∧ r.b 1 16 2 < 2 ∧ r.b 1 0 16
      ≠ 0) ∧
    (∃ (s : State) (p : Prog) (r : ObjReq), r.op = 0x70 ∧ (s.applyObj r).status = .denied ∧ fCont r.iflags = false ∧ p.recorded.length ≤
      1024) ∧
    (∃ (s : State) (r : ObjReq), r.b 1 0 16 = 13 ∧ (r.w 3).toNat = 2 ^ 64 - 1 ∧ s.tide + 60000000000 < (r.w 2).toNat) ∧
    (∃ (s : State) (r : ObjReq), s.wf ∧ r.b 1 0 16 = 13 ∧ (r.w 3).toNat = 2 ^ 64 - 1 ∧ (r.w 2).toNat ≤ s.tide + 60000000000) :=
  ⟨
    ⟨late, by decide⟩,
    ⟨injR, by decide⟩,
    ⟨late, { pr [0] with irq := false }, injR, by decide⟩,
    ⟨late, armR 1, by decide⟩,
    ⟨late, armR 0, ⟨by decide, by decide, by decide, by decide, by decide⟩, by decide⟩⟩

theorem witness_AcknowledgementReleasesItsOwn :
    (∃ (s : State) (slot : Nat) (f : FaultRec), s.recIn slot = some f) :=
    ⟨recS rec0, 1, rec0, by decide⟩

theorem witness_ContainedObjectsRefuseChanges :
    (∃ (s : State) (r : ObjReq), r.inject = false ∧ isChange r.op ∧ s.exempt r = false ∧ s.objContained r.cls (s.selOf r)) ∧
    (∃ (s : State) (r : ObjReq), r.inject = false ∧ blockOk r ∧ selCheck r.cls (r.w 0) = none ∧ isChange r.op ∧ s.exempt r = false ∧
      s.objContained r.cls (s.selOf r) ∧ (s.runOp r.cls (s.selOf r) r).status = .ok) ∧
    (∃ (r : ObjReq), r.inject = false ∧ (r.w 0).toNat &&& selMask r.cls ≠ (r.w 0).toNat) ∧
    (∃ (r : ObjReq), r.inject = false ∧ (r.w 0).toNat &&& selMask r.cls = (r.w 0).toNat ∧ selInRange r.cls (r.w 0).toNat = false) :=
  ⟨
    ⟨contS, owrR, by decide⟩,
    ⟨contS, owrR, by decide⟩,
    ⟨{ owrR with blk := [9223372036854775808, 0, 0, 0] }, by decide⟩,
    ⟨{ owrR with sub := cPort, blk := [144, 0, 0, 0] }, by decide⟩⟩

theorem witness_ReadsGiveWordsAndVersions :
    (∃ (s : State) (cls sel : Nat) (r : ObjReq), s.objExists cls sel ∧ r.b 1 0 16 < s.imageLen cls sel) ∧
    (∃ (s : State) (cls sel : Nat) (r : ObjReq), s.objExists cls sel ∧ s.imageLen cls sel ≤ r.b 1 0 16) ∧
    (∃ (s : State), s.wf) ∧
    (∃ (cls sel w cls' sel' w' : Nat), wkey cls sel w ≠ wkey cls' sel' w') ∧
    (∃ (s : State) (cls sel w : Nat) (h : Shadow), s.shadowOf cls sel w = some h) ∧
    (∃ (s : State) (cls sel w : Nat), s.shadowOf cls sel w = none) ∧
    (∃ (s : State), s.wf) :=
  ⟨
    ⟨late, cDevice, 0, ocasR, by decide⟩,
    ⟨late, cDevice, 0, { ocasR with blk := [0, 0xFFFF, 0, 0] }, by decide⟩,
    ⟨late, ⟨by decide, by decide, by decide, by decide, by decide⟩⟩,
    ⟨cDevice, 0, 127, cDevice, 1, 0, by decide⟩,
    ⟨shadowS, cPort, 0, 3, ⟨wkey cPort 0 3, 255, 7⟩, by decide⟩,
    ⟨late, cPort, 0, 3, by decide⟩,
    ⟨late, ⟨by decide, by decide, by decide, by decide, by decide⟩⟩⟩

theorem witness_FieldsReadBack :
    (∃ (s : State) (f : Fld), s.wf ∧ f.lo + f.width ≤ 64) :=
    ⟨late, devInjectArmUntil, ⟨by decide, by decide, by decide, by decide, by decide⟩, by decide⟩

theorem witness_CountersSaturate :
    (∃ (s : State), s.wf) ∧
    (∃ (s : State) (id : Nat), s.wf ∧ s.ctr id = 2 ^ 48 - 1) ∧
    (∃ (s : State), s.wf) :=
  ⟨
    ⟨late, ⟨by decide, by decide, by decide, by decide, by decide⟩⟩,
    ⟨{ late with counters := { late.counters with vals := [(5, 281474976710655)] } }, 5, ⟨by decide, by decide, by decide, by decide, by decide⟩, by decide⟩,
    ⟨late, ⟨by decide, by decide, by decide, by decide, by decide⟩⟩⟩

theorem witness_AppliedStoresWriteTheirBytes :
    (∃ (s : State) (h : HeldStore), Memory.wf s.cm = true ∧ h.addr + h.data.length ≤ 8388608) :=
    ⟨late, { held0 with addr := 8388606 }, by decide⟩

theorem witness_CurrentLimitAndFaultTimer :
    (∃ (n : SlotId) (ma : Nat) (s : State), s.wf ∧ s.slotDie ∧ s.slotLive n.val ∧ s.fld slotInLimit n.val = 0 ∧ s.lim slotLimitMa n.val ≤
      ma) ∧
    (∃ (n : SlotId) (ma : Nat) (s : State), s.wf ∧ s.slotDie ∧ s.fld slotInLimit n.val = 1 ∧ ma * 100 < 95 * s.lim slotLimitMa n.val) ∧
    (∃ (n : SlotId) (s : State) (due : Nat), s.slotDie ∧ s.slotLive n.val ∧ (s.slotRun n.val).faultDue = some due ∧ due ≤ s.now) :=
  ⟨
    ⟨63, late.lim slotLimitMa 63, late.put slotState 63 slOn, ⟨by decide, by decide, by decide, by decide, by decide⟩, by decide⟩,
    ⟨63, late.lim slotLimitMa 63 * 95 / 100 - 1, late.put slotInLimit 63 1, ⟨by decide, by decide, by decide, by decide, by decide⟩, by decide⟩,
    ⟨63, (late.put slotState 63 slOn).setSlotRun { late.slotRun 63 with faultDue := some 100000000000 }, 100000000000, by decide⟩⟩

theorem witness_BankStatesMove :
    (∃ (b : BankId) (s : State), s.wf ∧ s.running ∧ s.fld bankState b.val = 3) ∧
    (∃ (b : BankId) (s : State), s.wf ∧ s.running ∧ s.fld bankState b.val = 1 ∧ s.bankUse b.val = 0) :=
  ⟨
    ⟨255, late.put bankState 255 3, ⟨by decide, by decide, by decide, by decide, by decide⟩, by decide⟩,
    ⟨0, late.put bankState 0 1, ⟨by decide, by decide, by decide, by decide, by decide⟩, by decide⟩⟩

theorem witness_InstructionFieldsRoundTrip :
    (∃ (op fl dst src sub imm : Nat), op < 256 ∧ fl < 16 ∧ dst < 16 ∧ src < 16 ∧ sub < 4096 ∧ imm < 4294967296) :=
    ⟨255, 15, 15, 15, 4095, 4294967295, by decide⟩

theorem witness_ConfigurationInstructionsApply_1 :
    rowMet (late) (objCode 0x20 cDevice [0, 8]) (fun r => decide (r.op = 0x20)) ∧
    rowMet (late) (objCode 0x22 cDevice [0, 8, 6553800, 6553800]) (fun r => decide (r.op = 0x22)) ∧
    rowMet (late) (objCode 0x30 0 [0, 1]) (fun r => decide (r.op = 0x30)) ∧
    rowMet (devS 0) (objCode 0x31 0 [0, 0]) (fun r => decide (r.op = 0x31 ∧ r.b 1 0 4 = 0)) ∧
    rowMet (devS 0) (objCode 0x31 0 [0, 1]) (fun r => decide (r.op = 0x31 ∧ r.b 1 0 4 = 1)) ∧
    rowMet (devS 3) (objCode 0x31 0 [0, 2]) (fun r => decide (r.op = 0x31 ∧ r.b 1 0 4 = 2)) := by decide

theorem witness_ConfigurationInstructionsApply_2 :
    rowMet (devS 3) (objCode 0x31 0 [0, 3]) (fun r => decide (r.op = 0x31 ∧ r.b 1 0 4 = 3)) ∧
    rowMet (devS 3) (objCode 0x31 0 [0, 4]) (fun r => decide (r.op = 0x31 ∧ r.b 1 0 4 = 4)) ∧
    rowMet (devS 3) (objCode 0x31 0 [0, 5]) (fun r => decide (r.op = 0x31 ∧ r.b 1 0 4 = 5)) ∧
    rowMet (late) (objCode 0x38 0 [1, 0x10000]) (fun r => decide (r.op = 0x38)) ∧
    rowMet (late) (objCode 0x39 0 [0, 1, 0]) (fun r => decide (r.op = 0x39)) ∧
    rowMet (fabS qlActive) (objCode 0x3A 0 [0, 0]) (fun r => decide (r.op = 0x3A ∧ r.b 1 0 1 = 0)) := by decide

theorem witness_ConfigurationInstructionsApply_3 :
    rowMet (fabS qlActive) (objCode 0x3A 0 [0, 1]) (fun r => decide (r.op = 0x3A ∧ r.b 1 0 1 = 1)) ∧
    rowMet (late) (objCode 0x69 cDevice [0, 0, 0, 0]) (fun r => decide (r.op = 0x69)) := by decide


theorem witness_TenancyAndLighterInstructionsApply_1 :
    rowMet (late) (objCode 0x40 0 [8191, 0]) (fun r => decide (r.op = 0x40 ∧ r.b 1 0 3 = 0)) ∧
    rowMet ((late.put tenState 4 1)) (objCode 0x40 0 [4, 1]) (fun r => decide (r.op = 0x40 ∧ r.b 1 0 3 = 1)) ∧
    rowMet ((late.put tenState 4 1)) (objCode 0x40 0 [4, 2]) (fun r => decide (r.op = 0x40 ∧ r.b 1 0 3 = 2)) ∧
    rowMet (late.put tenState 4 2) (objCode 0x40 0 [4, 3]) (fun r => decide (r.op = 0x40 ∧ r.b 1 0 3 = 3)) ∧
    rowMet ((late.put tenState 4 1)) (objCode 0x40 0 [4, 4]) (fun r => decide (r.op = 0x40 ∧ r.b 1 0 3 = 4)) ∧
    rowMet (hostS.put fnState (homeSel 7) 1) (objCode 0x41 0 [0xFFFF0007, word (0xFF * 2 ^ 32 + 3 * 2 ^ 24 + 5 * 2 ^ 16)]) (fun r => decide (r.op = 0x41)) := by decide

theorem witness_TenancyAndLighterInstructionsApply_2 :
    rowMet (boundS) (objCode 0x42 0 [0xFFFF0007, 0]) (fun r => decide (r.op = 0x42)) ∧
    rowMet (boundS) (objCode 0x43 cFunction [0xFFFF0007, 0, 0, 0]) (fun r => decide (r.op = 0x43)) ∧
    rowMet ((late.put tenState 4 1)) (objCode 0x44 0 [4, 1, 16]) (fun r => decide (r.op = 0x44)) ∧
    rowMet (late) (objCode 0x48 0 [8, 0, 0, 0, 0]) (fun r => decide (r.op = 0x48)) ∧
    rowMet (late) (objCode 0x49 0 [0, 0, 0, 0]) (fun r => decide (r.op = 0x49)) ∧
    rowMet (((((late.put tenState 4 1).put cqState 0 1).put cqTenantId 0 4)).put (tenQuota.up 1) 4 1) (objCode 0x50 0 [0, 0, 0, 4, 4, 4, 0, 0]) (fun r => decide (r.op = 0x50 ∧ r.b 1 0 3 = 0)) := by decide

theorem witness_TenancyAndLighterInstructionsApply_3 :
    rowMet (qpS.put qpState 0 qpError) (objCode 0x50 0 [0, 1, 0, 4, 4, 4, 0, 0]) (fun r => decide (r.op = 0x50 ∧ r.b 1 0 3 = 1)) ∧
    rowMet (qpS) (objCode 0x50 0 [0, 2]) (fun r => decide (r.op = 0x50 ∧ r.b 1 0 3 = 2)) ∧
    rowMet (qpS) (objCode 0x50 0 [0, 3]) (fun r => decide (r.op = 0x50 ∧ r.b 1 0 3 = 3)) ∧
    rowMet ((late.put tenState 4 1).put (tenQuota.up 2) 4 1) (objCode 0x51 0 [0, 0, 4096, 4]) (fun r => decide (r.op = 0x51)) ∧
    rowMet (late.put regRegistered 0 1) (objCode 0x52 0 [0]) (fun r => decide (r.op = 0x52)) ∧
    rowMet ((late.put tenState 4 1).put (tenQuota.up 3) 4 1) (objCode 0x53 0 [1, 0, 0, word (4 * 2 ^ 48 + 16)]) (fun r => decide (r.op = 0x53 ∧ r.b 1 0 2 = 0)) := by decide

theorem witness_TenancyAndLighterInstructionsApply_4 :
    rowMet (late.put cqState 1 1) (objCode 0x53 0 [1, 1]) (fun r => decide (r.op = 0x53 ∧ r.b 1 0 2 = 1)) ∧
    rowMet ((late.put cqState 1 1).put cqTenantId 1 4) (objCode 0x53 0 [1, 2, 0, word (4 * 2 ^ 48 + 65536)]) (fun r => decide (r.op = 0x53 ∧ r.b 1 0 2 = 2)) := by decide


set_option maxRecDepth 20000 in
theorem witness_SlotOverlayAndFaultInstructionsApply_1 :
    rowMet ((late.put slotPresent 63 1)) (objCode 0x58 0 [63, 0]) (fun r => decide (r.op = 0x58 ∧ r.b 1 0 2 = 0)) ∧
    rowMet ((late.put slotPresent 63 1)) (objCode 0x58 0 [63, 1]) (fun r => decide (r.op = 0x58 ∧ r.b 1 0 2 = 1)) ∧
    rowMet ((late.put slotPresent 63 1)) (objCode 0x58 0 [63, 2]) (fun r => decide (r.op = 0x58 ∧ r.b 1 0 2 = 2)) ∧
    rowMet (late) (objCode 0x58 0 [63, 3, late.baseWord cSlot 63 0, late.baseWord cSlot 63 1]) (fun r => decide (r.op = 0x58 ∧ r.b 1 0 2 = 3)) ∧
    rowMet (late) (objCode 0x59 0 [0, 0x1001, 0]) (fun r => decide (r.op = 0x59)) ∧
    rowMet (late) (objCode 0x60 0 [2, 0, 0, 80]) (fun r => decide (r.op = 0x60 ∧ r.b 1 0 2 = 0)) (some ovImage) := by decide

set_option maxRecDepth 20000 in
theorem witness_SlotOverlayAndFaultInstructionsApply_2 :
    rowMet ({ shadowS with activeOverlay := none }) (objCode 0x60 0 [2, 1]) (fun r => decide (r.op = 0x60 ∧ r.b 1 0 2 = 1)) ∧
    rowMet (shadowS) (objCode 0x60 0 [2, 2]) (fun r => decide (r.op = 0x60 ∧ r.b 1 0 2 = 2)) ∧
    rowMet ({ shadowS with activeOverlay := none }) (objCode 0x60 0 [2, 3]) (fun r => decide (r.op = 0x60 ∧ r.b 1 0 2 = 3)) ∧
    rowMet (snapS job0 0) (objCode 0x68 0 [3, 0, 0]) (fun r => decide (r.op = 0x68)) ∧
    rowMet (late.put devInjectArmUntil 0 100000000001) (objCode 0x70 0 [0x10000, 1]) (fun r => decide (r.op = 0x70)) ∧
    rowMet (recS rec0) (objCode 0x71 0 [1, 1]) (fun r => decide (r.op = 0x71)) := by decide


theorem witness_ImageWritesApply_1 :
    rowMet (late) (owrC) (fun r => decide (r.op = 0x21 ∧ r.ownRow = false)) ∧
    rowMet (late) (owCode devFabricId 0 4095) (fun r => decide (r.op = 0x21 ∧ r.hits [devFabricId] = true)) ∧
    rowMet (late) (objCode 0x21 cDevice [0, 12, 0x914400000001, 0xFFFF00000003]) (fun r => decide (r.op = 0x21 ∧ r.hits [rstAction] = true ∧ rstAction.of (r.w 2) = 1)) ∧
    rowMet (late) (objCode 0x21 cDevice [0, 12, 0x914400000002, 0xFFFF00000003]) (fun r => decide (r.op = 0x21 ∧ r.hits [rstAction] = true ∧ rstAction.of (r.w 2) = 2)) ∧
    rowMet (late) (owCode devInjectArmUntil 0 160000000000) (fun r => decide (r.op = 0x21 ∧ r.hits [devInjectArmUntil] = true)) ∧
    rowMet (late) (owCode bankTargetState 255 2) (fun r => decide (r.op = 0x21 ∧ r.hits [bankTargetState] = true)) := by decide

theorem witness_ImageWritesApply_2 :
    rowMet (late.put bankState 255 2) (owCode bankTest 255 1) (fun r => decide (r.op = 0x21 ∧ r.hits [bankTest] = true)) ∧
    rowMet (late) (owCode laneTargetState (selOfLane 0) 2) (fun r => decide (r.op = 0x21 ∧ r.hits [laneTargetState] = true)) ∧
    rowMet ((late.lput laneTargetState 0 1).lput laneRxState 0 4) (owCode laneCheckPattern (selOfLane 0) 1) (fun r => decide (r.op = 0x21 ∧ r.hits [laneLoop, laneGenPattern, laneCheckPattern] = true)) ∧
    rowMet (late) (owCode laneClearCheck (selOfLane 0) 1) (fun r => decide (r.op = 0x21 ∧ r.hits [laneClearCheck] = true)) ∧
    rowMet ((fabS qlActive).lput laneRxState 0 2) (owCode laneMarginGo (selOfLane 0) 1) (fun r => decide (r.op = 0x21 ∧ r.hits [laneMarginGo] = true)) ∧
    rowMet (late) (owCode laneTxPre (selOfLane 0) 1) (fun r => decide (r.op = 0x21 ∧ r.hits [laneTxPre, laneTxPost] = true)) := by decide

theorem witness_ImageWritesApply_3 :
    rowMet (late) (owCode slotTest 63 1) (fun r => decide (r.op = 0x21 ∧ r.hits [slotTest] = true)) ∧
    rowMet (late) (owCode slotTargetState 63 2) (fun r => decide (r.op = 0x21 ∧ r.hits [slotTargetState] = true)) ∧
    rowMet (late) (owCode slotAutoOn 63 1) (fun r => decide (r.op = 0x21 ∧ r.hits [slotAutoOn] = true)) ∧
    rowMet (late) (owCode slotClearEnergy 63 1) (fun r => decide (r.op = 0x21 ∧ r.hits [slotClearEnergy] = true)) ∧
    rowMet (late) (owCode slotPeakMa 63 0) (fun r => decide (r.op = 0x21 ∧ r.hits [slotPeakMa] = true)) ∧
    rowMet (late) (owCode feedTargetState 1 0) (fun r => decide (r.op = 0x21 ∧ r.hits [feedTargetState] = true)) := by decide

theorem witness_ImageWritesApply_4 :
    rowMet (late) (owCode meterClearCounts 1 1) (fun r => decide (r.op = 0x21 ∧ r.hits [meterClearCounts] = true)) ∧
    rowMet (late) (owCode sqMaxDepthCells 0 0) (fun r => decide (r.op = 0x21 ∧ r.hits [sqMaxDepthCells, sqMaxHeadDelay] = true)) ∧
    rowMet (late) (owCode (wearTempPeak.up 9) 0 0) (fun r => decide (r.op = 0x21 ∧ r.hits ((List.range 10).map wearTempPeak.up) = true)) ∧
    rowMet (late) (owCode tideSource 0 1) (fun r => decide (r.op = 0x21 ∧ r.hits [tideSource, tideSourcePort] = true)) ∧
    rowMet (sdS) (objCode 0x21 cSdramChannel [11, 1, 2, 3]) (fun r => decide (r.op = 0x21 ∧ r.cls = cSdramChannel ∧ r.b 1 0 16 = 1 ∧ (bitsOf (r.w 3) 0 2 ≠ 0))) ∧
    rowMet (hostS) (owCode viewOwnerTenant 5 0) (fun r => decide (r.op = 0x21 ∧ r.hits [viewPort, viewOwnerTenant, viewFmQueue] = true)) := by decide

theorem witness_ImageWritesApply_5 :
    rowMet (devS 0) (owCode portSlotCount 0 0) (fun r => decide (r.op = 0x21 ∧ r.hits [portSlotBase, portSlotCount] = true)) ∧
    rowMet (late) (owCode snapRequireFrozen 255 1) (fun r => decide (r.op = 0x21 ∧ (r.cls = cSnapshotSet))) ∧
    rowMet (late) (owCode (ringFld ringHostView 7) 0 95) (fun r => decide (r.op = 0x21 ∧ r.cls = cDevice ∧ (16 ≤ r.b 1 0 16) ∧ (r.b 1 0 16 ≤ 31))) ∧
    rowMet (fabS 0) (owCode qlRxPoolUnits 0 2048) (fun r => decide (r.op = 0x21 ∧ r.hits [qlRxPoolUnits] = true)) := by decide


/-- Every row of Table 2-7 stands at its instruction; the branches with a condition that holds and one that does not. -/
theorem witness_ArithmeticInstructionsCompute :
    ([0x10, 0x11, 0x12, 0x13, 0x14, 0x15, 0x16, 0x17, 0x18, 0x19, 0x08, 0x09, 0x0A, 0x0B].all (fun op =>
      [0, 1, 0x8000000000000000].all (fun (v : Word) =>
        let p := { pr [instrWord op 0 1 1 0 5] with rods := v :: List.replicate 14 0 }
        let s := prS late p
        decide (s.prog 1 = some p) && s.atInstr p && !p.aborting && decide (iOpcode p.instr = op)))) = true := by decide

end Sys2Proof.Tests
end

section
/-! SUPPORT. Fields of image words (R6, R8): what a written word and the image read as, bit by bit. -/

namespace Sys2Proof.Machine

/-- A number whose field `[lo + width − 1 : lo]` is replaced, as the bits above the field, the field, and the bits below it. -/
theorem replaceField_eq (n lo width v : Nat) :
    n - n / 2 ^ lo % 2 ^ width * 2 ^ lo + v * 2 ^ lo = 2 ^ lo * (2 ^ width * (n / 2 ^ lo / 2 ^ width) + v) + n % 2 ^ lo := by
  have hlow : n = 2 ^ lo * (n / 2 ^ lo) + n % 2 ^ lo := (Nat.div_add_mod _ _).symm
  have hhigh : n / 2 ^ lo = 2 ^ width * (n / 2 ^ lo / 2 ^ width) + n / 2 ^ lo % 2 ^ width := (Nat.div_add_mod _ _).symm
  have hn : n = 2 ^ lo * (2 ^ width * (n / 2 ^ lo / 2 ^ width)) + 2 ^ lo * (n / 2 ^ lo % 2 ^ width) + n % 2 ^ lo := by
    rw [← Nat.mul_add, ← hhigh, ← hlow]
  rw [Nat.mul_add, Nat.mul_comm _ (2 ^ lo), Nat.mul_comm v]
  omega

/-- A written word's bits: the value's inside the field, its own outside it. -/
theorem getLsbD_setBits (w : Word) (lo width v : Nat) {i : Nat} (hi : i < 64) :
    (setBits w lo width v).getLsbD i = if lo ≤ i ∧ i < lo + width then v.testBit (i - lo) else w.getLsbD i := by
  have hlow : w.toNat % 2 ^ lo < 2 ^ lo := Nat.mod_lt _ (by positivity)
  have hfield : v % 2 ^ width < 2 ^ width := Nat.mod_lt _ (by positivity)
  rw [setBits, BitVec.getLsbD_ofNat, replaceField_eq, Nat.testBit_two_pow_mul_add _ hlow]
  simp only [hi, decide_true, Bool.true_and]
  by_cases hbelow : i < lo
  · rw [if_pos hbelow, if_neg (by omega), Nat.testBit_mod_two_pow]
    simp [hbelow, BitVec.getLsbD]
  · rw [if_neg hbelow, Nat.testBit_two_pow_mul_add _ hfield]
    by_cases hin : i - lo < width
    · rw [if_pos hin, if_pos (by omega), Nat.testBit_mod_two_pow]
      simp [hin]
    · rw [if_neg hin, if_neg (by omega), Nat.testBit_div_two_pow, Nat.testBit_div_two_pow, BitVec.getLsbD]
      congr 1
      omega

/-- A field of a written word reads as the value modulo the field's width. -/
theorem bitsOf_setBits_same (w : Word) {lo width : Nat} (v : Nat) (h : lo + width ≤ 64) :
    bitsOf (setBits w lo width v) lo width = v % 2 ^ width := by
  apply Nat.eq_of_testBit_eq
  intro j
  rw [bitsOf, Nat.testBit_mod_two_pow, Nat.testBit_mod_two_pow, Nat.testBit_div_two_pow]
  by_cases hj : j < width
  · have hbit := getLsbD_setBits w lo width v (i := lo + j) (by omega)
    rw [if_pos (by omega), BitVec.getLsbD, Nat.add_sub_cancel_left] at hbit
    rw [Nat.add_comm j lo, hbit]
  · simp [hj]

/-- A read after a write to the same word of an image gives what was written. -/
theorem State.baseWord_putWord_same {s : State} (hs : s.wf) (cls sel w : Nat) (v : Word) : (s.putWord cls sel w v).baseWord cls sel w = v :=
  tget_tput_same coldAt s.objs (wkey cls sel w) v hs.objs

/-- A write of a word of an image leaves every other word alone. -/
theorem State.baseWord_putWord_other (s : State) {cls sel w cls' sel' w' : Nat} (v : Word) (h : wkey cls' sel' w' ≠ wkey cls sel w) :
    (s.putWord cls sel w v).baseWord cls' sel' w' = s.baseWord cls' sel' w' :=
  tget_tput_other _ _ s.objs _ _ v h

/-- A field that is written reads back modulo its width. -/
theorem State.base_put_same {s : State} (hs : s.wf) (f : Fld) (sel v : Nat) (hf : f.lo + f.width ≤ 64) :
    (s.put f sel v).base f sel = v % 2 ^ f.width := by
  rw [State.base, State.put, State.baseWord_putWord_same hs, bitsOf_setBits_same _ _ hf]

/-- A write of a field leaves the bits of its word that lie outside the field alone. -/
theorem State.getLsbD_baseWord_put {s : State} (hs : s.wf) (f : Fld) (sel v : Nat) {i : Nat} (hi : i < 64)
    (hout : i < f.lo ∨ f.lo + f.width ≤ i) :
    ((s.put f sel v).baseWord f.cls sel f.word).getLsbD i = (s.baseWord f.cls sel f.word).getLsbD i := by
  rw [State.put, State.baseWord_putWord_same hs, getLsbD_setBits _ _ _ _ hi, if_neg (by omega)]

end Sys2Proof.Machine
end

section
/-! SUPPORT. When the commands that end an outstanding request act, and what they then do (R3, R148, R150, R319). -/

namespace Sys2Proof.Machine

/-- A completion that an edge link brings goes to its entry, where `State.completionIn` takes it or discards and counts it (R148). -/
theorem execCompletionReceived_edge {p : PortId} {c : CompletionIn} {s : State} (hbytes : packetWf c.image.length) (htakes : s.takesPackets p.val)
    (hedge : s.role p.val ≠ roleFabric) (hkind : kindOf c.req = .completion) :
    exec (.completionReceived p c) s = .next (s.completionIn p.val c) := by
  show execCompletionReceived p c s = _
  rw [execCompletionReceived]
  simp [hbytes, htakes, hedge, hkind]

/-- An entry whose time has run out closes with Completer Abort; the record names its function, or its port where it has none (R319). -/
theorem execCompletionTimeout_due {p : PortId} {tag : Nat} {s : State} {r : ReqEntry} (hrun : s.running)
    (hdue : s.fabric.reqs.find? (fun r => decide (r.port = p.val) && !r.inbound && decide (r.tag = tag) && decide (r.due ≤ s.now)) = some r) :
    exec (.completionTimeout p tag) s = .next (((if r.slot < 16384 then s.count (ctrId 0x06 8 r.slot 4) 1 else s).closeReq .completerAbort r).raise
      { grade := 1, checker := checkerId 0x16 p.val, cls := if r.slot < 16384 then cFunction else cPort
        sel := if r.slot < 16384 then homeSel r.slot else p.val, syn0 := r.requester * 65536 + r.origTag
        syn1 := s.fld portCplTimeoutMs p.val * 1000000, action := 0, key := 0 }) := by
  show execCompletionTimeout p tag s = _
  rw [execCompletionTimeout, hdue]
  by_cases hslot : r.slot < 16384 <;> simp [hrun, hslot]

/-- A remote read of coordination memory that is out of time closes in the same way, with its flow in the record (R150). -/
theorem execRemoteCmReadTimeout_due {entry : Nat} {s : State} {r : ReqEntry} (hrun : s.running)
    (hdue : s.openReqs.find? (fun r => decide (r.id = entry) && r.cm && decide (r.due ≤ s.now) && !s.dataBack r) = some r) :
    exec (.remoteCmReadTimeout entry) s = .next ((s.closeReq .completerAbort r).raise
      { grade := 1, checker := checkerId 0x16 r.port, cls := cPort, sel := r.port, syn0 := flowSyn r.flow r.gen, syn1 := 0, action := 0
        key := 52 }) := by
  show execRemoteCmReadTimeout entry s = _
  rw [execRemoteCmReadTimeout, hdue]
  simp only [if_pos hrun]

/-- A standing edge link that goes down runs `State.edgeLinkDown`, which closes its entries (R3). -/
theorem execEdgeLinkDownClose_stands {p : PortId} {s : State} (hrun : s.running) (hlane : s.lane0 p.val = p.val) (hstands : s.edgeStands p.val) :
    exec (.edgeLinkDownClose p) s = .next (s.edgeLinkDown p.val 0) := by
  show execEdgeLinkDownClose p s = _
  rw [execEdgeLinkDownClose]
  simp [hrun, hlane, hstands]

end Sys2Proof.Machine
end

section
/-! SUPPORT. What each row of the table of commands leaves alone. A row answers one of a few states, each reached by shared operations whose own
laws stand in the files Laws/Keeps*.lean: every lemma here splits a row along its branches and composes the laws of the operations on each. -/

namespace Sys2Proof.Machine

/-! ### Answers -/

/-- Where a command answers a next state, `R` holds from the state before it to that state. -/
structure Ends (R : State → State → Prop) (s : State) (o : Host.Outcome State Fault Refusal) : Prop where
  of_next : ∀ t, o = .next t → R s t

theorem Ends.next {R : State → State → Prop} {s t : State} (h : R s t) : Ends R s (.next t) :=
  ⟨fun _ e => Host.Outcome.next.inj e ▸ h⟩

/-- A row that branches keeps what both of its branches keep. -/
theorem Ends.ite {R : State → State → Prop} {s : State} {c : Prop} [Decidable c] {a b : Host.Outcome State Fault Refusal}
    (ha : Ends R s a) (hb : Ends R s b) : Ends R s (if c then a else b) := by
  split <;> assumption

theorem Ends.ofKeeps {s : State} {o : Host.Outcome State Fault Refusal} (h : Ends Keeps s o) : Ends Safe s o :=
  ⟨fun t e => (h.of_next t e).toSafe⟩

theorem Ends.ofStores {s : State} {o : Host.Outcome State Fault Refusal} (h : Ends Stores s o) : Ends Safe s o :=
  ⟨fun t e => (h.of_next t e).toSafe⟩

theorem Stores.refl (s : State) : Stores s s := (Keeps.refl s).toStores
theorem Safe.refl (s : State) : Safe s s := (Keeps.refl s).toSafe

theorem State.orWait_stores (s t : State) (h : Stores s t) : Stores s (State.orWait s t) := Stores.ite (Stores.refl s) h

/-- A state may take over the counters of another one whose values are canonical too. -/
theorem Keeps.withCounters {s t u : State} (h : Keeps s t) (k : Keeps s u) (c : Counters) (hc : c.vals = u.counters.vals) :
    Keeps s { t with counters := c } := by
  obtain ⟨hpending, hcm, hoverlays, hactive, hobjs, hregs, hvers, -⟩ := h
  obtain ⟨-, -, -, -, -, -, -, hvals⟩ := k
  exact ⟨hpending, hcm, hoverlays, hactive, hobjs, hregs, hvers, fun hs => (congrArg _ hc).trans (hvals hs)⟩

/-- An update of what is kept beside the counters' values leaves the values alone. -/
theorem Keeps.upCounters {s t : State} (h : Keeps s t) (c : Counters) (hc : c.vals = t.counters.vals) : Keeps s { t with counters := c } :=
  h.withCounters h c hc

/-! ### Rows that execute one instruction -/

/-- A row of one instruction, where what the instruction does leaves the queue and the overlays alone. -/
theorem State.instrRow_stores (s : State) (id : Nat) (want : Prog → Bool) (f : State → Prog → State) (hf : ∀ t p, Stores t (f t p)) :
    Ends Stores s (s.instrRow id want f) := by
  unfold State.instrRow
  split
  · exact .next (.refl _)
  · exact .ite (.next (State.orWait_stores _ _ (.ite (State.endProg_stores ..) ((State.upd_keeps ..).toStores.trans (hf ..)))))
      (.next (.refl _))

/-- The same, where the instruction may switch overlays. -/
theorem State.instrRow_safe (s : State) (id : Nat) (want : Prog → Bool) (f : State → Prog → State) (hf : ∀ t p, Safe t (f t p)) :
    Ends Safe s (s.instrRow id want f) := by
  unfold State.instrRow
  split
  · exact .next (.refl _)
  · exact .ite (.next (State.orWait_safe _ _ (.ite (State.endProg_stores ..).toSafe ((State.upd_keeps ..).toSafe.trans (hf ..)))))
      (.next (.refl _))

theorem State.rodRow_stores (s : State) (id op : Nat) (f : Prog → Word) : Ends Stores s (s.rodRow id op f) :=
  s.instrRow_stores id _ _ fun _ _ => (State.proceed_keeps ..).toStores

theorem State.branchRow_stores (s : State) (id op : Nat) (c : Word → Bool) : Ends Stores s (s.branchRow id op c) :=
  s.instrRow_stores id _ _ fun _ _ => (State.proceed_keeps ..).toStores

/-- Every object instruction has the one row: it runs now, is staged, or waits for its drain. -/
theorem State.objRow_safe (s : State) (id : Nat) (want : ObjReq → Bool) (image : Option (List Word)) :
    Ends Safe s (s.objRow id want image) :=
  s.instrRow_safe id _ _ fun _ _ => .ite (State.upd_keeps ..).toSafe (State.objNow_safe ..)

/-! ### Rows of coordination memory (R195 to R213) -/

theorem execCmPostedWrite_stores (a : Agent) (offset : Nat) (data : List Byte) (cells : List CellIdx) (s : State) :
    Ends Stores s (execCmPostedWrite a offset data cells s) := by
  unfold execCmPostedWrite
  dsimp only
  refine .ite (.next (.refl _)) (.ite (.next (.refl _)) ?_)
  split
  · exact .next ((State.finish_stores ..).trans (State.writeArrives_keeps ..).toStores)
  · refine .ite (.next ((State.cmRefuse_keeps ..).toStores.trans (State.winDiscard_keeps ..).toStores |>.trans (State.farDone_keeps ..).toStores)) ?_
    exact .next ((State.finish_stores ..).trans (State.count_keeps ..).toStores |>.trans (State.storeLine_stores ..))

theorem execHeldStoreApplied_stores (v : ViewId) (line : Nat) (s : State) : Ends Stores s (execHeldStoreApplied v line s) := by
  unfold execHeldStoreApplied
  split
  · exact .next (.refl _)
  · exact .ite (.next (.refl _)) (.next (State.applyHeld_stores ..))

theorem execCmRead_stores (a : Agent) (offset len tag : Nat) (cells : List CellIdx) (s : State) :
    Ends Stores s (execCmRead a offset len tag cells s) := by
  unfold execCmRead
  dsimp only
  refine .ite (.next (.refl _)) (.ite (.next (.refl _)) ?_)
  split
  · exact .next (State.remoteAccess_keeps ..).toStores
  · exact .ite (.next (State.cmDenyRead_keeps ..).toStores) (.next ((State.count_keeps ..).toStores.trans (State.readLine_stores ..)))

theorem execReservedLoad_stores (v : ViewId) (offset len tag : Nat) (s : State) : Ends Stores s (execReservedLoad v offset len tag s) := by
  unfold execReservedLoad
  dsimp only
  refine .ite (.next (.refl _)) (.ite (.next (.refl _)) (.ite (.next (State.toAgentErr_keeps ..).toStores) ?_))
  refine .ite (.next (State.cmDenyRead_keeps ..).toStores) ?_
  refine .ite (.next (State.toAgentErr_keeps ..).toStores) ?_
  exact .next ((State.drainFor_stores ..).trans (State.dropResv_keeps ..).toStores |>.trans (State.upCms_keeps ..).toStores
      |>.trans (State.count_keeps ..).toStores |>.trans (State.toAgent_keeps ..).toStores)

theorem execConditionalStoreApplied_stores (v : ViewId) (line : Nat) (s : State) : Ends Stores s (execConditionalStoreApplied v line s) := by
  unfold execConditionalStoreApplied
  dsimp only
  split
  · exact .next (.refl _)
  · exact .ite (.next (.refl _)) (.next ((State.applyHeld_stores ..).trans (State.scAnswer_keeps ..).toStores))

theorem execReservationExpiry_keeps (a : Agent) (s : State) : Ends Keeps s (execReservationExpiry a s) := by
  unfold execReservationExpiry
  dsimp only
  exact .next (State.upCms_keeps ..)

theorem execCmAtomicOp_stores (a : Agent) (op : AtomicKind) (offset size operand1 operand2 tag : Nat) (cells : List CellIdx) (s : State) :
    Ends Stores s (execCmAtomicOp a op offset size operand1 operand2 tag cells s) := by
  unfold execCmAtomicOp
  dsimp only
  refine .ite (.next (.refl _)) (.ite (.next (.refl _)) ?_)
  split
  · exact .next (.ite (State.toAgentErr_keeps ..).toStores (State.remoteAccess_keeps ..).toStores)
  · refine .ite (.next (State.cmDenyRead_keeps ..).toStores) ?_
    refine .ite (.next (State.toAgentErr_keeps ..).toStores) ?_
    exact .next ((State.finish_stores ..).trans (State.drainFor_stores ..) |>.trans (State.applyStore_stores ..)
        |>.trans (State.addSat_keeps ..).toStores |>.trans (State.count_keeps ..).toStores |>.trans (State.toAgent_keeps ..).toStores)

theorem execTrackedWriteVisible_keeps (v : ViewId) (id : Nat) (s : State) : Ends Keeps s (execTrackedWriteVisible v id s) := by
  unfold execTrackedWriteVisible
  dsimp only
  exact .ite (.next (.refl _)) (.next ((State.ltVisible_keeps ..).trans (State.farVisible_keeps ..) |>.trans (State.upCms_keeps ..)))

theorem execCmBarrier_keeps (v : ViewId) (value : BitVec 32) (s : State) : Ends Keeps s (execCmBarrier v value s) := by
  unfold execCmBarrier
  exact .next (.ite (State.writeArrives_keeps ..) (.refl _))

theorem execBarrierComplete_keeps (v : ViewId) (s : State) : Ends Keeps s (execBarrierComplete v s) := by
  unfold execBarrierComplete
  exact .ite (.next (State.barrierDone_keeps ..)) (.next (.refl _))

theorem execCmBarrierStatusRead_keeps (v : ViewId) (tag : Nat) (s : State) : Ends Keeps s (execCmBarrierStatusRead v tag s) := by
  unfold execCmBarrierStatusRead
  dsimp only
  exact .ite (.next (.refl _)) (.ite (.next (State.hostReply_keeps ..)) (.next (State.upCms_keeps ..)))

theorem execBarrierStatusHoldExpiry_keeps (v : ViewId) (s : State) : Ends Keeps s (execBarrierStatusHoldExpiry v s) := by
  unfold execBarrierStatusHoldExpiry
  dsimp only
  split
  · exact .next (State.barriersDone_keeps ..)
  · exact .next ((State.barriersDone_keeps ..).trans (State.upCms_keeps ..) |>.trans (State.hostReply_keeps ..))

theorem execCmScStatusRead_keeps (v : ViewId) (tag : Nat) (s : State) : Ends Keeps s (execCmScStatusRead v tag s) := by
  unfold execCmScStatusRead
  dsimp only
  exact .ite (.next (.refl _)) (.next ((State.upCms_keeps ..).trans (State.scAnswer_keeps ..)))

/-! ### Rows of the Lighter engine (R215 to R246) -/

theorem execDoorbellSend_keeps (f : LighterFn) (whole : Bool) (value : Word) (s : State) : Ends Keeps s (execDoorbellSend f whole value s) := by
  unfold execDoorbellSend
  dsimp only
  exact .ite (.next (.refl _)) (.ite (.next (State.setRun_keeps ..)) (.next (State.dbError_keeps ..)))

theorem execDoorbellRecv_keeps (f : LighterFn) (whole : Bool) (value : Word) (s : State) : Ends Keeps s (execDoorbellRecv f whole value s) := by
  unfold execDoorbellRecv
  dsimp only
  exact .ite (.next (.refl _)) (.ite (.next (State.setRun_keeps ..)) (.next (State.dbError_keeps ..)))

theorem execDoorbellCqArm_keeps (f : LighterFn) (whole : Bool) (value : Word) (s : State) : Ends Keeps s (execDoorbellCqArm f whole value s) := by
  unfold execDoorbellCqArm
  dsimp only
  refine .ite (.next (.refl _)) ?_
  refine .ite (.next ((State.put_keeps ..).trans (State.put_keeps ..) |>.trans (.ite (State.cqInterrupt_keeps ..) (.refl _)))) ?_
  exact .next (State.dbError_keeps ..)

theorem execDoorbellCqConsumer_keeps (f : LighterFn) (whole : Bool) (value : Word) (s : State) :
    Ends Keeps s (execDoorbellCqConsumer f whole value s) := by
  unfold execDoorbellCqConsumer
  dsimp only
  exact .ite (.next (.refl _)) (.ite (.next (State.put_keeps ..)) (.next (State.dbError_keeps ..)))

theorem execWorkRequestStart_keeps (q : QpId) (wr : Option (List Word)) (s : State) : Ends Keeps s (execWorkRequestStart q wr s) := by
  unfold execWorkRequestStart
  dsimp only
  refine .ite (.next (.refl _)) (.ite (.next (.refl _)) ?_)
  split
  · exact .next (State.ctxMiss_keeps ..)
  · exact .next ((State.touchAll_keeps ..).trans (State.hostReads_keeps ..) |>.trans (State.setRun_keeps ..) |>.trans (State.ltCount_keeps ..))

theorem execLighterPacketSend_keeps (q : QpId) (payload : Option (List Byte)) (s : State) : Ends Keeps s (execLighterPacketSend q payload s) := by
  unfold execLighterPacketSend
  dsimp only
  split
  · exact .next (.refl _)
  · refine .ite (.next (.refl _)) (.ite (.next (.refl _)) ?_)
    split
    · exact .next (State.ctxMiss_keeps ..)
    · refine .ite (.next ((State.touchAll_keeps ..).trans (State.failWr_keeps ..))) ?_
      split
      · exact .next ((State.touchAll_keeps ..).trans (State.sendWait_keeps ..))
      · split
        · exact .next ((State.touchAll_keeps ..).trans (State.hostReads_keeps ..) |>.trans (State.failWr_keeps ..))
        · exact .next ((State.touchAll_keeps ..).trans (State.hostReads_keeps ..) |>.trans (State.ltSend_keeps ..))

theorem execRetransmissionTimerExpiry_keeps (q : QpId) (s : State) : Ends Keeps s (execRetransmissionTimerExpiry q s) := by
  unfold execRetransmissionTimerExpiry
  dsimp only
  split
  · exact .next (.refl _)
  · refine .ite (.next (.refl _)) ?_
    refine .ite ?_ ?_
    · split
      · exact .next (.refl _)
      · exact .next (State.failWr_keeps ..)
    · exact .next ((State.put_keeps ..).trans (State.put_keeps ..) |>.trans (State.setRun_keeps ..) |>.trans (State.resends_keeps ..))

theorem execLighterRequestReceived_keeps (pk : LighterPkt) (host : HostReply) (s : State) : Ends Keeps s (execLighterRequestReceived pk host s) := by
  unfold execLighterRequestReceived
  exact .ite (.next (.refl _)) (.next (State.ltArrive_keeps ..))

theorem execAckReceived_keeps (pk : LighterPkt) (s : State) : Ends Keeps s (execAckReceived pk s) := by
  unfold execAckReceived
  exact .ite (.next (.refl _)) (.next (State.ltArrive_keeps ..))

theorem execNakReceived_keeps (pk : LighterPkt) (s : State) : Ends Keeps s (execNakReceived pk s) := by
  unfold execNakReceived
  exact .ite (.next (.refl _)) (.next (State.ltArrive_keeps ..))

theorem execLighterResponseReceived_keeps (pk : LighterPkt) (s : State) : Ends Keeps s (execLighterResponseReceived pk s) := by
  unfold execLighterResponseReceived
  exact .ite (.next (.refl _)) (.next (State.ltArrive_keeps ..))

theorem execTranslationComplete_keeps (v : ViewId) (pasid : Option Nat) (page log2Size : Nat) (dst : Option Nat) (s : State) :
    Ends Keeps s (execTranslationComplete v pasid page log2Size dst s) := by
  unfold execTranslationComplete
  dsimp only
  refine .ite (.next (.refl _)) (.ite (.next (.refl _)) ?_)
  exact .next ((State.upLighter_keeps ..).trans (.ite (State.ltResume_keeps ..) ((State.ltPagesFailed_keeps ..).trans (State.sendsFailed_keeps ..))))

theorem execInvalidateRequest_keeps (v : ViewId) (pasid : Option Nat) (page pages : Nat) (s : State) :
    Ends Keeps s (execInvalidateRequest v pasid page pages s) := by
  unfold execInvalidateRequest
  dsimp only
  exact .ite (.next (.refl _)) (.next ((State.upLighter_keeps ..).trans (State.emit_keeps ..)))

theorem execAckSend_keeps (q : QpId) (s : State) : Ends Keeps s (execAckSend q s) := by
  unfold execAckSend
  dsimp only
  exact .ite (.next (.refl _)) (.next ((State.setRun_keeps ..).trans (State.ltToPeer_keeps ..)))

theorem execFenceResponseReady_keeps (q : QpId) (s : State) : Ends Keeps s (execFenceResponseReady q s) := by
  unfold execFenceResponseReady
  dsimp only
  split
  · exact .next (.refl _)
  · exact .ite (.next (.refl _)) (.next ((State.setRun_keeps ..).trans (State.ltToPeer_keeps ..)))

theorem execWorkRequestCommit_keeps (q : QpId) (recv : Bool) (entry : Option (List Word)) (s : State) :
    Ends Keeps s (execWorkRequestCommit q recv entry s) := by
  unfold execWorkRequestCommit
  extract_lets cq
  refine .ite (.next (.refl _)) (.ite (.next (.refl _)) (.ite ?_ ?_))
  · split
    · exact .next (.refl _)
    next s1 m hdue =>
      have due : Keeps s s1 := State.recvDue_keeps s q.val entry _ hdue
      split
      · exact .next (State.ctxMiss_keeps ..)
      · exact .next ((due.trans (State.touchAll_keeps ..)).trans (State.commitRecv_keeps ..))
  · split
    · exact .next (.refl _)
    next s1 w signal hdue =>
      have due : Keeps s s1 := State.sendDue_keeps s q.val entry _ hdue
      extract_lets ks
      split
      · exact .next (State.ctxMiss_keeps ..)
      · exact .next ((due.trans (State.touchAll_keeps ..)).trans (State.commitSend_keeps ..))

theorem execRevokeComplete_keeps (r : Fin 4194304) (s : State) : Ends Keeps s (execRevokeComplete r s) := by
  unfold execRevokeComplete
  dsimp only
  split
  · exact .next (.refl _)
  · refine .ite (.next (.refl _)) ?_
    exact .next ((State.upLighter_keeps ..).trans (State.nakAll_keeps ..) |>.trans (State.regionGone_keeps ..))

/-! ### Rows of spill and context fills (R263, R245) -/

theorem execReplaySpill_keeps (p : PortId) (s : State) : Ends Keeps s (execReplaySpill p s) := by
  unfold execReplaySpill
  dsimp only
  refine .ite (.next (.refl _)) ?_
  refine .ite (.next (.ite ((State.setQlp_keeps ..).trans (State.served_keeps ..) |>.trans (State.sdramAccess_keeps ..)) (.refl _))) ?_
  exact .ite (.next (.refl _)) (.next ((State.setQlp_keeps ..).trans (State.portCount_keeps ..)))

theorem execContextMissFill_keeps (c : LtCtx) (s : State) : Ends Keeps s (execContextMissFill c s) := by
  unfold execContextMissFill
  dsimp only
  exact .next (.ite ((State.ctxFilled_keeps ..).trans (State.served_keeps ..) |>.trans (State.sdramAccess_keeps ..)) (.refl _))

/-! ### Rows of the Quayline link (R248 to R279) -/

theorem execFlitReceived_keeps (p : PortId) (lanes : List (List PamLevel)) (s : State) : Ends Keeps s (execFlitReceived p lanes s) := by
  unfold execFlitReceived
  dsimp only
  refine .ite (.next (.refl _)) (.next ?_)
  split
  · exact (State.collect_keeps ..).trans (State.monitor_keeps ..) |>.trans (State.correctedAll_keeps ..) |>.trans (State.portCount_keeps ..)
        |>.trans (State.openRequest_keeps ..)
  · exact (State.collect_keeps ..).trans (State.monitor_keeps ..) |>.trans (State.correctedAll_keeps ..) |>.trans (State.goodFlit_keeps ..)

theorem execReplayRequestReceived_keeps (p : PortId) (epoch : Bool) (ackSeq : Nat) (s : State) :
    Ends Keeps s (execReplayRequestReceived p epoch ackSeq s) := by
  unfold execReplayRequestReceived
  exact .ite (.next (.refl _)) (.next ((State.qlAck_keeps ..).trans (State.startReplay_keeps ..)))

theorem execInitReceived_keeps (p : PortId) (lanes : List (List PamLevel)) (s : State) : Ends Keeps s (execInitReceived p lanes s) := by
  unfold execInitReceived
  dsimp only
  refine .ite (.next (.refl _)) (.next ?_)
  split
  · exact (State.collect_keeps ..).trans (State.portCount_keeps ..)
  · exact (State.collect_keeps ..).trans (.ite (State.initTaken_keeps ..) (.refl _))

theorem execCreditTimeout_keeps (p : PortId) (vc : Fin 13) (s : State) : Ends Keeps s (execCreditTimeout p vc s) := by
  unfold execCreditTimeout
  dsimp only
  exact .ite (.next (State.toHeld_keeps ..)) (.next (.refl _))

theorem execErrorWindowEnd_keeps (p : PortId) (s : State) : Ends Keeps s (execErrorWindowEnd p s) := by
  unfold execErrorWindowEnd
  dsimp only
  refine .ite (.next (.refl _)) (.ite (.next ((State.setQlp_keeps ..).trans (State.showDegraded_keeps ..))) ?_)
  exact .next ((State.setQlp_keeps ..).trans (.ite (State.toHeld_keeps ..) (.refl _)))

theorem execFastRetrainStart_keeps (p : PortId) (s : State) : Ends Keeps s (execFastRetrainStart p s) := by
  unfold execFastRetrainStart
  exact .next (.ite (State.fastRetrain_keeps ..) (.refl _))

theorem execRetrainTimeout_keeps (p : PortId) (s : State) : Ends Keeps s (execRetrainTimeout p s) := by
  unfold execRetrainTimeout
  dsimp only
  split
  · exact .next (.refl _)
  · refine .ite (.next (.refl _)) ?_
    exact .ite (.next (State.toHeld_keeps ..)) (.next ((State.setQlp_keeps ..).trans (State.retrainLanes_keeps ..)))

theorem execInitTimeout_keeps (p : PortId) (s : State) : Ends Keeps s (execInitTimeout p s) := by
  unfold execInitTimeout
  split
  · exact .next (.refl _)
  · refine .ite (.next (.refl _)) ?_
    exact .next ((State.linkLost_keeps ..).trans (State.addSat_keeps ..) |>.trans (State.startTraining_keeps ..))

theorem execHeldTimerExpiry_keeps (p : PortId) (s : State) : Ends Keeps s (execHeldTimerExpiry p s) := by
  unfold execHeldTimerExpiry
  dsimp only
  split
  · exact .next (.refl _)
  · exact .ite (.next (.refl _)) (.next ((State.setQlp_keeps ..).trans (State.setQl_keeps ..) |>.trans (State.startTraining_keeps ..)))

theorem execResizeReqReceived_keeps (p : PortId) (arg : BitVec 8) (s : State) : Ends Keeps s (execResizeReqReceived p arg s) := by
  unfold execResizeReqReceived
  exact .next (.ite (State.resizeAsked_keeps ..) (.refl _))

theorem execResizeAckReceived_keeps (p : PortId) (arg : BitVec 8) (s : State) : Ends Keeps s (execResizeAckReceived p arg s) := by
  unfold execResizeAckReceived
  exact .next (.ite (State.resizeAcked_keeps ..) (.refl _))

theorem execResizeNakReceived_keeps (p : PortId) (s : State) : Ends Keeps s (execResizeNakReceived p s) := by
  unfold execResizeNakReceived
  exact .next (.ite (State.resizeRefused_keeps ..) (.refl _))

theorem execResizePauseTimeout_keeps (p : PortId) (s : State) : Ends Keeps s (execResizePauseTimeout p s) := by
  unfold execResizePauseTimeout
  dsimp only
  split
  · exact .next (.refl _)
  · refine .ite (.next (.refl _)) ?_
    exact .next ((State.setQlp_keeps ..).trans (.ite (.refl _) ((State.put_keeps ..).trans (State.resizeRecord_keeps ..)))
        |>.trans (State.fastRetrain_keeps ..))

theorem execLinkDrainEnd_keeps (p : PortId) (s : State) : Ends Keeps s (execLinkDrainEnd p s) := by
  unfold execLinkDrainEnd
  dsimp only
  split
  · exact .next (.refl _)
  · exact .ite (.next (.refl _)) (.next ((State.toDown_keeps ..).trans (State.setQlp_keeps ..) |>.trans (State.reenters_keeps ..)))

theorem execFabricPortFailure_keeps (p : PortId) (s : State) : Ends Keeps s (execFabricPortFailure p s) := by
  unfold execFabricPortFailure
  dsimp only
  refine .ite (.next (.refl _)) ?_
  exact .next ((State.setQlp_keeps ..).trans (State.withdrawPort_keeps ..) |>.trans (.ite (State.startRestore_keeps ..) (.refl _)))

theorem execReplayResend_keeps (p : PortId) (s : State) : Ends Keeps s (execReplayResend p s) := by
  unfold execReplayResend
  dsimp only
  exact .ite (.next (.refl _)) (.next ((State.setQlp_keeps ..).trans (State.reenters_keeps ..)))

theorem execSpilledResend_keeps (p : PortId) (s : State) : Ends Keeps s (execSpilledResend p s) := by
  unfold execSpilledResend
  dsimp only
  refine .ite (.next (.refl _)) ?_
  exact .next ((Keeps.foldl _ _ _ fun _ _ => State.sdramAccess_keeps ..).trans (State.setQlp_keeps ..) |>.trans (State.reenters_keeps ..))

/-! ### Rows of the lanes (R283 to R300) -/

theorem execLaneGrant_keeps (s : State) : Ends Keeps s (execLaneGrant s) := by
  unfold execLaneGrant
  dsimp only
  split
  · exact .next (.refl _)
  · refine .ite (.next (.refl _)) (.next ?_)
    split
    · refine .ite ?_ ?_
      · split
        · exact (State.upLanes_keeps ..).trans (State.setLaneRun_keeps ..) |>.trans (State.lput_keeps ..)
        · exact (State.upLanes_keeps ..).trans (State.setLaneRun_keeps ..) |>.trans (State.lput_keeps ..) |>.trans (State.lput_keeps ..)
      · exact (State.upLanes_keeps ..).trans (State.setLaneRun_keeps ..) |>.trans (State.lput_keeps ..)
    · split
      · exact (State.upLanes_keeps ..).trans (State.setLaneRun_keeps ..) |>.trans (State.lput_keeps ..) |>.trans (State.lput_keeps ..)
      · exact (State.upLanes_keeps ..).trans (State.setLaneRun_keeps ..) |>.trans (State.lput_keeps ..)
    · exact (State.upLanes_keeps ..).trans (State.setLaneRun_keeps ..)

theorem execBringUpAttemptFail_keeps (p : PortId) (s : State) : Ends Keeps s (execBringUpAttemptFail p s) := by
  unfold execBringUpAttemptFail
  exact .next (.ite (State.attemptFails_keeps ..) (.refl _))

theorem execLanesAligned_keeps (p : PortId) (good : BitVec 16) (s : State) : Ends Keeps s (execLanesAligned p good s) := by
  unfold execLanesAligned
  extract_lets st w waits seen
  have failed : Keeps s (if st = qlDown then s.attemptFails p.val else s) := .ite (State.attemptFails_keeps ..) (.refl _)
  refine .ite (.next (.refl _)) ?_
  split
  · exact .next failed
  · refine .ite (.next failed) ?_
    extract_lets rate s1 s2 steer s3
    have taken : Keeps s s2 :=
      (State.takeStreams_keeps ..).trans (State.setRun2_keeps ..) |>.trans (State.setRates_keeps ..) |>.trans (State.setQlp_keeps ..)
    have trained : Keeps s s3 := taken.trans (State.put_keeps ..) |>.trans (State.put_keeps ..) |>.trans (State.setSteer_keeps ..)
    exact .ite (.next (trained.trans (State.beginInit_keeps ..))) (.next taken)

theorem execMarkerReceived_keeps (l : LaneId) (symbols : List PamLevel) (s : State) : Ends Keeps s (execMarkerReceived l symbols s) := by
  unfold execMarkerReceived
  extract_lets bytes m
  refine .ite (.next (.refl _)) ?_
  split
  · exact .next (.refl _)
  · refine .ite (.next (.refl _)) ?_
    extract_lets s1 s2
    have found : Keeps s s1 := State.markerFound_keeps ..
    have shown : Keeps s s2 := found.trans (.ite (State.laneShows_keeps ..) (.refl _))
    exact .ite (.next found) (.next (shown.trans
      (.ite (State.steerAsked_keeps ..) (.ite (State.steerAnswered_keeps ..) (.ite (State.steerAnswered_keeps ..) (.refl _))))))

theorem execLaneLossOfLock_keeps (l : LaneId) (s : State) : Ends Keeps s (execLaneLossOfLock l s) := by
  unfold execLaneLossOfLock
  refine .ite (.next (.refl _)) ?_
  extract_lets s1 run s2 i
  have lost : Keeps s s2 :=
    (State.lput_keeps ..).trans (State.lput_keeps ..) |>.trans (State.laneCount_keeps ..) |>.trans (State.setLaneRun_keeps ..)
  split
  · exact .next lost
  · refine .ite (.next lost) (.ite (.next (lost.trans (State.thawCredits_keeps ..) |>.trans (State.fastRetrain_keeps ..))) ?_)
    have abandoned := lost.trans (State.abandonTile_keeps s2 (tileOf l))
    split
    · exact .next (abandoned.trans (State.fastRetrain_keeps ..))
    · exact .next (abandoned.trans (State.sendSteer_keeps ..) |>.trans (State.setQlp_keeps ..) |>.trans (State.freezeCredits_keeps ..))

theorem execSteerLimitExpiry_keeps (p : PortId) (s : State) : Ends Keeps s (execSteerLimitExpiry p s) := by
  unfold execSteerLimitExpiry
  dsimp only
  split
  · exact .next (.refl _)
  · refine .ite (.next (.refl _)) ?_
    exact .next ((State.setSteer_keeps ..).trans (State.thawCredits_keeps ..) |>.trans (State.fastRetrain_keeps ..))

theorem execTxMarkerBoundary_keeps (p : PortId) (s : State) : Ends Keeps s (execTxMarkerBoundary p s) := by
  unfold execTxMarkerBoundary
  refine .ite (.next (.refl _)) ?_
  extract_lets r m count s1 s2 quay s3 ls
  have moved : Keeps s s2 :=
    (State.moveSteps_keeps ..).trans (State.setSteer_keeps ..) |>.trans (Keeps.foldl _ _ _ fun _ _ => State.leaveDone_keeps ..)
  have bounded : Keeps s s3 := moved.trans (State.setQlp_keeps ..)
  refine .next (bounded.trans ?_)
  split
  · exact State.sendMarkers_keeps ..
  · split <;> exact State.sendMarkers_keeps ..

theorem execCalibrationPassDue_keeps (p : PortId) (k : Fin 4) (s : State) : Ends Keeps s (execCalibrationPassDue p k s) := by
  unfold execCalibrationPassDue
  dsimp only
  refine .ite (.next (.refl _)) ?_
  exact .ite (.next (State.setSteer_keeps ..)) (.next ((State.sendSteer_keeps ..).trans (State.setSteer_keeps ..)))

theorem execCalibrationRequestTimeout_keeps (p : PortId) (k : Fin 4) (s : State) : Ends Keeps s (execCalibrationRequestTimeout p k s) := by
  unfold execCalibrationRequestTimeout
  dsimp only
  split
  · exact .next (.refl _)
  · exact .ite (.next (.refl _)) (.next ((State.setSteer_keeps ..).trans (State.laneCount_keeps ..)))

theorem execCalibrationEnd_keeps (p : PortId) (k : Fin 4) (horizontal vertical : Nat) (s : State) :
    Ends Keeps s (execCalibrationEnd p k horizontal vertical s) := by
  unfold execCalibrationEnd
  dsimp only
  split
  · exact .next (.refl _)
  · refine .ite (.next (.refl _)) (.ite (.next ((State.sendSteer_keeps ..).trans (State.setSteer_keeps ..))) ?_)
    exact .next ((State.lput_keeps ..).trans (State.lput_keeps ..) |>.trans (State.setSteer_keeps ..) |>.trans (State.replacedRecord_keeps ..)
        |>.trans (State.abandonTile_keeps ..))

theorem execCalibrationWindow_keeps (p : PortId) (s : State) : Ends Keeps s (execCalibrationWindow p s) := by
  unfold execCalibrationWindow
  dsimp only
  refine .ite (.next (.refl _)) ?_
  refine .ite ?_ ?_
  · refine .ite (.next (State.windowTaken_keeps ..)) ?_
    refine .ite (.next ((State.windowTaken_keeps ..).trans (State.windowSkipped_keeps ..))) ?_
    exact .next ((State.windowTaken_keeps ..).trans (State.setQlp_keeps ..))
  · refine .ite (.next ((State.windowTaken_keeps ..).trans (State.addSat_keeps ..) |>.trans (State.portCount_keeps ..)
        |>.trans (State.addSat_keeps ..) |>.trans (State.calPassed_keeps ..))) ?_
    exact .next ((State.windowTaken_keeps ..).trans (State.windowSkipped_keeps ..))

theorem execPrbsCheckLock_keeps (x : PrbsIn) (s : State) : Ends Keeps s (execPrbsCheckLock x s) := by
  unfold execPrbsCheckLock
  dsimp only
  exact .next (.ite (.refl _) ((Keeps.ite (State.emit_keeps ..) (.refl _)).trans (.ite (State.checkBitsIn_keeps ..) (.refl _))))

theorem execMarginDone_keeps (l : LaneId) (left right : BitVec 16) (up down : BitVec 8) (s : State) :
    Ends Keeps s (execMarginDone l left right up down s) := by
  unfold execMarginDone
  dsimp only
  refine .ite ?_ (.next (.refl _))
  exact .next ((State.lput_keeps ..).trans (State.lput_keeps ..) |>.trans (State.lput_keeps ..) |>.trans (State.lput_keeps ..)
      |>.trans (State.lput_keeps ..) |>.trans (State.setLaneRun_keeps ..))

/-! ### Rows of slot channels, feeds and the budget (R367 to R387) -/

theorem execPresenceDebounced_keeps (n : SlotId) (s : State) : Ends Keeps s (execPresenceDebounced n s) := by
  unfold execPresenceDebounced
  dsimp only
  refine .ite ?_ (.next (.refl _))
  exact .next ((State.put_keeps ..).trans (State.slotCount_keeps ..) |>.trans (State.slotRecord_keeps ..) |>.trans (State.tellSlot_keeps ..)
      |>.trans (.ite ((State.setSlotRun_keeps ..).trans (State.slotTry_keeps ..)) (.refl _)))

theorem execPresenceLost_keeps (n : SlotId) (s : State) : Ends Keeps s (execPresenceLost n s) := by
  unfold execPresenceLost
  dsimp only
  refine .ite ?_ (.next (.refl _))
  exact .next ((State.put_keeps ..).trans (.ite ((State.slotGateOff_keeps ..).trans (State.put_keeps ..) |>.trans (State.put_keeps ..)
      |>.trans (State.put_keeps ..)) (.refl _)) |>.trans (State.setSlotRun_keeps ..) |>.trans (State.slotCount_keeps ..)
      |>.trans (State.slotRecord_keeps ..) |>.trans (State.tellSlot_keeps ..))

theorem execAttentionRequest_keeps (n : SlotId) (s : State) : Ends Keeps s (execAttentionRequest n s) := by
  unfold execAttentionRequest
  exact .next (.ite ((State.slotCount_keeps ..).trans (State.tellSlot_keeps ..)) (.refl _))

theorem execDwellElapsed_keeps (n : SlotId) (s : State) : Ends Keeps s (execDwellElapsed n s) := by
  unfold execDwellElapsed
  refine .ite (.next (.refl _)) ?_
  exact .ite (.next (.ite (State.slotJoin_keeps ..) (State.put_keeps ..))) (.ite (.next (State.slotJoin_keeps ..)) (.next (.refl _)))

theorem execSlotGrant_keeps (s : State) : Ends Keeps s (execSlotGrant s) := by
  unfold execSlotGrant
  split
  · exact .next (.refl _)
  · exact .next (.ite (State.slotStart_keeps ..) (.refl _))

theorem execPowerGood_keeps (n : SlotId) (s : State) : Ends Keeps s (execPowerGood n s) := by
  unfold execPowerGood
  dsimp only
  refine .ite (.next (.refl _)) (.ite (.next ((State.put_keeps ..).trans (State.put_keeps ..) |>.trans (State.setSlotRun_keeps ..))) ?_)
  exact .ite (.next (State.put_keeps ..)) (.next (.refl _))

theorem execPerstDelayEnd_keeps (n : SlotId) (s : State) : Ends Keeps s (execPerstDelayEnd n s) := by
  unfold execPerstDelayEnd
  dsimp only
  exact .next (.ite ((State.slotPin_keeps ..).trans (State.setSlotRun_keeps ..)) (.refl _))

theorem execOrderlyOffGate_keeps (n : SlotId) (s : State) : Ends Keeps s (execOrderlyOffGate n s) := by
  unfold execOrderlyOffGate
  dsimp only
  exact .next (.ite ((State.put_keeps ..).trans (State.slotPin_keeps ..) |>.trans (State.setSlotRun_keeps ..)) (.refl _))

theorem execCurrentLimitEnter_keeps (n : SlotId) (milliAmps : Nat) (s : State) : Ends Keeps s (execCurrentLimitEnter n milliAmps s) := by
  unfold execCurrentLimitEnter
  exact .next (.ite (State.limitEnter_keeps ..) (.refl _))

theorem execCurrentLimitExit_keeps (n : SlotId) (milliAmps : Nat) (s : State) : Ends Keeps s (execCurrentLimitExit n milliAmps s) := by
  unfold execCurrentLimitExit
  dsimp only
  refine .ite ?_ (.next (.refl _))
  exact .next ((State.put_keeps ..).trans (State.put_keeps ..) |>.trans (State.setSlotRun_keeps ..) |>.trans (.ite (State.put_keeps ..) (.refl _)))

theorem execFaultTimerExpiry_keeps (n : SlotId) (s : State) : Ends Keeps s (execFaultTimerExpiry n s) := by
  unfold execFaultTimerExpiry
  exact .next (.ite (State.slotTrip_keeps ..) (.refl _))

theorem execBreakerFire_keeps (n : SlotId) (milliAmps : Nat) (s : State) : Ends Keeps s (execBreakerFire n milliAmps s) := by
  unfold execBreakerFire
  exact .next (.ite (State.slotTrip_keeps ..) (.refl _))

theorem execRampLimitTimeout_keeps (n : SlotId) (s : State) : Ends Keeps s (execRampLimitTimeout n s) := by
  unfold execRampLimitTimeout
  exact .next (.ite (State.slotTrip_keeps ..) (.refl _))

theorem execInputUndervoltage_keeps (n : SlotId) (s : State) : Ends Keeps s (execInputUndervoltage n s) := by
  unfold execInputUndervoltage
  exact .next (.ite ((State.slotGateOff_keeps ..).trans (State.put_keeps ..) |>.trans (State.put_keeps ..) |>.trans (State.slotRecord_keeps ..))
      (.refl _))

theorem execRetryCountReset_keeps (n : SlotId) (s : State) : Ends Keeps s (execRetryCountReset n s) := by
  unfold execRetryCountReset
  exact .next (.ite (State.put_keeps ..) (.refl _))

theorem execSlotTestEnd_keeps (n : SlotId) (pass : Bool) (s : State) : Ends Keeps s (execSlotTestEnd n pass s) := by
  unfold execSlotTestEnd
  exact .next (.ite ((State.put_keeps ..).trans (State.put_keeps ..)) (.refl _))

theorem execFeedReverseBlock_keeps (f : Fin 2) (inputMv busMv : Nat) (s : State) : Ends Keeps s (execFeedReverseBlock f inputMv busMv s) := by
  unfold execFeedReverseBlock
  exact .next (.ite ((State.put_keeps ..).trans (State.addSat_keeps ..) |>.trans (State.slotCount_keeps ..) |>.trans (State.raise_keeps ..))
      (.refl _))

theorem execFeedInputOutOfRange_keeps (f : Fin 2) (inputMv : Nat) (s : State) : Ends Keeps s (execFeedInputOutOfRange f inputMv s) := by
  unfold execFeedInputOutOfRange
  exact .next (.ite (State.put_keeps ..) (.refl _))

theorem execFeedConductionStart_keeps (f : Fin 2) (inputMv busMv : Nat) (s : State) : Ends Keeps s (execFeedConductionStart f inputMv busMv s) := by
  unfold execFeedConductionStart
  exact .next (.ite (State.put_keeps ..) (.refl _))

theorem execMeasurementSample_keeps (slots : List SlotSample) (feeds : List FeedSample) (s : State) :
    Ends Keeps s (execMeasurementSample slots feeds s) := by
  unfold execMeasurementSample
  exact .next (.ite ((State.slotSamples_keeps ..).trans (State.feedSamples_keeps ..)) (.refl _))

theorem execMeasurementPublish_keeps (s : State) : Ends Keeps s (execMeasurementPublish s) := by
  unfold execMeasurementPublish
  exact .next (.ite ((Keeps.foldl _ _ _ fun _ _ => State.slotPublish_keeps ..).trans (Keeps.foldl _ _ _ fun _ _ => State.feedPublish_keeps ..))
      (.refl _))

/-! ### Rows of the switch core and the egress scheduler (R92 to R118, R157 to R159) -/

theorem execPacketReceived_keeps (p : PortId) (x : PacketIn) (cells : List CellIdx) (s : State) : Ends Keeps s (execPacketReceived p x cells s) := by
  unfold execPacketReceived
  dsimp only
  refine .ite (.next (.refl _)) (.ite (.next (.refl _)) ?_)
  refine .ite ?_ ?_
  · split
    · exact .next (.refl _)
    · exact .next ((State.count_keeps ..).trans (State.count_keeps ..) |>.trans (State.fabricIn_keeps ..))
  · refine .ite (.next (.refl _)) (.ite (.next ((State.count_keeps ..).trans (State.count_keeps ..) |>.trans (State.completionIn_keeps ..))) ?_)
    split
    · exact .next ((State.count_keeps ..).trans (State.count_keeps ..) |>.trans (State.refuseIn_keeps ..))
    · refine .ite (.next ((State.count_keeps ..).trans (State.count_keeps ..) |>.trans (State.ecrcFails_keeps ..) |>.trans (State.goOn_keeps ..))) ?_
      exact .next ((State.count_keeps ..).trans (State.count_keeps ..) |>.trans (State.goOn_keeps ..))

theorem execHeldPacketReevaluate_keeps (pkt : Nat) (cells : List CellIdx) (s : State) : Ends Keeps s (execHeldPacketReevaluate pkt cells s) := by
  unfold execHeldPacketReevaluate
  split
  · exact .next (.refl _)
  · exact .next (.ite (State.evaluate_keeps ..) (.refl _))

theorem execEgressPacketBegin_keeps (p : EgressId) (x : EgressTry) (s : State) : Ends Keeps s (execEgressPacketBegin p x s) := by
  unfold execEgressPacketBegin
  extract_lets c
  refine .ite (.next (.refl _)) ?_
  split
  · exact .next (State.resendNullified_keeps ..)
  · split
    · exact .next (.refl _)
    next s1 pk q hchosen =>
      have chosen : Keeps s s1 := State.choose_keeps s x.starved c _ hchosen
      have gated : Keeps s (s1.gateStage c pk).1 := chosen.trans (State.gateStage_keeps ..)
      exact .ite (.next ((chosen.trans (State.leave_keeps ..)).trans (State.cellError_keeps ..)))
        (.next (.ite ((gated.trans (State.leave_keeps ..)).trans (State.cellError_keeps ..)) gated))

theorem execCrossbarSecondRead_keeps (p : EgressId) (cell : Nat) (ok : Bool) (s : State) : Ends Keeps s (execCrossbarSecondRead p cell ok s) := by
  unfold execCrossbarSecondRead
  dsimp only
  split
  · exact .next (.refl _)
  · refine .ite (.next (.refl _)) ?_
    exact .next ((State.draw_keeps ..).trans (State.count_keeps ..) |>.trans (State.raiseOpen_keeps ..)
        |>.trans (.ite (.refl _) (State.cellError_keeps ..)))

theorem execCutThroughPause_keeps (p : EgressId) (s : State) : Ends Keeps s (execCutThroughPause p s) := by
  unfold execCutThroughPause
  dsimp only
  split
  · exact .next (.refl _)
  · exact .next (.ite ((State.setPkt_keeps ..).trans (State.setPaused_keeps ..) |>.trans (State.count_keeps ..)) (.refl _))

theorem execCutThroughResume_keeps (p : EgressId) (cells : Nat) (s : State) : Ends Keeps s (execCutThroughResume p cells s) := by
  unfold execCutThroughResume
  dsimp only
  refine .ite (.next (.refl _)) ?_
  split
  · exact .next (.ite ((State.moreCells_keeps ..).trans (State.setPaused_keeps ..)) (.refl _))
  · split
    · exact .next (.refl _)
    · split
      · exact .next (.refl _)
      · exact .next (State.moreCells_keeps ..)

theorem execTlpNullify_keeps (p : PortId) (s : State) : Ends Keeps s (execTlpNullify p s) := by
  unfold execTlpNullify
  split
  · exact .next (.refl _)
  · extract_lets s1
    have counted : Keeps s s1 := (State.addSat_keeps ..).trans (State.count_keeps ..)
    exact .ite (.next counted) (.next (.refl _))

theorem execPacketCellsFreed_keeps (p : EgressId) (s : State) : Ends Keeps s (execPacketCellsFreed p s) := by
  unfold execPacketCellsFreed
  dsimp only
  split
  · exact .next (.refl _)
  · refine .ite (.next (.refl _)) ?_
    exact .next ((State.upCore_keeps ..).trans (State.gone_keeps ..)
        |>.trans (.ite (State.setPkt_keeps ..) ((State.dropPkt_keeps ..).trans (State.orphanCells_keeps ..))))

theorem execFreeListAuditPass_keeps (s : State) : Ends Keeps s (execFreeListAuditPass s) := by
  unfold execFreeListAuditPass
  dsimp only
  exact .ite (.next (.refl _)) (.next ((Keeps.foldl _ _ _ fun _ _ => State.count_keeps ..).trans (State.upCore_keeps ..)))

theorem execBankTestEnd_keeps (b : BankId) (pass : Bool) (s : State) : Ends Keeps s (execBankTestEnd b pass s) := by
  unfold execBankTestEnd
  exact .next (.ite ((State.put_keeps ..).trans (State.put_keeps ..) |>.trans (State.put_keeps ..)) (.refl _))

theorem execBankDrained_keeps (b : BankId) (s : State) : Ends Keeps s (execBankDrained b s) := by
  unfold execBankDrained
  exact .next (.ite (.ite ((State.put_keeps ..).trans (State.put_keeps ..)) (State.put_keeps ..)) (.refl _))

theorem execCongestionUpdate_keeps (s : State) : Ends Keeps s (execCongestionUpdate s) := by
  unfold execCongestionUpdate
  dsimp only
  exact .next (.ite (State.upFabric_keeps ..) (.refl _))

theorem execEqualWeightPeriodEnd_keeps (g : Fin 16384) (s : State) : Ends Keeps s (execEqualWeightPeriodEnd g s) := by
  unfold execEqualWeightPeriodEnd
  dsimp only
  exact .next (.ite (State.upFabric_keeps ..) (.refl _))

/-! ### Rows of fabric forwarding (R132 to R152) -/

theorem execSendRecordSilenceClose_keeps (flow : FlowKey) (s : State) : Ends Keeps s (execSendRecordSilenceClose flow s) := by
  unfold execSendRecordSilenceClose
  dsimp only
  split
  · exact .next (.refl _)
  · exact .next (.ite (State.upFabric_keeps ..) (.refl _))

theorem execReorderPacketArrival_keeps (pkt : Nat) (s : State) : Ends Keeps s (execReorderPacketArrival pkt s) := by
  unfold execReorderPacketArrival
  split
  · exact .next (.refl _)
  · split
    · exact .next (.refl _)
    · refine .ite (.next (.refl _)) ?_
      split
      · refine .ite (.next ((State.dropPkt_keeps ..).trans (State.peerCount_keeps ..) |>.trans (State.raise_keeps ..))) ?_
        exact .ite (.next (State.reorderWaits_keeps ..)) (.next (State.inSequence_keeps ..))
      · refine .ite (.next (State.inSequence_keeps ..)) ?_
        refine .ite (.next ((State.dropHeldPkts_keeps ..).trans (State.inSequence_keeps ..))) ?_
        exact .next ((State.dropPkt_keeps ..).trans (State.peerCount_keeps ..) |>.trans (State.setRecv_keeps ..))

theorem execGapTimerExpiry_keeps (flow : FlowKey) (s : State) : Ends Keeps s (execGapTimerExpiry flow s) := by
  unfold execGapTimerExpiry
  dsimp only
  split
  · exact .next (.refl _)
  · refine .ite ?_ (.next (.refl _))
    exact .next ((State.upFabric_keeps ..).trans (State.tearHeld_keeps ..) |>.trans (State.peerCount_keeps ..) |>.trans (State.sendMsg_keeps ..)
        |>.trans (State.raise_keeps ..))

theorem execReceiveRecordSilenceFree_keeps (flow : FlowKey) (s : State) : Ends Keeps s (execReceiveRecordSilenceFree flow s) := by
  unfold execReceiveRecordSilenceFree
  dsimp only
  split
  · exact .next (.refl _)
  · exact .next (.ite (State.upFabric_keeps ..) (.refl _))

theorem execTeardownReceived_keeps (dstDev : Nat) (m : TeardownMsg) (s : State) : Ends Keeps s (execTeardownReceived dstDev m s) := by
  unfold execTeardownReceived
  dsimp only
  refine .ite (.next (.refl _)) ?_
  exact .next ((State.upFabric_keeps ..).trans (State.closeReqs_keeps ..) |>.trans (State.discardAll_keeps ..) |>.trans (State.peerCount_keeps ..)
      |>.trans (State.raise_keeps ..))

theorem execWithdrawMessageReceived_keeps (p : PortId) (entries : List WithdrawEntry) (s : State) :
    Ends Keeps s (execWithdrawMessageReceived p entries s) := by
  unfold execWithdrawMessageReceived
  exact .next (.ite (Keeps.foldl _ _ _ fun _ _ => State.withdrawEntry_keeps ..) (.refl _))

theorem execAutoRestoreExpiry_keeps (p : PortId) (s : State) : Ends Keeps s (execAutoRestoreExpiry p s) := by
  unfold execAutoRestoreExpiry
  split
  · exact .next (.refl _)
  · exact .ite (.next (.refl _)) (.next (.ite (State.startRestore_keeps ..) (State.reinstatePort_keeps ..)))

theorem execCompletionReceived_keeps (p : PortId) (c : CompletionIn) (s : State) : Ends Keeps s (execCompletionReceived p c s) := by
  unfold execCompletionReceived
  exact .next (.ite (State.completionIn_keeps ..) (.refl _))

theorem execCompletionTimeout_keeps (p : PortId) (tag : Nat) (s : State) : Ends Keeps s (execCompletionTimeout p tag s) := by
  unfold execCompletionTimeout
  dsimp only
  split
  · exact .next (.refl _)
  · refine .ite (.next (.refl _)) ?_
    exact .next ((Keeps.ite (State.count_keeps ..) (.refl _)).trans (State.closeReq_keeps ..) |>.trans (State.raise_keeps ..))

theorem execRemoteCmReadTimeout_keeps (entry : Nat) (s : State) : Ends Keeps s (execRemoteCmReadTimeout entry s) := by
  unfold execRemoteCmReadTimeout
  split
  · exact .next (.refl _)
  · exact .next (.ite ((State.closeReq_keeps ..).trans (State.raise_keeps ..)) (.refl _))

theorem execEdgeLinkDownClose_keeps (p : PortId) (s : State) : Ends Keeps s (execEdgeLinkDownClose p s) := by
  unfold execEdgeLinkDownClose
  exact .next (.ite (State.edgeLinkDown_keeps ..) (.refl _))

theorem execDeliveryReceived_keeps (dstDev : Nat) (m : TeardownMsg) (latestSeq : Nat) (s : State) :
    Ends Keeps s (execDeliveryReceived dstDev m latestSeq s) := by
  unfold execDeliveryReceived
  dsimp only
  exact .next (.ite (State.upCms_keeps ..) (.refl _))

theorem execPresenceMessageReceived_keeps (m : PresenceMsg) (s : State) : Ends Keeps s (execPresenceMessageReceived m s) := by
  unfold execPresenceMessageReceived
  exact .next (.ite (State.slotEvent_keeps ..) (.refl _))

theorem execBindNoticeReceived_keeps (m : BindNotice) (s : State) : Ends Keeps s (execBindNoticeReceived m s) := by
  unfold execBindNoticeReceived
  dsimp only
  refine .ite (.next (.refl _)) ?_
  refine .ite (.next ((State.put_keeps ..).trans (State.put_keeps ..) |>.trans (State.upTenancy_keeps ..) |>.trans (State.sendMsg_keeps ..))) ?_
  exact .next ((State.count_keeps ..).trans (State.raise_keeps ..))

theorem execBindConfirmReceived_keeps (homeDev : Nat) (m : BindConfirm) (s : State) : Ends Keeps s (execBindConfirmReceived homeDev m s) := by
  unfold execBindConfirmReceived
  dsimp only
  refine .ite ?_ (.next (.refl _))
  exact .next ((State.put_keeps ..).trans (State.put_keeps ..) |>.trans (.ite (State.slotEvent_keeps ..) (.refl _)))

theorem execBindResetReceived_keeps (m : BindResetMsg) (s : State) : Ends Keeps s (execBindResetReceived m s) := by
  unfold execBindResetReceived
  dsimp only
  exact .next (.ite (State.bindingReset_keeps ..) (.refl _))

/-! ### Rows of tenants and functions (R190, R192) -/

theorem execFlrCompletionPoll_keeps (g : GateSlot) (success : Bool) (s : State) : Ends Keeps s (execFlrCompletionPoll g success s) := by
  unfold execFlrCompletionPoll
  exact .next (.ite (State.resetDone_keeps ..) (.refl _))

theorem execLogicalDeviceResetComplete_keeps (g : GateSlot) (ld : Fin 16) (s : State) : Ends Keeps s (execLogicalDeviceResetComplete g ld s) := by
  unfold execLogicalDeviceResetComplete
  exact .next (.ite (State.resetDone_keeps ..) (.refl _))

theorem execFlrTimeout_keeps (g : GateSlot) (ld : Nat) (s : State) : Ends Keeps s (execFlrTimeout g ld s) := by
  unfold execFlrTimeout
  dsimp only
  split
  · exact .next (.refl _)
  · refine .ite (.next (.refl _)) ?_
    exact .next ((State.resetDone_keeps ..).trans (State.upTenancy_keeps ..) |>.trans (State.record_keeps ..) |>.trans (State.containFn_keeps ..))

theorem execDevicePortPresenceLoss_keeps (p : PortId) (s : State) : Ends Keeps s (execDevicePortPresenceLoss p s) := by
  unfold execDevicePortPresenceLoss
  exact .next (.ite ((Keeps.foldl _ _ _ fun _ _ => State.fnRemoved_keeps ..).trans (State.retriesAnew_keeps ..)) (.refl _))

theorem execFunctionEnumerated_keeps (p : PortId) (bus devfn : Nat) (found : Option FnIdent) (s : State) :
    Ends Keeps s (execFunctionEnumerated p bus devfn found s) := by
  unfold execFunctionEnumerated
  dsimp only
  refine .ite (.next (.refl _)) ?_
  refine .ite ?_ ?_
  · refine .next ?_
    split
    · exact .refl _
    · exact State.raise_keeps ..
  · exact .next (State.enumerated_keeps ..)

/-! ### Rows of host and device ports (R303 to R324) -/

theorem execPerstNChange_keeps (level : Bool) (s : State) : Ends Keeps s (execPerstNChange level s) := by
  unfold execPerstNChange
  dsimp only
  refine .ite (.next (.refl _)) ?_
  exact .next ((State.upPower_keeps ..).trans (State.showHosts_keeps ..) |>.trans (.ite (.refl _) (State.hostsDown_keeps ..)))

theorem execHostPortDetect_keeps (p : PortId) (s : State) : Ends Keeps s (execHostPortDetect p s) := by
  unfold execHostPortDetect
  exact .next (.ite (State.edgeDetect_keeps ..) (.refl _))

theorem execLinkUpL0_keeps (p : PortId) (rate width : Nat) (flit cxlMem : Bool) (s : State) :
    Ends Keeps s (execLinkUpL0 p rate width flit cxlMem s) := by
  unfold execLinkUpL0
  dsimp only
  refine .ite (.next (.refl _)) ?_
  refine .ite (.next ((State.showL0_keeps ..).trans (State.linkReturned_keeps ..) |>.trans (Keeps.foldl _ _ _ fun _ _ => State.tellViews_keeps ..)))
      ?_
  split
  · exact .next ((State.showL0_keeps ..).trans (State.linkReturned_keeps ..))
  · refine .next ?_
    split
    · exact (State.showL0_keeps ..).trans (State.linkReturned_keeps ..) |>.trans (.ite (State.viewReset_keeps ..) (.refl _))
    · exact (State.showL0_keeps ..).trans (State.linkReturned_keeps ..)

theorem execL1Exit_keeps (p : PortId) (s : State) : Ends Keeps s (execL1Exit p s) := by
  unfold execL1Exit
  exact .next (.ite ((State.put_keeps ..).trans (State.put_keeps ..) |>.trans (State.addSat_keeps ..) |>.trans (State.dropGrants_keeps ..)
      |>.trans (State.askGrants_keeps ..)) (.refl _))

theorem execL0pWidthChange_keeps (p : PortId) (utilPercent : Nat) (s : State) : Ends Keeps s (execL0pWidthChange p utilPercent s) := by
  unfold execL0pWidthChange
  dsimp only
  exact .next (.ite (.refl _) (.ite ((State.put_keeps ..).trans (State.put_keeps ..) |>.trans (State.dropGrants_keeps ..))
      (.ite (.ite ((State.put_keeps ..).trans (State.put_keeps ..)) (State.askGrants_keeps ..)) (.refl _))))

theorem execHostLinkDownViewReset_keeps (p : PortId) (s : State) : Ends Keeps s (execHostLinkDownViewReset p s) := by
  unfold execHostLinkDownViewReset
  exact .next (.ite (State.hostLinkDown_keeps ..) (.refl _))

theorem execFunctionLevelReset_keeps (v : ViewId) (f : ViewFn) (s : State) : Ends Keeps s (execFunctionLevelReset v f s) := by
  unfold execFunctionLevelReset
  dsimp only
  exact .ite (.next ((State.fnReset_keeps ..).trans (State.upPcie_keeps ..))) (.next (.refl _))

theorem execFlrEnd_keeps (v : ViewId) (f : ViewFn) (s : State) : Ends Keeps s (execFlrEnd v f s) := by
  unfold execFlrEnd
  dsimp only
  exact .next (.ite (State.upPcie_keeps ..) (.refl _))

theorem execSecondaryBusReset_keeps (v : ViewId) (k : Fin 256) (s : State) : Ends Keeps s (execSecondaryBusReset v k s) := by
  unfold execSecondaryBusReset
  split
  · exact .next (.refl _)
  · exact .next (.ite (State.bindingReset_keeps ..) (.refl _))

theorem execPmeTurnOff_stores (v : ViewId) (s : State) : Ends Stores s (execPmeTurnOff v s) := by
  unfold execPmeTurnOff
  dsimp only
  refine .ite ?_ (.next (.refl _))
  exact .next ((State.drainBuffer_stores ..).trans (State.emit_keeps ..).toStores |>.trans (State.put_keeps ..).toStores
      |>.trans (State.put_keeps ..).toStores |>.trans (State.upPcie_keeps ..).toStores)

theorem execDpcTrigger_keeps (v : ViewId) (k : Fin 256) (useUr : Bool) (s : State) : Ends Keeps s (execDpcTrigger v k useUr s) := by
  unfold execDpcTrigger
  dsimp only
  split
  · exact .next (.refl _)
  · refine .ite (.next (.refl _)) ?_
    exact .next ((State.record_keeps ..).trans (State.contain_keeps ..) |>.trans (State.closeReqs_keeps ..) |>.trans (State.discardAll_keeps ..)
        |>.trans (State.upPcie_keeps ..) |>.trans (State.slotEvent_keeps ..))

theorem execDpcRelease_keeps (v : ViewId) (k : Fin 256) (s : State) : Ends Keeps s (execDpcRelease v k s) := by
  unfold execDpcRelease
  split
  · exact .next (.refl _)
  · extract_lets s1 target s2 recs dpcs s3
    have released : Keeps s s2 := (State.bindingReset_keeps ..).trans (State.uncontain_keeps ..)
    have closed : Keeps s s3 := released
    exact .ite (.next (.refl _)) (.next (.ite ((closed.trans (State.notify_keeps ..)).trans (State.slotEvent_keeps ..))
      (closed.trans (State.notify_keeps ..))))

theorem execConfigRequest_stores (v : ViewId) (c : CfgReq) (s : State) : Ends Stores s (execConfigRequest v c s) := by
  unfold execConfigRequest
  extract_lets ur
  have refused : Stores s ur := (State.hostReply_keeps ..).toStores
  refine .ite (.next (.refl _)) ?_
  split
  · refine .next ?_
    split
    · exact .ite (State.cfgOwn_stores ..) refused
    · exact refused
  · exact .next (.ite (State.cfgVport_stores _ _ _ _ _ refused) refused)
  · refine .next ?_
    split
    · exact refused
    · exact (State.cfgBound_keeps ..).toStores

theorem execUnsupportedRequest_keeps (v : ViewId) (r : UrReq) (s : State) : Ends Keeps s (execUnsupportedRequest v r s) := by
  unfold execUnsupportedRequest
  refine .next (.ite ?_ ?_)
  · exact .refl _
  · refine .ite ?_ ?_
    · exact State.hostReply_keeps ..
    · split
      · exact .refl _
      · exact State.emit_keeps ..

theorem execTideNowRead_keeps (v : ViewId) (upper : Bool) (size tag : Nat) (s : State) : Ends Keeps s (execTideNowRead v upper size tag s) := by
  unfold execTideNowRead
  dsimp only
  refine .ite (.next (.refl _)) (.ite (.next (State.hostReply_keeps ..)) ?_)
  refine .ite (.next ((State.upPcie_keeps ..).trans (State.hostReply_keeps ..))) ?_
  exact .ite (.next (State.hostReply_keeps ..)) (.next ((State.draw_keeps ..).trans (State.hostReply_keeps ..)))

theorem execMctpMessage_keeps (m : MctpIn) (s : State) : Ends Keeps s (execMctpMessage m s) := by
  unfold execMctpMessage
  dsimp only
  refine .ite (.next (.refl _)) (.ite (.next (State.upPcie_keeps ..)) ?_)
  refine .ite (.next (.ite (State.emit_keeps ..) ((State.draw_keeps ..).trans (State.emit_keeps ..)))) ?_
  exact .ite (.next (State.upTally_keeps ..)) (.next (.refl _))

/-! ### Rows of the logbook (R65 to R76) -/

theorem execLbMirrorCtrlWrite_keeps (v : ViewId) (value : BitVec 32) (s : State) : Ends Keeps s (execLbMirrorCtrlWrite v value s) := by
  unfold execLbMirrorCtrlWrite
  dsimp only
  refine .ite (.next (.refl _)) (.ite (.next ((State.setReg_keeps ..).trans (State.setRegBits_keeps ..) |>.trans (State.upLog_keeps ..))) ?_)
  refine .ite (.next (State.mirrorError_keeps ..)) ?_
  exact .next ((State.setReg_keeps ..).trans (State.setRegBits_keeps ..) |>.trans (.ite (State.setRegBits_keeps ..) (.refl _)))

theorem execLbMirrorBaseWrite_keeps (v : ViewId) (value : Word) (s : State) : Ends Keeps s (execLbMirrorBaseWrite v value s) := by
  unfold execLbMirrorBaseWrite
  exact .ite (.next (.refl _)) (.ite (.next (State.mirrorError_keeps ..)) (.next (State.setReg_keeps ..)))

theorem execLogbookSdramCopy_keeps (s : State) : Ends Keeps s (execLogbookSdramCopy s) := by
  unfold execLogbookSdramCopy
  dsimp only
  split
  · exact .next (.refl _)
  · exact .ite (.next (.refl _)) (.next ((State.sdramAccess_keeps ..).trans (State.upLog_keeps ..)))

theorem execMirrorWrite_keeps (v : ViewId) (delivered : Bool) (s : State) : Ends Keeps s (execMirrorWrite v delivered s) := by
  unfold execMirrorWrite
  dsimp only
  split
  · exact .next (.refl _)
  · refine .ite (.next (.refl _)) ?_
    split
    · exact .next ((State.upLog_keeps ..).trans (State.hostWrite_keeps ..))
    · exact .next ((State.upLog_keeps ..).trans (.ite (State.tallyCount_keeps ..)
          ((State.setRegBits_keeps ..).trans (State.tallyCount_keeps ..) |>.trans (State.msix_keeps ..))))

theorem execLbExportGo_keeps (v : ViewId) (value : BitVec 32) (s : State) : Ends Keeps s (execLbExportGo v value s) := by
  unfold execLbExportGo
  dsimp only
  refine .ite (.next (.refl _)) ?_
  refine .ite (.next ((State.setRegBits_keeps ..).trans (State.setRegBits_keeps ..) |>.trans (State.setRegBits_keeps ..)
      |>.trans (State.setRegBits_keeps ..))) ?_
  exact .next ((State.setRegBits_keeps ..).trans (State.setRegBits_keeps ..) |>.trans (State.setRegBits_keeps ..) |>.trans (State.setRegBits_keeps ..)
      |>.trans (State.setRegBits_keeps ..) |>.trans (State.setRegBits_keeps ..) |>.trans (State.upLog_keeps ..))

theorem execExportEnd_keeps (v : ViewId) (covered : Nat) (undeliverable : Bool) (s : State) :
    Ends Keeps s (execExportEnd v covered undeliverable s) := by
  unfold execExportEnd
  dsimp only
  split
  · exact .next (.refl _)
  · refine .ite (.next (.refl _)) ?_
    exact .next ((State.exportSome_keeps ..).trans (State.upLog_keeps ..) |>.trans (State.setRegBits_keeps ..) |>.trans (State.setRegBits_keeps ..)
        |>.trans (State.setRegBits_keeps ..) |>.trans (State.msix_keeps ..))

/-! ### Rows of tide time, clock inputs, resets and power (R276, R327 to R345) -/

theorem execTideSyncSend_keeps (s : State) : Ends Keeps s (execTideSyncSend s) := by
  unfold execTideSyncSend
  dsimp only
  exact .ite (.next ((State.upClock_keeps ..).trans (.ite (State.sendTide_keeps ..) (.refl _)))) (.next (.refl _))

theorem execTideSyncReceived_keeps (p : PortId) (msgId : Nat) (s : State) : Ends Keeps s (execTideSyncReceived p msgId s) := by
  unfold execTideSyncReceived
  dsimp only
  exact .next (.ite (State.upClock_keeps ..) (.refl _))

theorem execTideFollowReceived_keeps (p : PortId) (msgId : Nat) (t1 : Word) (lockedBit holdoverBit : Bool) (s : State) :
    Ends Keeps s (execTideFollowReceived p msgId t1 lockedBit holdoverBit s) := by
  unfold execTideFollowReceived
  extract_lets good clock s1
  have followed : Keeps s s1 := .refl s
  exact .ite (.next (.refl _)) (.next ((followed.trans (State.notify_keeps ..)).trans (State.sendLocal_keeps ..)))

theorem execTideDreqReceived_keeps (p : PortId) (msgId : Nat) (s : State) : Ends Keeps s (execTideDreqReceived p msgId s) := by
  unfold execTideDreqReceived
  exact .next (.ite (State.sendLocal_keeps ..) (.refl _))

theorem execTideDrespReceived_keeps (p : PortId) (msgId : Nat) (t4 : Word) (s : State) : Ends Keeps s (execTideDrespReceived p msgId t4 s) := by
  unfold execTideDrespReceived
  dsimp only
  split
  · exact .ite (.next ((State.upClock_keeps ..).trans (State.tideMeasure_keeps ..))) (.next (.refl _))
  · exact .next (.refl _)

theorem execTideMeasurement_keeps (source : Nat) (reference : Word) (s : State) : Ends Keeps s (execTideMeasurement source reference s) := by
  unfold execTideMeasurement
  dsimp only
  refine .ite (.next (.refl _)) ?_
  exact .ite (.next (State.tideMeasure_keeps ..)) (.ite (.next (State.tideMeasure_keeps ..)) (.next (.refl _)))

theorem execTideSourceLoss_keeps (s : State) : Ends Keeps s (execTideSourceLoss s) := by
  unfold execTideSourceLoss
  exact .next (.ite (State.tideLost_keeps ..) (.refl _))

theorem execPtmDialogueStart_keeps (s : State) : Ends Keeps s (execPtmDialogueStart s) := by
  unfold execPtmDialogueStart
  dsimp only
  split
  · exact .next (.refl _)
  · exact .ite (.next ((State.upClock_keeps ..).trans (State.emit_keeps ..))) (.next (.refl _))

theorem execClockInputLoss_keeps (i : Fin 11) (s : State) : Ends Keeps s (execClockInputLoss i s) := by
  unfold execClockInputLoss
  dsimp only
  refine .ite (.next (.refl _)) (.ite (.next ((State.upPower_keeps ..).trans (State.halt_keeps ..))) ?_)
  refine .ite (.next (.ite (State.tideLost_keeps ..) (.refl _))) ?_
  exact .next ((State.upPower_keeps ..).trans (Keeps.foldl _ _ _ fun _ _ => State.clockDown_keeps ..)
      |>.trans (.ite (State.raise_keeps ..) (.refl _)))

theorem execRefclkReturn_keeps (t : Fin 8) (s : State) : Ends Keeps s (execRefclkReturn t s) := by
  unfold execRefclkReturn
  dsimp only
  refine .ite ?_ (.next (.refl _))
  exact .next ((State.upPower_keeps ..).trans (Keeps.foldl _ _ _ fun _ _ => .ite (State.portBringUp_keeps ..) (.refl _)))

theorem execDeviceReset_safe (s : State) : Ends Safe s (execDeviceReset s) := by
  unfold execDeviceReset
  dsimp only
  refine .ite (.next (State.deviceReset_safe ..)) ?_
  split
  · exact .next (State.upPower_keeps ..).toSafe
  · exact .next (State.upPower_keeps ..).toSafe
  · exact .next (State.upPower_keeps ..).toSafe
  · exact .next (.ite ((State.upPower_keeps ..).toSafe.trans (State.deviceReset_safe ..)) (State.upPower_keeps ..).toSafe)
  · exact .next ((State.upPower_keeps ..).toSafe.trans (State.deviceReset_safe ..))
  · exact .next ((State.upPower_keeps ..).toSafe.trans (State.deviceReset_safe ..))
  · exact .next ((State.upPower_keeps ..).toSafe.trans (State.deviceReset_safe ..))
  · exact .next ((State.upPower_keeps ..).toSafe.trans (State.deviceReset_safe ..))

theorem execHaltRestartTimeout_safe (s : State) : Ends Safe s (execHaltRestartTimeout s) := by
  unfold execHaltRestartTimeout
  split
  · exact .next (.refl _)
  · exact .next (.ite (State.deviceReset_safe ..) (.refl _))

theorem execDevRstNRise_keeps (s : State) : Ends Keeps s (execDevRstNRise s) := by
  unfold execDevRstNRise
  dsimp only
  exact .ite (.next (.refl _)) (.next (.ite (State.upPower_keeps ..) (State.upPower_keeps ..)))

theorem execColdReset_safe (straps : Straps) (s : State) : Ends Safe s (execColdReset straps s) := by
  unfold execColdReset
  dsimp only
  refine .ite ?_ (.next (.refl _))
  exact .next ((State.unpowered_safe ..).trans (State.slotsCold_keeps ..).toSafe |>.trans (State.upPower_keeps ..).toSafe)

theorem execPwrOkFall_safe (s : State) : Ends Safe s (execPwrOkFall s) := by
  unfold execPwrOkFall
  dsimp only
  refine .ite (.next (.refl _)) ?_
  exact .next ((Safe.ite (State.emit_keeps ..).toSafe (.refl _)).trans (State.slotsOff_keeps ..).toSafe |>.trans (State.unpowered_safe ..))

theorem execManagementPathReady_keeps (r : StartResult) (s : State) : Ends Keeps s (execManagementPathReady r s) := by
  unfold execManagementPathReady
  extract_lets s1 sdram power core s2 s3
  have measured : Keeps s s1 := (Keeps.ite (.refl _) (State.coldFinds_keeps ..)).trans (State.measureDies_keeps ..)
  have managed : Keeps s s2 := measured
  have logged : Keeps s s3 := managed.trans (State.logEntry_keeps ..)
  refine .ite (.next (.refl _)) (.ite (.next (State.raise_keeps ..)) (.ite (.next (managed.trans (State.raise_keeps ..))) (.next ?_)))
  exact logged.trans (.ite ((State.upPower_keeps ..).trans (State.newRec_keeps ..)) (.refl _))

/-! ### Rows of the fault collector (R348 to R361) -/

theorem execMergeQuietClose_keeps (id : Nat) (s : State) : Ends Keeps s (execMergeQuietClose id s) := by
  unfold execMergeQuietClose
  split
  · exact .next (.refl _)
  · exact .ite (.next (State.closeRecord_keeps ..)) (.next (.refl _))

theorem execLeakDecrement_keeps (checker : Nat) (s : State) : Ends Keeps s (execLeakDecrement checker s) := by
  unfold execLeakDecrement
  dsimp only
  split
  · exact .next (.refl _)
  · exact .ite (.next (.refl _)) (.next (State.upFaults_keeps ..))

theorem execFaultLogWrite_keeps (s : State) : Ends Keeps s (execFaultLogWrite s) := by
  unfold execFaultLogWrite
  dsimp only
  split
  · exact .next (.refl _)
  · exact .ite (.next (.refl _)) (.next ((State.sdramAccess_keeps ..).trans (State.upFaults_keeps ..)))

theorem execInjectionExpiry_keeps (s : State) : Ends Keeps s (execInjectionExpiry s) := by
  unfold execInjectionExpiry
  dsimp only
  exact .ite (.next (.refl _)) (.next (State.upFaults_keeps ..))

/-! ### Rows of refills, samples and telemetry (R164, R170, R398) -/

theorem execMeterEpochEnd_keeps (s : State) : Ends Keeps s (execMeterEpochEnd s) := by
  unfold execMeterEpochEnd
  dsimp only
  exact .next (.ite (.refl _) (.ite (State.upCore_keeps ..) (State.epochEnd_keeps ..)))

theorem execSampleInstant_keeps (s : State) : Ends Keeps s (execSampleInstant s) := by
  unfold execSampleInstant
  dsimp only
  exact .next (.ite (.refl _) (.ite (State.upCore_keeps ..) (State.sampleNow_keeps ..)))

theorem execTelemetryHostWrite_keeps (r : Fin 8) (s : State) : Ends Keeps s (execTelemetryHostWrite r s) := by
  unfold execTelemetryHostWrite
  split
  · exact .next (.refl _)
  · extract_lets v s1
    have written : Keeps s s1 := State.hostWrite_keeps ..
    exact .ite (.next ((written.trans (State.sdramAccess_keeps ..)).withCounters written _ rfl)) (.next (.refl _))

/-! ### Rows of the package's monitors (R402, R414, R423) -/

theorem execThermalTrip_keeps (die : Fin 10) (sensor : Fin 16) (s : State) : Ends Keeps s (execThermalTrip die sensor s) := by
  unfold execThermalTrip
  exact .ite (.next (.refl _)) (.next ((State.emit_keeps ..).trans (State.raise_keeps ..)))

theorem execOverTemperature_keeps (die : Fin 10) (sensor : Fin 16) (temp : Nat) (s : State) :
    Ends Keeps s (execOverTemperature die sensor temp s) := by
  unfold execOverTemperature
  dsimp only
  exact .ite (.next (.refl _)) (.next ((State.tempIs_keeps ..).trans (State.raise_keeps ..)))

theorem execRailOutOfRange_keeps (rail : Fin 21) (latch : Bool) (milliVolts : Nat) (s : State) :
    Ends Keeps s (execRailOutOfRange rail latch milliVolts s) := by
  unfold execRailOutOfRange
  dsimp only
  refine .ite (.next (.refl _)) ?_
  exact .ite (.ite (.next (State.raise_keeps ..)) (.next (.refl _))) (.ite (.next (State.raise_keeps ..)) (.next (.refl _)))

theorem execWearGaugeComparison_keeps (dies : List DieReading) (s : State) : Ends Keeps s (execWearGaugeComparison dies s) := by
  unfold execWearGaugeComparison
  exact .ite (.next (.refl _)) (.ite (.next (.refl _)) (.next (State.measureDies_keeps ..)))

theorem execSdramMigrationDone_keeps (ch : Fin 12) (s : State) : Ends Keeps s (execSdramMigrationDone ch s) := by
  unfold execSdramMigrationDone
  dsimp only
  exact .ite (.next (State.upSdram_keeps ..)) (.next (.refl _))

/-! ### Rows of counters and snapshots (R388 to R396) -/

theorem execSnapshotCapture_keeps (set : Fin 256) (s : State) : Ends Keeps s (execSnapshotCapture set s) := by
  unfold execSnapshotCapture
  dsimp only
  split
  · exact .next (.refl _)
  · exact .next (.ite (.refl _) (State.capture_keeps ..))

theorem execSnapshotBufferWritten_keeps (set : Fin 256) (delivered : Bool) (s : State) :
    Ends Keeps s (execSnapshotBufferWritten set delivered s) := by
  unfold execSnapshotBufferWritten
  split
  · exact .next (.refl _)
  · extract_lets here ok jobs s1 s2 s3
    have idle : Keeps s s1 := ((Keeps.refl s).upCounters _ rfl).trans (State.put_keeps ..)
    have body : Keeps s s2 := (idle.trans (State.hostWrite_keeps ..)).trans (State.hostWrite_keeps ..)
    have whole : Keeps s s3 := body.trans (State.hostWrite_keeps ..)
    exact .ite (.next (.refl _)) (.ite (.next ((whole.trans (State.addSat_keeps ..)).trans (State.put_keeps ..)))
      (.next (idle.trans (State.addSat_keeps ..))))

theorem execCounterUncorrectable_keeps (id : Nat) (s : State) : Ends Keeps s (execCounterUncorrectable id s) := by
  unfold execCounterUncorrectable
  dsimp only
  exact .ite (.next (.refl _)) (.next (((State.clearCounter_keeps ..).upCounters _ rfl).trans (State.raiseOpen_keeps ..)))

/-! ### Rows of queues, programs and start-up (R31 to R63, R80) -/

theorem execTqTailDoorbell_keeps (q : QueueId) (value : BitVec 32) (s : State) : Ends Keeps s (execTqTailDoorbell q value s) := by
  unfold execTqTailDoorbell
  dsimp only
  split
  · exact .next (.refl _)
  · exact .ite (.next (.refl _)) (.ite (.next (State.fetchError_keeps ..)) (.next (State.setReg_keeps ..)))

theorem execTqSizeWrite_keeps (q : QueueId) (value : BitVec 32) (s : State) : Ends Keeps s (execTqSizeWrite q value s) := by
  unfold execTqSizeWrite
  dsimp only
  split
  · exact .next (.refl _)
  · refine .ite (.next (.refl _)) ?_
    exact .ite (.next (State.fetchError_keeps ..)) (.ite (.next (State.fetchError_keeps ..)) (.next (State.setReg_keeps ..)))

theorem execTqBaseWrite_keeps (q : QueueId) (value : Word) (s : State) : Ends Keeps s (execTqBaseWrite q value s) := by
  unfold execTqBaseWrite
  split
  · exact .next (.refl _)
  · exact .ite (.next (.refl _)) (.ite (.next (State.fetchError_keeps ..)) (.next (State.setReg_keeps ..)))

theorem execTqAbortGo_stores (q : QueueId) (value : BitVec 32) (s : State) : Ends Stores s (execTqAbortGo q value s) := by
  unfold execTqAbortGo
  dsimp only
  split
  · exact .next (.refl _)
  · refine .ite (.next (.refl _)) (.ite (.next (State.setRegBits_keeps ..).toStores) ?_)
    split
    · exact .next (State.setReg_keeps ..).toStores
    · exact .ite (.next (State.setReg_keeps ..).toStores) (.next ((State.askAbort_stores ..).trans (State.setReg_keeps ..).toStores))

theorem execRegisterWrite_keeps (v : ViewId) (offset : Nat) (value : Word) (s : State) : Ends Keeps s (execRegisterWrite v offset value s) := by
  unfold execRegisterWrite
  dsimp only
  refine .ite (.next (.refl _)) (.ite (.next (State.setReg_keeps ..)) ?_)
  refine .ite (.next (.ite (State.setRegBits_keeps ..) (.refl _))) ?_
  refine .ite (.next (.ite (State.setRegBits_keeps ..) (.refl _))) ?_
  refine .ite (.next (State.setReg_keeps ..)) ?_
  refine .ite (.next (State.setReg_keeps ..)) ?_
  exact .ite (.next (State.setReg_keeps ..)) (.ite (.next (State.setReg_keeps ..)) (.next (.refl _)))

theorem execProgramFetchComplete_keeps (q : QueueId) (desc code : Option (List Word)) (s : State) :
    Ends Keeps s (execProgramFetchComplete q desc code s) := by
  unfold execProgramFetchComplete
  dsimp only
  refine .ite (.next (.refl _)) (.ite (.next (.refl _)) ?_)
  split
  · split
    · exact .next (.refl _)
    · exact .next ((State.upTally_keeps ..).trans (State.fetchedMgmt_keeps ..))
  · exact .ite (.next (.refl _)) (.next ((State.setReg_keeps ..).trans (State.fetched_keeps ..)))

theorem execProgramStart_stores (prog : Nat) (s : State) : Ends Stores s (execProgramStart prog s) := by
  unfold execProgramStart
  dsimp only
  split
  · exact .next (.refl _)
  · refine .ite (.next (.refl _)) ?_
    refine .ite (.ite (.next (State.orWait_stores _ _ (State.endProg_stores ..))) (.ite (.next (State.upd_keeps ..).toStores) (.next (.refl _)))) ?_
    refine .ite ?_ (.next (.refl _))
    exact .ite (.next (State.orWait_stores _ _ (State.endProg_stores ..))) (.ite (.next (State.upd_keeps ..).toStores) (.next (.refl _)))

theorem execInstructionLimitTimeout_stores (prog : Nat) (s : State) : Ends Stores s (execInstructionLimitTimeout prog s) := by
  unfold execInstructionLimitTimeout
  split
  · exact .next (.refl _)
  · exact .ite (.next (State.orWait_stores _ _ (State.endProg_stores ..))) (.next (.refl _))

theorem execParkedProgramDue_stores (prog : Nat) (s : State) : Ends Stores s (execParkedProgramDue prog s) := by
  unfold execParkedProgramDue
  dsimp only
  split
  · exact .next (.refl _)
  · refine .ite (.next (.refl _)) (.ite (.next (State.orWait_stores _ _ (State.endProg_stores ..))) ?_)
    exact .ite (.next (State.unpark_keeps ..).toStores) (.next (.refl _))

theorem execScheduledEventFire_keeps (s : State) : Ends Keeps s (execScheduledEventFire s) := by
  unfold execScheduledEventFire
  refine .ite (.next (.refl _)) ?_
  split
  · exact .next (State.unpark_keeps ..)
  · split
    · exact .next (State.capture_keeps ..)
    · exact .next (.refl _)

theorem execTallyFwdReceived_keeps (m : FwdFragment) (s : State) : Ends Keeps s (execTallyFwdReceived m s) := by
  unfold execTallyFwdReceived
  dsimp only
  refine .ite (.next (.refl _)) (.ite (.next (.refl _)) ?_)
  exact .ite (.next (State.upTally_keeps ..)) (.next ((State.upTally_keeps ..).trans (State.programArrived_keeps ..)))

theorem execTallyFragmentTimeout_keeps (srcDev fwdId : Nat) (s : State) : Ends Keeps s (execTallyFragmentTimeout srcDev fwdId s) := by
  unfold execTallyFragmentTimeout
  dsimp only
  exact .next (.ite (State.upTally_keeps ..) (.refl _))

theorem execTallyAcceptReceived_keeps (fwdId : Nat) (s : State) : Ends Keeps s (execTallyAcceptReceived fwdId s) := by
  unfold execTallyAcceptReceived
  dsimp only
  exact .next (.ite (State.upTally_keeps ..) (.refl _))

theorem execTallyResultReceived_stores (fwdId : Nat) (result logSeq : Word) (rods : List Word) (s : State) :
    Ends Stores s (execTallyResultReceived fwdId result logSeq rods s) := by
  unfold execTallyResultReceived
  refine .ite (.next (.refl _)) ?_
  split
  · exact .next (.refl _)
  · exact .next (.ite (State.fwdEnd_stores ..) (.refl _))

theorem execForwardAcceptTimeout_stores (fwdId : Nat) (s : State) : Ends Stores s (execForwardAcceptTimeout fwdId s) := by
  unfold execForwardAcceptTimeout
  split
  · exact .next (.refl _)
  · exact .next (.ite (State.fwdEnd_stores ..) (.refl _))

theorem execBaseConfiguration_keeps (flash : BootFlash) (s : State) : Ends Keeps s (execBaseConfiguration flash s) := by
  unfold execBaseConfiguration
  refine .ite (.next (.refl _)) (.ite (.next (.refl _)) ?_)
  split
  · exact .next (State.bootFrom_keeps ..)
  · extract_lets power tally s1
    have begun : Keeps s s1 := .refl s
    exact .next (begun.trans (State.baseStop_keeps ..))

theorem execBaseDone_keeps (s : State) : Ends Keeps s (execBaseDone s) := by
  unfold execBaseDone
  dsimp only
  refine .ite (.next (.refl _)) ?_
  exact .next ((State.logEntry_keeps ..).trans (State.upPower_keeps ..) |>.trans (State.slotsBase_keeps ..) |>.trans (State.emit_keeps ..)
      |>.trans (State.showHosts_keeps ..) |>.trans (State.notify_keeps ..))

theorem execFaultEvent_stores (e : FaultIn) (s : State) : Ends Stores s (execFaultEvent e s) := by
  unfold execFaultEvent
  refine .ite (.next (.refl _)) ?_
  exact .next ((State.tallyFault_stores ..).trans (State.bankError_keeps ..).toStores |>.trans (State.raise_keeps ..).toStores)

theorem execLockstepMismatch_stores (s : State) : Ends Stores s (execLockstepMismatch s) := by
  unfold execLockstepMismatch
  refine .ite (.next (.refl _)) (.ite (.next ((State.tallyFault_stores ..).trans (State.raiseOpen_keeps ..).toStores)) ?_)
  exact .next ((State.tallyFault_stores ..).trans (State.raiseOpen_keeps ..).toStores)

/-! ### Rows of control instructions (R46, R49, R50, R54) -/

theorem execNop_stores (prog : Nat) (s : State) : Ends Stores s (execNop prog s) :=
  s.instrRow_stores prog _ _ fun _ _ => (State.proceed_keeps ..).toStores

theorem execHalt_stores (prog : Nat) (s : State) : Ends Stores s (execHalt prog s) := by
  unfold execHalt
  split
  · exact .next (.refl _)
  · exact .ite (.next (State.orWait_stores _ _ (State.endProg_stores ..))) (State.instrRow_stores _ _ _ _ fun _ _ => State.endProg_stores ..)

theorem execBeginTx_stores (prog : Nat) (s : State) : Ends Stores s (execBeginTx prog s) :=
  s.instrRow_stores prog _ _ fun _ _ => .ite (State.endProg_stores ..) (State.proceed_keeps ..).toStores

theorem execAbort_stores (prog : Nat) (s : State) : Ends Stores s (execAbort prog s) :=
  s.instrRow_stores prog _ _ fun _ _ => State.endProg_stores ..

theorem execAtTide_stores (prog : Nat) (s : State) : Ends Stores s (execAtTide prog s) :=
  s.instrRow_stores prog _ _ fun _ _ => .ite (State.endProg_stores ..)
    (.ite (State.park_stores ..) (.ite (State.endProg_stores ..) (State.proceed_keeps ..).toStores))

theorem execWaitTide_stores (prog : Nat) (s : State) : Ends Stores s (execWaitTide prog s) :=
  s.instrRow_stores prog _ _ fun _ _ => .ite (State.proceed_keeps ..).toStores (State.park_stores ..)

theorem execSyncCommits_stores (prog : Nat) (s : State) : Ends Stores s (execSyncCommits prog s) :=
  s.instrRow_stores prog _ _ fun _ _ => (State.upd_keeps ..).toStores

theorem execSyncQueue_stores (prog : Nat) (s : State) : Ends Stores s (execSyncQueue prog s) :=
  s.instrRow_stores prog _ _ fun _ _ => (State.upd_keeps ..).toStores

theorem execSyncComplete_stores (prog : Nat) (s : State) : Ends Stores s (execSyncComplete prog s) := by
  unfold execSyncComplete
  dsimp only
  split
  · exact .next (.refl _)
  · split
    · exact .next (.ite (.ite (State.orWait_stores _ _ (State.endProg_stores ..)) (State.proceed_keeps ..).toStores) (.refl _))
    · exact .next (.ite (.ite (State.orWait_stores _ _ (State.endProg_stores ..)) (State.proceed_keeps ..).toStores) (.refl _))
    · exact .next (.refl _)

theorem execLogNote_stores (prog : Nat) (s : State) : Ends Stores s (execLogNote prog s) :=
  s.instrRow_stores prog _ _ fun _ _ => ((State.logEntry_keeps ..).trans (State.proceed_keeps ..)).toStores

/-! ### Rows of commits and what waits for them (R47) -/

theorem execCommit_safe (prog : Nat) (s : State) : Ends Safe s (execCommit prog s) :=
  s.instrRow_safe prog _ _ fun _ _ => .ite (State.commitPoint_safe ..) (State.endProg_stores ..).toSafe

theorem execUnbindDrainDone_safe (prog : Nat) (s : State) : Ends Safe s (execUnbindDrainDone prog s) := by
  unfold execUnbindDrainDone
  split
  · exact .next (.refl _)
  · split
    · refine .ite (.next (.refl _)) (.ite (.next (State.orWait_safe _ _ (State.endProg_stores ..).toSafe)) ?_)
      exact .ite (.next (.refl _)) (.next (State.orWait_safe _ _ (State.objNow_safe ..)))
    · exact .next (.refl _)

theorem execUnbindDrainTimeout_stores (prog : Nat) (s : State) : Ends Stores s (execUnbindDrainTimeout prog s) := by
  unfold execUnbindDrainTimeout
  split
  · exact .next (.refl _)
  · split
    · exact .ite (.next (State.orWait_stores _ _ (.ite (State.endProg_stores ..) (State.objFail_stores ..)))) (.next (.refl _))
    · exact .next (.refl _)

theorem execTenantResetEnd_stores (t : TenantId) (s : State) : Ends Stores s (execTenantResetEnd t s) := by
  unfold execTenantResetEnd
  dsimp only
  split
  · exact .next (.refl _)
  · refine .ite (.next (.refl _)) (.ite (.next ((State.upTenancy_keeps ..).toStores.trans (State.put_keeps ..).toStores)) ?_)
    split
    · exact .next ((State.upTenancy_keeps ..).toStores.trans (State.put_keeps ..).toStores)
    · exact .next (State.orWait_stores _ _ ((State.upTenancy_keeps ..).toStores.trans (State.put_keeps ..).toStores
          |>.trans (.ite (State.resetAnswer_stores ..) (.refl _))))

/-! ### Every row -/

/-- Whatever a command does, the queue stays, and every table that was canonical stays so. -/
theorem exec_safe (c : Instr) (s : State) : Ends Safe s (exec c s) := by
  unfold exec
  cases c with
  | tqTailDoorbell _ _ => exact .ofKeeps (execTqTailDoorbell_keeps ..)
  | tqSizeWrite _ _ => exact .ofKeeps (execTqSizeWrite_keeps ..)
  | tqBaseWrite _ _ => exact .ofKeeps (execTqBaseWrite_keeps ..)
  | tqAbortGo _ _ => exact .ofStores (execTqAbortGo_stores ..)
  | registerWrite _ _ _ => exact .ofKeeps (execRegisterWrite_keeps ..)
  | programFetchComplete _ _ _ => exact .ofKeeps (execProgramFetchComplete_keeps ..)
  | programStart _ => exact .ofStores (execProgramStart_stores ..)
  | instructionLimitTimeout _ => exact .ofStores (execInstructionLimitTimeout_stores ..)
  | nop _ => exact .ofStores (execNop_stores ..)
  | halt _ => exact .ofStores (execHalt_stores ..)
  | beginTx _ => exact .ofStores (execBeginTx_stores ..)
  | commit _ => exact execCommit_safe ..
  | abort _ => exact .ofStores (execAbort_stores ..)
  | atTide _ => exact .ofStores (execAtTide_stores ..)
  | waitTide _ => exact .ofStores (execWaitTide_stores ..)
  | parkedProgramDue _ => exact .ofStores (execParkedProgramDue_stores ..)
  | jmp _ => exact .ofStores (State.branchRow_stores ..)
  | bz _ => exact .ofStores (State.branchRow_stores ..)
  | bnz _ => exact .ofStores (State.branchRow_stores ..)
  | blt _ => exact .ofStores (State.branchRow_stores ..)
  | ldi _ => exact .ofStores (State.rodRow_stores ..)
  | mov _ => exact .ofStores (State.rodRow_stores ..)
  | add _ => exact .ofStores (State.rodRow_stores ..)
  | sub _ => exact .ofStores (State.rodRow_stores ..)
  | andOp _ => exact .ofStores (State.rodRow_stores ..)
  | orOp _ => exact .ofStores (State.rodRow_stores ..)
  | xorOp _ => exact .ofStores (State.rodRow_stores ..)
  | shl _ => exact .ofStores (State.rodRow_stores ..)
  | shr _ => exact .ofStores (State.rodRow_stores ..)
  | cmp _ => exact .ofStores (State.rodRow_stores ..)
  | syncCommits _ => exact .ofStores (execSyncCommits_stores ..)
  | syncQueue _ => exact .ofStores (execSyncQueue_stores ..)
  | syncComplete _ => exact .ofStores (execSyncComplete_stores ..)
  | logNote _ => exact .ofStores (execLogNote_stores ..)
  | oread _ => exact State.objRow_safe ..
  | owrite _ => exact State.objRow_safe ..
  | ocas _ => exact State.objRow_safe ..
  | portCfg _ => exact State.objRow_safe ..
  | portStateEnable _ => exact State.objRow_safe ..
  | portStateDisable _ => exact State.objRow_safe ..
  | portStateRetrain _ => exact State.objRow_safe ..
  | portStateHotReset _ => exact State.objRow_safe ..
  | portStateOutOfService _ => exact State.objRow_safe ..
  | portStateBackInService _ => exact State.objRow_safe ..
  | route _ => exact State.objRow_safe ..
  | pathGrp _ => exact State.objRow_safe ..
  | withdraw _ => exact State.objRow_safe ..
  | withdrawRestore _ => exact State.objRow_safe ..
  | tenantCreate _ => exact State.objRow_safe ..
  | tenantDelete _ => exact State.objRow_safe ..
  | tenantSuspend _ => exact State.objRow_safe ..
  | tenantResume _ => exact State.objRow_safe ..
  | tenantReset _ => exact State.objRow_safe ..
  | tenantResetEnd _ => exact .ofStores (execTenantResetEnd_stores ..)
  | bindFn _ => exact State.objRow_safe ..
  | unbindFn _ => exact State.objRow_safe ..
  | unbindDrainDone _ => exact execUnbindDrainDone_safe ..
  | unbindDrainTimeout _ => exact .ofStores (execUnbindDrainTimeout_stores ..)
  | gateSet _ => exact State.objRow_safe ..
  | resizeQuota _ => exact State.objRow_safe ..
  | meter _ => exact State.objRow_safe ..
  | sched _ => exact State.objRow_safe ..
  | qpCreate _ => exact State.objRow_safe ..
  | qpModify _ => exact State.objRow_safe ..
  | qpFlush _ => exact State.objRow_safe ..
  | qpDestroy _ => exact State.objRow_safe ..
  | region _ => exact State.objRow_safe ..
  | revoke _ => exact State.objRow_safe ..
  | revokeComplete _ => exact .ofKeeps (execRevokeComplete_keeps ..)
  | cqCreate _ => exact State.objRow_safe ..
  | cqDestroy _ => exact State.objRow_safe ..
  | cqResize _ => exact State.objRow_safe ..
  | slotPwrOff _ => exact State.objRow_safe ..
  | slotPwrOn _ => exact State.objRow_safe ..
  | slotPwrCycle _ => exact State.objRow_safe ..
  | slotPwrLimits _ => exact State.objRow_safe ..
  | budget _ => exact State.objRow_safe ..
  | overlayStore _ _ => exact State.objRow_safe ..
  | overlayApply _ => exact State.objRow_safe ..
  | overlayRemove _ => exact State.objRow_safe ..
  | overlayDelete _ => exact State.objRow_safe ..
  | snap _ => exact State.objRow_safe ..
  | query _ => exact State.objRow_safe ..
  | inject _ => exact State.objRow_safe ..
  | faultAck _ => exact State.objRow_safe ..
  | deviceFabricIdWrite _ => exact State.objRow_safe ..
  | deviceResetRequest _ => exact State.objRow_safe ..
  | orderlyPowerDown _ => exact State.objRow_safe ..
  | injectArmWrite _ => exact State.objRow_safe ..
  | bankTargetState _ => exact State.objRow_safe ..
  | bankTest _ => exact State.objRow_safe ..
  | bankTestEnd _ _ => exact .ofKeeps (execBankTestEnd_keeps ..)
  | bankDrained _ => exact .ofKeeps (execBankDrained_keeps ..)
  | laneTargetState _ => exact State.objRow_safe ..
  | laneTestConfig _ => exact State.objRow_safe ..
  | laneClearCheck _ => exact State.objRow_safe ..
  | prbsCheckLock _ => exact .ofKeeps (execPrbsCheckLock_keeps ..)
  | marginGo _ => exact State.objRow_safe ..
  | marginDone _ _ _ _ _ => exact .ofKeeps (execMarginDone_keeps ..)
  | laneTapWrite _ => exact State.objRow_safe ..
  | slotTest _ => exact State.objRow_safe ..
  | slotTestEnd _ _ => exact .ofKeeps (execSlotTestEnd_keeps ..)
  | slotTargetState _ => exact State.objRow_safe ..
  | slotAutoOnSet _ => exact State.objRow_safe ..
  | slotClearEnergy _ => exact State.objRow_safe ..
  | slotPeakClear _ => exact State.objRow_safe ..
  | feedTargetState _ => exact State.objRow_safe ..
  | meterClearCounts _ => exact State.objRow_safe ..
  | schedqMaxClear _ => exact State.objRow_safe ..
  | tempPeakReset _ => exact State.objRow_safe ..
  | tideSourceSet _ => exact State.objRow_safe ..
  | sdramOutOfService _ => exact State.objRow_safe ..
  | sdramMigrationDone _ => exact .ofKeeps (execSdramMigrationDone_keeps ..)
  | hostViewWrite _ => exact State.objRow_safe ..
  | slotRangeWrite _ => exact State.objRow_safe ..
  | snapshotSetWrite _ => exact State.objRow_safe ..
  | telemetryRingWrite _ => exact State.objRow_safe ..
  | rxPoolWrite _ => exact State.objRow_safe ..
  | tallyFwdReceived _ => exact .ofKeeps (execTallyFwdReceived_keeps ..)
  | tallyFragmentTimeout _ _ => exact .ofKeeps (execTallyFragmentTimeout_keeps ..)
  | tallyAcceptReceived _ => exact .ofKeeps (execTallyAcceptReceived_keeps ..)
  | tallyResultReceived _ _ _ _ => exact .ofStores (execTallyResultReceived_stores ..)
  | forwardAcceptTimeout _ => exact .ofStores (execForwardAcceptTimeout_stores ..)
  | lbMirrorCtrlWrite _ _ => exact .ofKeeps (execLbMirrorCtrlWrite_keeps ..)
  | lbMirrorBaseWrite _ _ => exact .ofKeeps (execLbMirrorBaseWrite_keeps ..)
  | logbookSdramCopy => exact .ofKeeps (execLogbookSdramCopy_keeps ..)
  | mirrorWrite _ _ => exact .ofKeeps (execMirrorWrite_keeps ..)
  | lbExportGo _ _ => exact .ofKeeps (execLbExportGo_keeps ..)
  | exportEnd _ _ _ => exact .ofKeeps (execExportEnd_keeps ..)
  | baseConfiguration _ => exact .ofKeeps (execBaseConfiguration_keeps ..)
  | baseDone => exact .ofKeeps (execBaseDone_keeps ..)
  | packetReceived _ _ _ => exact .ofKeeps (execPacketReceived_keeps ..)
  | heldPacketReevaluate _ _ => exact .ofKeeps (execHeldPacketReevaluate_keeps ..)
  | egressPacketBegin _ _ => exact .ofKeeps (execEgressPacketBegin_keeps ..)
  | crossbarSecondRead _ _ _ => exact .ofKeeps (execCrossbarSecondRead_keeps ..)
  | cutThroughPause _ => exact .ofKeeps (execCutThroughPause_keeps ..)
  | cutThroughResume _ _ => exact .ofKeeps (execCutThroughResume_keeps ..)
  | packetCellsFreed _ => exact .ofKeeps (execPacketCellsFreed_keeps ..)
  | freeListAuditPass => exact .ofKeeps (execFreeListAuditPass_keeps ..)
  | congestionUpdate => exact .ofKeeps (execCongestionUpdate_keeps ..)
  | equalWeightPeriodEnd _ => exact .ofKeeps (execEqualWeightPeriodEnd_keeps ..)
  | sendRecordSilenceClose _ => exact .ofKeeps (execSendRecordSilenceClose_keeps ..)
  | reorderPacketArrival _ => exact .ofKeeps (execReorderPacketArrival_keeps ..)
  | gapTimerExpiry _ => exact .ofKeeps (execGapTimerExpiry_keeps ..)
  | receiveRecordSilenceFree _ => exact .ofKeeps (execReceiveRecordSilenceFree_keeps ..)
  | teardownReceived _ _ => exact .ofKeeps (execTeardownReceived_keeps ..)
  | fabricPortFailure _ => exact .ofKeeps (execFabricPortFailure_keeps ..)
  | withdrawMessageReceived _ _ => exact .ofKeeps (execWithdrawMessageReceived_keeps ..)
  | replayResend _ => exact .ofKeeps (execReplayResend_keeps ..)
  | spilledResend _ => exact .ofKeeps (execSpilledResend_keeps ..)
  | autoRestoreExpiry _ => exact .ofKeeps (execAutoRestoreExpiry_keeps ..)
  | completionReceived _ _ => exact .ofKeeps (execCompletionReceived_keeps ..)
  | edgeLinkDownClose _ => exact .ofKeeps (execEdgeLinkDownClose_keeps ..)
  | remoteCmReadTimeout _ => exact .ofKeeps (execRemoteCmReadTimeout_keeps ..)
  | presenceMessageReceived _ => exact .ofKeeps (execPresenceMessageReceived_keeps ..)
  | bindNoticeReceived _ => exact .ofKeeps (execBindNoticeReceived_keeps ..)
  | bindConfirmReceived _ _ => exact .ofKeeps (execBindConfirmReceived_keeps ..)
  | bindResetReceived _ => exact .ofKeeps (execBindResetReceived_keeps ..)
  | deliveryReceived _ _ _ => exact .ofKeeps (execDeliveryReceived_keeps ..)
  | meterEpochEnd => exact .ofKeeps (execMeterEpochEnd_keeps ..)
  | sampleInstant => exact .ofKeeps (execSampleInstant_keeps ..)
  | telemetryHostWrite _ => exact .ofKeeps (execTelemetryHostWrite_keeps ..)
  | flrCompletionPoll _ _ => exact .ofKeeps (execFlrCompletionPoll_keeps ..)
  | flrTimeout _ _ => exact .ofKeeps (execFlrTimeout_keeps ..)
  | devicePortPresenceLoss _ => exact .ofKeeps (execDevicePortPresenceLoss_keeps ..)
  | functionEnumerated _ _ _ _ => exact .ofKeeps (execFunctionEnumerated_keeps ..)
  | cmPostedWrite _ _ _ _ => exact .ofStores (execCmPostedWrite_stores ..)
  | heldStoreApplied _ _ => exact .ofStores (execHeldStoreApplied_stores ..)
  | cmRead _ _ _ _ _ => exact .ofStores (execCmRead_stores ..)
  | reservedLoad _ _ _ _ => exact .ofStores (execReservedLoad_stores ..)
  | conditionalStoreApplied _ _ => exact .ofStores (execConditionalStoreApplied_stores ..)
  | reservationExpiry _ => exact .ofKeeps (execReservationExpiry_keeps ..)
  | cmAtomicOp _ _ _ _ _ _ _ _ => exact .ofStores (execCmAtomicOp_stores ..)
  | trackedWriteVisible _ _ => exact .ofKeeps (execTrackedWriteVisible_keeps ..)
  | cmBarrier _ _ => exact .ofKeeps (execCmBarrier_keeps ..)
  | barrierComplete _ => exact .ofKeeps (execBarrierComplete_keeps ..)
  | cmBarrierStatusRead _ _ => exact .ofKeeps (execCmBarrierStatusRead_keeps ..)
  | barrierStatusHoldExpiry _ => exact .ofKeeps (execBarrierStatusHoldExpiry_keeps ..)
  | cmScStatusRead _ _ => exact .ofKeeps (execCmScStatusRead_keeps ..)
  | tideNowRead _ _ _ _ => exact .ofKeeps (execTideNowRead_keeps ..)
  | doorbellSend _ _ _ => exact .ofKeeps (execDoorbellSend_keeps ..)
  | doorbellRecv _ _ _ => exact .ofKeeps (execDoorbellRecv_keeps ..)
  | doorbellCqArm _ _ _ => exact .ofKeeps (execDoorbellCqArm_keeps ..)
  | doorbellCqConsumer _ _ _ => exact .ofKeeps (execDoorbellCqConsumer_keeps ..)
  | workRequestStart _ _ => exact .ofKeeps (execWorkRequestStart_keeps ..)
  | contextMissFill _ => exact .ofKeeps (execContextMissFill_keeps ..)
  | lighterPacketSend _ _ => exact .ofKeeps (execLighterPacketSend_keeps ..)
  | lighterRequestReceived _ _ => exact .ofKeeps (execLighterRequestReceived_keeps ..)
  | translationComplete _ _ _ _ _ => exact .ofKeeps (execTranslationComplete_keeps ..)
  | ackSend _ => exact .ofKeeps (execAckSend_keeps ..)
  | ackReceived _ => exact .ofKeeps (execAckReceived_keeps ..)
  | lighterResponseReceived _ => exact .ofKeeps (execLighterResponseReceived_keeps ..)
  | nakReceived _ => exact .ofKeeps (execNakReceived_keeps ..)
  | retransmissionTimerExpiry _ => exact .ofKeeps (execRetransmissionTimerExpiry_keeps ..)
  | workRequestCommit _ _ _ => exact .ofKeeps (execWorkRequestCommit_keeps ..)
  | fenceResponseReady _ => exact .ofKeeps (execFenceResponseReady_keeps ..)
  | invalidateRequest _ _ _ _ => exact .ofKeeps (execInvalidateRequest_keeps ..)
  | flitReceived _ _ => exact .ofKeeps (execFlitReceived_keeps ..)
  | replayRequestReceived _ _ _ => exact .ofKeeps (execReplayRequestReceived_keeps ..)
  | initReceived _ _ => exact .ofKeeps (execInitReceived_keeps ..)
  | creditTimeout _ _ => exact .ofKeeps (execCreditTimeout_keeps ..)
  | errorWindowEnd _ => exact .ofKeeps (execErrorWindowEnd_keeps ..)
  | fastRetrainStart _ => exact .ofKeeps (execFastRetrainStart_keeps ..)
  | retrainTimeout _ => exact .ofKeeps (execRetrainTimeout_keeps ..)
  | initTimeout _ => exact .ofKeeps (execInitTimeout_keeps ..)
  | heldTimerExpiry _ => exact .ofKeeps (execHeldTimerExpiry_keeps ..)
  | resizeReqReceived _ _ => exact .ofKeeps (execResizeReqReceived_keeps ..)
  | resizeAckReceived _ _ => exact .ofKeeps (execResizeAckReceived_keeps ..)
  | resizeNakReceived _ => exact .ofKeeps (execResizeNakReceived_keeps ..)
  | resizePauseTimeout _ => exact .ofKeeps (execResizePauseTimeout_keeps ..)
  | linkDrainEnd _ => exact .ofKeeps (execLinkDrainEnd_keeps ..)
  | replaySpill _ => exact .ofKeeps (execReplaySpill_keeps ..)
  | tideSyncSend => exact .ofKeeps (execTideSyncSend_keeps ..)
  | tideSyncReceived _ _ => exact .ofKeeps (execTideSyncReceived_keeps ..)
  | tideFollowReceived _ _ _ _ _ => exact .ofKeeps (execTideFollowReceived_keeps ..)
  | tideDreqReceived _ _ => exact .ofKeeps (execTideDreqReceived_keeps ..)
  | tideDrespReceived _ _ _ => exact .ofKeeps (execTideDrespReceived_keeps ..)
  | tideMeasurement _ _ => exact .ofKeeps (execTideMeasurement_keeps ..)
  | tideSourceLoss => exact .ofKeeps (execTideSourceLoss_keeps ..)
  | scheduledEventFire => exact .ofKeeps (execScheduledEventFire_keeps ..)
  | markerReceived _ _ => exact .ofKeeps (execMarkerReceived_keeps ..)
  | laneLossOfLock _ => exact .ofKeeps (execLaneLossOfLock_keeps ..)
  | steerLimitExpiry _ => exact .ofKeeps (execSteerLimitExpiry_keeps ..)
  | bringUpAttemptFail _ => exact .ofKeeps (execBringUpAttemptFail_keeps ..)
  | lanesAligned _ _ => exact .ofKeeps (execLanesAligned_keeps ..)
  | laneGrant => exact .ofKeeps (execLaneGrant_keeps ..)
  | calibrationPassDue _ _ => exact .ofKeeps (execCalibrationPassDue_keeps ..)
  | calibrationRequestTimeout _ _ => exact .ofKeeps (execCalibrationRequestTimeout_keeps ..)
  | calibrationEnd _ _ _ _ => exact .ofKeeps (execCalibrationEnd_keeps ..)
  | calibrationWindow _ => exact .ofKeeps (execCalibrationWindow_keeps ..)
  | perstNChange _ => exact .ofKeeps (execPerstNChange_keeps ..)
  | hostPortDetect _ => exact .ofKeeps (execHostPortDetect_keeps ..)
  | configRequest _ _ => exact .ofStores (execConfigRequest_stores ..)
  | unsupportedRequest _ _ => exact .ofKeeps (execUnsupportedRequest_keeps ..)
  | hostLinkDownViewReset _ => exact .ofKeeps (execHostLinkDownViewReset_keeps ..)
  | functionLevelReset _ _ => exact .ofKeeps (execFunctionLevelReset_keeps ..)
  | flrEnd _ _ => exact .ofKeeps (execFlrEnd_keeps ..)
  | secondaryBusReset _ _ => exact .ofKeeps (execSecondaryBusReset_keeps ..)
  | dpcTrigger _ _ _ => exact .ofKeeps (execDpcTrigger_keeps ..)
  | dpcRelease _ _ => exact .ofKeeps (execDpcRelease_keeps ..)
  | completionTimeout _ _ => exact .ofKeeps (execCompletionTimeout_keeps ..)
  | tlpNullify _ => exact .ofKeeps (execTlpNullify_keeps ..)
  | pmeTurnOff _ => exact .ofStores (execPmeTurnOff_stores ..)
  | l1Exit _ => exact .ofKeeps (execL1Exit_keeps ..)
  | l0pWidthChange _ _ => exact .ofKeeps (execL0pWidthChange_keeps ..)
  | mctpMessage _ => exact .ofKeeps (execMctpMessage_keeps ..)
  | clockInputLoss _ => exact .ofKeeps (execClockInputLoss_keeps ..)
  | refclkReturn _ => exact .ofKeeps (execRefclkReturn_keeps ..)
  | coldReset _ => exact execColdReset_safe ..
  | managementPathReady _ => exact .ofKeeps (execManagementPathReady_keeps ..)
  | deviceReset => exact execDeviceReset_safe ..
  | devRstNRise => exact .ofKeeps (execDevRstNRise_keeps ..)
  | pwrOkFall => exact execPwrOkFall_safe ..
  | faultEvent _ => exact .ofStores (execFaultEvent_stores ..)
  | mergeQuietClose _ => exact .ofKeeps (execMergeQuietClose_keeps ..)
  | leakDecrement _ => exact .ofKeeps (execLeakDecrement_keeps ..)
  | faultLogWrite => exact .ofKeeps (execFaultLogWrite_keeps ..)
  | haltRestartTimeout => exact execHaltRestartTimeout_safe ..
  | lockstepMismatch => exact .ofStores (execLockstepMismatch_stores ..)
  | injectionExpiry => exact .ofKeeps (execInjectionExpiry_keeps ..)
  | thermalTrip _ _ => exact .ofKeeps (execThermalTrip_keeps ..)
  | overTemperature _ _ _ => exact .ofKeeps (execOverTemperature_keeps ..)
  | railOutOfRange _ _ _ => exact .ofKeeps (execRailOutOfRange_keeps ..)
  | wearGaugeComparison _ => exact .ofKeeps (execWearGaugeComparison_keeps ..)
  | presenceDebounced _ => exact .ofKeeps (execPresenceDebounced_keeps ..)
  | presenceLost _ => exact .ofKeeps (execPresenceLost_keeps ..)
  | dwellElapsed _ => exact .ofKeeps (execDwellElapsed_keeps ..)
  | slotGrant => exact .ofKeeps (execSlotGrant_keeps ..)
  | powerGood _ => exact .ofKeeps (execPowerGood_keeps ..)
  | perstDelayEnd _ => exact .ofKeeps (execPerstDelayEnd_keeps ..)
  | rampLimitTimeout _ => exact .ofKeeps (execRampLimitTimeout_keeps ..)
  | currentLimitEnter _ _ => exact .ofKeeps (execCurrentLimitEnter_keeps ..)
  | faultTimerExpiry _ => exact .ofKeeps (execFaultTimerExpiry_keeps ..)
  | breakerFire _ _ => exact .ofKeeps (execBreakerFire_keeps ..)
  | inputUndervoltage _ => exact .ofKeeps (execInputUndervoltage_keeps ..)
  | retryCountReset _ => exact .ofKeeps (execRetryCountReset_keeps ..)
  | orderlyOffGate _ => exact .ofKeeps (execOrderlyOffGate_keeps ..)
  | attentionRequest _ => exact .ofKeeps (execAttentionRequest_keeps ..)
  | feedReverseBlock _ _ _ => exact .ofKeeps (execFeedReverseBlock_keeps ..)
  | feedInputOutOfRange _ _ => exact .ofKeeps (execFeedInputOutOfRange_keeps ..)
  | measurementPublish => exact .ofKeeps (execMeasurementPublish_keeps ..)
  | measurementSample _ _ => exact .ofKeeps (execMeasurementSample_keeps ..)
  | snapshotCapture _ => exact .ofKeeps (execSnapshotCapture_keeps ..)
  | snapshotBufferWritten _ _ => exact .ofKeeps (execSnapshotBufferWritten_keeps ..)
  | counterUncorrectable _ => exact .ofKeeps (execCounterUncorrectable_keeps ..)
  | currentLimitExit _ _ => exact .ofKeeps (execCurrentLimitExit_keeps ..)
  | feedConductionStart _ _ _ => exact .ofKeeps (execFeedConductionStart_keeps ..)
  | ptmDialogueStart => exact .ofKeeps (execPtmDialogueStart_keeps ..)
  | logicalDeviceResetComplete _ _ => exact .ofKeeps (execLogicalDeviceResetComplete_keeps ..)
  | linkUpL0 _ _ _ _ _ => exact .ofKeeps (execLinkUpL0_keeps ..)
  | txMarkerBoundary _ => exact .ofKeeps (execTxMarkerBoundary_keeps ..)

end Sys2Proof.Machine
end

section
/-! SUPPORT. The invariant of the tables along a step, from what a command and a tick leave alone. -/

namespace Sys2Proof.Machine

theorem Safe.wf {s t : State} (h : Safe s t) (hs : s.wf) : t.wf := by
  obtain ⟨-, hcm, hobjs, hregs, hvers, hvals⟩ := h
  exact ⟨hcm hs.cm, hobjs hs.objs, hregs hs.regs, hvers hs.vers, hvals hs.ctrs⟩

/-- The tables do not know of the queue. -/
theorem State.wf_withPending {s : State} (hs : s.wf) (cs : List Instr) : State.wf { s with pending := cs } :=
  ⟨hs.cm, hs.objs, hs.regs, hs.vers, hs.ctrs⟩

theorem step_wf {s t : State} (hs : s.wf) (h : step s = .next t) : t.wf := by
  rcases step_next h with ⟨-, rfl⟩ | ⟨c, rest, -, hexec⟩
  · exact (State.tick_stores s).toSafe.wf hs
  · exact ((exec_safe c _).of_next t hexec).wf (State.wf_withPending hs rest)

end Sys2Proof.Machine
end

section
/-! The obligations on what every command and every step keep, on fields, and on the ends of outstanding requests. -/

namespace Sys2Proof
open Machine

/-- Settles O46: a tick and every command keep each table's canonical form, and the queue stands in no table. -/
theorem everyStepKeepsTablesCanonical : Obligations.EveryStepKeepsTablesCanonical := by
  unfold Obligations.EveryStepKeepsTablesCanonical
  intro s t hs h
  exact step_wf hs h

/-- Settles O47: no operation of any row writes the queue. -/
theorem commandsLeaveTheQueueAlone : Obligations.CommandsLeaveTheQueueAlone := by
  unfold Obligations.CommandsLeaveTheQueueAlone
  intro c s t h
  exact ((exec_safe c s).of_next t h).1

/-- Settles O55, from the bits of a written word and the laws of the sparse table that holds the images. -/
theorem fieldsReadBack : Obligations.FieldsReadBack := by
  unfold Obligations.FieldsReadBack
  intro s f sel v hs hf
  exact ⟨State.base_put_same hs f sel v hf, fun i hi hout => State.getLsbD_baseWord_put hs f sel v hi hout,
    fun _ _ _ hkey => State.baseWord_putWord_other s _ hkey, rfl, rfl, rfl⟩

/-- Settles O6, one clause for each way in which a request ends. -/
theorem outstandingRequestsEnd : Obligations.OutstandingRequestsEnd := by
  unfold Obligations.OutstandingRequestsEnd
  exact ⟨fun _ _ _ => execCompletionReceived_edge, fun _ _ _ _ => execCompletionTimeout_due, fun _ _ _ => execRemoteCmReadTimeout_due,
    fun _ _ => execEdgeLinkDownClose_stands⟩

/-- Settles O42: the step reads the queue once. -/
theorem stepRunsFrontCommand : Obligations.StepRunsFrontCommand := by
  unfold Obligations.StepRunsFrontCommand
  constructor
  · intro c rest s hfront
    rw [step, hfront]
  · intro s hempty
    rw [step, hempty]

/-- Settles O45: every table is empty after reset, and the empty table is canonical. -/
theorem resetHasCanonicalTables : Obligations.ResetHasCanonicalTables := by
  unfold Obligations.ResetHasCanonicalTables
  constructor <;> rfl

end Sys2Proof
end

section
/-! SUPPORT. One rule for every row that executes an object instruction (R45, R46, R57). -/

namespace Sys2Proof.Machine

/-- Where the log takes an entry, no program waits for it. -/
theorem State.orWait_of_logReady {s : State} (hlog : s.logReady) (t : State) : s.orWait t = t := by
  simp [State.orWait, hlog]

/-- A program is found by its own number. -/
theorem State.id_of_prog {s : State} {id : Nat} {p : Prog} (h : s.prog id = some p) : p.id = id := by
  simpa using List.find?_some h

/-- A row of one instruction does what the instruction does, where its program stands at it and the log takes an entry. -/
theorem State.instrRow_of_stands {s : State} {id : Nat} {p : Prog} {want : Prog → Bool} (f : State → Prog → State)
    (hstands : s.stands id p) (hwant : want p) (hlog : s.logReady) : s.instrRow id want f = .next (f (s.counted id) p) := by
  obtain ⟨hprog, hat, habort⟩ := hstands
  simp [State.instrRow, hprog, hat, hwant, habort, State.orWait_of_logReady hlog, State.counted]

/-- An object row runs its instruction where it stands, unless that has to drain first (R62). -/
theorem State.objRow_of_stands {s : State} {id : Nat} {p : Prog} {want : ObjReq → Bool} {image : Option (List Word)}
    (hstands : s.stands id p) (hobj : isObj (iOpcode p.instr)) (hwant : want p.objReq) (hlog : s.logReady)
    (hdrain : (s.counted id).mustDrain p { p.objReq with image := image } = false) :
    s.objRow id want image = .next ((s.counted id).objNow p { p.objReq with image := image }) := by
  rw [State.objRow, State.instrRow_of_stands _ hstands (by simp [hobj, hwant]) hlog]
  simp [hdrain]

/-- Between `BEGIN` and `COMMIT` an object instruction is staged (R46). -/
theorem State.objNow_inside {p : Prog} (hbegun : p.begun) (hcommitted : p.committed = false) (s : State) (r : ObjReq) :
    s.objNow p r = s.stageObj p r := by
  simp [State.objNow, hbegun, hcommitted]

/-- Outside a transaction an object instruction applies at once (R45). -/
theorem State.objNow_outside {p : Prog} (hbegun : p.begun = false) (htrans : p.trans = false) (s : State) (r : ObjReq) :
    s.objNow p r = s.applyNow p r := by
  simp [State.objNow, hbegun, htrans]

/-- An instruction that applies at once and ends OK leaves what `State.objDone` says (R48, R57). -/
theorem State.applyNow_counted_ok {s : State} {p : Prog} {r : ObjReq} (hok : ((s.counted p.id).applyObj r).status = .ok) :
    (s.counted p.id).applyNow p r = s.objDone p r := by
  simp [State.applyNow, State.objDone, hok]

/-- Every command whose meaning is an object row follows the rule, where the row takes the instructions that the rule picks out. -/
theorem ObjRuleWith.of_row {image : Option (List Word)} {c : Nat → Instr} {want : ObjReq → Prop} (take : ObjReq → Bool)
    (hrow : ∀ id s, exec (c id) s = s.objRow id take image) (htake : ∀ r : ObjReq, want { r with image := image } → take r) :
    ObjRuleWith image c want := by
  rintro id s p r rfl hstands hobj hwant hlog hdrain
  have hrun := (hrow id s).trans (State.objRow_of_stands hstands hobj (htake _ hwant) hlog hdrain)
  obtain rfl := State.id_of_prog hstands.1
  constructor
  · intro hbegun htrans hok
    rw [hrun, State.objNow_outside hbegun htrans, State.applyNow_counted_ok hok]
  · intro hbegun hcommitted
    rw [hrun, State.objNow_inside hbegun hcommitted]

/-- A row that takes one opcode. -/
theorem ObjRule.of_op {c : Nat → Instr} (op : Nat) (hrow : ∀ id s, exec (c id) s = s.objRow id (fun r => r.op = op) none) :
    ObjRule c (fun r => r.op = op) :=
  ObjRuleWith.of_row _ hrow fun _ hop => decide_eq_true hop

/-- A row that takes one opcode with one action in block word 1. -/
theorem ObjRule.of_action {c : Nat → Instr} (op width action : Nat)
    (hrow : ∀ id s, exec (c id) s = s.objRow id (fun r => r.op = op && r.b 1 0 width = action) none) :
    ObjRule c (fun r => r.op = op ∧ r.b 1 0 width = action) :=
  ObjRuleWith.of_row _ hrow fun _ ⟨hop, haction⟩ => Bool.and_eq_true_iff.2 ⟨decide_eq_true hop, decide_eq_true haction⟩

/-- The row that takes action 0 takes every action that no other row names too (log entry 38). -/
theorem ObjRule.of_default_action {c : Nat → Instr} (op width : Nat) (others : List Nat) (hothers : 0 ∉ others)
    (hrow : ∀ id s, exec (c id) s = s.objRow id (fun r => r.op = op && !(others.contains (r.b 1 0 width))) none) :
    ObjRule c (fun r => r.op = op ∧ r.b 1 0 width = 0) := by
  refine ObjRuleWith.of_row _ hrow fun r hwant => ?_
  obtain ⟨hop, haction⟩ : r.op = op ∧ r.b 1 0 width = 0 := hwant
  simp [hop, haction, hothers]

end Sys2Proof.Machine
end

section
/-! The obligation on the object instructions that read and configure ports and the fabric. -/

namespace Sys2Proof
open Machine

/-- Settles O36: each row is one object row, and its opcode and action are those that the row takes. -/
theorem configurationInstructionsApply : Obligations.ConfigurationInstructionsApply := by
  unfold Obligations.ConfigurationInstructionsApply
  exact ⟨
    .of_op 0x20 fun _ _ => rfl,
    .of_op 0x22 fun _ _ => rfl,
    .of_op 0x30 fun _ _ => rfl,
    .of_default_action 0x31 4 [1, 2, 3, 4, 5] (by decide) fun _ _ => rfl,
    .of_action 0x31 4 1 fun _ _ => rfl,
    .of_action 0x31 4 2 fun _ _ => rfl,
    .of_action 0x31 4 3 fun _ _ => rfl,
    .of_action 0x31 4 4 fun _ _ => rfl,
    .of_action 0x31 4 5 fun _ _ => rfl,
    .of_op 0x38 fun _ _ => rfl,
    .of_op 0x39 fun _ _ => rfl,
    .of_action 0x3A 1 0 fun _ _ => rfl,
    .of_action 0x3A 1 1 fun _ _ => rfl,
    .of_op 0x69 fun _ _ => rfl⟩

end Sys2Proof
end

section
/-! SUPPORT. What the commands of the lanes do where their conditions hold (R22, R284 to R286, R290, R293). -/

namespace Sys2Proof.Machine

/-! ### Grants (R22) -/

/-- The lane at the head of the waiting lanes holds its grant. -/
def State.takeGrant (s : State) (l : Nat) (ls : List Nat) : State :=
  let t : State := { s with lanes := { s.lanes with
    waiting := ls, grants := s.now :: s.lanes.grants.filter (fun t => decide (s.now < t + 2000)) } }
  t.setLaneRun { t.laneRun l with granted := true }

/-- What the transmitter of a lane that has its grant starts with. -/
def State.startTransmit (u : State) (l : Nat) : State :=
  match u.linkOfLane l with
  | some (p, some i) =>
    if u.role p = roleFabric then
      match u.txSpareOf p i with
      | some _ => u.lput laneTxState l 3
      | none => (u.lput laneTxState l 2).lput laneTxStream l i
    else u.lput laneTxState l 2
  | some (p, none) =>
    match (u.steer p).moves.find? (fun m => decide (m.spare = u.lfld laneLinkSpare l) && decide (m.stage = 2)) with
    | some m => (u.lput laneTxState l 2).lput laneTxStream l m.lane
    | none => u.lput laneTxState l 1
  | none => u

theorem execLaneGrant_front {s u : State} {l : Nat} {ls : List Nat} (hwaiting : s.lanes.waiting = l :: ls) (hrun : s.running)
    (hroom : s.recentGrants < s.fld budLanesPer2us 0) (hu : u = s.takeGrant l ls) :
    exec .laneGrant s = .next (u.startTransmit l) := by
  subst hu
  show execLaneGrant s = _
  rw [execLaneGrant, hwaiting]
  simp only [hrun, Bool.not_true, Bool.false_or, decide_eq_true_eq, if_neg (Nat.not_le.2 hroom)]
  rfl

theorem State.startTransmit_own {u : State} {l p i : Nat} (hlink : u.linkOfLane l = some (p, some i)) (hrole : u.role p = roleFabric)
    (hspare : u.txSpareOf p i = none) : u.startTransmit l = (u.lput laneTxState l 2).lput laneTxStream l i := by
  simp [State.startTransmit, hlink, hrole, hspare]

/-- The stream of a lane that was replaced stays on its spare (R297). -/
theorem State.startTransmit_replaced {u : State} {l p i k : Nat} (hlink : u.linkOfLane l = some (p, some i)) (hrole : u.role p = roleFabric)
    (hspare : u.txSpareOf p i = some k) : u.startTransmit l = u.lput laneTxState l 3 := by
  simp [State.startTransmit, hlink, hrole, hspare]

theorem State.startTransmit_edge {u : State} {l p i : Nat} (hlink : u.linkOfLane l = some (p, some i)) (hrole : u.role p ≠ roleFabric) :
    u.startTransmit l = u.lput laneTxState l 2 := by
  simp [State.startTransmit, hlink, hrole]

theorem State.startTransmit_idleSpare {u : State} {l p : Nat} (hlink : u.linkOfLane l = some (p, none))
    (hmoves : (u.steer p).moves.find? (fun m => decide (m.spare = u.lfld laneLinkSpare l) && decide (m.stage = 2)) = none) :
    u.startTransmit l = u.lput laneTxState l 1 := by
  simp only [State.startTransmit, hlink, hmoves]

/-! ### Bring-up (R285, R286) -/

theorem execBringUpAttemptFail_training {p : PortId} {s : State} (hlink : s.fabricLink p.val) (htraining : (s.steer p.val).training)
    (hdown : s.ql p.val = qlDown) : exec (.bringUpAttemptFail p) s = .next (s.attemptFails p.val) := by
  show execBringUpAttemptFail p s = _
  simp [execBringUpAttemptFail, hlink, htraining, hdown]

/-- The link that enters Init on `width` streams from stream `first`. -/
def State.alignedAt (s : State) (p width first : Nat) : State :=
  let rate := s.aimRate p
  let s1 := (s.takeStreams p ((List.range (streamsOf width)).map (first + ·))).setRun2 p width rate
  let s2 := (s1.setRates rate (s1.linkLanes p)).setQlp { s1.qlp p with aligned := true, block := first }
  (((s2.put qlFailedAttempts p 0).put qlNoPartner p 0).setSteer { s2.steer p with training := false }).beginInit p

theorem execLanesAligned_down {p : PortId} {good : BitVec 16} {s : State} {width first : Nat} (hlink : s.fabricLink p.val)
    (hdown : s.ql p.val = qlDown) (htraining : (s.steer p.val).training)
    (hgood : ∀ i, i < 16 → good.getLsbD i = (decide (i < streamsOf (s.aimWidth p.val)) && s.streamGood p.val i))
    (hblock : goodBlock (s.streamGood p.val) (streamsOf (s.aimWidth p.val)) (s.aimWidth p.val) = some (width, first))
    (hwidth : s.fld qlMinWidth p.val ≤ width) :
    exec (.lanesAligned p good) s = .next (s.alignedAt p.val width first) := by
  have hseen : (List.range 16).all (fun i => good.getLsbD i = (decide (i < streamsOf (s.aimWidth p.val)) && s.streamGood p.val i)) :=
    List.all_eq_true.2 fun i hi => decide_eq_true (hgood i (List.mem_range.1 hi))
  show execLanesAligned p good s = _
  simp only [execLanesAligned, hlink, hdown, htraining, hseen, hblock, if_neg (Nat.not_lt.2 hwidth)]
  rfl

/-! ### Markers (R284, R291) -/

/-- A marker's steering command or answer is served. -/
def State.steerServed (w : State) (p : Nat) (m : MarkerIn) : State :=
  if m.steerCmd = 1 || m.steerCmd = 2 then w.steerAsked p m
  else if m.steerCmd = 3 then w.steerAnswered p m.steerTag true
  else if m.steerCmd = 4 then w.steerAnswered p m.steerTag false
  else w

/-- What a marker that was found does beyond alignment: its lane's stream and its steering command, where it is valid and the lane is in marker
lock. -/
def State.markerServed (u : State) (p l : Nat) (m : MarkerIn) : State :=
  if !m.crcOk || u.lfld laneMarkerLock l = 0 then u
  else (if u.ql p = qlActive || u.ql p = qlResize then u.laneShows p l (m.markLane % 32) else u).steerServed p m

theorem execMarkerReceived_found {l : LaneId} {symbols : List PamLevel} {s u : State} {p : Nat} {i : Option Nat} {m : MarkerIn}
    (hwf : markerWf symbols) (hpattern : (pamBytes symbols).take 6 = markPattern) (hlane : s.linkOfLane l.val = some (p, i))
    (hlink : s.fabricLink p) (henabled : s.portEnabled p) (hm : m = markOf (pamBytes symbols)) (hu : u = s.markerFound p l.val m) :
    exec (.markerReceived l symbols) s = .next (u.markerServed p l.val m) := by
  subst hm hu
  show execMarkerReceived l symbols s = _
  simp only [execMarkerReceived, State.markerServed, hwf, hpattern, hlane, hlink, henabled]
  simp only [Bool.not_true, Bool.false_or, ne_eq, not_true_eq_false, decide_false, Bool.false_eq_true, if_false]
  split <;> rfl

theorem State.markerServed_alignment {u : State} {p l : Nat} {m : MarkerIn} (h : m.crcOk = false ∨ u.lfld laneMarkerLock l = 0) :
    u.markerServed p l m = u := by
  rcases h with h | h <;> simp [State.markerServed, h]

theorem State.markerServed_locked {u w : State} {p l : Nat} {m : MarkerIn} (hcrc : m.crcOk = true) (hlock : u.lfld laneMarkerLock l ≠ 0)
    (hw : w = if u.ql p = qlActive || u.ql p = qlResize then u.laneShows p l (m.markLane % 32) else u) :
    u.markerServed p l m = w.steerServed p m := by
  subst hw
  simp [State.markerServed, hcrc, hlock]

theorem State.steerServed_asked (w : State) (p : Nat) {m : MarkerIn} (h : m.steerCmd = 1 ∨ m.steerCmd = 2) :
    w.steerServed p m = w.steerAsked p m := by
  rcases h with h | h <;> simp [State.steerServed, h]

theorem State.steerServed_ack (w : State) (p : Nat) {m : MarkerIn} (h : m.steerCmd = 3) :
    w.steerServed p m = w.steerAnswered p m.steerTag true := by
  simp [State.steerServed, h]

theorem State.steerServed_nak (w : State) (p : Nat) {m : MarkerIn} (h : m.steerCmd = 4) :
    w.steerServed p m = w.steerAnswered p m.steerTag false := by
  simp [State.steerServed, h]

theorem State.steerServed_none (w : State) (p : Nat) {m : MarkerIn} (h : m.steerCmd = 0) : w.steerServed p m = w := by
  simp [State.steerServed, h]

/-! ### Loss of lock and steering (R293) -/

/-- A lane has lost lock, whatever it carried. -/
def State.lockLost (s : State) (l : Nat) : State :=
  let u := ((s.lput laneLocked l 0).lput laneMarkerLock l 0).laneCount l 1 1
  u.setLaneRun { u.laneRun l with found := 0, shows := 0x1F, partnerOk := false }

/-- The answer where stream `i` of an active fabric link has lost its lane: it goes to a spare by the instant `due`;
without a spare the link retrains, and so it does where a steer already runs (DEDUCED, log entry 69). -/
def State.streamLost (w : State) (p l i due : Nat) : Host.Outcome State Fault Refusal :=
  if (w.qlp p).steerDue.isSome then .next ((w.thawCredits p).fastRetrain p)
  else
    match w.spareFor p with
    | none => .next ((w.abandonTile (tileOf l)).fastRetrain p)
    | some k =>
      let t := ((w.abandonTile (tileOf l)).sendSteer p 1 i k true).1
      .next ((t.setQlp { t.qlp p with steerDue := some due }).freezeCredits p)

theorem execLaneLossOfLock_idle {l : LaneId} {s : State} {p : Nat} {i : Option Nat} (hrun : s.running) (hlocked : s.lfld laneLocked l.val ≠ 0)
    (hlane : s.linkOfLane l.val = some (p, i)) (hidle : s.lfld laneRxStream l.val = 0x1F ∨ s.role p ≠ roleFabric ∨ s.ql p ≠ qlActive) :
    exec (.laneLossOfLock l) s = .next (s.lockLost l.val) := by
  show execLaneLossOfLock l s = _
  rw [execLaneLossOfLock, hlane]
  rcases hidle with h | h | h <;> simp [hrun, hlocked, h, State.lockLost]

theorem execLaneLossOfLock_carrying {l : LaneId} {s : State} {p : Nat} {i : Option Nat} (hrun : s.running)
    (hlocked : s.lfld laneLocked l.val ≠ 0) (hlane : s.linkOfLane l.val = some (p, i)) (hstream : s.lfld laneRxStream l.val ≠ 0x1F)
    (hrole : s.role p = roleFabric) (hactive : s.ql p = qlActive) :
    exec (.laneLossOfLock l) s
      = (s.lockLost l.val).streamLost p l.val (s.lfld laneRxStream l.val) (s.now + 60000) := by
  show execLaneLossOfLock l s = _
  simp only [execLaneLossOfLock, hrun, hlocked, hlane, hstream, hrole, hactive]
  rfl

theorem State.streamLost_steering {w : State} {p : Nat} (hdue : (w.qlp p).steerDue.isSome = true) (l i due : Nat) :
    w.streamLost p l i due = .next ((w.thawCredits p).fastRetrain p) := if_pos hdue

theorem State.streamLost_noSpare {w : State} {p : Nat} (hdue : (w.qlp p).steerDue = none) (hspare : w.spareFor p = none) (l i due : Nat) :
    w.streamLost p l i due = .next ((w.abandonTile (tileOf l)).fastRetrain p) := by
  simp [State.streamLost, hdue, hspare]

theorem State.streamLost_spare {w : State} {p k : Nat} (hdue : (w.qlp p).steerDue = none) (hspare : w.spareFor p = some k) (l i due : Nat) :
    w.streamLost p l i due = .next (
      let t := ((w.abandonTile (tileOf l)).sendSteer p 1 i k true).1
      (t.setQlp { t.qlp p with steerDue := some due }).freezeCredits p) := by
  simp [State.streamLost, hdue, hspare]

theorem execSteerLimitExpiry_due {p : PortId} {s : State} {due : Nat} (hlink : s.fabricLink p.val) (hactive : s.ql p.val = qlActive)
    (hsteer : (s.qlp p.val).steerDue = some due) (hdue : due ≤ s.now) :
    exec (.steerLimitExpiry p) s
      = .next (((s.setSteer { s.steer p.val with req := none }).thawCredits p.val).fastRetrain p.val) := by
  show execSteerLimitExpiry p s = _
  rw [execSteerLimitExpiry, hsteer]
  simp [hlink, hactive, Nat.not_lt.2 hdue]

/-! ### Marker boundaries (R290) -/

/-- The number of the next marker of a link. -/
def State.nextMark (s : State) (p : Nat) : Nat := ((s.steer p).markCount + 1) % 128

/-- The moves of a link have made their step at the marker boundary. -/
def State.boundaryMoved (s : State) (p : Nat) : State :=
  let r := s.steer p
  let m := s.moveSteps p r.moves
  let u := m.1.setSteer { r with moves := m.2, markCount := s.nextMark p, answer := none }
  let v := (m.2.map (·.lane)).foldl (fun (t : State) i => t.leaveDone p i) u
  v.setQlp { v.qlp p with laneBytes := 0 }

/-- The markers of a boundary go out with the answer or the command that `r` holds; an answer goes first (R291). -/
def State.markersOut (w : State) (p count : Nat) (r : SteerPort) : State :=
  match r.answer with
  | some (tag, ok) => w.sendMarkers p count (if ok then 3 else 4) tag 0 0 false (w.linkLanes p)
  | none =>
    match r.req with
    | some q => w.sendMarkers p count q.cmd q.tag q.spare q.lane q.replacement (w.linkLanes p)
    | none => w.sendMarkers p count 0 0 0 0 false (w.linkLanes p)

theorem execTxMarkerBoundary_due {p : PortId} {s : State} (hlink : s.fabricLink p.val) (henabled : s.portEnabled p.val)
    (hbytes : 65536 ≤ (s.qlp p.val).laneBytes) :
    exec (.txMarkerBoundary p) s = .next ((s.boundaryMoved p.val).markersOut p.val (s.nextMark p.val) (s.steer p.val)) := by
  show execTxMarkerBoundary p s = _
  simp only [execTxMarkerBoundary, hlink, henabled, Nat.not_lt.2 hbytes]
  rfl

theorem State.markersOut_answer (w : State) (p count : Nat) {r : SteerPort} {a : Nat × Bool} (h : r.answer = some a) :
    w.markersOut p count r = w.sendMarkers p count (if a.2 then 3 else 4) a.1 0 0 false (w.linkLanes p) := by
  rw [State.markersOut, h]

theorem State.markersOut_command (w : State) (p count : Nat) {r : SteerPort} {q : SteerReq} (hanswer : r.answer = none) (hreq : r.req = some q) :
    w.markersOut p count r = w.sendMarkers p count q.cmd q.tag q.spare q.lane q.replacement (w.linkLanes p) := by
  rw [State.markersOut, hanswer, hreq]

theorem State.markersOut_plain (w : State) (p count : Nat) {r : SteerPort} (hanswer : r.answer = none) (hreq : r.req = none) :
    w.markersOut p count r = w.sendMarkers p count 0 0 0 0 false (w.linkLanes p) := by
  rw [State.markersOut, hanswer, hreq]

end Sys2Proof.Machine
end

section
/-! The obligation on the training and the steering of lanes. -/

namespace Sys2Proof
open Machine

/-- Settles O28, one clause for each way in which a lane or a link goes on. -/
theorem lanesTrainAndSteer : Obligations.LanesTrainAndSteer := by
  unfold Obligations.LanesTrainAndSteer
  refine ⟨?_, ?_, ?_, ?_, fun _ _ => execBringUpAttemptFail_training, fun _ _ _ _ _ => execLanesAligned_down, ?_, ?_,
    fun _ _ _ => execSteerLimitExpiry_due, ?_⟩
  · intro s u l ls p i hwaiting hrun hroom hu hlink hrole hspare
    rw [execLaneGrant_front hwaiting hrun hroom hu, State.startTransmit_own hlink hrole hspare]
  · intro s u l ls p i k hwaiting hrun hroom hu hlink hrole hspare
    rw [execLaneGrant_front hwaiting hrun hroom hu, State.startTransmit_replaced hlink hrole hspare]
  · intro s u l ls p i hwaiting hrun hroom hu hlink hrole
    rw [execLaneGrant_front hwaiting hrun hroom hu, State.startTransmit_edge hlink hrole]
  · intro s u l ls p hwaiting hrun hroom hu hlink hmoves
    rw [execLaneGrant_front hwaiting hrun hroom hu, State.startTransmit_idleSpare hlink hmoves]
  · intro l symbols s u p i m hwf hpattern hlane hlink henabled hm hu
    rw [execMarkerReceived_found hwf hpattern hlane hlink henabled hm hu]
    refine ⟨fun h => by rw [State.markerServed_alignment h], fun w hcrc hlock hw => ?_⟩
    rw [State.markerServed_locked hcrc hlock hw]
    exact ⟨fun h => by rw [State.steerServed_asked w p h], fun h => by rw [State.steerServed_ack w p h],
      fun h => by rw [State.steerServed_nak w p h], fun h => by rw [State.steerServed_none w p h]⟩
  · intro l s u w p i hrun hlocked hlane hu hw
    obtain rfl : w = s.lockLost l.val := by rw [hw, hu]; rfl
    refine ⟨execLaneLossOfLock_idle hrun hlocked hlane, fun hstream hrole hactive => ?_⟩
    rw [execLaneLossOfLock_carrying hrun hlocked hlane hstream hrole hactive]
    exact ⟨fun hdue => State.streamLost_steering hdue .., fun hdue hspare => State.streamLost_noSpare hdue hspare ..,
      fun _ hdue hspare => State.streamLost_spare hdue hspare ..⟩
  · intro p s u v w count hlink henabled hbytes hcount hu hv hw
    obtain rfl : count = s.nextMark p.val := hcount
    obtain rfl : w = s.boundaryMoved p.val := by rw [hw, hv, hu]; rfl
    rw [execTxMarkerBoundary_due hlink henabled hbytes]
    exact ⟨fun a hanswer => by rw [State.markersOut_answer _ _ _ hanswer],
      fun q hanswer hreq => by rw [State.markersOut_command _ _ _ hanswer hreq],
      fun hanswer hreq => by rw [State.markersOut_plain _ _ _ hanswer hreq]⟩

end Sys2Proof
end

section
/-! SUPPORT. The rules of rows that execute one control or arithmetic instruction (R40, R46, R54). -/

namespace Sys2Proof.Machine

/-- Two changes of one program, one after the other, are one change. -/
theorem State.upd_upd (s : State) (id : Nat) {f : Prog → Prog} (g : Prog → Prog) (hid : ∀ p, (f p).id = p.id) :
    (s.upd id f).upd id g = s.upd id (fun p => g (f p)) := by
  have hmap : s.tally.progs.map ((fun p => if p.id = id then g p else p) ∘ fun p => if p.id = id then f p else p)
      = s.tally.progs.map (fun p => if p.id = id then g (f p) else p) := by
    refine List.map_congr_left fun p _ => ?_
    by_cases hp : p.id = id <;> simp [hp, hid]
  simp only [State.upd, List.map_map, hmap]

/-- A program that has counted its instruction goes on as one change says. -/
theorem State.counted_proceed (s : State) (id : Nat) (f : Prog → Prog) :
    (s.counted id).proceed id f = s.upd id (fun q => (f { q with executed := q.executed + 1 }).onward) :=
  State.upd_upd s id _ fun _ => rfl

/-- A change that writes no entry waits for nothing. -/
theorem State.orWait_of_head_eq {s t : State} (hhead : t.log.head = s.log.head) : s.orWait t = t := by
  simp [State.orWait, hhead]

/-- A row whose instruction writes no entry acts where its program stands at it, whether or not the log takes an entry. -/
theorem State.instrRow_of_head_eq {s : State} {id : Nat} {p : Prog} {want : Prog → Bool} (f : State → Prog → State)
    (hstands : s.stands id p) (hwant : want p) (hhead : (f (s.counted id) p).log.head = s.log.head) :
    s.instrRow id want f = .next (f (s.counted id) p) := by
  obtain ⟨hprog, hat, habort⟩ := hstands
  simp only [State.instrRow, hprog, hat, hwant, habort, Bool.and_self, if_true, Bool.false_eq_true, if_false]
  exact congrArg _ (State.orWait_of_head_eq hhead)

/-- A row that moves its program on and changes nothing else. -/
theorem State.instrRow_proceed {s : State} {id : Nat} {p : Prog} {want : Prog → Bool} (f : Prog → Prog → Prog)
    (hstands : s.stands id p) (hwant : want p) :
    s.instrRow id want (fun t p => t.proceed id (f p))
      = .next (s.upd id (fun q => (f p { q with executed := q.executed + 1 }).onward)) := by
  rw [State.instrRow_of_head_eq _ hstands hwant rfl, State.counted_proceed]

theorem opIs_of_eq {op : Nat} {p : Prog} (h : iOpcode p.instr = op) : opIs op p := decide_eq_true h

/-- Every command whose meaning is a row that changes rods alone follows the rule, with the value that the row writes. -/
theorem RodRule.of_row {c : Nat → Instr} {op : Nat} {f : Prog → Word} (g : Prog → Word)
    (hrow : ∀ id s, exec (c id) s = s.rodRow id op g) (hval : ∀ p, g p = f p) : RodRule c op f := by
  intro id s p hstands hop
  rw [hrow, State.rodRow, ← hval]
  exact State.instrRow_proceed (fun p q => (q.setRod (iDst p.instr) (g p)).next) hstands (opIs_of_eq hop)

/-- Every command whose meaning is a branch follows the rule, with the condition that the branch looks at. -/
theorem BranchRule.of_row {c : Nat → Instr} {op : Nat} {taken : Word → Prop} (cond : Word → Bool)
    (hrow : ∀ id s, exec (c id) s = s.branchRow id op cond) (hcond : ∀ v, cond v ↔ taken v) : BranchRule c op taken := by
  intro id s p hstands hop
  have hrun : exec (c id) s = _ := (hrow id s).trans (State.instrRow_proceed
    (fun p q => if cond (p.rod (iSrc p.instr)) then { q with pc := iImm p.instr } else q.next) hstands (opIs_of_eq hop))
  constructor
  · intro htaken
    simp only [hrun, (hcond _).2 htaken, if_true]
  · intro htaken
    simp only [hrun, Bool.eq_false_iff.2 (mt (hcond _).1 htaken), Bool.false_eq_true, if_false]

/-- A number of shifts is the low six bits of the operand. -/
theorem bitsOf_low_six (w : Word) : bitsOf w 0 6 = w.toNat % 64 := by
  simp [bitsOf]

theorem shiftLeft_eq_ofNat (w : Word) (n : Nat) : w <<< n = BitVec.ofNat 64 (w.toNat * 2 ^ n) := by
  apply BitVec.eq_of_toNat_eq
  rw [BitVec.toNat_shiftLeft, Nat.shiftLeft_eq, BitVec.toNat_ofNat]

theorem shiftRight_eq_ofNat (w : Word) (n : Nat) : w >>> n = BitVec.ofNat 64 (w.toNat / 2 ^ n) := by
  apply BitVec.eq_of_toNat_eq
  have hle : w.toNat / 2 ^ n < 2 ^ 64 := Nat.lt_of_le_of_lt (Nat.div_le_self ..) w.isLt
  rw [BitVec.toNat_ushiftRight, Nat.shiftRight_eq_div_pow, BitVec.toNat_ofNat, Nat.mod_eq_of_lt hle]

/-- The signed comparison answers -1, 0 or 1 (Table 2-7). -/
theorem cmpWord_eq (a b : Word) :
    cmpWord a b = if a.toInt < b.toInt then BitVec.ofInt 64 (-1) else if a.toInt = b.toInt then 0 else 1 := by
  have hminus : (-1 : Word) = BitVec.ofInt 64 (-1) := by decide
  rw [cmpWord, hminus]

end Sys2Proof.Machine
end

section
/-! The obligation on the arithmetic and branch instructions of a program. -/

namespace Sys2Proof
open Machine

/-- Settles O34: each row changes rods alone or branches, and its value is that of Table 2-7. -/
theorem arithmeticInstructionsCompute : Obligations.ArithmeticInstructionsCompute := by
  unfold Obligations.ArithmeticInstructionsCompute
  exact ⟨
    .of_row _ (fun _ _ => rfl) fun _ => rfl,
    .of_row _ (fun _ _ => rfl) fun _ => rfl,
    .of_row _ (fun _ _ => rfl) fun _ => rfl,
    .of_row _ (fun _ _ => rfl) fun _ => rfl,
    .of_row _ (fun _ _ => rfl) fun _ => rfl,
    .of_row _ (fun _ _ => rfl) fun _ => rfl,
    .of_row _ (fun _ _ => rfl) fun _ => rfl,
    .of_row _ (fun _ _ => rfl) fun p => by rw [shiftLeft_eq_ofNat, bitsOf_low_six]; rfl,
    .of_row _ (fun _ _ => rfl) fun p => by rw [shiftRight_eq_ofNat, bitsOf_low_six]; rfl,
    .of_row _ (fun _ _ => rfl) fun p => cmpWord_eq p.dstVal p.operand,
    .of_row (fun _ => true) (fun _ _ => rfl) fun _ => by simp,
    .of_row (fun v => decide (v = 0)) (fun _ _ => rfl) fun v => by simp [← BitVec.toNat_inj],
    .of_row (fun v => decide (v ≠ 0)) (fun _ _ => rfl) fun v => by simp [← BitVec.toNat_inj],
    .of_row (fun v => decide (v.toInt < 0)) (fun _ _ => rfl) fun v => by simp⟩

end Sys2Proof
end

section
/-! SUPPORT. The rules of the waits of a program and of its aborts (R49, R55, R63). -/

namespace Sys2Proof.Machine

/-- An abort that waited ends the program in place of its instruction (R63). -/
theorem State.instrRow_of_aborting {s : State} {id : Nat} {p : Prog} {want : Prog → Bool} (f : State → Prog → State)
    (hprog : s.prog id = some p) (hat : s.atInstr p) (habort : p.aborting) (hlog : s.logReady) (hwant : want p) :
    s.instrRow id want f = .next (s.endProg id p.stopSt) := by
  simp [State.instrRow, hprog, hat, hwant, habort, State.orWait_of_logReady hlog]

/-- A program that stands at an instruction has words left, so a `HALT` there is an instruction of its own (Table 2-6). -/
theorem execHalt_of_stands {s : State} {id : Nat} {p : Prog} (hstands : s.stands id p) :
    execHalt id s = s.instrRow id (opIs 0x01) (fun t _ => t.endProg id .ok) := by
  obtain ⟨hprog, hat, -⟩ := hstands
  have hpc : ¬ p.len ≤ p.pc := by
    simp only [State.atInstr, Bool.and_eq_true, decide_eq_true_eq] at hat
    omega
  simp [execHalt, hprog, hpc]

/-- What `AT` does with its instant (R49, R50). -/
def State.atInstant (s : State) (id : Nat) (p : Prog) : State :=
  let i := (p.rod (iSrc p.instr)).toNat
  if !s.everLocked then (s.counted id).endProg id .notide
  else if s.tide < i then (s.counted id).park id i
  else if i < s.tide && !fOpt (iFlags p.instr) then (s.counted id).endProg id .late
  else (s.counted id).proceed id (fun q => q.next)

theorem execAtTide_of_stands {s : State} {id : Nat} {p : Prog} (hstands : s.stands id p) (hop : iOpcode p.instr = 0x05) (hlog : s.logReady) :
    exec (.atTide id) s = .next (s.atInstant id p) := by
  show execAtTide id s = _
  rw [execAtTide, State.instrRow_of_stands _ hstands (opIs_of_eq hop) hlog]
  rfl

theorem State.atInstant_unlocked {s : State} (id : Nat) (p : Prog) (hlocked : s.everLocked = false) :
    s.atInstant id p = (s.counted id).endProg id .notide := by
  simp [State.atInstant, hlocked]

theorem State.atInstant_ahead {s : State} (id : Nat) {p : Prog} (hlocked : s.everLocked) (hahead : s.tide < (p.rod (iSrc p.instr)).toNat) :
    s.atInstant id p = (s.counted id).park id (p.rod (iSrc p.instr)).toNat := by
  simp [State.atInstant, hlocked, hahead]

theorem State.atInstant_late {s : State} (id : Nat) {p : Prog} (hlocked : s.everLocked) (hpast : (p.rod (iSrc p.instr)).toNat < s.tide)
    (hopt : fOpt (iFlags p.instr) = false) : s.atInstant id p = (s.counted id).endProg id .late := by
  simp [State.atInstant, hlocked, hpast, hopt, Nat.not_lt.2 hpast.le]

/-- The instant has come and not passed, or `LATE_OK` lets it have passed. -/
theorem State.atInstant_now {s : State} (id : Nat) {p : Prog} (hlocked : s.everLocked)
    (hnow : (p.rod (iSrc p.instr)).toNat = s.tide ∨ ((p.rod (iSrc p.instr)).toNat < s.tide ∧ fOpt (iFlags p.instr))) :
    s.atInstant id p = (s.counted id).proceed id (fun q => q.next) := by
  rcases hnow with heq | ⟨hpast, hopt⟩
  · simp [State.atInstant, hlocked, heq]
  · simp [State.atInstant, hlocked, hopt, Nat.not_lt.2 hpast.le]

/-- `SYNC` on commits goes on once every block has them (R55). -/
theorem execSyncComplete_commits {s : State} {id due : Nat} {p : Prog} (hrun : s.running) (hprog : s.prog id = some p)
    (habort : p.aborting = false) (hphase : p.phase = .syncCommits due) (hdue : due ≤ s.now) :
    exec (.syncComplete id) s = .next (s.proceed id (fun q => q.next)) := by
  show execSyncComplete id s = _
  simp [execSyncComplete, hprog, hphase, habort, hrun, hdue]

/-- `SYNC` on a queue goes on once every earlier program of the queue has ended (R55). -/
theorem execSyncComplete_queue {s : State} {id : Nat} {p : Prog} (hrun : s.running) (hprog : s.prog id = some p)
    (habort : p.aborting = false) (hphase : p.phase = .syncQueue) (hended : s.earlierEnded p) :
    exec (.syncComplete id) s = .next (s.proceed id (fun q => q.next)) := by
  show execSyncComplete id s = _
  simp [execSyncComplete, hprog, hphase, habort, hrun, hended]

end Sys2Proof.Machine
end

section
/-! The obligations on the control instructions of a program, and on the object instructions of tenancy, Lighter, slots, overlays and faults. -/

namespace Sys2Proof
open Machine

/-- Settles O33, one clause for each way in which a control instruction or a wait ends. -/
theorem controlInstructionsAct : Obligations.ControlInstructionsAct := by
  unfold Obligations.ControlInstructionsAct
  refine ⟨?nop, ?halt, ?begin, ?abort, ?aborting, ?unlocked, ?ahead, ?late, ?now, ?wait, ?commits, ?queue, ?commitsDone, ?queueDone, ?note⟩
  case nop =>
    intro id s p hstands hop
    exact State.instrRow_proceed (fun _ q => q.next) hstands (opIs_of_eq hop)
  case halt =>
    intro id s p hstands hop hlog
    exact (execHalt_of_stands hstands).trans (State.instrRow_of_stands _ hstands (opIs_of_eq hop) hlog)
  case begin =>
    intro id s p hstands hop hbegun
    show execBeginTx id s = _
    rw [execBeginTx, State.instrRow_of_head_eq _ hstands (opIs_of_eq hop) (by rw [hbegun]; rfl)]
    simp only [hbegun, Bool.false_eq_true, if_false, State.counted_proceed]
  case abort =>
    intro id s p hstands hop hlog
    show execAbort id s = _
    rw [execAbort, State.instrRow_of_stands _ hstands (opIs_of_eq hop) hlog]
  case aborting =>
    intro id s p hprog hat habort hlog hop
    show execNop id s = _
    rw [execNop, State.instrRow_of_aborting _ hprog hat habort hlog (opIs_of_eq hop)]
  case unlocked =>
    intro id s p hstands hop hlog hlocked
    rw [execAtTide_of_stands hstands hop hlog, State.atInstant_unlocked id p hlocked]
  case ahead =>
    intro id s p hstands hop hlog hlocked hahead
    rw [execAtTide_of_stands hstands hop hlog, State.atInstant_ahead id hlocked hahead]
  case late =>
    intro id s p hstands hop hlog hlocked hpast hopt
    rw [execAtTide_of_stands hstands hop hlog, State.atInstant_late id hlocked hpast hopt]
  case now =>
    intro id s p hstands hop hlog hlocked hnow
    rw [execAtTide_of_stands hstands hop hlog, State.atInstant_now id hlocked hnow]
  case wait =>
    intro id s p hstands hop hlog hcount
    show execWaitTide id s = _
    rw [execWaitTide, State.instrRow_of_stands _ hstands (opIs_of_eq hop) hlog]
    exact congrArg _ (if_neg (mt BitVec.eq_of_toNat_eq hcount))
  case commits =>
    intro id s p hstands hop hsub
    show execSyncCommits id s = _
    rw [execSyncCommits, State.instrRow_of_head_eq _ hstands (by simp [opIs, hop, hsub]) rfl]
  case queue =>
    intro id s p hstands hop hsub
    show execSyncQueue id s = _
    rw [execSyncQueue, State.instrRow_of_head_eq _ hstands (by simp [opIs, hop, hsub]) rfl]
  case commitsDone => exact fun _ _ _ _ => execSyncComplete_commits
  case queueDone => exact fun _ _ _ => execSyncComplete_queue
  case note =>
    intro id s p hstands hop hlog
    show execLogNote id s = _
    rw [execLogNote, State.instrRow_of_stands _ hstands (opIs_of_eq hop) hlog]

/-- Settles O37: each row is one object row, and its opcode and action are those that the row takes. -/
theorem tenancyAndLighterInstructionsApply : Obligations.TenancyAndLighterInstructionsApply := by
  unfold Obligations.TenancyAndLighterInstructionsApply
  exact ⟨
    .of_default_action 0x40 3 [1, 2, 3, 4] (by decide) fun _ _ => rfl,
    .of_action 0x40 3 1 fun _ _ => rfl,
    .of_action 0x40 3 2 fun _ _ => rfl,
    .of_action 0x40 3 3 fun _ _ => rfl,
    .of_action 0x40 3 4 fun _ _ => rfl,
    .of_op 0x41 fun _ _ => rfl,
    .of_op 0x42 fun _ _ => rfl,
    .of_op 0x43 fun _ _ => rfl,
    .of_op 0x44 fun _ _ => rfl,
    .of_op 0x48 fun _ _ => rfl,
    .of_op 0x49 fun _ _ => rfl,
    .of_default_action 0x50 3 [1, 2, 3] (by decide) fun _ _ => rfl,
    .of_action 0x50 3 1 fun _ _ => rfl,
    .of_action 0x50 3 2 fun _ _ => rfl,
    .of_action 0x50 3 3 fun _ _ => rfl,
    .of_op 0x51 fun _ _ => rfl,
    .of_op 0x52 fun _ _ => rfl,
    .of_default_action 0x53 2 [1, 2] (by decide) fun _ _ => rfl,
    .of_action 0x53 2 1 fun _ _ => rfl,
    .of_action 0x53 2 2 fun _ _ => rfl⟩

/-- Settles O38: each row is one object row; the store of an overlay brings its image with it. -/
theorem slotOverlayAndFaultInstructionsApply : Obligations.SlotOverlayAndFaultInstructionsApply := by
  unfold Obligations.SlotOverlayAndFaultInstructionsApply
  refine ⟨
    .of_action 0x58 2 0 fun _ _ => rfl,
    .of_action 0x58 2 1 fun _ _ => rfl,
    .of_action 0x58 2 2 fun _ _ => rfl,
    .of_action 0x58 2 3 fun _ _ => rfl,
    .of_op 0x59 fun _ _ => rfl,
    fun _ => ?store,
    .of_action 0x60 2 1 fun _ _ => rfl,
    .of_action 0x60 2 2 fun _ _ => rfl,
    .of_action 0x60 2 3 fun _ _ => rfl,
    .of_op 0x68 fun _ _ => rfl,
    .of_op 0x70 fun _ _ => rfl,
    .of_op 0x71 fun _ _ => rfl⟩
  case store =>
    exact .of_row _ (fun _ _ => rfl) fun _ ⟨hop, haction⟩ => Bool.and_eq_true_iff.2 ⟨decide_eq_true hop, decide_eq_true haction⟩

end Sys2Proof
end

section
/-! SUPPORT. The rows that write image words (R57). -/

namespace Sys2Proof.Machine

/-- A row of `OWRITE` that takes the instructions which satisfy a test; an `OWRITE` brings no overlay image, and no test looks at one. -/
theorem ObjRule.of_owrite {c : Nat → Instr} {want : ObjReq → Prop} (test : ObjReq → Bool)
    (hrow : ∀ id s, exec (c id) s = s.objRow id (fun r => r.op = 0x21 && test r) none) (htest : ∀ r, want r → test r)
    (himage : ∀ r : ObjReq, test { r with image := none } = test r) : ObjRule c (fun r => r.op = 0x21 ∧ want r) :=
  ObjRuleWith.of_row _ hrow fun r ⟨hop, hwant⟩ => Bool.and_eq_true_iff.2 ⟨decide_eq_true hop, himage r ▸ htest _ hwant⟩

/-- A row of `OWRITE` that takes the writes of some fields. -/
theorem ObjRule.of_hits {c : Nat → Instr} (fs : List Fld)
    (hrow : ∀ id s, exec (c id) s = s.objRow id (fun r => r.op = 0x21 && r.hits fs) none) :
    ObjRule c (fun r => r.op = 0x21 ∧ r.hits fs = true) :=
  .of_owrite (fun r => r.hits fs) hrow (fun _ => id) fun _ => rfl

/-- A row of `OWRITE` that takes one value of `Device.Reset`. -/
theorem ObjRule.of_resetAction {c : Nat → Instr} (action : Nat)
    (hrow : ∀ id s, exec (c id) s = s.objRow id (fun r => r.op = 0x21 && r.hits [rstAction] && rstAction.of (r.w 2) = action) none) :
    ObjRule c (fun r => r.op = 0x21 ∧ r.hits [rstAction] = true ∧ rstAction.of (r.w 2) = action) :=
  .of_owrite (fun r => r.hits [rstAction] && rstAction.of (r.w 2) = action) (by simpa only [Bool.and_assoc] using hrow)
    (fun _ hwant => by simpa using hwant) fun _ => rfl

end Sys2Proof.Machine
end

section
/-! The obligation on OWRITE and the rows of single fields. -/

namespace Sys2Proof
open Machine

/-- Settles O39: each row is the `OWRITE` row of its own fields, and OWRITE that of every other word. -/
theorem imageWritesApply : Obligations.ImageWritesApply := by
  unfold Obligations.ImageWritesApply
  exact ⟨
    .of_owrite (fun r => !r.ownRow) (fun _ _ => rfl) (fun _ hwant => by simp [hwant]) fun _ => rfl,
    .of_hits [devFabricId] fun _ _ => rfl,
    .of_resetAction 1 fun _ _ => rfl,
    .of_resetAction 2 fun _ _ => rfl,
    .of_hits [devInjectArmUntil] fun _ _ => rfl,
    .of_hits [bankTargetState] fun _ _ => rfl,
    .of_hits [bankTest] fun _ _ => rfl,
    .of_hits [laneTargetState] fun _ _ => rfl,
    .of_hits [laneLoop, laneGenPattern, laneCheckPattern] fun _ _ => rfl,
    .of_hits [laneClearCheck] fun _ _ => rfl,
    .of_hits [laneMarginGo] fun _ _ => rfl,
    .of_hits [laneTxPre, laneTxPost] fun _ _ => rfl,
    .of_hits [slotTest] fun _ _ => rfl,
    .of_hits [slotTargetState] fun _ _ => rfl,
    .of_hits [slotAutoOn] fun _ _ => rfl,
    .of_hits [slotClearEnergy] fun _ _ => rfl,
    .of_hits [slotPeakMa] fun _ _ => rfl,
    .of_hits [feedTargetState] fun _ _ => rfl,
    .of_hits [meterClearCounts] fun _ _ => rfl,
    .of_hits [sqMaxDepthCells, sqMaxHeadDelay] fun _ _ => rfl,
    .of_hits ((List.range 10).map wearTempPeak.up) fun _ _ => rfl,
    .of_hits [tideSource, tideSourcePort] fun _ _ => rfl,
    .of_owrite (fun r => r.cls = cSdramChannel && r.b 1 0 16 = 1 && decide (bitsOf (r.w 3) 0 2 ≠ 0))
      (fun _ _ => by simp only [← Bool.and_assoc]; rfl) (fun _ hwant => by simpa [and_assoc] using hwant) fun _ => rfl,
    .of_hits [viewPort, viewOwnerTenant, viewFmQueue] fun _ _ => rfl,
    .of_hits [portSlotBase, portSlotCount] fun _ _ => rfl,
    .of_owrite (fun r => r.cls = cSnapshotSet) (fun _ _ => rfl) (fun _ hwant => decide_eq_true hwant) fun _ => rfl,
    .of_owrite (fun r => r.cls = cDevice && decide (16 ≤ r.b 1 0 16) && decide (r.b 1 0 16 ≤ 31))
      (fun _ _ => by simp only [← Bool.and_assoc]; rfl) (fun _ hwant => by simpa [and_assoc] using hwant) fun _ => rfl,
    .of_hits [qlRxPoolUnits] fun _ _ => rfl⟩

end Sys2Proof
end

section
/-! SUPPORT. The registers of BAR0 that a view writes (Tables 2-3 and 12-5). -/

namespace Sys2Proof.Machine

/-- `FetchError` and `Completion` of a queue that exists are cleared by writing one (Table 2-3). -/
theorem execRegisterWrite_status {v : ViewId} {value : Word} {s : State} {off : Nat} (hlive : s.viewLive v.val)
    (hoff : off = 0x1014 ∨ (off = 0x1054 ∧ s.fmGranted v.val)) :
    exec (.registerWrite v off value) s = .next (s.setReg v.val off
      (word ((s.regBits v.val off 1 2 &&& (3 - bitsOf value 1 2)) * 2))) := by
  show execRegisterWrite v off value s = _
  simp only [execRegisterWrite, hlive, Bool.not_true, Bool.false_eq_true, if_false]
  exact if_pos hoff

/-- The words of the four MSI-X entries are stored as written (Table 12-5). -/
theorem execRegisterWrite_msix {v : ViewId} {value : Word} {s : State} {off : Nat} (hlive : s.viewLive v.val)
    (hlow : 0x20000 ≤ off) (hhigh : off < 0x20040) (halign : off % 8 = 0) :
    exec (.registerWrite v off value) s = .next (s.setReg v.val off value) := by
  have hother : off ≠ 0x1014 ∧ off ≠ 0x1054 ∧ off ≠ 0x120 ∧ off ≠ 0x138 ∧ off ≠ 0x128 ∧ off ≠ 0x130 ∧ off ≠ 0x2000 := by omega
  show execRegisterWrite v off value s = _
  simp [execRegisterWrite, hlive, hother, hlow, hhigh, halign]

end Sys2Proof.Machine
end

section
/-! The obligations on malformed commands and on the registers of BAR0. -/

namespace Sys2Proof
open Machine

/-- Settles O43: every row looks at the form of its operands before anything else, and answers the same state where it is refused. -/
theorem malformedCommandsChangeNothing : Obligations.MalformedCommandsChangeNothing := by
  unfold Obligations.MalformedCommandsChangeNothing
  refine ⟨?packet, ?completion, ?write, ?read, ?load, ?atomic, ?start, ?commit, ?request, ?response, ?translation, ?lanes, ?marker, ?fetch,
    ?fragment, ?result, ?flash, ?dies⟩
  case packet => exact fun _ _ _ _ hwf => if_pos (by simp [hwf])
  case completion => exact fun _ _ _ hwf => congrArg _ (if_neg (by simp [hwf]))
  case write => exact fun _ _ _ _ _ hwf => if_pos (by simp [hwf])
  case read => exact fun _ _ _ _ _ _ hwf => if_pos (by simp [hwf])
  case load => exact fun _ _ _ _ _ hwf => if_pos (by simp [hwf])
  case atomic => exact fun _ _ _ _ _ _ _ _ _ hwf => if_pos (by simp [hwf])
  case start => exact fun _ _ _ hlength => if_pos (by simp [hlength])
  case commit => exact fun _ _ _ _ hlength => if_pos (by simp [hlength])
  case request => exact fun _ _ _ hwf => if_pos (by simp [hwf])
  case response => exact fun _ _ hwf => if_pos (by simp [hwf])
  case translation => exact fun _ _ _ _ _ _ hsize => if_pos (by simp; omega)
  case lanes => exact fun _ _ _ hfit => ⟨if_pos (by simp [hfit]), if_pos (by simp [hfit])⟩
  case marker => exact fun _ _ _ hwf => if_pos (by simp [hwf])
  case fetch => exact fun _ _ _ _ hwf => if_pos (by simp [hwf])
  case fragment => exact fun _ _ hwf => if_pos (by simp [hwf])
  case result => exact fun _ _ _ _ _ hwf => if_pos (by simp [hwf])
  case flash => exact fun _ _ _ hwf => if_pos (by simp [hwf])
  case dies => exact fun _ _ hwf => if_pos (by simp [hwf])

/-- Settles O31: the offset picks the branch of its register, and an offset that no branch names changes nothing. -/
theorem registerWritesTakeEffect : Obligations.RegisterWritesTakeEffect := by
  unfold Obligations.RegisterWritesTakeEffect
  refine ⟨?status, ?granted, ?ungranted, ?mirror, ?exported, ?exportAddr, ?exportFrom, ?first, ?msix, ?readOnly⟩
  case status => exact fun _ _ _ hlive => execRegisterWrite_status hlive (.inl rfl)
  case granted => exact fun _ _ _ hlive hfm => execRegisterWrite_status hlive (.inr ⟨rfl, hfm⟩)
  case ungranted =>
    intro v value s hlive hfm
    show execRegisterWrite .. = _
    simp [execRegisterWrite, hlive, hfm]
  case mirror =>
    intro v value s hlive hone
    show execRegisterWrite .. = _
    simp [execRegisterWrite, hlive, hone]
  case exported =>
    intro v value s hlive hone
    show execRegisterWrite .. = _
    simp [execRegisterWrite, hlive, hone]
  case msix => exact fun _ _ _ _ hlive hk => execRegisterWrite_msix hlive (by omega) (by omega) (by omega)
  case exportAddr | exportFrom | first | readOnly =>
    intro v value s hlive
    show execRegisterWrite .. = _
    simp [execRegisterWrite, hlive]

end Sys2Proof
end

section
/-! SUPPORT. The fields of an instruction word (R39, Table 2-5). -/

namespace Sys2Proof.Machine

/-- The number of an instruction word, for fields within their widths. -/
theorem instrWord_toNat {op fl dst src sub imm : Nat} (hop : op < 256) (hfl : fl < 16) (hdst : dst < 16) (hsrc : src < 16) (hsub : sub < 4096)
    (himm : imm < 4294967296) : (instrWord op fl dst src sub imm).toNat =
      op * 2 ^ 56 + fl * 2 ^ 52 + dst * 2 ^ 48 + src * 2 ^ 44 + sub * 2 ^ 32 + imm := by
  rw [instrWord, BitVec.toNat_ofNat]
  omega

/-- Every word is made of its six fields: the layout leaves no bit out. -/
theorem toNat_eq_fields (w : Word) :
    w.toNat = iOpcode w * 2 ^ 56 + iFlags w * 2 ^ 52 + iDst w * 2 ^ 48 + iSrc w * 2 ^ 44 + iSub w * 2 ^ 32 + iImm w := by
  have hlt := w.isLt
  simp only [iOpcode, iFlags, iDst, iSrc, iSub, iImm, bitsOf]
  omega

end Sys2Proof.Machine
end

section
/-! The obligation on instruction words. -/

namespace Sys2Proof
open Machine

/-- Settles O60, from the number that a word is of its fields. -/
theorem instructionFieldsRoundTrip : Obligations.InstructionFieldsRoundTrip := by
  unfold Obligations.InstructionFieldsRoundTrip
  constructor
  · intro op fl dst src sub imm hop hfl hdst hsrc hsub himm
    simp only [iOpcode, iFlags, iDst, iSrc, iSub, iImm, bitsOf, instrWord_toNat hop hfl hdst hsrc hsub himm]
    omega
  · intro w
    apply BitVec.eq_of_toNat_eq
    rw [instrWord, BitVec.toNat_ofNat, ← toNat_eq_fields, Nat.mod_eq_of_lt w.isLt]

end Sys2Proof
end

section
/-! SUPPORT. What an object instruction reads (R44, R57, R86). -/

namespace Sys2Proof.Machine

/-- `OREAD` of a word of an image that exists ends OK with the word, or with `HI` the version (R57). -/
theorem State.opOread_inside {s : State} {cls sel : Nat} {r : ObjReq} (hexists : s.objExists cls sel) (hlen : r.b 1 0 16 < s.imageLen cls sel) :
    (s.opOread cls sel r).status = .ok ∧ (s.opOread cls sel r).dst =
      some (if fOpt r.iflags then word (s.version (okey cls sel)) else s.imageWord cls sel (r.b 1 0 16)) := by
  cases hopt : fOpt r.iflags <;> simp [State.opOread, hexists, Nat.not_le.2 hlen, hopt, opDst]

/-- A word beyond the image of an object that exists ends every access with BADOP. -/
theorem State.op_beyond {s : State} {cls sel : Nat} {r : ObjReq} (hexists : s.objExists cls sel) (hlen : s.imageLen cls sel ≤ r.b 1 0 16) :
    s.opOread cls sel r = opBad s .badop ∧ s.opOwrite cls sel r = opBad s .badop ∧ s.opOcas cls sel r = opBad s .badop := by
  simp [State.opOread, State.opOwrite, State.opOcas, hexists, hlen]

/-- A shadowed word takes the overlay's bits under the mask (R86). -/
theorem State.getLsbD_effWord_shadowed {s : State} {cls sel w : Nat} {h : Shadow} (hshadow : s.shadowOf cls sel w = some h) {i : Nat} (hi : i < 64) :
    (s.effWord cls sel w).getLsbD i = if h.mask.getLsbD i then h.value.getLsbD i else (s.baseWord cls sel w).getLsbD i := by
  simp only [State.effWord, hshadow, BitVec.getLsbD_or, BitVec.getLsbD_and, BitVec.getLsbD_not, hi, decide_true, Bool.true_and]
  cases h.mask.getLsbD i <;> simp

theorem State.effWord_plain {s : State} {cls sel w : Nat} (hshadow : s.shadowOf cls sel w = none) : s.effWord cls sel w = s.baseWord cls sel w := by
  simp only [State.effWord, hshadow]

/-- One version goes up by one in 32 bits, and no other moves (R44). -/
theorem State.version_bump {s : State} (hs : s.wf) (k k' : Nat) :
    (s.bump k).version k' = if k' = k then (s.version k + 1) % 4294967296 else s.version k' := by
  split
  next heq => exact heq ▸ tget_tput_same (fun _ => 0) s.vers k _ hs.vers
  next hne => exact tget_tput_other 0 0 s.vers k k' _ hne

end Sys2Proof.Machine
end

section
/-! The obligation on reads, writes and versions of objects. -/

namespace Sys2Proof
open Machine

/-- Settles O54, from the laws of the sparse tables that hold images and versions. -/
theorem readsGiveWordsAndVersions : Obligations.ReadsGiveWordsAndVersions := by
  unfold Obligations.ReadsGiveWordsAndVersions
  exact ⟨fun _ _ _ _ => State.opOread_inside, fun _ _ _ _ => State.op_beyond,
    fun _ cls sel w v hs => State.baseWord_putWord_same hs cls sel w v,
    fun s _ _ _ _ _ _ v hkey => State.baseWord_putWord_other s v hkey.symm,
    fun _ _ _ _ _ hshadow _ hi => State.getLsbD_effWord_shadowed hshadow hi,
    fun _ _ _ _ => State.effWord_plain, fun _ k k' hs => State.version_bump hs k k'⟩

end Sys2Proof
end

section
/-! SUPPORT. How the base configuration begins (R79, R80). -/

namespace Sys2Proof.Machine

theorem execBaseConfiguration_authentic {slotA slotB : List Byte} {s : State} {image : Nat × List Byte} (hwf : flashWf slotA slotB)
    (hphase : s.power.phase = .managed) (hbegun : s.power.baseBegun = false) (hboot : s.bootSlot slotA slotB = some image) :
    exec (.baseConfiguration ⟨slotA, slotB⟩) s = .next (s.bootFrom image.1 image.2) := by
  show execBaseConfiguration _ s = _
  simp [execBaseConfiguration, hwf, hphase, hbegun, hboot]

/-- With no authentic image no program runs, and the base configuration stops with FAULTED (R80). -/
theorem execBaseConfiguration_unauthentic {slotA slotB : List Byte} {s : State} (hwf : flashWf slotA slotB)
    (hphase : s.power.phase = .managed) (hbegun : s.power.baseBegun = false) (hboot : s.bootSlot slotA slotB = none) :
    exec (.baseConfiguration ⟨slotA, slotB⟩) s = .next (({ s with
      power := { s.power with baseBegun := true, baseSlot := 3, secCommit := none },
      tally := { s.tally with base := [], baseOverlays := [], baseStatus := .ok } } : State).baseStop .faulted) := by
  show execBaseConfiguration _ s = _
  simp [execBaseConfiguration, hwf, hphase, hbegun, hboot]

end Sys2Proof.Machine
end

section
/-! The obligation on forwarded programs and the base configuration. -/

namespace Sys2Proof
open Machine

/-- Settles O32, one clause for each message, timer and end of the base configuration. -/
theorem forwardedProgramsAndBaseConfiguration : Obligations.ForwardedProgramsAndBaseConfiguration := by
  unfold Obligations.ForwardedProgramsAndBaseConfiguration
  refine ⟨?gathering, ?whole, ?missing, ?accepted, ?result, ?unanswered, ?begins, ?done⟩
  case gathering =>
    intro m s hwf hrun hmore
    show execTallyFwdReceived m s = _
    simp [execTallyFwdReceived, hwf, hrun, hmore]
  case whole =>
    intro m s hwf hrun hall
    show execTallyFwdReceived m s = _
    simp [execTallyFwdReceived, hwf, hrun, Nat.not_lt.2 hall]
  case missing => exact fun dev id s hrun => congrArg _ (if_pos hrun)
  case accepted => exact fun id s hrun => congrArg _ (if_pos hrun)
  case result =>
    intro id result seq rods s f hwf hrun hfind
    show execTallyResultReceived id result seq rods s = _
    simp [execTallyResultReceived, hwf, hrun, hfind]
  case unanswered =>
    intro id s f hrun hfind haccepted hdue
    show execForwardAcceptTimeout id s = _
    simp [execForwardAcceptTimeout, hrun, hfind, haccepted, hdue]
  case begins =>
    intro slotA slotB s hwf hphase hbegun
    cases hboot : s.bootSlot slotA slotB with
    | none => exact ⟨_, execBaseConfiguration_unauthentic hwf hphase hbegun hboot, nofun, fun _ => rfl⟩
    | some image =>
      refine ⟨_, execBaseConfiguration_authentic hwf hphase hbegun hboot, ?_, nofun⟩
      rintro slot img ⟨⟩
      rfl
  case done =>
    intro s hphase hbegun hbase hprogs hlog
    show execBaseDone s = _
    rw [execBaseDone]
    exact if_neg (by simp [hphase, hbegun, hbase, hprogs, hlog])

end Sys2Proof
end

section
/-! SUPPORT. The commit point and the waits behind it (R47, R48, R62, R190). -/

namespace Sys2Proof.Machine

/-- `COMMIT` of an open transaction runs its commit point. -/
theorem execCommit_of_stands {s : State} {id : Nat} {p : Prog} (hstands : s.stands id p) (hop : iOpcode p.instr = 0x03) (hbegun : p.begun)
    (hcommitted : p.committed = false) (hlog : s.logReady) : exec (.commit id) s = .next ((s.counted id).commitPoint p) := by
  show execCommit id s = _
  rw [execCommit, State.instrRow_of_stands _ hstands (opIs_of_eq hop) hlog]
  simp [hbegun, hcommitted]

/-- An overlay that was deleted meanwhile ends the program before its versions are compared. -/
theorem State.commitPoint_overlayGone {s : State} {p : Prog} (hgone : s.overlayGone p) : s.commitPoint p = s.endProg p.id .noobj := by
  simp [State.commitPoint, hgone]

theorem State.commitPoint_conflicts {s : State} {p : Prog} (hgone : s.overlayGone p = false) (hconflicts : s.conflicts p) :
    s.commitPoint p = (s.tallyCount 13).endProg p.id .conflict := by
  simp [State.commitPoint, hgone, hconflicts]

theorem State.commitPoint_refused {s : State} {p : Prog} (hgone : s.overlayGone p = false) (hconflicts : s.conflicts p = false)
    (hstatus : (s.commitAll p.staged).status ≠ .ok) :
    s.commitPoint p = (s.blame (s.commitAll p.staged).blame).endProg p.id (s.commitAll p.staged).status := by
  simp [State.commitPoint, hgone, hconflicts, hstatus]

/-- What a commit leaves, in the order of R48: the entry, the changes, the versions, and the program past its commit point. -/
def State.committedAs (s : State) (p : Prog) : State :=
  let s1 := (s.tallyCount 12).logEntry
    (p.entry 0 0 0 0 (s.commitAll p.staged).objs.eraseDups (p.staged.flatMap (fun r => r.entryRefs)) 0 0)
  let d := s1.commitAll p.staged
  ((s.settle (d.st.bumpAll d.bumps) p.id).upd p.id (fun q =>
    { q with committed := true, logSeq := s1.log.head, staged := [], recorded := [] })).afterCommit p.id

theorem State.commitPoint_ok {s : State} {p : Prog} (hgone : s.overlayGone p = false) (hconflicts : s.conflicts p = false)
    (hstatus : (s.commitAll p.staged).status = .ok) : s.commitPoint p = s.committedAs p := by
  simp [State.commitPoint, State.committedAs, hgone, hconflicts, hstatus]

theorem execUnbindDrainDone_empty {s : State} {id due : Nat} {p : Prog} (hrun : s.running) (hprog : s.prog id = some p)
    (hphase : p.phase = .draining due) (habort : p.aborting = false) (hreqs : s.recordReqs (s.selOf p.objReq) = []) (hlog : s.logReady) :
    exec (.unbindDrainDone id) s = .next (s.objNow p p.objReq) := by
  show execUnbindDrainDone id s = _
  simp [execUnbindDrainDone, hprog, hphase, hrun, habort, hreqs, State.orWait_of_logReady hlog]

theorem execUnbindDrainTimeout_due {s : State} {id due : Nat} {p : Prog} (hrun : s.running) (hprog : s.prog id = some p)
    (hphase : p.phase = .draining due) (habort : p.aborting = false) (hreqs : s.recordReqs (s.selOf p.objReq) ≠ []) (hdue : due ≤ s.now)
    (hlog : s.logReady) : exec (.unbindDrainTimeout id) s = .next (s.objFail id p.objReq .timeout none) := by
  show execUnbindDrainTimeout id s = _
  simp [execUnbindDrainTimeout, hprog, hphase, hrun, habort, hreqs, hdue, State.orWait_of_logReady hlog]

/-- The last reset of a tenant's functions returns the tenant's `State` and answers the program that waits (R190). -/
theorem execTenantResetEnd_last {t : TenantId} {s : State} {r : TenReset} {p : Prog} (hrun : s.running) (hresets : s.tenancy.resets = [r])
    (htenant : r.tenant = t) (hflrs : s.tenancy.flrs.any (fun f => decide (f.tenant = t.val)) = false) (hprog : s.prog r.prog = some p)
    (hphase : p.phase = .tenantWait) (hlog : s.logReady) : exec (.tenantResetEnd t) s =
      .next ((({ s with tenancy := { s.tenancy with resets := [] } } : State).put tenState t.val r.prev).resetAnswer p r.failed) := by
  have hwaits : (({ s with tenancy := { s.tenancy with resets := [] } } : State).put tenState t.val r.prev).prog r.prog = some p := hprog
  show execTenantResetEnd t s = _
  simp only [execTenantResetEnd, hresets, htenant, hrun, hflrs, List.find?_cons, List.filter_cons, decide_true, ne_eq, not_true_eq_false,
    decide_false, List.filter_nil, List.map_nil, List.any_nil, Bool.not_true, Bool.or_self, Bool.false_eq_true, if_false, hwaits, hphase,
    if_true, State.orWait_of_logReady hlog]

end Sys2Proof.Machine
end

section
/-! The obligation on commits and on the waits that end. -/

namespace Sys2Proof
open Machine

/-- Settles O35, one clause for each end of a commit, of an `UNBIND` that waits, and of a tenant reset. -/
theorem commitsAndDrainsComplete : Obligations.CommitsAndDrainsComplete := by
  unfold Obligations.CommitsAndDrainsComplete
  refine ⟨?gone, ?conflict, ?refused, ?commits, fun _ _ _ _ => execUnbindDrainDone_empty, fun _ _ _ _ => execUnbindDrainTimeout_due,
    fun _ _ _ _ => execTenantResetEnd_last⟩
  case gone =>
    intro id s p hstands hop hbegun hcommitted hlog hgone
    obtain rfl := State.id_of_prog hstands.1
    rw [execCommit_of_stands hstands hop hbegun hcommitted hlog, State.commitPoint_overlayGone hgone]
  case conflict =>
    intro id s p hstands hop hbegun hcommitted hlog hgone hconflicts
    rw [execCommit_of_stands hstands hop hbegun hcommitted hlog, State.commitPoint_conflicts hgone hconflicts]
  case refused =>
    intro id s p hstands hop hbegun hcommitted hlog hgone hconflicts hstatus
    obtain rfl := State.id_of_prog hstands.1
    rw [execCommit_of_stands hstands hop hbegun hcommitted hlog, State.commitPoint_refused hgone hconflicts hstatus]
  case commits =>
    intro id s p hstands hop hbegun hcommitted hlog hgone hconflicts hstatus
    obtain rfl := State.id_of_prog hstands.1
    rw [execCommit_of_stands hstands hop hbegun hcommitted hlog, State.commitPoint_ok hgone hconflicts hstatus]
    rfl

end Sys2Proof
end

section
/-! SUPPORT. How object instructions answer (R40, R54, R57, R58): each ends OK, or leaves the state as it was and gives no result, but for the
comparison of `OCAS` and the current use of `RESIZE`. -/

namespace Sys2Proof.Machine

/-- The instruction ends OK, or leaves the state as it was and gives no result. -/
inductive Plain (s : State) (o : OpRes) : Prop
  | done (hok : o.status = .ok)
  | refused (hst : o.st = s) (hdst : o.dst = none)

namespace Plain

theorem bad (s : State) (st : Status) : Plain s (opBad s st) := .refused rfl rfl
theorem nores (s : State) (t : Nat) : Plain s (opNores s t) := .refused rfl rfl
theorem ok (s t : State) (ks : List Nat) : Plain s (opOk t ks) := .done rfl
theorem dst (s t : State) (ks : List Nat) (w : Word) : Plain s (opDst t ks w) := .done rfl

theorem ite {s : State} {a b : OpRes} {c : Prop} [Decidable c] (ha : Plain s a) (hb : Plain s b) : Plain s (if c then a else b) := by
  split
  · exact ha
  · exact hb

/-- A result that is given with OK alone. -/
theorem withDst {s : State} {o : OpRes} (h : Plain s o) (d : Option Word) : Plain s { o with dst := if o.status = .ok then d else none } := by
  by_cases hok : o.status = .ok
  · exact .done hok
  · cases h with
    | done hdone => exact absurd hdone hok
    | refused hst _ => exact .refused hst (if_neg hok)

end Plain

/-! ### Reads and writes of image words (R57) -/

theorem State.opOread_plain (s : State) (cls sel : Nat) (r : ObjReq) : Plain s (s.opOread cls sel r) :=
  .ite (.bad ..) (.ite (.bad ..) (.ite (.dst ..) (.dst ..)))

theorem State.writeOp_plain (s : State) (cls sel : Nat) (xs : List Written) : Plain s (s.writeOp cls sel xs) := by
  unfold State.writeOp
  split
  · exact .ok ..
  · exact .refused rfl rfl
  · exact .bad ..

theorem State.opOwrite_plain (s : State) (cls sel : Nat) (r : ObjReq) : Plain s (s.opOwrite cls sel r) :=
  .ite (.bad ..) (.ite (.bad ..) (s.writeOp_plain ..))

theorem State.opQuery_plain (s : State) (cls sel : Nat) (r : ObjReq) : Plain s (s.opQuery cls sel r) :=
  .ite (.bad ..) (.dst ..)

theorem State.opWords_plain (s : State) (cls sel : Nat) (r : ObjReq) : Plain s (s.opWords cls sel r) :=
  .ite (s.writeOp_plain ..) (.bad ..)

/-! ### Ports (R12, R140, R426) -/

theorem State.opPortCfg_plain (s : State) (p : Nat) (r : ObjReq) : Plain s (s.opPortCfg p r) := by
  unfold State.opPortCfg
  dsimp only
  split
  · exact .ite (.bad ..) (.ok ..)
  · exact .bad ..

theorem State.opPortState_plain (s : State) (p : Nat) (r : ObjReq) : Plain s (s.opPortState p r) := by
  have answered (t : State) (acted : Bool) : Plain s (portStateDone t p acted) := .dst ..
  exact .ite (.bad ..) (.ite (.bad ..) (.ite (.ite (.bad ..) (answered ..)) (.ite (.ite (.bad ..) (answered ..))
    (.ite (.ite (.bad ..) (answered ..)) (.ite (.ite (.bad ..) (answered ..)) (.ite (answered ..) (answered ..)))))))

theorem State.opWithdraw_plain (s : State) (p : Nat) (r : ObjReq) : Plain s (s.opWithdraw p r) := .dst ..

/-! ### Tenancy (R174, R183, R185) -/

theorem State.opTenant_plain (s : State) (t : Nat) (r : ObjReq) : Plain s (s.opTenant t r) := by
  unfold State.opTenant
  dsimp only
  refine .ite (.bad ..) (.ite (.ite (.bad ..) (.ok ..)) (.ite (.ite (.bad ..) (.ok ..)) (.ite (.ite (.bad ..) (.ok ..))
    (.ite (.ite (.bad ..) (.ok ..)) (.ite (.bad ..) ?_)))))
  split
  · exact .ok ..
  · exact .bad ..

theorem State.opBind_plain (s : State) (sel : Nat) (r : ObjReq) : Plain s (s.opBind sel r) :=
  .ite (.bad ..) (.ite (.bad ..) (.ite (.bad ..) (.ite (.bad ..) (.ite (.bad ..) (.ite (.nores ..) (.ite (.nores ..) (.dst ..)))))))

theorem State.opUnbind_plain (s : State) (sel : Nat) (r : ObjReq) : Plain s (s.opUnbind sel r) :=
  .ite (.bad ..) (.ite (.bad ..) (.dst ..))

/-! ### Lighter (R224, R228 to R230) -/

theorem State.qpCreate_plain (s : State) (q : Nat) (r : ObjReq) : Plain s (s.qpCreate q r) := by
  unfold State.qpCreate
  refine .ite (.bad ..) ?_
  split
  · exact .bad ..
  · exact .ite (.bad ..) (.ite (.nores ..) (.dst ..))

theorem State.qpModify_plain (s : State) (q : Nat) (r : ObjReq) : Plain s (s.qpModify q r) := by
  unfold State.qpModify
  refine .ite (.bad ..) ?_
  split
  · exact .bad ..
  · exact .ite (.bad ..) (.ite (.ite (.bad ..) (.dst ..)) (.ite (.dst ..) (.ite (.dst ..) (.bad ..))))

theorem State.opQpctl_plain (s : State) (q : Nat) (r : ObjReq) : Plain s (s.opQpctl q r) :=
  .ite (.bad ..) (.ite (s.qpCreate_plain ..) (.ite (.bad ..) (.ite (.bad ..) (.ite (s.qpModify_plain ..)
    (.ite (.ite (.bad ..) (.dst ..)) (.ite (.bad ..) (.dst ..)))))))

theorem State.opRegion_plain (s : State) (i : Nat) (r : ObjReq) : Plain s (s.opRegion i r) :=
  .ite (.bad ..) (.ite (.bad ..) (.ite (.bad ..) (.ite (.bad ..) (.ite (.nores ..) (.dst ..)))))

theorem State.opRevoke_plain (s : State) (i : Nat) (r : ObjReq) : Plain s (s.opRevoke i r) :=
  .ite (.bad ..) (.ite (.bad ..) (.dst ..))

theorem State.opCqctl_plain (s : State) (c : Nat) (r : ObjReq) : Plain s (s.opCqctl c r) :=
  .ite (.bad ..) (.ite (.ite (.bad ..) (.ite (.bad ..) (.ite (.bad ..) (.ite (.bad ..) (.ite (.nores ..) (.ok ..))))))
    (.ite (.bad ..) (.ite (.bad ..) (.ite (.ite (.bad ..) (.ite (.bad ..) (.ok ..))) (.ite (.bad ..) (.ite (.bad ..) (.ok ..)))))))

/-! ### Slots, overlays, snapshots and faults (R85, R354, R361, R379, R384, R393) -/

theorem State.opSlotpwr_plain (s : State) (n : Nat) (r : ObjReq) : Plain s (s.opSlotpwr n r) := by
  have shown (t : State) (acted : Bool) : Plain s (slotDone t n acted) := .dst ..
  exact .ite (.bad ..) (.ite (.ite (.bad ..) (.ite (.bad ..) (shown ..))) (.ite (shown ..) (.ite (.bad ..) (.ite (.bad ..)
    (.ite (shown ..) (shown ..))))))

theorem State.opBudget_plain (s : State) (r : ObjReq) : Plain s (s.opBudget r) := .ite (.bad ..) (.ok ..)

theorem State.ovStore_plain (s : State) (i : Nat) (r : ObjReq) : Plain s (s.ovStore i r) := by
  unfold State.ovStore
  refine .ite (.bad ..) (.ite (.bad ..) ?_)
  split
  · exact .bad ..
  · exact .ok ..

theorem State.ovSwitch_plain (s : State) (new : Option Nat) (i : Nat) : Plain s (s.ovSwitch new i) := by
  unfold State.ovSwitch
  dsimp only
  split
  · exact .ite (.ok ..) (.bad ..)
  · exact .bad ..

theorem State.opOverlay_plain (s : State) (i : Nat) (r : ObjReq) : Plain s (s.opOverlay i r) :=
  .ite (s.ovStore_plain ..) (.ite (.bad ..) (.ite (.ite (.ok ..) (s.ovSwitch_plain ..)) (.ite (.ite (s.ovSwitch_plain ..) (.bad ..))
    (.ite (.bad ..) (.ok ..)))))

theorem State.opSnap_plain (s : State) (set : Nat) (r : ObjReq) : Plain s (s.opSnap set r) := by
  unfold State.opSnap
  refine .ite (.bad ..) (.ite (.bad ..) (.ite (.bad ..) (.ite (.bad ..) (.ite (.bad ..) ?_))))
  split
  · exact .ok ..
  · exact .bad ..

theorem State.opInject_plain (s : State) (r : ObjReq) : Plain s (s.opInject r) :=
  .ite (.bad ..) (.ite (.bad ..) (.ite (.bad ..) (.ok ..)))

theorem State.opFaultack_plain (s : State) (slot : Nat) (r : ObjReq) : Plain s (s.opFaultack slot r) := by
  unfold State.opFaultack
  split
  · exact .bad ..
  · exact .ok ..

/-! ### Every object instruction -/

/-- How an object instruction answers: plainly, or as an `OCAS` whose comparison was unequal, or as a `RESIZE` that gives the current use (R40). -/
inductive Answers (s : State) (r : ObjReq) (o : OpRes) : Prop
  | plain (h : Plain s o)
  | unequal (hop : r.op = 0x22) (hst : o.status = .conflict)
  | inUse (hop : r.op = 0x44) (hst : o.status = .nores ∨ o.status = .conflict)

theorem Answers.ite {s : State} {r : ObjReq} {a b : OpRes} {op : Nat} (ha : r.op = op → Answers s r a) (hb : Answers s r b) :
    Answers s r (if r.op = op then a else b) := by
  split
  next hop => exact ha hop
  next => exact hb

theorem State.opOcas_answers {s : State} {r : ObjReq} (hop : r.op = 0x22) (cls sel : Nat) : Answers s r (s.opOcas cls sel r) := by
  unfold State.opOcas
  dsimp only
  split
  · exact .plain (.bad ..)
  · split
    · exact .plain (.bad ..)
    · split
      · exact .unequal hop rfl
      · exact .plain (.ite (.bad ..) (Plain.withDst (s.writeOp_plain ..) _))

/-- `RESIZE` is refused for its ranges or its tenant, or gives the current use (R40). -/
theorem State.opResize_cases (s : State) (t : Nat) (r : ObjReq) :
    Plain s (s.opResize t r) ∧ (s.opResize t r).status ≠ .nores ∧ (s.opResize t r).status ≠ .conflict ∨
    ((s.opResize t r).status = .nores ∨ (s.opResize t r).status = .conflict) ∧
      (s.opResize t r).dst = some (word (s.useOf t (r.b 1 0 3))) := by
  unfold State.opResize
  dsimp only
  split
  · exact .inl ⟨.bad .., nofun, nofun⟩
  · split
    · exact .inl ⟨.bad .., nofun, nofun⟩
    · split
      · exact .inr ⟨.inl rfl, rfl⟩
      · split
        · exact .inl ⟨.dst .., nofun, nofun⟩
        · split
          · exact .inr ⟨.inr rfl, rfl⟩
          · exact .inl ⟨.dst .., nofun, nofun⟩

theorem State.opResize_answers {s : State} {r : ObjReq} (hop : r.op = 0x44) (t : Nat) : Answers s r (s.opResize t r) := by
  rcases s.opResize_cases t r with ⟨hplain, -⟩ | ⟨hst, -⟩
  · exact .plain hplain
  · exact .inUse hop hst

theorem State.runOp_answers (s : State) (cls sel : Nat) (r : ObjReq) : Answers s r (s.runOp cls sel r) :=
  .ite (fun _ => .plain (s.opOread_plain ..)) <|
  .ite (fun _ => .plain (s.opOwrite_plain ..)) <|
  .ite (fun hop => State.opOcas_answers hop ..) <|
  .ite (fun _ => .plain (s.opPortCfg_plain ..)) <|
  .ite (fun _ => .plain (s.opPortState_plain ..)) <|
  .ite (fun _ => .plain (s.opWithdraw_plain ..)) <|
  .ite (fun _ => .plain (s.opTenant_plain ..)) <|
  .ite (fun _ => .plain (s.opBind_plain ..)) <|
  .ite (fun _ => .plain (s.opUnbind_plain ..)) <|
  .ite (fun hop => State.opResize_answers hop ..) <|
  .ite (fun _ => .plain (s.opQpctl_plain ..)) <|
  .ite (fun _ => .plain (s.opRegion_plain ..)) <|
  .ite (fun _ => .plain (s.opRevoke_plain ..)) <|
  .ite (fun _ => .plain (s.opCqctl_plain ..)) <|
  .ite (fun _ => .plain (s.opSlotpwr_plain ..)) <|
  .ite (fun _ => .plain (s.opBudget_plain ..)) <|
  .ite (fun _ => .plain (s.opOverlay_plain ..)) <|
  .ite (fun _ => .plain (s.opSnap_plain ..)) <|
  .ite (fun _ => .plain (s.opQuery_plain ..)) <|
  .ite (fun _ => .plain (s.opFaultack_plain ..)) <|
  .plain (s.opWords_plain ..)

/-! ### Containment (R58) -/

theorem okey_div (cls : Nat) {sel : Nat} (hsel : sel < 4294967296) : okey cls sel / 4294967296 = cls := by
  rw [okey]
  omega

theorem okey_mod (cls : Nat) {sel : Nat} (hsel : sel < 4294967296) : okey cls sel % 4294967296 = sel := by
  rw [okey]
  omega

/-- A selector is one word of 32 bits (R42). -/
theorem State.selOf_lt (s : State) (r : ObjReq) : s.selOf r < 4294967296 := by
  have hraw : r.rawSel < 4294967296 := Nat.mod_lt _ (by decide)
  rw [State.selOf, State.canonSel]
  split <;> omega

@[simp] theorem State.allChanged_status (s : State) (r : ObjReq) (o : OpRes) : (s.allChanged r o).status = o.status := by
  rw [State.allChanged]
  split <;> rfl

@[simp] theorem State.allChanged_dst (s : State) (r : ObjReq) (o : OpRes) : (s.allChanged r o).dst = o.dst := by
  rw [State.allChanged]
  split <;> rfl

/-- An answer is one by its status, its state and its result alone. -/
theorem Answers.allChanged {s : State} {r : ObjReq} {o : OpRes} (h : Answers s r o) : Answers s r (s.allChanged r o) := by
  cases h with
  | plain h =>
    cases h with
    | done hok => exact .plain (.done (by simpa using hok))
    | refused hst hdst => exact .plain (.refused (by simpa using hst) (by simpa using hdst))
  | unequal hop hst => exact .unequal hop (by simpa using hst)
  | inUse hop hst => exact .inUse hop (by simpa using hst)

theorem Answers.guarded {s : State} {r : ObjReq} {o : OpRes} (h : Answers s r o) : Answers s r (s.guarded r o) := by
  rw [State.guarded]
  split
  · exact .plain (.bad ..)
  · exact h.allChanged

/-- A change on a contained object that would end OK, CONFLICT or NORES ends with FAULTED (R58). -/
theorem State.guarded_contained {s : State} {r : ObjReq} {o : OpRes} (hchange : isChange r.op) (hexempt : s.exempt r = false)
    (hcontained : s.objContained r.cls (s.selOf r)) (hst : o.status = .ok ∨ o.status = .conflict ∨ o.status = .nores) :
    s.guarded r o = opBad s .faulted := by
  have hnamed : (s.objsOf o.st r).any (fun k => s.objContained (k / 4294967296) (k % 4294967296)) := by
    refine List.any_eq_true.2 ⟨s.namedObj r, List.mem_eraseDups.2 (List.mem_cons_self ..), ?_⟩
    rwa [State.namedObj, okey_div _ (s.selOf_lt r), okey_mod _ (s.selOf_lt r)]
  rw [State.guarded, if_pos]
  rcases hst with hst | hst | hst <;> simp [hst, hchange, hexempt, hnamed]

/-! ### Selectors and blocks (R42, R56) -/

theorem selCheck_ne_ok {cls : Nat} {w : Word} {st : Status} (h : selCheck cls w = some st) : st ≠ .ok := by
  rw [selCheck] at h
  split_ifs at h <;> cases h <;> decide

/-- An instruction that names an object is refused for its selector, its scope or its block, or has its effect. -/
theorem State.applyObj_cases (s : State) {r : ObjReq} (hinject : r.inject = false) :
    (∃ st, st ≠ .ok ∧ s.applyObj r = opBad s st) ∨ s.applyObj r = s.guarded r (s.runOp r.cls (s.selOf r) r) := by
  simp only [State.applyObj, hinject, Bool.false_eq_true, if_false]
  split
  next st hsel => exact .inl ⟨st, selCheck_ne_ok hsel, rfl⟩
  next =>
    split
    · exact .inl ⟨.denied, by decide, rfl⟩
    · split
      · exact .inl ⟨.badop, by decide, rfl⟩
      · exact .inr rfl

/-- A change with a good selector and a good block has its effect. -/
theorem State.applyObj_change {s : State} {r : ObjReq} (hinject : r.inject = false) (hblock : blockOk r)
    (hsel : selCheck r.cls (r.w 0) = none) (hchange : isChange r.op) :
    s.applyObj r = s.guarded r (s.runOp r.cls (s.selOf r) r) := by
  have hreads : r.op ≠ 0x20 ∧ r.op ≠ 0x69 := by
    simp only [isChange, Bool.and_eq_true, decide_eq_true_eq] at hchange
    obtain ⟨⟨-, hread⟩, hquery⟩ := hchange
    exact ⟨hread, hquery⟩
  simp [State.applyObj, hinject, hsel, hblock, hreads]

/-- Every object instruction answers so, `INJECT` among them. -/
theorem State.applyObj_answers (s : State) (r : ObjReq) : Answers s r (s.applyObj r) := by
  cases hinject : r.inject with
  | true =>
    rw [State.applyObj, if_pos hinject]
    exact .plain (.ite (s.opInject_plain r) (.bad ..))
  | false =>
    rcases s.applyObj_cases hinject with ⟨st, -, hbad⟩ | hrun
    · exact hbad ▸ .plain (.bad ..)
    · exact hrun ▸ (s.runOp_answers ..).guarded

/-- A selector word with a bit that its class does not use ends with BADOP (R56). -/
theorem State.applyObj_unusedBit {s : State} {r : ObjReq} (hinject : r.inject = false)
    (hmask : (r.w 0).toNat &&& selMask r.cls ≠ (r.w 0).toNat) : s.applyObj r = opBad s .badop := by
  simp [State.applyObj, hinject, selCheck, hmask]

/-- A selector out of its class's range ends with NOOBJ (R56). -/
theorem State.applyObj_outOfRange {s : State} {r : ObjReq} (hinject : r.inject = false)
    (hmask : (r.w 0).toNat &&& selMask r.cls = (r.w 0).toNat) (hrange : selInRange r.cls (r.w 0).toNat = false) :
    s.applyObj r = opBad s .noobj := by
  simp [State.applyObj, hinject, selCheck, hmask, hrange]

/-- An answer of FAULTED changed nothing. -/
theorem Answers.faulted {s : State} {r : ObjReq} {o : OpRes} (h : Answers s r o) (hfaulted : o.status = .faulted) : o.st = s ∧ o.dst = none := by
  cases h with
  | plain h =>
    cases h with
    | done hok => simp [hok] at hfaulted
    | refused hst hdst => exact ⟨hst, hdst⟩
  | unequal _ hst => simp [hst] at hfaulted
  | inUse _ hst => rcases hst with hst | hst <;> simp [hst] at hfaulted

/-- A change on a contained object does not end OK (R58). -/
theorem State.applyObj_contained {s : State} {r : ObjReq} (hinject : r.inject = false) (hchange : isChange r.op) (hexempt : s.exempt r = false)
    (hcontained : s.objContained r.cls (s.selOf r)) : (s.applyObj r).status ≠ .ok := by
  rcases s.applyObj_cases hinject with ⟨st, hst, hbad⟩ | hrun
  · rw [hbad]
    exact hst
  · rw [hrun]
    by_cases hok : (s.runOp r.cls (s.selOf r) r).status = .ok
    · rw [State.guarded_contained hchange hexempt hcontained (.inl hok)]
      nofun
    · rw [State.guarded]
      split
      · nofun
      · rwa [State.allChanged_status]

end Sys2Proof.Machine
end

section
/-! The obligation on changes of contained objects. -/

namespace Sys2Proof
open Machine

/-- Settles O53, from the guard of R58 and from what every answer other than OK leaves. -/
theorem containedObjectsRefuseChanges : Obligations.ContainedObjectsRefuseChanges := by
  unfold Obligations.ContainedObjectsRefuseChanges
  refine ⟨?contained, ?faulted, fun _ _ => State.applyObj_unusedBit, fun _ _ => State.applyObj_outOfRange⟩
  case contained =>
    intro s r hinject hchange hexempt hcontained
    exact ⟨State.applyObj_contained hinject hchange hexempt hcontained, (s.applyObj_answers r).faulted⟩
  case faulted =>
    intro s r hinject hblock hsel hchange hexempt hcontained hok
    rw [State.applyObj_change hinject hblock hsel hchange, State.guarded_contained hchange hexempt hcontained (.inl hok)]

end Sys2Proof
end

section
/-! SUPPORT. Rods, results and the programs that hold them (R40, R41, R60). -/

namespace Sys2Proof.Machine

/-! ### Rods (R40) -/

@[simp] theorem Prog.rod_zero (p : Prog) : p.rod 0 = 0 := rfl

@[simp] theorem Prog.setRod_zero (p : Prog) (v : Word) : p.setRod 0 v = p := rfl

theorem Prog.wf_setRod {p : Prog} (hp : p.wf) (k : Nat) (v : Word) : (p.setRod k v).wf := by
  rw [Prog.setRod]
  split
  · exact hp
  · simpa [Prog.wf] using hp

/-- A rod that is written reads as what was written. -/
theorem Prog.rod_setRod_same {p : Prog} (hp : p.wf) {k : Nat} (hlow : 1 ≤ k) (hhigh : k ≤ 15) (v : Word) : (p.setRod k v).rod k = v := by
  have hk : k ≠ 0 := by omega
  have hlen : p.rods.length = 15 := of_decide_eq_true hp
  have hin : k - 1 < p.rods.length := by omega
  simp [Prog.rod, Prog.setRod, hk, hin]

/-- A write of a rod leaves every other rod alone. -/
theorem Prog.rod_setRod_other (p : Prog) {j k : Nat} (hjk : j ≠ k) (v : Word) : (p.setRod j v).rod k = p.rod k := by
  by_cases hj : j = 0
  · rw [hj, Prog.setRod_zero]
  · by_cases hk : k = 0
    · rw [hk, Prog.rod_zero, Prog.rod_zero]
    · have hindex : j - 1 ≠ k - 1 := by omega
      simp [Prog.rod, Prog.setRod, hj, hk, List.getElem?_set_ne hindex]

/-- The rods after a result is written, and before A15 takes the status. -/
theorem Prog.result_eq (p : Prog) (r : ObjReq) (st : Status) (dst : Option Word) :
    p.result r st dst = ((dst.map (p.setRod r.dst)).getD p).setRod 15 (word (stCode st)) := by
  cases dst <;> rfl

/-- After an object instruction A15 holds its status, also where `Dst` names A15 (R40). -/
theorem Prog.rod_result_status {p : Prog} (hp : p.wf) (r : ObjReq) (st : Status) (dst : Option Word) :
    (p.result r st dst).rod 15 = word (stCode st) := by
  rw [Prog.result_eq]
  cases dst with
  | none => exact Prog.rod_setRod_same hp (by decide) (by decide) _
  | some w => exact Prog.rod_setRod_same (Prog.wf_setRod hp ..) (by decide) (by decide) _

/-- Every rod but A15 holds the result where it is the destination of one, and is as it was otherwise (R40). -/
theorem Prog.rod_result {p : Prog} (hp : p.wf) (r : ObjReq) (st : Status) (dst : Option Word) {k : Nat} (hlow : 1 ≤ k) (hhigh : k ≤ 14) :
    (p.result r st dst).rod k = if k = r.dst then dst.getD (p.rod k) else p.rod k := by
  rw [Prog.result_eq, Prog.rod_setRod_other _ (by omega)]
  cases dst with
  | none => simp
  | some w =>
    split
    next hdst => subst hdst; exact Prog.rod_setRod_same hp hlow (by omega) w
    next hdst => exact Prog.rod_setRod_other _ (Ne.symm hdst) w

/-! ### Programs by their numbers -/

/-- A change of the program with a number shows at that program. -/
theorem State.prog_upd {s : State} {id : Nat} {p : Prog} (hprog : s.prog id = some p) {f : Prog → Prog} (hid : ∀ q, (f q).id = q.id) :
    (s.upd id f).prog id = some (f p) := by
  have hsame (q : Prog) : (if q.id = id then f q else q).id = q.id := by
    split
    · exact hid q
    · rfl
  have hp := State.id_of_prog hprog
  rw [State.prog] at hprog
  rw [State.prog, State.upd, List.find?_map]
  simp only [Function.comp_def, hsame, hprog, Option.map_some, hp, if_true]

theorem Prog.result_id (p : Prog) (r : ObjReq) (st : Status) (dst : Option Word) : (p.result r st dst).id = p.id := by
  have hset (q : Prog) (k : Nat) (v : Word) : (q.setRod k v).id = q.id := by
    rw [Prog.setRod]
    split <;> rfl
  rw [Prog.result_eq, hset]
  cases dst with
  | none => rfl
  | some w => exact hset ..

/-- With `CONT` a program goes on behind an instruction that did not end OK, with its status and result (R41). -/
theorem State.prog_objFail_cont {s : State} {id : Nat} {p : Prog} {r : ObjReq} (st : Status) (dst : Option Word) (hprog : s.prog id = some p)
    (hcont : fCont r.iflags) : (s.objFail id r st dst).prog id = some (((p.result r st dst).next).onward) := by
  rw [State.objFail, if_pos hcont]
  exact State.prog_upd (State.prog_upd hprog fun q => q.result_id r st dst) fun _ => rfl

/-- A program keeps its rods where it starts, or waits on. -/
theorem execProgramStart_waiting {s t : State} {id : Nat} {p : Prog} (hprog : s.prog id = some p) (hphase : p.phase = .waiting)
    (habort : p.aborting = false) (hexec : exec (.programStart id) s = .next t) :
    t = s.upd id (fun q => { q with phase := .running, slot := true }) ∨ t = s := by
  replace hexec : execProgramStart id s = .next t := hexec
  simp only [execProgramStart, hprog, hphase, habort, if_true, Bool.false_eq_true, if_false] at hexec
  split_ifs at hexec <;> cases hexec
  · exact .inr rfl
  · exact .inl rfl
  · exact .inr rfl

/-- An `OCAS` whose comparison is unequal ends with CONFLICT and gives the word as it is (R40). -/
theorem State.opOcas_unequal {s : State} {cls sel : Nat} {r : ObjReq} (hexists : s.objExists cls sel) (hlen : r.b 1 0 16 < s.imageLen cls sel)
    (hmask : rwMask cls (r.b 1 0 16) ≠ 0) (hold : s.imageWord cls sel (r.b 1 0 16) ≠ r.w 2) :
    s.opOcas cls sel r = ⟨.conflict, s.afterRead cls sel (r.b 1 0 16), some (s.imageWord cls sel (r.b 1 0 16)), [], none⟩ := by
  simp [State.opOcas, hexists, Nat.not_le.2 hlen, hmask, hold]

end Sys2Proof.Machine
end

section
/-! The obligation on rods and statuses. -/

namespace Sys2Proof
open Machine

/-- Settles O50, from the rods that a result leaves and from what every object instruction answers. -/
theorem rodsAndStatuses : Obligations.RodsAndStatuses := by
  unfold Obligations.RodsAndStatuses
  refine ⟨?accepted, ?started, fun p v => ⟨p.rod_zero, p.setRod_zero v⟩, ?result, ?cont, ?other, ?unequal, ?inUse⟩
  case accepted =>
    intro s src via desc index irq level view dev ws
    refine ⟨_, rfl, fun k => ?_⟩
    simp only [Prog.rod]
    split
    · rfl
    · simp only [List.getD_eq_getElem?_getD, List.getElem?_replicate]
      split <;> rfl
  case started =>
    intro id s t p hprog hphase habort hexec
    rcases execProgramStart_waiting hprog hphase habort hexec with rfl | rfl
    · exact ⟨_, State.prog_upd hprog fun _ => rfl, rfl⟩
    · exact ⟨p, hprog, rfl⟩
  case result => exact fun p r st dst hp => ⟨Prog.rod_result_status hp r st dst, fun _ => Prog.rod_result hp r st dst⟩
  case cont => exact fun id s p r st dst => State.prog_objFail_cont st dst
  case other =>
    intro s r hst hdst
    cases s.applyObj_answers r with
    | plain h =>
      cases h with
      | done hok => exact absurd hok hst
      | refused _ hnone => exact absurd hnone hdst
    | unequal hop h => exact .inl ⟨hop, h⟩
    | inUse hop h => exact .inr ⟨hop, h⟩
  case unequal =>
    intro s cls sel r hexists hlen hmask hold
    rw [State.opOcas_unequal hexists hlen hmask hold]
    exact ⟨rfl, rfl⟩
  case inUse =>
    intro s t r hst
    rcases s.opResize_cases t r with ⟨-, hnores, hconflict⟩ | ⟨-, huse⟩
    · exact absurd hst (not_or.2 ⟨hnores, hconflict⟩)
    · exact huse

end Sys2Proof
end

section
/-! SUPPORT. `INJECT` and the time until which it is armed (R60, R361). -/

namespace Sys2Proof.Machine

/-- An injection that is not armed is refused, whatever it names. -/
theorem State.opInject_unarmed {s : State} (harm : s.fld devInjectArmUntil 0 ≤ s.tide) (r : ObjReq) :
    (s.opInject r).status ≠ .ok ∧ (s.opInject r).st = s := by
  unfold State.opInject
  dsimp only
  split_ifs <;> exact ⟨nofun, rfl⟩

/-- An injection into a checker that takes it waits where it is armed, and is denied where it is not. -/
theorem State.opInject_injectable {s : State} {r : ObjReq} (hnum : (r.w 0).toNat < 16777216) (hexists : checkerExists (r.w 0).toNat)
    (htakes : checkerInjectable (r.w 0).toNat) (hmode : r.b 1 16 2 < 2) (hcount : r.b 1 0 16 ≠ 0) :
    s.opInject r = if s.tide < s.fld devInjectArmUntil 0
      then opOk { s with faults := { s.faults with injections := s.faults.injections ++ [⟨(r.w 0).toNat, r.b 1 16 2, r.b 1 0 16, true⟩] } } []
      else opBad s .denied := by
  by_cases harm : s.tide < s.fld devInjectArmUntil 0
  · simp [State.opInject, Nat.not_le.2 hnum, hexists, htakes, Nat.not_le.2 hmode, hcount, harm, Nat.not_le.2 harm]
  · simp [State.opInject, Nat.not_le.2 hnum, hexists, htakes, Nat.not_le.2 hmode, hcount, harm, Nat.not_lt.1 harm]

/-- `INJECT` names no object, so it records no version. -/
theorem addRecorded_inject {s : State} {r : ObjReq} (hinject : r.inject) (rs : List (Nat × Nat)) (o : OpRes) :
    addRecorded s rs (s.touched r o) = rs := by
  simp [State.touched, hinject, addRecorded]

/-- An `INJECT` in a transaction is evaluated over what earlier commits have armed, and one that is denied ends its program. -/
theorem State.stageObj_inject_denied {s : State} {p : Prog} {r : ObjReq} (hop : r.op = 0x70) (hdenied : (s.applyObj r).status = .denied)
    (hcont : fCont r.iflags = false) (hrecorded : p.recorded.length ≤ 1024) :
    ∃ u : State, s.stageObj p r = u.endProg p.id .denied := by
  have hinject : r.inject := decide_eq_true hop
  have hchange : isChange r.op := by rw [hop]; decide
  simp only [State.stageObj, hinject, hchange, addRecorded_inject hinject, if_true, Nat.not_lt.2 hrecorded, if_false, hdenied, State.objFail,
    hcont, Bool.false_eq_true]
  exact ⟨_, rfl⟩

/-! ### The write of `Device.InjectArmUntil` -/

/-- An `OWRITE` of the whole word of `InjectArmUntil`. -/
def ObjReq.writesArm (r : ObjReq) : Prop := r.b 1 0 16 = 13 ∧ (r.w 3).toNat = 2 ^ 64 - 1

/-- The word that it writes. -/
def armWritten (r : ObjReq) : Written := ⟨13, r.w 2, BitVec.allOnes 64⟩

theorem State.opOwrite_arm {s : State} {r : ObjReq} (harm : r.writesArm) : s.opOwrite cDevice 0 r = s.writeOp cDevice 0 [armWritten r] := by
  obtain ⟨hword, hmask⟩ := harm
  have hones : r.w 3 = BitVec.allOnes 64 := BitVec.eq_of_toNat_eq (by rw [hmask]; rfl)
  have hexists : s.objExists cDevice 0 = true := rfl
  have hlen : s.imageLen cDevice 0 = 42 := rfl
  have hrw : rwMask cDevice 13 = 0xFFFFFFFFFFFFFFFF := rfl
  have hid : fabricIdTooHigh cDevice 13 (r.w 2) (BitVec.allOnes 64) = false := rfl
  rw [State.opOwrite, hexists, hword, hlen, hrw, hones, hid]
  rfl

theorem State.newWord_arm (s : State) (r : ObjReq) : s.newWord cDevice 0 (armWritten r) = r.w 2 := by
  rw [State.newWord, armWritten, BitVec.not_allOnes, BitVec.and_zero, BitVec.zero_or, BitVec.and_allOnes]

/-- The field is the whole word. -/
theorem devInjectArmUntil_of (w : Word) : devInjectArmUntil.of w = w.toNat := by
  have hw : w.toNat < 2 ^ 64 := w.isLt
  rw [Fld.of, devInjectArmUntil, bitsOf, Nat.pow_zero, Nat.div_one, Nat.mod_eq_of_lt hw]

/-- The write stores the word as it is. -/
theorem State.storeWords_arm (s : State) (r : ObjReq) : s.storeWords cDevice 0 [armWritten r] = s.putWord cDevice 0 13 (r.w 2) := by
  rw [State.storeWords, List.foldl_cons, List.foldl_nil, State.newWord_arm]
  rfl

theorem firstStatus_singleton (st : Status) : firstStatus [st] = st := by
  cases st <;> rfl

/-- The rule of R60 on a new value: at most 60 s ahead of tide. -/
theorem State.checkWords_arm (s : State) (r : ObjReq) :
    s.checkWords cDevice 0 [armWritten r] = needs (decide ((r.w 2).toNat ≤ s.tide + 60000000000)) := by
  rw [State.checkWords, List.map_cons, List.map_nil, State.newWord_arm, State.storeWords_arm, firstStatus_singleton, ← devInjectArmUntil_of]
  rfl

/-- The written word does nothing else. -/
theorem State.applyWords_arm (s : State) (r : ObjReq) : s.applyWords cDevice 0 [armWritten r] = s.putWord cDevice 0 13 (r.w 2) := by
  rw [State.applyWords, List.foldl_cons, List.foldl_nil, State.storeWords_arm]
  rfl

/-- A value more than 60 s ahead of tide is refused with BADOP (R60). -/
theorem State.opOwrite_arm_tooLate {s : State} {r : ObjReq} (harm : r.writesArm) (hlate : s.tide + 60000000000 < (r.w 2).toNat) :
    s.opOwrite cDevice 0 r = opBad s .badop := by
  rw [State.opOwrite_arm harm, State.writeOp, State.checkWords_arm, needs, if_neg (by simpa using hlate)]

/-- A value at most 60 s ahead of tide takes effect (R60). -/
theorem State.opOwrite_arm_inTime {s : State} {r : ObjReq} (harm : r.writesArm) (htime : (r.w 2).toNat ≤ s.tide + 60000000000) :
    (s.opOwrite cDevice 0 r).status = .ok ∧ (s.opOwrite cDevice 0 r).st = s.putWord cDevice 0 13 (r.w 2) := by
  rw [State.opOwrite_arm harm, State.writeOp, State.checkWords_arm, needs, if_pos (decide_eq_true htime)]
  exact ⟨rfl, s.applyWords_arm r⟩

theorem State.base_arm_putWord {s : State} (hs : s.wf) (w : Word) : (s.putWord cDevice 0 13 w).base devInjectArmUntil 0 = w.toNat := by
  rw [← devInjectArmUntil_of]
  exact congrArg devInjectArmUntil.of (State.baseWord_putWord_same hs cDevice 0 13 w)

end Sys2Proof.Machine
end

section
/-! The obligation on injections. -/

namespace Sys2Proof
open Machine

/-- Settles O51, from the time that arms an `INJECT` and from the write of that time. -/
theorem injectionNeedsArming : Obligations.InjectionNeedsArming := by
  unfold Obligations.InjectionNeedsArming
  refine ⟨fun _ r harm => State.opInject_unarmed harm r, fun _ _ => State.opInject_injectable,
    fun _ _ _ => State.stageObj_inject_denied, ?tooLate, ?inTime⟩
  case tooLate => exact fun s r hword hmask => State.opOwrite_arm_tooLate ⟨hword, hmask⟩
  case inTime =>
    intro s r hs hword hmask htime
    obtain ⟨hok, hst⟩ := State.opOwrite_arm_inTime ⟨hword, hmask⟩ htime
    exact ⟨hok, hst ▸ State.base_arm_putWord hs (r.w 2)⟩

end Sys2Proof
end

section
/-! SUPPORT. The logbook's mirror, its copies and its exports: what each command answers where its conditions hold (R71, R75, R76). -/

namespace Sys2Proof.Machine

/-! ### The registers of the mirror (R75) -/

section
variable {v : ViewId} {value : BitVec 32} {s : State} (hlive : s.viewLive v.val)
include hlive

/-- `Mode` 0 stops the mirror, and the entries that it had still to write are dropped. -/
theorem execLbMirrorCtrlWrite_stop (hmode : bitsOf (word value.toNat) 8 2 = 0) :
    execLbMirrorCtrlWrite v value s = .next (
      let s1 := (s.setReg v.val 0x114 (word (bitsOf (word value.toNat) 0 5))).setRegBits v.val 0x120 0 1 0
      { s1 with log := { s1.log with mirrorQ := s1.log.mirrorQ.filter (fun e => decide (e.1 ≠ v)) } }) := by
  simp [execLbMirrorCtrlWrite, hlive, hmode]

/-- A mode that mirrors, with a ring size in range, starts a stopped mirror with `Skipped` at 0. -/
theorem execLbMirrorCtrlWrite_start
    (hmode : bitsOf (word value.toNat) 8 2 = 1 ∨ bitsOf (word value.toNat) 8 2 = 2) (hmin : 8 ≤ bitsOf (word value.toNat) 0 5)
    (hmax : bitsOf (word value.toNat) 0 5 ≤ 20) (hstopped : s.mirrorMode v.val = 0) :
    execLbMirrorCtrlWrite v value s = .next (((s.setReg v.val 0x114
      (word (bitsOf (word value.toNat) 8 2 * 256 + bitsOf (word value.toNat) 0 5))).setRegBits v.val 0x120 0 1 1).setRegBits
        v.val 0x120 16 16 0) := by
  have hon : bitsOf (word value.toNat) 8 2 ≠ 0 := by omega
  have hvalid : bitsOf (word value.toNat) 8 2 ≠ 3 := by omega
  simp [execLbMirrorCtrlWrite, hlive, hon, hvalid, Nat.not_lt.2 hmin, Nat.not_lt.2 hmax, hstopped]

/-- A reserved mode, or a ring size out of range, is ignored whole. -/
theorem execLbMirrorCtrlWrite_invalid (hmode : bitsOf (word value.toNat) 8 2 ≠ 0)
    (hbad : bitsOf (word value.toNat) 8 2 = 3 ∨ bitsOf (word value.toNat) 0 5 < 8 ∨ 20 < bitsOf (word value.toNat) 0 5) :
    execLbMirrorCtrlWrite v value s = .next (s.mirrorError v.val) := by
  have hrefused (p : Prop) :
      bitsOf (word value.toNat) 8 2 = 3 ∨ bitsOf (word value.toNat) 0 5 < 8 ∨ 20 < bitsOf (word value.toNat) 0 5 ∨ p := by
    tauto
  simp only [execLbMirrorCtrlWrite, hlive, hmode, if_false, if_pos (hrefused _), Bool.not_true, Bool.false_eq_true]

theorem execLbMirrorBaseWrite_stopped (hstopped : s.mirrorMode v.val = 0) (value : Word) :
    execLbMirrorBaseWrite v value s = .next (s.setReg v.val 0x118 (word (value.toNat / 4096 * 4096))) := by
  simp [execLbMirrorBaseWrite, hlive, hstopped]

theorem execLbMirrorBaseWrite_mirroring (hmirrors : s.mirrorMode v.val ≠ 0) (value : Word) :
    execLbMirrorBaseWrite v value s = .next (s.mirrorError v.val) := by
  simp [execLbMirrorBaseWrite, hlive, hmirrors]

end

/-! ### Copies and mirrored entries (R71, R75) -/

theorem execLogbookSdramCopy_oldest {s : State} {n : Nat} {rest : List Nat} (hcopies : s.log.pendingCopy = n :: rest)
    (hpower : s.power.phase ≠ .off) (hawake : s.sdram.selfRefresh = false) :
    execLogbookSdramCopy s = .next { s.sdramAccess .logbook (n % ringEntries) true with log := { s.log with pendingCopy := rest } } := by
  simp [execLogbookSdramCopy, hcopies, hpower, hawake]

section
variable {v : ViewId} {s : State} {e : ViewId × Nat} (hrun : s.running)
  (holdest : s.log.mirrorQ.find? (fun e => decide (e.1 = v)) = some e)
include hrun holdest

/-- The entry goes to its place of the ring. -/
theorem execMirrorWrite_delivered {n : LogEntry} (hup : s.viewUp v.val) (hentry : s.entry e.2 = some n) :
    execMirrorWrite v true s = .next (({ s with log := { s.log with mirrorQ := s.log.mirrorQ.erase e } } : State).hostWrite 0xFFFF v.val
      (s.mirrorAddr v.val e.2) n.words) := by
  simp [execMirrorWrite, holdest, hrun, hup, hentry]

/-- The entry is dropped, counted and announced. -/
theorem execMirrorWrite_skipped (hroom : s.regBits v.val 0x120 16 16 ≠ 65535) :
    execMirrorWrite v false s = .next (((({ s with log := { s.log with mirrorQ := s.log.mirrorQ.erase e } } : State).setRegBits
      v.val 0x120 16 16 (s.regBits v.val 0x120 16 16 + 1)).tallyCount 16).msix v.val 3) := by
  simp [execMirrorWrite, holdest, hrun, hroom]

end

/-! ### Exports (R76) -/

/-- `Go` begins to copy the entries that still stand, and says whether the first one asked for is gone. -/
theorem execLbExportGo_starts {v : ViewId} {value : BitVec 32} {s : State} (hlive : s.viewLive v.val)
    (hgo : bitsOf (word value.toNat) 31 1 = 1) (hidle : s.exportOf v = none) (hmin : 1 ≤ bitsOf (word value.toNat) 0 21)
    (hmax : bitsOf (word value.toNat) 0 21 ≤ 1048576) :
    execLbExportGo v value s = .next (
      let first := (s.reg v.val 0x130).toNat
      let s0 := ((s.setRegBits v.val 0x138 30 1 0).setRegBits v.val 0x138 29 1 0).setRegBits v.val 0x138 27 1 0
      let s1 := ((s0.setRegBits v.val 0x138 0 21 0).setRegBits v.val 0x138 31 1 1).setRegBits v.val 0x138 30 1 (bit (first < s.logOldest))
      { s1 with log := { s1.log with exportJobs := s1.log.exportJobs ++ [⟨v, max first s.logOldest,
        max (max first s.logOldest) (min (first + bitsOf (word value.toNat) 0 21) (s.log.head + 1)), max first s.logOldest, 0, s.now⟩] } }) := by
  have hcount : bitsOf (word value.toNat) 0 21 ≠ 0 := by omega
  simp [execLbExportGo, hlive, hgo, hidle, hcount, Nat.not_lt.2 hmax]

/-- Where all numbers are covered, `Go` is over without an error. -/
theorem execExportEnd_whole {v : ViewId} {n : Nat} {s u : State} {j k : ExportJob} (hrun : s.running) (hlive : s.viewLive v.val)
    (hjob : s.exportOf v = some j) (hwhole : j.start + n = j.stop) (hcovers : State.exportSome j (j.start + n - j.next) s = (u, k))
    (hnext : k.next = j.stop) :
    execExportEnd v n false s = .next (
      let s1 : State := { u with log := { u.log with exportJobs := u.log.exportJobs.filter (fun x => decide (x.view ≠ v)) } }
      (((s1.setRegBits v.val 0x138 31 1 0).setRegBits v.val 0x138 29 1 0).setRegBits v.val 0x138 27 1 0).msix v.val 3) := by
  rw [hwhole] at hcovers
  simp [execExportEnd, hjob, hwhole, hcovers, hrun, hlive, hnext, bit]

end Sys2Proof.Machine
end

section
/-! The obligation on the logbook's mirror, copies and exports. -/

namespace Sys2Proof
open Machine

/-- Settles O21, one clause for each write of a register, each copy, each end of a mirrored entry, and the two ends of copying out. -/
theorem logbookCopiesMirrorsAndExports : Obligations.LogbookCopiesMirrorsAndExports := by
  unfold Obligations.LogbookCopiesMirrorsAndExports
  exact ⟨fun _ _ _ => execLbMirrorCtrlWrite_stop, fun _ _ _ => execLbMirrorCtrlWrite_start, fun _ _ _ => execLbMirrorCtrlWrite_invalid,
    fun _ value _ hlive hstopped => execLbMirrorBaseWrite_stopped hlive hstopped value,
    fun _ value _ hlive hmirrors => execLbMirrorBaseWrite_mirroring hlive hmirrors value,
    fun _ _ _ => execLogbookSdramCopy_oldest, fun _ _ _ _ hrun hup holdest => execMirrorWrite_delivered hrun holdest hup,
    fun _ _ _ => execMirrorWrite_skipped, fun _ _ _ => execLbExportGo_starts, fun _ _ _ _ _ _ => execExportEnd_whole⟩

end Sys2Proof
end

section
/-! SUPPORT. Object instructions other than `OVERLAY` leave the overlay store and the overlay in effect as they are (R84, R85). -/

namespace Sys2Proof.Machine

/-- An effect that branches keeps what both of its branches keep. -/
theorem Keeps.iteOp {s : State} {c : Prop} [Decidable c] {a b : OpRes} (ha : c → Keeps s a.st) (hb : Keeps s b.st) :
    Keeps s (if c then a else b).st := by
  split
  next h => exact ha h
  next => exact hb

theorem State.runOp_keeps (s : State) (cls sel : Nat) {r : ObjReq} (hop : r.op ≠ 0x60) : Keeps s (s.runOp cls sel r).st :=
  .iteOp (fun _ => s.opOread_keeps ..) <|
  .iteOp (fun _ => s.opOwrite_keeps ..) <|
  .iteOp (fun _ => s.opOcas_keeps ..) <|
  .iteOp (fun _ => s.opPortCfg_keeps ..) <|
  .iteOp (fun _ => s.opPortState_keeps ..) <|
  .iteOp (fun _ => s.opWithdraw_keeps ..) <|
  .iteOp (fun _ => s.opTenant_keeps ..) <|
  .iteOp (fun _ => s.opBind_keeps ..) <|
  .iteOp (fun _ => s.opUnbind_keeps ..) <|
  .iteOp (fun _ => s.opResize_keeps ..) <|
  .iteOp (fun _ => s.opQpctl_keeps ..) <|
  .iteOp (fun _ => s.opRegion_keeps ..) <|
  .iteOp (fun _ => s.opRevoke_keeps ..) <|
  .iteOp (fun _ => s.opCqctl_keeps ..) <|
  .iteOp (fun _ => s.opSlotpwr_keeps ..) <|
  .iteOp (fun _ => s.opBudget_keeps ..) <|
  .iteOp (fun hoverlay => absurd hoverlay hop) <|
  .iteOp (fun _ => s.opSnap_keeps ..) <|
  .iteOp (fun _ => s.opQuery_keeps ..) <|
  .iteOp (fun _ => s.opFaultack_keeps ..) <|
  s.opWords_keeps ..

theorem State.guarded_keeps {s : State} {r : ObjReq} {o : OpRes} (h : Keeps s o.st) : Keeps s (s.guarded r o).st := by
  rw [State.guarded]
  split
  · exact .refl s
  · rwa [State.allChanged_st]

theorem State.applyObj_keeps (s : State) {r : ObjReq} (hop : r.op ≠ 0x60) : Keeps s (s.applyObj r).st := by
  cases hinject : r.inject with
  | true =>
    rw [State.applyObj, if_pos hinject]
    exact .iteOp (fun _ => s.opInject_keeps r) (.refl s)
  | false =>
    rcases s.applyObj_cases hinject with ⟨st, -, hbad⟩ | hrun
    · exact hbad ▸ .refl s
    · exact hrun ▸ State.guarded_keeps (s.runOp_keeps _ _ hop)

/-! ### An instruction where it stands (R45, R46) -/

theorem State.applyNow_stores (s : State) (p : Prog) {r : ObjReq} (hop : r.op ≠ 0x60) : Stores s (s.applyNow p r) := by
  have applied (t : State) : Stores t (t.applyObj r).st := (t.applyObj_keeps hop).toStores
  unfold State.applyNow
  extract_lets o s1 o1
  refine .ite ?failed (.ite ?change ?read)
  case failed => exact (applied s).trans (State.blame_keeps ..).toStores |>.trans (State.objFail_stores ..)
  case change =>
    have logged : Keeps s s1 := (State.tallyCount_keeps ..).trans (State.logEntry_keeps ..)
    exact logged.toStores.trans (applied s1) |>.trans (State.bumpAll_keeps ..).toStores |>.trans (State.settle_keeps ..).toStores
      |>.trans (State.upd_keeps ..).toStores |>.trans (State.afterCommit_keeps ..).toStores
  case read => exact (applied s).trans (State.proceed_keeps ..).toStores

theorem State.readEffects_keeps (s sh : State) {r : ObjReq} (hop : r.op ≠ 0x60) (o : OpRes) : Keeps s (s.readEffects sh r o) := by
  unfold State.readEffects
  extract_lets real
  have read : Keeps s real := .ite (.refl s) (s.applyObj_keeps hop)
  exact read

/-- What a transaction stages changes nothing yet. -/
theorem State.stageObj_stores (s : State) (p : Prog) {r : ObjReq} (hop : r.op ≠ 0x60) : Stores s (s.stageObj p r) := by
  unfold State.stageObj
  extract_lets sh o recs s1 s2
  have evaluated : Keeps s s1 := .ite (State.upFree_keeps ..) (s.readEffects_keeps sh hop o)
  have recorded : Keeps s s2 := evaluated.trans (State.upd_keeps ..)
  refine .ite (evaluated.toStores.trans (State.objFail_stores ..)) (.ite ?_ (recorded.trans (State.proceed_keeps ..)).toStores)
  exact (recorded.trans (State.blame_keeps ..)).toStores.trans (State.objFail_stores ..)

theorem State.objNow_stores (s : State) (p : Prog) {r : ObjReq} (hop : r.op ≠ 0x60) : Stores s (s.objNow p r) :=
  .ite (s.stageObj_stores p hop) (.ite (State.objFail_stores ..) (s.applyNow_stores p hop))

/-- A row of one instruction, where what it does to a program that it takes leaves the overlays alone. -/
theorem State.instrRow_stores_of_want (s : State) (id : Nat) {want : Prog → Bool} {f : State → Prog → State}
    (hf : ∀ t p, want p → Stores t (f t p)) : Ends Stores s (s.instrRow id want f) := by
  unfold State.instrRow
  split
  · exact .next (.refl _)
  next p _ =>
    split
    next htaken =>
      have hwant : want p := (Bool.and_eq_true_iff.1 htaken).2
      exact .next (State.orWait_stores _ _ (.ite (State.endProg_stores ..) ((State.upd_keeps ..).toStores.trans (hf _ _ hwant))))
    next => exact .next (.refl _)

/-- An object row that takes no `OVERLAY`. -/
theorem State.objRow_stores (s : State) (id : Nat) {want : ObjReq → Bool} (image : Option (List Word)) (hwant : ∀ r, want r → r.op ≠ 0x60) :
    Ends Stores s (s.objRow id want image) :=
  s.instrRow_stores_of_want id fun t p htaken =>
    .ite (State.upd_keeps ..).toStores (t.objNow_stores p (hwant p.objReq (Bool.and_eq_true_iff.1 htaken).2))

end Sys2Proof.Machine
end

section
/-! SUPPORT. Resets clear the overlay store and coordination memory, and every command that switches no overlay leaves the overlays alone or
clears them (R89, R195, R406). -/

namespace Sys2Proof.Machine

/-! ### What a reset clears -/

/-- No overlay is stored or in effect, nothing of one is held on a contained object, and every byte of coordination memory is zero. -/
structure Cleared (t : State) : Prop where
  overlays : t.overlays = []
  active : t.activeOverlay = none
  held : t.overlayHeld = []
  memory : t.cm = []

theorem Cleared.overlayFor {t : State} (h : Cleared t) (obj : Nat) : t.overlayFor obj = none := by
  rw [State.overlayFor, h.held, h.active]
  rfl

theorem Cleared.cmByte {t : State} (h : Cleared t) (a : Nat) : t.cmByte a = 0 := by
  rw [State.cmByte, h.memory]
  rfl

theorem Cleared.of_keeps {s t : State} (hs : Cleared s) (h : Keeps s t) (hheld : t.overlayHeld = s.overlayHeld) : Cleared t := by
  obtain ⟨-, hcm, hoverlays, hactive, -⟩ := h
  exact ⟨hoverlays.trans hs.overlays, hactive.trans hs.active, hheld.trans hs.held, hcm.trans hs.memory⟩

theorem Cleared.upPower {s : State} (h : Cleared s) (x : Power) : Cleared (s.upPower x) := ⟨h.overlays, h.active, h.held, h.memory⟩

theorem State.putWords_overlayHeld (s : State) (cls sel w : Nat) (vs : List Word) : (s.putWords cls sel w vs).overlayHeld = s.overlayHeld := by
  induction vs generalizing s w with
  | nil => rfl
  | cons v vs ih => exact ih ..

theorem State.keepSlot_overlayHeld (old s : State) (n : Nat) : (State.keepSlot old s n).overlayHeld = s.overlayHeld := by
  simp only [State.keepSlot, State.putWords_overlayHeld, State.put_overlayHeld]

theorem State.keepSlots_overlayHeld (old s : State) (ns : List Nat) : (State.keepSlots old s ns).overlayHeld = s.overlayHeld := by
  induction ns generalizing s with
  | nil => rfl
  | cons n ns ih =>
    unfold State.keepSlots
    exact (ih _).trans (State.keepSlot_overlayHeld old s n)

theorem State.keepLanes_overlayHeld (old s : State) : (State.keepLanes old s).overlayHeld = s.overlayHeld :=
  foldl_gives (fun t => t.overlayHeld = s.overlayHeld) _ _ s (fun _ _ h => h) rfl

theorem State.contain_overlayHeld (s : State) (id : Nat) (t : ContTarget) : (s.contain id t).overlayHeld = s.overlayHeld := by
  rw [State.contain]
  split <;> rfl

theorem State.keepRetired_overlayHeld (s : State) (cs : List (Nat × ContTarget)) : (s.keepRetired cs).overlayHeld = s.overlayHeld := by
  induction cs generalizing s with
  | nil => rfl
  | cons c cs ih =>
    obtain ⟨id, t⟩ := c
    cases t with
    | resource c =>
      rw [State.keepRetired, ih]
      have contained := s.contain_overlayHeld id (.resource c)
      split_ifs <;> exact contained
    | _ => exact ih s

/-- What outlives a device reset brings back nothing that is cleared (Table 13-6). -/
theorem Cleared.keepOver {t : State} (h : Cleared t) (old : State) (ns : List Nat) (cs : List (Nat × ContTarget)) :
    Cleared ((State.keepLanes old (State.keepSlots old t ns)).keepRetired cs) := by
  have slots := h.of_keeps (State.keepSlots_keeps old t ns) (State.keepSlots_overlayHeld ..)
  have lanes := slots.of_keeps (State.keepLanes_keeps old _) (State.keepLanes_overlayHeld ..)
  exact lanes.of_keeps (State.keepRetired_keeps ..) (State.keepRetired_overlayHeld ..)

theorem State.reinit_cleared (s : State) : Cleared s.reinit :=
  Cleared.keepOver ⟨rfl, rfl, rfl, rfl⟩ s allSlots s.faults.contained

theorem State.deviceReset_cleared (s : State) (cause : Nat) (held : Bool) : Cleared (s.deviceReset cause held) :=
  (State.reinit_cleared _).upPower _

theorem State.unpowered_cleared (s : State) : Cleared s.unpowered := ⟨rfl, rfl, rfl, rfl⟩

/-- What PWR_OK leaves as it rises. -/
def State.poweredUp (s : State) (straps : Straps) : State :=
  s.unpowered.slotsCold.upPower { s.unpowered.power with
    phase := if straps.devRstHigh then .starting else .held, devRstN := straps.devRstHigh, pwrOk := true, straps := straps }

theorem execColdReset_off {s : State} (hoff : s.power.phase = .off) (straps : Straps) :
    execColdReset straps s = .next (s.poweredUp straps) := by
  rw [execColdReset, if_pos hoff]
  rfl

theorem State.poweredUp_cleared (s : State) (straps : Straps) : Cleared (s.poweredUp straps) :=
  (s.unpowered_cleared.of_keeps (State.slotsCold_keeps ..) rfl).upPower _

/-- Versions start at 0 (R44). -/
theorem State.poweredUp_version (s : State) (straps : Straps) (obj : Nat) : (s.poweredUp straps).version obj = 0 := rfl

/-! ### The ways into a device reset (R341, R342, R355) -/

theorem execDeviceReset_requested {s : State} (hrun : s.running) (hready : s.resetReady) :
    execDeviceReset s = .next (s.deviceReset 2 false) := by
  simp [execDeviceReset, hrun, hready]

theorem execDeviceReset_pin {s : State} (hphase : s.power.phase = .ready) (hready : s.resetReady = false) :
    execDeviceReset s = .next (({ s with power := { s.power with devRstN := false } } : State).deviceReset 1 true) := by
  simp [execDeviceReset, hready, hphase]

theorem execHaltRestartTimeout_due {s : State} {due : Nat} (hdue : s.power.haltDue = some due) (hphase : s.power.phase = .halted)
    (htime : due ≤ s.now) : execHaltRestartTimeout s = .next (s.deviceReset 3 false) := by
  simp [execHaltRestartTimeout, hdue, hphase, htime]

/-! ### Every command but those of `OVERLAY` and the commits -/

/-- The overlay store and the overlay in effect stay as they are, or both are cleared. -/
def KeptOrCleared (s t : State) : Prop :=
  (t.overlays = s.overlays ∧ t.activeOverlay = s.activeOverlay) ∨ (t.overlays = [] ∧ t.activeOverlay = none)

theorem Stores.keptOrCleared {s t : State} (h : Stores s t) : KeptOrCleared s t := by
  obtain ⟨-, -, hoverlays, hactive, -⟩ := h
  exact .inl ⟨hoverlays, hactive⟩

theorem Keeps.keptOrCleared {s t : State} (h : Keeps s t) : KeptOrCleared s t := h.toStores.keptOrCleared

theorem Cleared.keptOrCleared {t : State} (h : Cleared t) (s : State) : KeptOrCleared s t := .inr ⟨h.overlays, h.active⟩

theorem KeptOrCleared.ite {c : Prop} [Decidable c] {s a b : State} (ha : KeptOrCleared s a) (hb : KeptOrCleared s b) :
    KeptOrCleared s (if c then a else b) := by
  split <;> assumption

theorem Ends.mono {R R' : State → State → Prop} {s : State} {o : Host.Outcome State Fault Refusal} (h : Ends R s o)
    (hR : ∀ t, R s t → R' s t) : Ends R' s o := ⟨fun t e => hR t (h.of_next t e)⟩

theorem Ends.keptOrCleared_of_keeps {s : State} {o : Host.Outcome State Fault Refusal} (h : Ends Keeps s o) : Ends KeptOrCleared s o :=
  h.mono fun _ => Keeps.keptOrCleared

theorem Ends.keptOrCleared_of_stores {s : State} {o : Host.Outcome State Fault Refusal} (h : Ends Stores s o) : Ends KeptOrCleared s o :=
  h.mono fun _ => Stores.keptOrCleared

theorem execColdReset_keptOrCleared (straps : Straps) (s : State) : Ends KeptOrCleared s (execColdReset straps s) := by
  by_cases hoff : s.power.phase = .off
  · exact execColdReset_off hoff straps ▸ .next ((s.poweredUp_cleared straps).keptOrCleared s)
  · rw [execColdReset, if_neg hoff]
    exact .next (Keeps.refl s).keptOrCleared

theorem execDeviceReset_keptOrCleared (s : State) : Ends KeptOrCleared s (execDeviceReset s) := by
  have reset (u : State) (cause : Nat) (held : Bool) : KeptOrCleared s (u.deviceReset cause held) :=
    (u.deviceReset_cleared cause held).keptOrCleared s
  have kept (x : Power) : KeptOrCleared s (s.upPower x) := (s.upPower_keeps x).keptOrCleared
  unfold execDeviceReset
  extract_lets low
  refine .ite (.next (reset ..)) ?_
  split
  · exact .next (kept _)
  · exact .next (kept _)
  · exact .next (kept _)
  · exact .next (.ite (reset ..) (kept _))
  · exact .next (reset ..)
  · exact .next (reset ..)
  · exact .next (reset ..)
  · exact .next (reset ..)

theorem execPwrOkFall_keptOrCleared (s : State) : Ends KeptOrCleared s (execPwrOkFall s) :=
  .ite (.next (Keeps.refl s).keptOrCleared) (.next ((State.unpowered_cleared _).keptOrCleared s))

theorem execHaltRestartTimeout_keptOrCleared (s : State) : Ends KeptOrCleared s (execHaltRestartTimeout s) := by
  unfold execHaltRestartTimeout
  split
  · exact .next (Keeps.refl s).keptOrCleared
  · exact .next (.ite ((State.deviceReset_cleared ..).keptOrCleared s) (Keeps.refl s).keptOrCleared)

/-- Object rows leave the overlays alone where they take no `OVERLAY`, resets clear them, and all other rows keep or store. -/
theorem exec_keptOrCleared {c : Instr} (hc : switchesOverlays c = false) (s : State) : Ends KeptOrCleared s (exec c s) := by
  unfold exec
  cases c with
  | overlayStore _ _ | overlayApply _ | overlayRemove _ | overlayDelete _ | commit _ | unbindDrainDone _ => cases hc
  | oread _ | owrite _ | ocas _ | portCfg _ | portStateEnable _ | portStateDisable _ | portStateRetrain _ | portStateHotReset _
  | portStateOutOfService _ | portStateBackInService _ | route _ | pathGrp _ | withdraw _ | withdrawRestore _ | tenantCreate _
  | tenantDelete _ | tenantSuspend _ | tenantResume _ | tenantReset _ | bindFn _ | unbindFn _ | gateSet _ | resizeQuota _ | meter _ | sched _
  | qpCreate _ | qpModify _ | qpFlush _ | qpDestroy _ | region _ | revoke _ | cqCreate _ | cqDestroy _ | cqResize _ | slotPwrOff _
  | slotPwrOn _ | slotPwrCycle _ | slotPwrLimits _ | budget _ | snap _ | query _ | inject _ | faultAck _ | deviceFabricIdWrite _
  | deviceResetRequest _ | orderlyPowerDown _ | injectArmWrite _ | bankTargetState _ | bankTest _ | laneTargetState _ | laneTestConfig _
  | laneClearCheck _ | marginGo _ | laneTapWrite _ | slotTest _ | slotTargetState _ | slotAutoOnSet _ | slotClearEnergy _ | slotPeakClear _
  | feedTargetState _ | meterClearCounts _ | schedqMaxClear _ | tempPeakReset _ | tideSourceSet _ | sdramOutOfService _ | hostViewWrite _
  | slotRangeWrite _ | snapshotSetWrite _ | telemetryRingWrite _ | rxPoolWrite _ =>
    exact .keptOrCleared_of_stores (State.objRow_stores _ _ _ fun r htaken hoverlay => by simp [hoverlay] at htaken)
  | jmp _ | bz _ | bnz _ | blt _ => exact .keptOrCleared_of_stores (State.branchRow_stores ..)
  | ldi _ | mov _ | add _ | sub _ | andOp _ | orOp _ | xorOp _ | shl _ | shr _ | cmp _ => exact .keptOrCleared_of_stores (State.rodRow_stores ..)
  | coldReset _ => exact execColdReset_keptOrCleared ..
  | deviceReset => exact execDeviceReset_keptOrCleared s
  | pwrOkFall => exact execPwrOkFall_keptOrCleared s
  | haltRestartTimeout => exact execHaltRestartTimeout_keptOrCleared s
  | _ => simp only [Ends.keptOrCleared_of_keeps, Ends.keptOrCleared_of_stores,
      execTqTailDoorbell_keeps, execTqSizeWrite_keeps, execTqBaseWrite_keeps, execTqAbortGo_stores, execRegisterWrite_keeps,
      execProgramFetchComplete_keeps, execProgramStart_stores, execInstructionLimitTimeout_stores, execNop_stores, execHalt_stores,
      execBeginTx_stores, execAbort_stores, execAtTide_stores, execWaitTide_stores, execParkedProgramDue_stores, execSyncCommits_stores,
      execSyncQueue_stores, execSyncComplete_stores, execLogNote_stores, execTenantResetEnd_stores, execUnbindDrainTimeout_stores,
      execRevokeComplete_keeps, execBankTestEnd_keeps, execBankDrained_keeps, execPrbsCheckLock_keeps, execMarginDone_keeps,
      execSlotTestEnd_keeps, execSdramMigrationDone_keeps, execTallyFwdReceived_keeps, execTallyFragmentTimeout_keeps,
      execTallyAcceptReceived_keeps, execTallyResultReceived_stores, execForwardAcceptTimeout_stores, execLbMirrorCtrlWrite_keeps,
      execLbMirrorBaseWrite_keeps, execLogbookSdramCopy_keeps, execMirrorWrite_keeps, execLbExportGo_keeps, execExportEnd_keeps,
      execBaseConfiguration_keeps, execBaseDone_keeps, execPacketReceived_keeps, execHeldPacketReevaluate_keeps, execEgressPacketBegin_keeps,
      execCrossbarSecondRead_keeps, execCutThroughPause_keeps, execCutThroughResume_keeps, execPacketCellsFreed_keeps,
      execFreeListAuditPass_keeps, execCongestionUpdate_keeps, execEqualWeightPeriodEnd_keeps, execSendRecordSilenceClose_keeps,
      execReorderPacketArrival_keeps, execGapTimerExpiry_keeps, execReceiveRecordSilenceFree_keeps, execTeardownReceived_keeps,
      execFabricPortFailure_keeps, execWithdrawMessageReceived_keeps, execReplayResend_keeps, execSpilledResend_keeps,
      execAutoRestoreExpiry_keeps, execCompletionReceived_keeps, execEdgeLinkDownClose_keeps, execRemoteCmReadTimeout_keeps,
      execPresenceMessageReceived_keeps, execBindNoticeReceived_keeps, execBindConfirmReceived_keeps, execBindResetReceived_keeps,
      execDeliveryReceived_keeps, execMeterEpochEnd_keeps, execSampleInstant_keeps, execTelemetryHostWrite_keeps, execFlrCompletionPoll_keeps,
      execFlrTimeout_keeps, execDevicePortPresenceLoss_keeps, execFunctionEnumerated_keeps, execCmPostedWrite_stores,
      execHeldStoreApplied_stores, execCmRead_stores, execReservedLoad_stores, execConditionalStoreApplied_stores, execReservationExpiry_keeps,
      execCmAtomicOp_stores, execTrackedWriteVisible_keeps, execCmBarrier_keeps, execBarrierComplete_keeps, execCmBarrierStatusRead_keeps,
      execBarrierStatusHoldExpiry_keeps, execCmScStatusRead_keeps, execTideNowRead_keeps, execDoorbellSend_keeps, execDoorbellRecv_keeps,
      execDoorbellCqArm_keeps, execDoorbellCqConsumer_keeps, execWorkRequestStart_keeps, execContextMissFill_keeps,
      execLighterPacketSend_keeps, execLighterRequestReceived_keeps, execTranslationComplete_keeps, execAckSend_keeps, execAckReceived_keeps,
      execLighterResponseReceived_keeps, execNakReceived_keeps, execRetransmissionTimerExpiry_keeps, execWorkRequestCommit_keeps,
      execFenceResponseReady_keeps, execInvalidateRequest_keeps, execFlitReceived_keeps, execReplayRequestReceived_keeps,
      execInitReceived_keeps, execCreditTimeout_keeps, execErrorWindowEnd_keeps, execFastRetrainStart_keeps, execRetrainTimeout_keeps,
      execInitTimeout_keeps, execHeldTimerExpiry_keeps, execResizeReqReceived_keeps, execResizeAckReceived_keeps, execResizeNakReceived_keeps,
      execResizePauseTimeout_keeps, execLinkDrainEnd_keeps, execReplaySpill_keeps, execTideSyncSend_keeps, execTideSyncReceived_keeps,
      execTideFollowReceived_keeps, execTideDreqReceived_keeps, execTideDrespReceived_keeps, execTideMeasurement_keeps,
      execTideSourceLoss_keeps, execScheduledEventFire_keeps, execMarkerReceived_keeps, execLaneLossOfLock_keeps, execSteerLimitExpiry_keeps,
      execBringUpAttemptFail_keeps, execLanesAligned_keeps, execLaneGrant_keeps, execCalibrationPassDue_keeps,
      execCalibrationRequestTimeout_keeps, execCalibrationEnd_keeps, execCalibrationWindow_keeps, execPerstNChange_keeps,
      execHostPortDetect_keeps, execConfigRequest_stores, execUnsupportedRequest_keeps, execHostLinkDownViewReset_keeps,
      execFunctionLevelReset_keeps, execFlrEnd_keeps, execSecondaryBusReset_keeps, execDpcTrigger_keeps, execDpcRelease_keeps,
      execCompletionTimeout_keeps, execTlpNullify_keeps, execPmeTurnOff_stores, execL1Exit_keeps, execL0pWidthChange_keeps,
      execMctpMessage_keeps, execClockInputLoss_keeps, execRefclkReturn_keeps, execManagementPathReady_keeps, execDevRstNRise_keeps,
      execFaultEvent_stores, execMergeQuietClose_keeps, execLeakDecrement_keeps, execFaultLogWrite_keeps, execLockstepMismatch_stores,
      execInjectionExpiry_keeps, execThermalTrip_keeps, execOverTemperature_keeps, execRailOutOfRange_keeps, execWearGaugeComparison_keeps,
      execPresenceDebounced_keeps, execPresenceLost_keeps, execDwellElapsed_keeps, execSlotGrant_keeps, execPowerGood_keeps,
      execPerstDelayEnd_keeps, execRampLimitTimeout_keeps, execCurrentLimitEnter_keeps, execFaultTimerExpiry_keeps, execBreakerFire_keeps,
      execInputUndervoltage_keeps, execRetryCountReset_keeps, execOrderlyOffGate_keeps, execAttentionRequest_keeps, execFeedReverseBlock_keeps,
      execFeedInputOutOfRange_keeps, execMeasurementPublish_keeps, execMeasurementSample_keeps, execSnapshotCapture_keeps,
      execSnapshotBufferWritten_keeps, execCounterUncorrectable_keeps, execCurrentLimitExit_keeps, execFeedConductionStart_keeps,
      execPtmDialogueStart_keeps, execLogicalDeviceResetComplete_keeps, execLinkUpL0_keeps, execTxMarkerBoundary_keeps]

end Sys2Proof.Machine
end

section
/-! The obligation on what resets clear and what switches overlays. -/

namespace Sys2Proof
open Machine

/-- Settles O49: the resets by what they leave, every other command by its row. -/
theorem resetsClearCoordinationMemoryAndOverlays : Obligations.ResetsClearCoordinationMemoryAndOverlays := by
  unfold Obligations.ResetsClearCoordinationMemoryAndOverlays
  refine ⟨?cold, ?device, fun _ hphase hready => ⟨_, execDeviceReset_pin hphase hready⟩, fun _ => execDeviceReset_requested,
    fun _ _ => execHaltRestartTimeout_due, fun _ s t hc hexec => (exec_keptOrCleared hc s).of_next t hexec⟩
  case cold =>
    intro x s t hoff hexec
    obtain rfl := Host.Outcome.next.inj ((execColdReset_off hoff x).symm.trans hexec)
    have cleared := s.poweredUp_cleared x
    exact ⟨cleared.overlays, cleared.active, cleared.overlayFor, cleared.cmByte, s.poweredUp_version x⟩
  case device =>
    intro s cause held
    have cleared := s.deviceReset_cleared cause held
    exact ⟨cleared.overlays, cleared.active, cleared.overlayFor, cleared.cmByte⟩

end Sys2Proof
end

section
/-! SUPPORT. A write of a field leaves every field apart from it alone (R8). -/

namespace Sys2Proof.Machine

/-- A written word keeps every field that lies apart from the one written. -/
theorem bitsOf_setBits_apart (w : Word) {lo width lo' width' : Nat} (v : Nat) (h : lo' + width' ≤ 64)
    (hapart : lo' + width' ≤ lo ∨ lo + width ≤ lo') : bitsOf (setBits w lo width v) lo' width' = bitsOf w lo' width' := by
  apply Nat.eq_of_testBit_eq
  intro j
  simp only [bitsOf, Nat.testBit_mod_two_pow, Nat.testBit_div_two_pow]
  by_cases hj : j < width'
  · have hbit := getLsbD_setBits w lo width v (i := j + lo') (by omega)
    rw [if_neg (by omega), BitVec.getLsbD, BitVec.getLsbD] at hbit
    rw [hbit]
  · simp [hj]

/-- Two fields of a class of objects share no bit. -/
abbrev Fld.Apart (f g : Fld) : Prop :=
  g.cls = f.cls ∧ g.lo + g.width ≤ 64 ∧ (g.word ≠ f.word ∨ g.lo + g.width ≤ f.lo ∨ f.lo + f.width ≤ g.lo)

/-- A write of a field keeps the object's fields that lie apart from it, in the same word or in another. -/
theorem State.base_put_apart {s : State} (hs : s.wf) (f g : Fld) (sel v : Nat) (hapart : f.Apart g) :
    (s.put f sel v).base g sel = s.base g sel := by
  obtain ⟨hcls, hg, hbits⟩ := hapart
  rw [State.base, State.base, State.put, hcls]
  by_cases hword : g.word = f.word
  · rw [hword, State.baseWord_putWord_same hs, bitsOf_setBits_apart _ _ hg (hbits.resolve_left (not_not_intro hword))]
  · have hkey : wkey f.cls sel g.word ≠ wkey f.cls sel f.word := by
      rw [wkey, wkey]
      omega
    rw [State.baseWord_putWord_other s _ hkey]

theorem State.put_wf {s : State} (hs : s.wf) (f : Fld) (sel v : Nat) : (s.put f sel v).wf := (State.put_keeps s f sel v).toSafe.wf hs

end Sys2Proof.Machine
end

section
/-! SUPPORT. Ingress: how a port takes a packet, and how a held packet is taken up again (R92, R94, R102, R320). -/

namespace Sys2Proof.Machine

/-- Where a request or a message from an edge link goes: on, with the poison of a failed ECRC where the port checks it (R320), or back where it routes
nowhere. -/
def State.routedIn (s : State) (p : Nat) (x : PacketIn) (cells : List CellIdx) : Option Packet → State
  | none => (s.countedIn p x).refuseIn (s.arrived p x) .unsupportedRequest
  | some pk =>
    if x.ecrcBad && s.fld portEcrcCheck p = 1 then ((s.countedIn p x).ecrcFails p pk).goOn { pk with poison := true } cells
    else (s.countedIn p x).goOn pk cells

section
variable {p : PortId} {x : PacketIn} {cells : List CellIdx} {s : State}

theorem execPacketReceived_fabric {h : FabHdr} (hbytes : packetWf x.image.length) (htakes : s.takesPackets p.val)
    (hfabric : s.role p.val = roleFabric) (hhdr : x.hdr = some h) :
    exec (.packetReceived p x cells) s = .next ((s.countedIn p.val x).fabricIn p.val x h cells) := by
  show execPacketReceived p x cells s = _
  simp [execPacketReceived, hbytes, htakes, hfabric, hhdr, State.countedIn]

theorem execPacketReceived_completion (hbytes : packetWf x.image.length) (htakes : s.takesPackets p.val) (hedge : s.role p.val ≠ roleFabric)
    (hreq : edgeReq x.req) (hkind : kindOf x.req = .completion) :
    exec (.packetReceived p x cells) s
      = .next ((s.countedIn p.val x).completionIn p.val ⟨x.req, x.tag, x.status, x.image, x.poison, x.written, cells⟩) := by
  show execPacketReceived p x cells s = _
  simp [execPacketReceived, hbytes, htakes, hedge, hreq, hkind, State.countedIn]

theorem execPacketReceived_request (hbytes : packetWf x.image.length) (htakes : s.takesPackets p.val) (hedge : s.role p.val ≠ roleFabric)
    (hreq : edgeReq x.req) (hkind : kindOf x.req ≠ .completion) :
    exec (.packetReceived p x cells) s
      = .next (s.routedIn p.val x cells (if s.role p.val = roleHost then s.fromHost p.val x else s.fromDevice p.val x)) := by
  show execPacketReceived p x cells s = _
  simp only [execPacketReceived, hbytes, htakes, hedge, hreq, hkind, Bool.not_true, Bool.false_eq_true, if_false]
  generalize (if s.role p.val = roleHost then s.fromHost p.val x else s.fromDevice p.val x) = routed
  cases routed with
  | none => rfl
  | some pk => exact (apply_ite Host.Outcome.next ..).symm

end

theorem State.routedIn_sound {s : State} {p : Nat} {x : PacketIn} (pk : Packet) (cells : List CellIdx)
    (hsound : ¬(x.ecrcBad = true ∧ s.fld portEcrcCheck p = 1)) : s.routedIn p x cells (some pk) = (s.countedIn p x).goOn pk cells :=
  if_neg (by simpa using hsound)

theorem State.routedIn_ecrcBad {s : State} {p : Nat} {x : PacketIn} (pk : Packet) (cells : List CellIdx) (hbad : x.ecrcBad = true)
    (hchecks : s.fld portEcrcCheck p = 1) :
    s.routedIn p x cells (some pk) = ((s.countedIn p x).ecrcFails p pk).goOn { pk with poison := true } cells :=
  if_pos (by simp [hbad, hchecks])

theorem execHeldPacketReevaluate_held {pkt : Nat} {cells : List CellIdx} {s : State} {pk : Packet} (hrun : s.running) (hpkt : s.pkt pkt = some pk)
    (hloc : pk.loc = .ingress) (hpool : pk.pool = 3) : exec (.heldPacketReevaluate pkt cells) s = .next (s.evaluate pk cells) := by
  show execHeldPacketReevaluate pkt cells s = _
  rw [execHeldPacketReevaluate, hpkt]
  simp [hrun, hloc, hpool]

end Sys2Proof.Machine
end

section
/-! SUPPORT. Egress: which packet a free port begins, its second reads, its pauses, and the packet it nullifies (R97, R110, R112, R157, R321). -/

namespace Sys2Proof.Machine

section
variable {p : EgressId} {err : CellError} {starved : List PktKind} {s s1 : State} {pk : Packet} {q : Nat}

theorem execEgressPacketBegin_nullified {e : Nat × Nat} (hrun : s.running) (hfree : s.egressFree (egressCode p))
    (hnullified : s.pcie.nullified.find? (fun (e : Nat × Nat) => decide (e.1 = egressCode p)) = some e) :
    exec (.egressPacketBegin p ⟨err, starved⟩) s = .next (s.resendNullified (egressCode p) e.2) := by
  show execEgressPacketBegin p ⟨err, starved⟩ s = _
  simp [execEgressPacketBegin, hrun, hfree, hnullified]

/-- At a fabric port and for the internal agent the chosen packet leaves at once. -/
theorem execEgressPacketBegin_ungated (hrun : s.running) (hfree : s.egressFree (egressCode p))
    (hnone : s.pcie.nullified.find? (fun (e : Nat × Nat) => decide (e.1 = egressCode p)) = none)
    (hchosen : s.choose starved (egressCode p) = some (s1, pk, q)) (hinner : egressCode p = 255 ∨ s.role (egressCode p) = roleFabric) :
    exec (.egressPacketBegin p ⟨err, starved⟩) s = .next ((s1.leave (egressCode p) q pk).cellError pk.id err) := by
  show execEgressPacketBegin p ⟨err, starved⟩ s = _
  simp only [execEgressPacketBegin, hrun, hfree, hnone, hchosen, hinner, Bool.not_true, Bool.or_self, Bool.false_eq_true, if_false, if_true]

/-- At an edge port the chosen packet passes the gate first, which may keep it. -/
theorem execEgressPacketBegin_gated (hrun : s.running) (hfree : s.egressFree (egressCode p))
    (hnone : s.pcie.nullified.find? (fun (e : Nat × Nat) => decide (e.1 = egressCode p)) = none)
    (hchosen : s.choose starved (egressCode p) = some (s1, pk, q)) (hedge : ¬(egressCode p = 255 ∨ s.role (egressCode p) = roleFabric)) :
    exec (.egressPacketBegin p ⟨err, starved⟩) s = .next (
      if (s1.gateStage (egressCode p) pk).2 then ((s1.gateStage (egressCode p) pk).1.leave (egressCode p) q pk).cellError pk.id err
      else (s1.gateStage (egressCode p) pk).1) := by
  show execEgressPacketBegin p ⟨err, starved⟩ s = _
  simp only [execEgressPacketBegin, hrun, hfree, hnone, hchosen, hedge, Bool.not_true, Bool.or_self, Bool.false_eq_true, if_false]

end

section
variable {p : EgressId} {s : State} {e : Egress} {pk : Packet}

/-- The record and the count of a cell that failed its crossbar CRC at egress `c` (R112). -/
def State.crossbarFailed (s : State) (c : Nat) (pk : Packet) (cell : Nat) : State :=
  (s.draw.count (ctrId 0x0E 4 (pk.bankAt cell) 2) 1).raiseOpen
    { grade := 0, checker := checkerId 0x05 (if c = 255 then 144 else c), cls := cPort, sel := c, syn0 := s.freeVal.toNat % 65536
      syn1 := (cellCrc (pk.cellTag cell) (pk.cellBytes cell)).toNat, action := 1, key := 0 }

theorem execCrossbarSecondRead_sending {cell : Nat} (hrun : s.running) (hsending : s.sending (egressCode p) = some (e, pk)) (hcell : cell < pk.cells)
    (ok : Bool) : exec (.crossbarSecondRead p cell ok) s = .next (
      if ok then s.crossbarFailed (egressCode p) pk cell else (s.crossbarFailed (egressCode p) pk cell).cellError pk.id (.data cell 0 0)) := by
  show execCrossbarSecondRead p cell ok s = _
  simp only [execCrossbarSecondRead, hsending, hrun, Nat.not_le.2 hcell, Bool.not_true, decide_false, Bool.or_self, Bool.false_eq_true, if_false]
  rfl

theorem execCutThroughPause_stalls (hrun : s.running) (hsending : s.sending (egressCode p) = some (e, pk)) (hcut : pk.cutThrough)
    (hgoing : e.paused = false) (hport : egressCode p < 144) (hmore : s.writtenNow pk < pk.cells) :
    exec (.cutThroughPause p) s = .next (((s.setPkt { pk with written := s.writtenNow pk, writtenAt := s.now }).setPaused (egressCode p) true).count
      (ctrId 0x01 256 (egressCode p) 129) 1) := by
  show execCutThroughPause p s = _
  rw [execCutThroughPause, hsending]
  simp [hrun, hcut, hgoing, hport, hmore]

theorem execCutThroughResume_paused {cells : Nat} (hrun : s.running) (hsending : s.sending (egressCode p) = some (e, pk)) (hpaused : e.paused) :
    exec (.cutThroughResume p cells) s = .next ((s.moreCells pk cells).setPaused (egressCode p) false) := by
  show execCutThroughResume p cells s = _
  simp [execCutThroughResume, hrun, hsending, hpaused]

/-- A nullified packet waits at its port until it is whole (R321). -/
theorem execCutThroughResume_nullified {cells : Nat} {n : Nat × Nat} (hrun : s.running) (hidle : s.sending (egressCode p) = none)
    (hnullified : s.pcie.nullified.find? (fun (e : Nat × Nat) => decide (e.1 = egressCode p)) = some n) (hpkt : s.pkt n.2 = some pk) :
    exec (.cutThroughResume p cells) s = .next (s.moreCells pk cells) := by
  show execCutThroughResume p cells s = _
  simp [execCutThroughResume, hrun, hidle, hnullified, hpkt]

end

/-- The paused TLP of an edge port is nullified: counted, kept to be sent again, and its port free (R321). -/
def State.nullifies (s : State) (p id : Nat) : State :=
  let t := (s.addSat portNullified p 1).count (ctrId 0x01 256 p 131) 1
  { t with
    pcie := { t.pcie with nullified := t.pcie.nullified ++ [(p, id)] }
    core := { t.core with egress := t.core.egress.filter (fun e => decide (e.port ≠ p)) } }

theorem execTlpNullify_paused {p : PortId} {s : State} {e : Egress} {pk : Packet} (hrun : s.running) (hsending : s.sending p.val = some (e, pk))
    (hpaused : e.paused) (hedge : s.role p.val = roleHost ∨ s.role p.val = roleDevice) :
    exec (.tlpNullify p) s = .next (s.nullifies p.val pk.id) := by
  show execTlpNullify p s = _
  rw [execTlpNullify, hsending]
  simp [hrun, hpaused, hedge, State.nullifies]

end Sys2Proof.Machine
end

section
/-! SUPPORT. How cells return to their pool, and how the tests and drains of banks end (R100, R113, R115). -/

namespace Sys2Proof.Machine

/-- The last read of a packet has freed its egress port. -/
def State.egressFreed (s : State) (c : Nat) : State :=
  { s with core := { s.core with egress := s.core.egress.filter (fun x => decide (x.port ≠ c)) } }

theorem execPacketCellsFreed_sent {p : EgressId} {s : State} {e : Egress} {pk : Packet} (hrun : s.running)
    (hsending : s.sending (egressCode p) = some (e, pk)) (hgoing : e.paused = false) (hwritten : pk.cells ≤ s.writtenNow pk) :
    let u := s.egressFreed (egressCode p)
    exec (.packetCellsFreed p) s = .next (
      if !pk.dests.isEmpty || u.core.egress.any (fun x => decide (x.pkt = pk.id)) then
        (u.gone (egressCode p) pk).setPkt { pk with written := pk.cells }
      else ((u.gone (egressCode p) pk).dropPkt pk.id).orphanCells (pk.idxs.drop (pk.cells - pk.unreached))) := by
  show execPacketCellsFreed p s = _
  simp only [execPacketCellsFreed, hsending, hrun, hgoing, Nat.not_lt.2 hwritten, Bool.not_true, decide_false, Bool.or_self, Bool.false_eq_true,
    if_false]
  rfl

/-- The counts of an audit pass: one for each cell that it returns. -/
def State.auditCounts (s : State) (back : List (Nat × Nat)) : State :=
  back.foldl (fun (s : State) o => s.count (ctrId 0x0E 4 (o.1 / 2048) 3) 1) s

/-- Counters alone move with the counts of an audit pass. -/
theorem State.auditCounts_eq (s : State) (back : List (Nat × Nat)) : ∃ c, s.auditCounts back = { s with counters := c } :=
  foldl_gives (fun t => ∃ c, t = { s with counters := c }) _ back s (fun _ _ ⟨_, h⟩ => h ▸ ⟨_, rfl⟩) ⟨_, rfl⟩

theorem execFreeListAuditPass_running {s : State} (hrun : s.running) :
    ∃ c, exec .freeListAuditPass s = .next { s with
      counters := c
      core := { s.core with
        orphans := (s.core.orphans.map (fun (o : Nat × Nat) => (o.1, o.2 + 1))).filter (fun (o : Nat × Nat) => decide (o.2 < 2)) } } := by
  obtain ⟨c, hcounts⟩ := s.auditCounts_eq
    ((s.core.orphans.map (fun (o : Nat × Nat) => (o.1, o.2 + 1))).filter (fun (o : Nat × Nat) => decide (2 ≤ o.2)))
  refine ⟨c, ?_⟩
  rw [State.auditCounts] at hcounts
  show execFreeListAuditPass s = _
  simp only [execFreeListAuditPass, hrun, Bool.not_true, Bool.false_eq_true, if_false, hcounts]

theorem execBankTestEnd_testing {b : BankId} {pass : Bool} {s : State} (hrun : s.running) (htesting : s.fld bankState b.val = 3) :
    exec (.bankTestEnd b pass) s
      = .next (((s.put bankTestResult b.val (if pass then 1 else 2)).put bankTest b.val 0).put bankState b.val 2) := by
  show execBankTestEnd b pass s = _
  simp [execBankTestEnd, hrun, htesting]

/-- A bank whose test ends shows the result, asks for no test, is out of service, and retires or stays as before. -/
theorem State.bankTested_fields {s : State} (hs : s.wf) (b : Nat) {v : Nat} (hv : v < 4) :
    let t := ((s.put bankTestResult b v).put bankTest b 0).put bankState b 2
    t.base bankTestResult b = v ∧ t.base bankTest b = 0 ∧ t.base bankState b = 2 ∧ t.base bankRetiring b = s.base bankRetiring b := by
  have hresult := State.put_wf hs bankTestResult b v
  have htest := State.put_wf hresult bankTest b 0
  refine ⟨?_, ?_, ?_, ?_⟩
  · rw [State.base_put_apart htest bankState bankTestResult b 2 (by decide), State.base_put_apart hresult bankTest bankTestResult b 0 (by decide),
      State.base_put_same hs bankTestResult b v (by decide)]
    exact Nat.mod_eq_of_lt hv
  · rw [State.base_put_apart htest bankState bankTest b 2 (by decide), State.base_put_same hresult bankTest b 0 (by decide)]
    rfl
  · rw [State.base_put_same htest bankState b 2 (by decide)]
    rfl
  · rw [State.base_put_apart htest bankState bankRetiring b 2 (by decide), State.base_put_apart hresult bankTest bankRetiring b 0 (by decide),
      State.base_put_apart hs bankTestResult bankRetiring b v (by decide)]

section
variable {b : BankId} {s : State}

theorem execBankDrained_retiring (hrun : s.running) (hdraining : s.fld bankState b.val = 1) (hempty : s.bankUse b.val = 0)
    (hretiring : s.fld bankRetiring b.val = 1) : exec (.bankDrained b) s = .next ((s.put bankRetiring b.val 0).put bankState b.val 4) := by
  show execBankDrained b s = _
  simp [execBankDrained, hrun, hdraining, hempty, hretiring]

theorem execBankDrained_staying (hrun : s.running) (hdraining : s.fld bankState b.val = 1) (hempty : s.bankUse b.val = 0)
    (hstays : s.fld bankRetiring b.val ≠ 1) : exec (.bankDrained b) s = .next (s.put bankState b.val 2) := by
  show execBankDrained b s = _
  simp [execBankDrained, hrun, hdraining, hempty, hstays]

end

end Sys2Proof.Machine
end

section
/-! The obligations on ingress, egress, the buffers and their banks. -/

namespace Sys2Proof
open Machine

/-- Settles O1, one clause for each way that a packet takes. -/
theorem ingressPacketsGoOn : Obligations.IngressPacketsGoOn := by
  unfold Obligations.IngressPacketsGoOn
  refine ⟨fun _ _ _ _ _ => execPacketReceived_fabric, fun _ _ _ _ => execPacketReceived_completion, ?sound, ?ecrcBad, ?nowhere,
    fun _ _ _ _ => execHeldPacketReevaluate_held⟩
  case sound =>
    intro p x cells s pk hbytes htakes hedge hreq hkind hrouted hsound
    rw [execPacketReceived_request hbytes htakes hedge hreq hkind, hrouted, State.routedIn_sound pk cells hsound]
  case ecrcBad =>
    intro p x cells s pk hbytes htakes hedge hreq hkind hrouted hbad hchecks
    rw [execPacketReceived_request hbytes htakes hedge hreq hkind, hrouted, State.routedIn_ecrcBad pk cells hbad hchecks]
  case nowhere =>
    intro p x cells s hbytes htakes hedge hreq hkind hrouted
    rw [execPacketReceived_request hbytes htakes hedge hreq hkind, hrouted, State.routedIn]

/-- Settles O2, one clause for each way in which an egress port goes on. -/
theorem egressSendsAndPauses : Obligations.EgressSendsAndPauses := by
  unfold Obligations.EgressSendsAndPauses
  refine ⟨fun _ _ _ _ _ => execEgressPacketBegin_nullified, fun _ _ _ _ _ _ _ => execEgressPacketBegin_ungated, ?passed, ?kept, ?secondRead,
    fun _ _ _ _ => execCutThroughPause_stalls, fun _ _ _ _ _ => execCutThroughResume_paused, fun _ _ _ _ _ => execCutThroughResume_nullified,
    ?nullify⟩
  case passed =>
    intro p err starved s s1 pk q hrun hfree hnone hchosen hedge hpassed
    rw [execEgressPacketBegin_gated hrun hfree hnone hchosen hedge, if_pos hpassed]
  case kept =>
    intro p err starved s s1 pk q hrun hfree hnone hchosen hedge hkept
    rw [execEgressPacketBegin_gated hrun hfree hnone hchosen hedge, if_neg (Bool.eq_false_iff.1 hkept)]
  case secondRead =>
    intro p cell s e pk hrun hsending hcell
    have hread := execCrossbarSecondRead_sending hrun hsending hcell
    exact ⟨s.crossbarFailed (egressCode p) pk cell, by rw [hread, if_pos rfl], by rw [State.crossbarFailed],
      by rw [hread, if_neg Bool.false_ne_true]⟩
  case nullify =>
    intro p s e pk hrun hsending hpaused hedge
    exact ⟨_, execTlpNullify_paused hrun hsending hpaused hedge, rfl, rfl, rfl, rfl, rfl⟩

/-- Settles O3, one clause for each way in which cells and banks become free. -/
theorem buffersFreeAndAudit : Obligations.BuffersFreeAndAudit := by
  unfold Obligations.BuffersFreeAndAudit
  refine ⟨?stillTaken, ?lastTaken, ?audit, fun _ _ _ => execBankTestEnd_testing, fun _ _ => execBankDrained_retiring, fun _ _ => execBankDrained_staying⟩
  case stillTaken =>
    rintro p s _ e pk hrun hsending hgoing hwritten rfl htaken
    exact (execPacketCellsFreed_sent hrun hsending hgoing hwritten).trans (congrArg _ (if_pos htaken))
  case lastTaken =>
    rintro p s _ e pk hrun hsending hgoing hwritten rfl htaken
    exact (execPacketCellsFreed_sent hrun hsending hgoing hwritten).trans (congrArg _ (if_neg (Bool.eq_false_iff.1 htaken)))
  case audit =>
    intro s hrun
    obtain ⟨c, hpass⟩ := execFreeListAuditPass_running hrun
    exact ⟨_, hpass, rfl, rfl, rfl, rfl, rfl⟩

/-- Settles O59: each row writes a few fields of the bank's image that lie apart from each other and from the rest. -/
theorem bankStatesMove : Obligations.BankStatesMove := by
  unfold Obligations.BankStatesMove
  constructor
  · intro b pass s hs hrun htesting
    have hresult : (if pass then 1 else 2) < 4 := by cases pass <;> decide
    obtain ⟨hvalue, htest, hstate, hretiring⟩ := State.bankTested_fields hs b.val hresult
    exact ⟨_, execBankTestEnd_testing hrun htesting, hvalue, htest, hstate, hretiring, rfl, rfl, rfl, rfl, rfl⟩
  · intro b s hs hrun hdraining hempty
    by_cases hretiring : s.fld bankRetiring b.val = 1
    · refine ⟨_, execBankDrained_retiring hrun hdraining hempty hretiring, ?_, fun _ => ?_, rfl, rfl, rfl, rfl, rfl⟩
      · rw [State.base_put_same (State.put_wf hs ..) bankState b.val 4 (by decide), if_pos hretiring]
        rfl
      · rw [State.base_put_apart (State.put_wf hs ..) bankState bankRetiring b.val 4 (by decide),
          State.base_put_same hs bankRetiring b.val 0 (by decide)]
        rfl
    · refine ⟨_, execBankDrained_staying hrun hdraining hempty hretiring, ?_, fun h => absurd h hretiring, rfl, rfl, rfl, rfl, rfl⟩
      rw [State.base_put_same hs bankState b.val 2 (by decide), if_neg hretiring]
      rfl

end Sys2Proof
end

section
/-! SUPPORT. Flows at their two edges: when a record closes, what the reorder unit takes, and how a flow is torn down (R132, R133, R137, R138,
R204). -/

namespace Sys2Proof.Machine

/-- The send record of a flow has closed. -/
def State.sendClosed (s : State) (f : FlowKey) : State :=
  { s with fabric := { s.fabric with send := s.fabric.send.filter (fun q => decide (q.flow ≠ f)) } }

/-- The receive record of a flow has closed. -/
def State.recvClosed (s : State) (f : FlowKey) : State :=
  { s with fabric := { s.fabric with recv := s.fabric.recv.filter (fun q => decide (q.flow ≠ f)) } }

section
variable {f : FlowKey} {s : State}

theorem execSendRecordSilenceClose_silent {r : SendRec} (hrun : s.running) (hsend : s.sendRec f = some r) (hsilent : r.lastAt + 5000000 ≤ s.now) :
    exec (.sendRecordSilenceClose f) s = .next (s.sendClosed f) := by
  show execSendRecordSilenceClose f s = _
  rw [execSendRecordSilenceClose, hsend]
  exact congrArg _ (if_pos (by simp [hrun, hsilent]))

theorem execReceiveRecordSilenceFree_silent {r : RecvRec} (hrun : s.running) (hrecv : s.recvRec f = some r) (hempty : r.held = [])
    (hsilent : r.lastAt + 10000000 ≤ s.now) : exec (.receiveRecordSilenceFree f) s = .next (s.recvClosed f) := by
  show execReceiveRecordSilenceFree f s = _
  rw [execReceiveRecordSilenceFree, hrecv]
  exact congrArg _ (if_pos (by simp [hrun, hempty, hsilent]))

/-- A gap whose missing packet has not come by its time tears the flow down at the destination edge (R137). -/
theorem execGapTimerExpiry_due {r : RecvRec} {due : Nat} (hrun : s.running) (hrecv : s.recvRec f = some r) (hgap : r.gapDue = some due)
    (hdue : due ≤ s.now) (hmissing : s.gapFills r = false) :
    exec (.gapTimerExpiry f) s = .next (((((s.recvClosed f).tearHeld f.srcDev r.held).peerCount f.srcDev 4).sendMsg f.srcDev
      (.teardown ⟨f.srcPort, f.dstPort, f.cls, r.gen⟩)).raise (pairEvent f r.gen f.dstPort 15)) := by
  show execGapTimerExpiry f s = _
  rw [execGapTimerExpiry, hrecv]
  exact if_pos (by simp [hrun, hmissing, hgap, hdue])

end

section
variable {pkt : Nat} {s : State} {pk : Packet} {h : FabHdr}

theorem execReorderPacketArrival_recorded {r : RecvRec} (hrun : s.running) (hpkt : s.pkt pkt = some pk) (hhdr : pk.hdr = some h)
    (hloc : pk.loc = .reorderIn ∨ pk.loc = .reorderWait) (hrecv : s.recvRec (hdrFlow h) = some r) (hgen : r.gen = h.gen) :
    exec (.reorderPacketArrival pkt) s = .next (s.inSequence pk h r) := by
  show execReorderPacketArrival pkt s = _
  simp only [execReorderPacketArrival, hpkt, hhdr, hrecv]
  rw [if_neg (by simpa [hrun] using or_iff_not_imp_left.1 hloc), if_pos hgen]

/-- A packet without a birth mark, of a flow that has no record, opens one while the reorder unit has room (R133). -/
theorem execReorderPacketArrival_opens (hrun : s.running) (hpkt : s.pkt pkt = some pk) (hhdr : pk.hdr = some h)
    (hloc : pk.loc = .reorderIn ∨ pk.loc = .reorderWait) (hnew : s.recvRec (hdrFlow h) = none) (hroom : s.fabric.recv.length < 262144)
    (hbirth : h.birthValid = false) :
    exec (.reorderPacketArrival pkt) s = .next (s.inSequence pk h ⟨hdrFlow h, h.gen, 0, none, [], none, s.now⟩) := by
  show execReorderPacketArrival pkt s = _
  simp only [execReorderPacketArrival, hpkt, hhdr, hnew]
  rw [if_neg (by simpa [hrun] using or_iff_not_imp_left.1 hloc), if_neg (by simp [hbirth]), if_neg (Nat.not_le.2 hroom)]

end

/-- The flow that a teardown notice or a delivery notice names, at its source edge. -/
def State.noticedFlow (s : State) (dev : Nat) (m : TeardownMsg) : FlowKey := ⟨s.fabricId, m.srcPort, dev, m.dstPort, m.cls⟩

/-- The source edge's part of a teardown: the send record closes, the flow's own requests end with Completer Abort, and its tracked writes are
discarded (R138). -/
def State.tornAtSource (s : State) (f : FlowKey) : State :=
  let t := (s.sendClosed f).closeReqs .completerAbort ((s.sendClosed f).openReqs.filter (fun r => r.inbound && decide (r.flow = f)))
  t.discardAll (t.cms.tracked.filter (fun w => decide (w.flow = f)))

/-- The tracked writes of a flow up to a sequence number are visible (R204). -/
def State.deliveredUpTo (s : State) (f : FlowKey) (seq : Nat) : State :=
  { s with cms := { s.cms with tracked := s.cms.tracked.filter (fun t =>
    !(decide (t.flow = f) && (match t.seq with | some q => decide ((seq + 16777216 - q) % 16777216 < 8388608) | none => false))) } }

section
variable (dev : Nat) (m : TeardownMsg) {s : State}

theorem execTeardownReceived_running (hrun : s.running) :
    exec (.teardownReceived dev m) s
      = .next (((s.tornAtSource (s.noticedFlow dev m)).peerCount dev 4).raise (pairEvent (s.noticedFlow dev m) m.gen m.srcPort 4)) := by
  show execTeardownReceived dev m s = _
  exact if_neg (by simp [hrun])

theorem execDeliveryReceived_running (seq : Nat) (hrun : s.running) :
    exec (.deliveryReceived dev m seq) s = .next (s.deliveredUpTo (s.noticedFlow dev m) seq) := by
  show execDeliveryReceived dev m seq s = _
  exact congrArg _ (if_pos hrun)

end

end Sys2Proof.Machine
end

section
/-! SUPPORT. Paths: their congestion levels, the withdrawals that neighbours announce, and links that return (R129, R131, R140, R145). -/

namespace Sys2Proof.Machine

theorem execCongestionUpdate_running {s : State} (hrun : s.running) :
    exec .congestionUpdate s = .next
      { s with fabric := { s.fabric with congestion := s.levelsOf (s.selsOf cPathGroup) (fun _ _ => true) s.fabric.congestion } } := by
  show execCongestionUpdate s = _
  exact congrArg _ (if_pos hrun)

theorem execEqualWeightPeriodEnd_due {g : Fin 16384} {s : State} (hrun : s.running) (hcold : tget 0 s.fabric.coldUntil g.val ≠ 0)
    (hdue : tget 0 s.fabric.coldUntil g.val ≤ s.now) :
    exec (.equalWeightPeriodEnd g) s = .next { s with fabric := { s.fabric with
      coldUntil := tput 0 s.fabric.coldUntil g.val 0, congestion := s.levelsOf [g.val] (fun _ _ => true) s.fabric.congestion } } := by
  show execEqualWeightPeriodEnd g s = _
  exact congrArg _ (if_pos (by simp [hrun, hcold, hdue]))

theorem execWithdrawMessageReceived_active {p : PortId} {es : List WithdrawEntry} {s : State} (hlink : s.fabricLink p.val)
    (hactive : s.ql p.val = qlActive) :
    exec (.withdrawMessageReceived p es) s = .next (es.foldl (fun s e => s.withdrawEntry p.val e) s) := by
  show execWithdrawMessageReceived p es s = _
  exact congrArg _ (if_pos (by simp [hlink, hactive]))

/-- A link that has run for its time returns to the paths, but a degraded one runs for that time again (R145; log entry 80). -/
theorem execAutoRestoreExpiry_due {p : PortId} {s : State} {e : Nat × Nat}
    (hrestoring : s.fabric.restoring.find? (fun e => decide (e.1 = p.val)) = some e) (hlink : s.fabricLink p.val)
    (hactive : s.ql p.val = qlActive) (hdue : e.2 ≤ s.now) :
    exec (.autoRestoreExpiry p) s = .next (if s.fld qlDegraded p.val = 1 then s.startRestore p.val else s.reinstatePort p.val) := by
  show execAutoRestoreExpiry p s = _
  rw [execAutoRestoreExpiry, hrestoring]
  exact if_neg (by simp [hlink, hactive, hdue])

end Sys2Proof.Machine
end

section
/-! SUPPORT. The messages between the two ends of a remote binding (R149, R184, R314). -/

namespace Sys2Proof.Machine

theorem execPresenceMessageReceived_running {m : PresenceMsg} {s : State} (hrun : s.running) (hview : m.view.val < 96) :
    exec (.presenceMessageReceived m) s = .next (s.slotEvent m.view.val m.k m.kind) := by
  show execPresenceMessageReceived m s = _
  exact congrArg _ (if_pos (by simp [hrun, hview]))

/-- A notice agrees where everything that it shares with the home side's words is equal, and its logical device suits the function (R183, R184). -/
theorem State.noticeAgrees_iff (s : State) {m : BindNotice} : s.noticeAgrees m ↔
    let w := s.bindW (homeSel m.slot.val) (ldIndex m.ld)
    (m.ld = 0xFF ∨ m.ld < 16) ∧ bBound w = true ∧ bSide w = 1 ∧ bView w = m.hostView ∧ bVport w = m.vport ∧ bTenant w = m.tenant
      ∧ s.ldSuits (homeSel m.slot.val) m.ld = true := by
  simp [State.noticeAgrees, and_assoc]

/-- The home side's words are matched by a binding notice: they hold the view's device and its port, and the notice is confirmed (R184). -/
def State.noticeMatched (s : State) (m : BindNotice) : State :=
  let sel := homeSel m.slot.val
  let i := ldIndex m.ld
  let t := (s.put (fnMatched.up i) sel 1).put (fnViewDevice.up i) sel m.viewDev
  let u : State := { t with tenancy := { t.tenancy with bindPort := tput 255 t.tenancy.bindPort (m.slot.val * 32 + i) m.hostPort } }
  u.sendMsg m.viewDev (.bindConfirm ⟨m.slot, m.ld, s.fld fnPort sel, s.fld fnState sel⟩)

/-- A binding notice that the home side's words do not match is counted and recorded against the function (R184). -/
def State.noticeMismatched (s : State) (m : BindNotice) : State :=
  (s.count (ctrId 0x06 8 m.slot.val 6) 1).raise
    { grade := 0, checker := checkerId 0x16 0xFF, cls := cFunction, sel := homeSel m.slot.val, syn0 := 0, syn1 := 0, action := 15, key := 0 }

theorem execBindNoticeReceived_running {m : BindNotice} {s : State} (hrun : s.running) :
    exec (.bindNoticeReceived m) s = .next (if s.noticeAgrees m then s.noticeMatched m else s.noticeMismatched m) := by
  show execBindNoticeReceived m s = _
  rw [execBindNoticeReceived, if_neg (by simp [hrun])]
  by_cases hmatch : s.noticeAgrees m
  · exact (if_pos (s.noticeAgrees_iff.1 hmatch)).trans (congrArg _ (if_pos hmatch).symm)
  · exact (if_neg (mt s.noticeAgrees_iff.2 hmatch)).trans (congrArg _ (if_neg hmatch).symm)

/-- The view's device takes a confirmation: the binding is matched, and it holds the home device's port (R184). -/
def State.bindConfirmed (s : State) (sel : Nat) (m : BindConfirm) : State := (s.put (fnMatched.up (ldIndex m.ld)) sel 1).put fnPort sel m.port

theorem execBindConfirmReceived_bound {dev : Nat} {m : BindConfirm} {s : State} {sel : Nat} {w : Word} (hrun : s.running)
    (hld : m.ld = 0xFF ∨ m.ld < 16) (hsel : sel = dev % 4096 * 65536 + m.slot.val) (hw : w = s.bindW sel (ldIndex m.ld)) (hbound : bBound w)
    (hremote : dev % 4096 ≠ s.fabricId) :
    exec (.bindConfirmReceived dev m) s = .next (
      if m.fnState = 1 then (s.bindConfirmed sel m).slotEvent (bView w) (bVport w) (.presence true) else s.bindConfirmed sel m) := by
  subst hw hsel
  show execBindConfirmReceived dev m s = _
  exact if_pos (by simp [hrun, hld, hbound, hremote])

theorem execBindResetReceived_named {m : BindResetMsg} {s : State} {w : Word} (hrun : s.running) (hld : m.ld = 0xFF ∨ m.ld < 16)
    (hw : w = s.bindW (homeSel m.slot.val) (ldIndex m.ld)) (hbound : bBound w) (hmatched : bMatched w) (hview : bView w = m.hostView)
    (hdev : bViewDev w = m.viewDev) :
    exec (.bindResetReceived m) s = .next (s.bindingReset m.hostView (homeSel m.slot.val) (ldIndex m.ld)) := by
  subst hw
  show execBindResetReceived m s = _
  exact congrArg _ (if_pos (by simp [hrun, hld, hbound, hmatched, hview, hdev]))

end Sys2Proof.Machine
end

section
/-! SUPPORT. An active fabric link: the flits that it takes, its replays, its timers and its error windows (R260, R261, R268 to R270). -/

namespace Sys2Proof.Machine

section
variable {p : PortId} {s : State}

/-- What an active link makes of the 256 bytes of a flit time: the monitor and the lanes' counts first, then a replay request for a corrupted flit, or
the good flit's own effect (R253, R260). -/
def State.flitTaken (u : State) (p width : Nat) (bytes : List Byte) : State :=
  let fixed := match flitDecode bytes with | some d => d.2 | none => []
  let t := (u.monitor p (rxFlit bytes).isNone).correctedAll p width fixed
  match rxFlit bytes with
  | none => (t.portCount p 48 1).openRequest p
  | some f => t.goodFlit p f

theorem execFlitReceived_active {lanes : List (List PamLevel)} {u : State} {bytes : List Byte} (hlink : s.fabricLink p.val)
    (hactive : s.ql p.val = qlActive) (hfit : s.lanesFit p.val lanes) (hcollect : s.collect p.val lanes = (u, bytes)) :
    exec (.flitReceived p lanes) s = .next (u.flitTaken p.val lanes.length bytes) := by
  show execFlitReceived p lanes s = _
  rw [execFlitReceived, if_neg (by simp [hlink, hactive, hfit]), hcollect]
  rfl

/-- A corrupted flit, with the symbols that the FEC corrected in it where it could. -/
theorem State.flitTaken_corrupted (u : State) (p width : Nat) {bytes : List Byte} (hbad : rxFlit bytes = none) :
    u.flitTaken p width bytes = (((u.monitor p true).correctedAll p width
      ((flitDecode bytes).elim [] Prod.snd)).portCount p 48 1).openRequest p := by
  simp only [State.flitTaken, hbad, Option.isNone_none]
  cases flitDecode bytes <;> rfl

theorem State.flitTaken_good (u : State) (p width : Nat) {bytes : List Byte} {d : List Byte × List Nat} {f : RxFlit}
    (hdecode : flitDecode bytes = some d) (hgood : rxFlit bytes = some f) :
    u.flitTaken p width bytes = ((u.monitor p false).correctedAll p width d.2).goodFlit p f := by
  simp only [State.flitTaken, hdecode, hgood, Option.isNone_some]

/-- A good flit of a link that stays active acts by its link control, its place in the sequence and its link command (R257, R260). -/
theorem State.goodFlit_active {t : State} {p : Nat} {f : RxFlit} (hinit : f.typ ≠ 2) (hstays : (t.linkControl p f.ctl).ql p = qlActive) :
    t.goodFlit p f = ((t.linkControl p f.ctl).takeFlit p f).linkCmd p f.ctl := by
  simp only [State.goodFlit, if_neg hinit, if_pos hstays]

theorem execReplayRequestReceived_new {epoch : Bool} {ack : Nat} (hlink : s.fabricLink p.val) (hactive : s.ql p.val = qlActive)
    (hnew : (s.qlp p.val).actedEpoch ≠ epoch) :
    exec (.replayRequestReceived p epoch ack) s = .next ((s.qlAck p.val (ack % 16777216)).startReplay p.val epoch) := by
  show execReplayRequestReceived p epoch ack s = _
  exact if_neg (by simp [hlink, hactive, hnew])

/-- One packet of a channel waits for credit, and its timer has run out (R268). -/
theorem execCreditTimeout_due {vc : Fin 13} {t : Nat} (hlink : s.fabricLink p.val) (hactive : s.ql p.val = qlActive)
    (hthawed : (s.qlp p.val).frozenFrom = none) (hwaits : s.creditWaits p.val vc.val = [t])
    (hdue : s.fld qlCreditTimeoutUs p.val * 1000 ≤ s.creditRun p.val (max t (tget 0 (s.qlp p.val).advertised vc.val))) :
    exec (.creditTimeout p vc) s = .next (s.toHeld p.val 0x16) := by
  show execCreditTimeout p vc s = _
  exact if_pos (by simp [hlink, hactive, hthawed, hwaits, hdue])

/-- An error window over its threshold is noted, and the next one begins (R269). -/
def State.windowOver (s : State) (p : Nat) : State :=
  s.setQlp { s.qlp p with overRuns := (s.qlp p).overRuns + 1, declFlits := (s.qlp p).declFlits - 16777216 }

theorem execErrorWindowEnd_passed (hlink : s.fabricLink p.val) (hactive : s.ql p.val = qlActive) (hdegraded : (s.qlp p.val).ownDegraded)
    (hwindow : 16777216 ≤ (s.qlp p.val).declFlits) :
    exec (.errorWindowEnd p) s = .next (
      if (s.qlp p.val).errors ≤ s.fld qlErrThreshold p.val then
        (s.setQlp { s.qlp p.val with ownDegraded := false, overRuns := 0, declFlits := 0 }).showDegraded p.val
      else if 2 ≤ (s.qlp p.val).overRuns then (s.windowOver p.val).toHeld p.val 0x01
      else s.windowOver p.val) := by
  show execErrorWindowEnd p s = _
  have hthird : 3 ≤ (s.qlp p.val).overRuns + 1 ↔ 2 ≤ (s.qlp p.val).overRuns := Nat.add_le_add_iff_right (n := 1)
  refine (if_neg (by simp [hlink, hactive, hdegraded, hwindow])).trans ?_
  simp only [hthird]
  exact (apply_ite Host.Outcome.next ..).symm

theorem execFastRetrainStart_active (hlink : s.fabricLink p.val) (hactive : s.ql p.val = qlActive) :
    exec (.fastRetrainStart p) s = .next (s.fastRetrain p.val) := by
  show execFastRetrainStart p s = _
  exact congrArg _ (if_pos (by simp [hlink, hactive]))

end

end Sys2Proof.Machine
end

section
/-! SUPPORT. A fabric link that leaves service or fails, and the spill of its replay entries (R139 to R141, R264, R272). -/

namespace Sys2Proof.Machine

section
variable {p : PortId} {s : State}

/-- A link has gone Down after its drain, and what was unacknowledged is sent again (R272). -/
def State.drained (s : State) (p : Nat) : State :=
  let t := s.toDown p
  (t.setQlp { t.qlp p with replay := [], spilled := 0, spillFrom := none }).reenters p (s.qlp p).replay

theorem execLinkDrainEnd_ended {due : Nat} (hlink : s.fabricLink p.val) (hactive : s.ql p.val = qlActive)
    (hdrain : (s.qlp p.val).drainDue = some due) (hended : due ≤ s.now ∨ (s.queuedTo p.val = [] ∧ (s.qlp p.val).replay = [])) :
    exec (.linkDrainEnd p) s = .next (s.drained p.val) := by
  show execLinkDrainEnd p s = _
  simp only [execLinkDrainEnd, hdrain]
  refine if_neg ?_
  rcases hended with hdue | ⟨hqueue, hreplay⟩
  · simp [hlink, hactive, hdue]
  · simp [hlink, hactive, hqueue, hreplay]

/-- The paths of a failed port are withdrawn (R139, R140). -/
def State.failureWithdrawn (s : State) (p : Nat) : State := (s.setQlp { s.qlp p with failure := 2 }).withdrawPort p

theorem execFabricPortFailure_failed (hlink : s.fabricLink p.val) (hfailed : (s.qlp p.val).failure = 1) :
    exec (.fabricPortFailure p) s = .next (
      if (s.failureWithdrawn p.val).ql p.val = qlActive then (s.failureWithdrawn p.val).startRestore p.val else s.failureWithdrawn p.val) := by
  show execFabricPortFailure p s = _
  exact if_neg (by simp [hlink, hfailed])

theorem execReplayResend_withdrawn (hlink : s.fabricLink p.val) (hwithdrawn : (s.qlp p.val).failure = 2) :
    exec (.replayResend p) s = .next ((s.setQlp { s.qlp p.val with failure := 3 }).reenters p.val
      (onDieEntries (s.qlp p.val).spilled (s.qlp p.val).replay)) := by
  show execReplayResend p s = _
  exact if_neg (by simp [hlink, hwithdrawn])

/-- The spilled entries of a port are read from SDRAM, sixteen flits at a time. -/
def State.spillRead (s : State) (p : Nat) : State :=
  (List.range ((s.qlp p).spilled / 16)).foldl (fun (s : State) i => s.sdramAccess .spill (65536 * p + 16 * i) false) s

/-- On a link that is active again the spilled entries end the failure (R141). -/
theorem execSpilledResend_active (hlink : s.fabricLink p.val) (hresent : (s.qlp p.val).failure = 3) (hactive : s.ql p.val = qlActive) :
    exec (.spilledResend p) s = .next (((s.spillRead p.val).setQlp { s.qlp p.val with failure := 0 }).reenters p.val
      (spilledEntries (s.qlp p.val).spilled (s.qlp p.val).replay)) := by
  show execSpilledResend p s = _
  simp only [execSpilledResend, hactive, if_true, decide_true, Bool.true_or]
  exact if_neg (by simp [hlink, hresent])

/-- The sixteen oldest flits on the die go to SDRAM in the turn of spill (R264). -/
def State.oldestSpilled (s : State) (p : Nat) : State :=
  ((s.setQlp { s.qlp p with
    spilled := (s.qlp p).spilled + 16, throttled := false
    spillFrom := match (s.qlp p).spillFrom with | some t => some t | none => some s.now }).served true).sdramAccess .spill
      (65536 * p + (s.qlp p).spilled) true

/-- A port without a grant throttles (R264). -/
def State.spillThrottled (s : State) (p : Nat) : State := (s.setQlp { s.qlp p with throttled := true }).portCount p 130 1

theorem execReplaySpill_full (hrun : s.running) (hrole : s.role p.val = roleFabric) (hlane : s.lane0 p.val = p.val)
    (henabled : s.fld portSpillEnable p.val = 1) (hactive : s.ql p.val = qlActive)
    (hfull : s.onDie p.val ≤ (s.qlp p.val).outstanding - (s.qlp p.val).spilled) :
    exec (.replaySpill p) s = .next (
      if s.spillGranted p.val then if s.spillTurn then s.oldestSpilled p.val else s
      else if (s.qlp p.val).throttled then s else s.spillThrottled p.val) := by
  show execReplaySpill p s = _
  rw [execReplaySpill, if_neg (by simp [hrun, hrole, hlane, henabled, hactive, hfull])]
  refine (if_congr Iff.rfl rfl ?_).trans (apply_ite Host.Outcome.next ..).symm
  exact (apply_ite Host.Outcome.next ..).symm

end

end Sys2Proof.Machine
end

section
/-! The obligations on flows, paths, remote bindings and fabric links. -/

namespace Sys2Proof
open Machine

/-- Settles O4, one clause for each way in which a record of a flow moves. -/
theorem flowRecordsOpenAndClose : Obligations.FlowRecordsOpenAndClose := by
  unfold Obligations.FlowRecordsOpenAndClose
  exact ⟨fun _ _ _ => execSendRecordSilenceClose_silent, fun _ _ _ => execReceiveRecordSilenceFree_silent,
    fun _ _ _ _ _ => execReorderPacketArrival_recorded, fun _ _ _ _ => execReorderPacketArrival_opens, fun _ _ _ _ => execGapTimerExpiry_due,
    fun dev m _ => execTeardownReceived_running dev m, fun dev m seq _ => execDeliveryReceived_running dev m seq⟩

/-- Settles O5: of a link whose time has run, the two clauses are the two branches of one rule. -/
theorem pathsWithdrawAndReturn : Obligations.PathsWithdrawAndReturn := by
  unfold Obligations.PathsWithdrawAndReturn
  refine ⟨fun _ => execCongestionUpdate_running, fun _ _ => execEqualWeightPeriodEnd_due, fun _ _ _ => execWithdrawMessageReceived_active,
    ?returns, ?runsOn⟩
  case returns =>
    intro p s e hrestoring hlink hactive hdue hsound
    rw [execAutoRestoreExpiry_due hrestoring hlink hactive hdue, if_neg hsound]
  case runsOn =>
    intro p s e hrestoring hlink hactive hdue hdegraded
    rw [execAutoRestoreExpiry_due hrestoring hlink hactive hdue, if_pos hdegraded]

/-- Settles O7, one clause for each message and for what it finds. -/
theorem bindingMessagesAct : Obligations.BindingMessagesAct := by
  unfold Obligations.BindingMessagesAct
  refine ⟨fun _ _ => execPresenceMessageReceived_running, ?agrees, ?differs, ?present, ?absent,
    fun _ _ hrun hld => execBindResetReceived_named hrun hld rfl⟩
  case agrees =>
    intro m s hrun hagrees
    rw [execBindNoticeReceived_running hrun, if_pos hagrees]
    rfl
  case differs =>
    intro m s hrun hdiffers
    rw [execBindNoticeReceived_running hrun, if_neg hdiffers]
    rfl
  case present =>
    intro dev m s u sel w hrun hld hsel hw hbound hremote hu hpresent
    rw [execBindConfirmReceived_bound hrun hld hsel hw hbound hremote, if_pos hpresent, hu, State.bindConfirmed]
  case absent =>
    intro dev m s u sel w hrun hld hsel hw hbound hremote hu habsent
    rw [execBindConfirmReceived_bound hrun hld hsel hw hbound hremote, if_neg habsent, hu, State.bindConfirmed]

/-- Settles O26, one clause for each way in which a link runs, leaves service, fails or spills. -/
theorem quaylineLinksRunAndFail : Obligations.QuaylineLinksRunAndFail := by
  unfold Obligations.QuaylineLinksRunAndFail
  refine ⟨?corrupted, ?undecoded, ?good, fun _ _ _ _ => execReplayRequestReceived_new, fun _ _ _ _ => execCreditTimeout_due, ?recovers, ?overRuns,
    fun _ _ => execFastRetrainStart_active, fun _ _ _ => execLinkDrainEnd_ended, ?failure, fun _ _ => execReplayResend_withdrawn,
    fun _ _ => execSpilledResend_active, ?spills, ?throttles⟩
  case corrupted =>
    intro p lanes s u bytes d hlink hactive hfit hcollect hdecode hbad
    rw [execFlitReceived_active hlink hactive hfit hcollect, State.flitTaken_corrupted u p.val _ hbad, hdecode, Option.elim_some]
  case undecoded =>
    intro p lanes s u bytes hlink hactive hfit hcollect hdecode hbad
    rw [execFlitReceived_active hlink hactive hfit hcollect, State.flitTaken_corrupted u p.val _ hbad, hdecode, Option.elim_none]
  case good =>
    intro p lanes s u bytes d f hlink hactive hfit hcollect hdecode hgood hinit hstays
    rw [execFlitReceived_active hlink hactive hfit hcollect, State.flitTaken_good u p.val _ hdecode hgood, State.goodFlit_active hinit hstays]
  case recovers =>
    intro p s hlink hactive hdegraded hwindow hwithin
    rw [execErrorWindowEnd_passed hlink hactive hdegraded hwindow, if_pos hwithin]
  case overRuns =>
    intro p s u hlink hactive hdegraded hwindow hover hu
    obtain rfl : u = s.windowOver p.val := hu
    rw [execErrorWindowEnd_passed hlink hactive hdegraded hwindow, if_neg (Nat.not_le.2 hover)]
    exact ⟨fun hfew => by rw [if_neg (Nat.not_le.2 hfew)], fun hthird => by rw [if_pos hthird]⟩
  case failure =>
    intro p s u hlink hfailed hu
    obtain rfl : u = s.failureWithdrawn p.val := hu
    rw [execFabricPortFailure_failed hlink hfailed]
    exact ⟨fun hdown => by rw [if_neg hdown], fun hactive => by rw [if_pos hactive]⟩
  case spills =>
    intro p s hrun hrole hlane henabled hactive hfull hgranted hturn
    rw [execReplaySpill_full hrun hrole hlane henabled hactive hfull, if_pos hgranted, if_pos hturn]
    rfl
  case throttles =>
    intro p s hrun hrole hlane henabled hactive hfull hrefused hfirst
    rw [execReplaySpill_full hrun hrole hlane henabled hactive hfull, if_neg (Bool.eq_false_iff.1 hrefused), if_neg (Bool.eq_false_iff.1 hfirst)]
    rfl

end Sys2Proof
end

section
/-! SUPPORT. What ends with an epoch, the sample of an epoch, and the way of staged telemetry to the host (R164, R170, R171, R398; log entry 2). -/

namespace Sys2Proof.Machine

/-- An epoch that tide has passed ends, but after the commits of a meter that wait in the same clock (R164, R171; log entry 2). -/
theorem execMeterEpochEnd_passed {s : State} (hrun : s.running) (hpassed : s.core.epoch < s.tide / 1024) :
    exec .meterEpochEnd s = .next (
      if s.pending.any commitsMeter then { s with core := { s.core with epochWaits := true } } else s.epochEnd) := by
  show execMeterEpochEnd s = _
  exact congrArg _ (if_neg (by simp [hrun, hpassed]))

/-- An epoch that has no sample yet is sampled, but after its own end and the last reads of packets that wait in the same clock (R170, R171;
log entry 2). -/
theorem execSampleInstant_unsampled {s : State} (hrun : s.running) (hunsampled : s.core.sampledEpoch ≠ s.core.epoch) :
    exec .sampleInstant s = .next (
      if s.core.epochWaits || s.pending.any readsLast then { s with core := { s.core with sampleWaits := true } } else s.sampleNow) := by
  show execSampleInstant s = _
  exact congrArg _ (if_neg (by simp [hrun, hunsampled]))

/-- The oldest staged record of a ring goes to its slot of the host ring in the turn of telemetry (R398). -/
theorem execTelemetryHostWrite_oldest {r : Fin 8} {s : State} {e : Staged} (holdest : (s.stagedOf r.val).head? = some e)
    (hlive : s.viewLive (s.fld (ringFld ringHostView r.val) 0)) (hawake : s.mgmtQuiet (s.fld (ringFld ringHostView r.val) 0) = false)
    (hturn : s.telemetryTurn) :
    exec (.telemetryHostWrite r) s = .next (
      let s1 := s.hostWrite 0xFFFF (s.fld (ringFld ringHostView r.val) 0)
        (s.fld (ringFld ringHostBase r.val) 0 * 4096 + 144 * (e.seq % 2 ^ s.fld (ringFld ringLog2HostRecords r.val) 0)) e.words
      { s1.sdramAccess .telemetry (e.seq % s.stageRoom r.val) false with counters := { s1.counters with staged := s1.counters.staged.erase e } }) := by
  show execTelemetryHostWrite r s = _
  rw [execTelemetryHostWrite, holdest]
  exact if_pos (by simp [hlive, hawake, hturn])

end Sys2Proof.Machine
end

section
/-! The obligation on the refill of buckets, the sampling of queues and the telemetry rings. -/

namespace Sys2Proof
open Machine

/-- Settles O8: the end of an epoch and the sample each go at once or wait for what the same clock still holds, and the oldest record goes out. -/
theorem bucketsSamplesAndTelemetry : Obligations.BucketsSamplesAndTelemetry := by
  unfold Obligations.BucketsSamplesAndTelemetry
  refine ⟨?refills, ?refillWaits, ?samples, ?sampleWaits, fun _ _ _ => execTelemetryHostWrite_oldest⟩
  case refills =>
    intro s hrun hpassed hnone
    rw [execMeterEpochEnd_passed hrun hpassed, if_neg (Bool.eq_false_iff.1 hnone)]
  case refillWaits =>
    intro s hrun hpassed hcommits
    rw [execMeterEpochEnd_passed hrun hpassed, if_pos hcommits]
  case samples =>
    intro s hrun hunsampled hended hnone
    rw [execSampleInstant_unsampled hrun hunsampled, if_neg (by simp [hended, hnone]), State.sampleNow]
  case sampleWaits =>
    intro s hrun hunsampled hwaits
    rw [execSampleInstant_unsampled hrun hunsampled, if_pos (Bool.or_eq_true_iff.2 hwaits)]

end Sys2Proof
end

section
/-! SUPPORT. Functions below device ports: how their resets end or time out, and how they are lost, found and enumerated (R190, R192). -/

namespace Sys2Proof.Machine

section
variable {g : GateSlot} {s : State}

theorem execFlrCompletionPoll_answered (hrun : s.running)
    (hwaits : s.tenancy.flrs.any (fun f => decide (f.slot = g) && decide (f.ld = 0xFF) && decide (f.readAt ≤ s.now))) :
    exec (.flrCompletionPoll g true) s = .next (s.resetDone g 0xFF) := by
  show execFlrCompletionPoll g true s = _
  exact congrArg _ (if_pos (by rw [hrun, hwaits]; rfl))

theorem execLogicalDeviceResetComplete_waiting {ld : Fin 16} (hrun : s.running)
    (hwaits : s.tenancy.flrs.any (fun f => decide (f.slot = g) && decide (f.ld = ld.val))) :
    exec (.logicalDeviceResetComplete g ld) s = .next (s.resetDone g ld.val) := by
  show execLogicalDeviceResetComplete g ld s = _
  exact congrArg _ (if_pos (by rw [hrun, hwaits]; rfl))

/-- The pending resets of a tenant have failed (R190). -/
def State.tenantResetFailed (s : State) (t : Nat) : State :=
  { s with tenancy := { s.tenancy with
    resets := s.tenancy.resets.map (fun (r : TenReset) => if r.tenant.val = t then { r with failed := true } else r) } }

/-- A function or logical device whose reset took 1,000 ms is recorded at Grade 1 and contained under that record (R190). -/
def State.lateResetContained (s : State) (g : GateSlot) (ld : Nat) : State :=
  let r := s.record { grade := 1, checker := checkerId 0x16 (s.fld fnPort (homeSel g.val)), cls := cFunction, sel := homeSel g.val,
                      syn0 := ld, syn1 := 1000000000, action := 2, key := 8 }
  r.1.containFn r.2.1 g.val ld

theorem execFlrTimeout_due {ld : Nat} {f : FlrWait} (hrun : s.running)
    (hdue : s.tenancy.flrs.find? (fun f => decide (f.slot = g) && decide (f.ld = ld) && decide (f.deadline ≤ s.now)) = some f) :
    exec (.flrTimeout g ld) s = .next (((s.resetDone g ld).tenantResetFailed f.tenant).lateResetContained g ld) := by
  show execFlrTimeout g ld s = _
  rw [execFlrTimeout, hdue]
  exact if_neg (by simp [hrun])

end

theorem execDevicePortPresenceLoss_device {p : PortId} {s : State} (hrun : s.running) (hrole : s.role p.val = roleDevice) :
    exec (.devicePortPresenceLoss p) s = .next
      ((((s.fnsBelow p.val).filter (fun f => s.fld fnState (homeSel f) = 1)).foldl (fun s f => s.fnRemoved p.val f) s).retriesAnew p.val
        allSlots) := by
  show execDevicePortPresenceLoss p s = _
  exact congrArg _ (if_pos (by simp [hrun, hrole]))

section
variable {p : PortId} {bus devfn : Nat} {f : FnIdent} {s : State}

/-- A function that enumeration finds is recorded where it lies beyond the port's slots, and otherwise goes to its slot (R181, R192). -/
theorem execFunctionEnumerated_found (henum : s.enumerates p.val bus) :
    exec (.functionEnumerated p bus devfn (some f)) s = .next (
      if s.fld portSlotCount p.val ≤ (bus - 1) * 256 + devfn % 256 then
        s.raise { grade := 0, checker := checkerId 0x16 p.val, cls := cPort, sel := p.val, syn0 := bus * 256 + devfn % 256, syn1 := 0
                  action := 0, key := 0 }
      else s.enumerated p.val (s.fld portSlotBase p.val + ((bus - 1) * 256 + devfn % 256)) bus (devfn % 256) (some f)) := by
  have hopen : ¬(!s.running || s.role p.val ≠ roleDevice || s.lane0 p.val ≠ p.val || !s.edgeLinkUp p.val || bus = 0) := by
    simpa [State.enumerates, and_assoc] using henum
  show execFunctionEnumerated p bus devfn (some f) s = _
  exact (if_neg hopen).trans (apply_ite Host.Outcome.next ..).symm

theorem execFunctionEnumerated_exposed {slot : Nat} (henum : s.enumerates p.val bus)
    (hwithin : (bus - 1) * 256 + devfn % 256 < s.fld portSlotCount p.val)
    (hslot : slot = s.fld portSlotBase p.val + ((bus - 1) * 256 + devfn % 256)) :
    exec (.functionEnumerated p bus devfn (some f)) s = .next (s.enumerated p.val slot bus (devfn % 256) (some f)) := by
  rw [execFunctionEnumerated_found henum, if_neg (Nat.not_le.2 hwithin), hslot]

end

/-! What enumeration makes of a function that it finds, by the state of its slot (R192). -/

section
variable {s : State} (p : Nat) {slot : Nat} (bus devfn : Nat) (f : FnIdent)

theorem State.enumerated_absent (habsent : s.fld fnState (homeSel slot) = 0) :
    s.enumerated p slot bus devfn (some f)
      = (((s.barsFound slot 0 (f.bars.take 6)).fnTakes p slot bus devfn f).put fnState (homeSel slot) 1).tellViews slot (.presence true) := by
  have hpresent : s.fld fnState (homeSel slot) ≠ 2 := by rw [habsent]; decide
  exact (if_neg hpresent).trans (if_pos habsent)

theorem State.enumerated_removed (hremoved : s.fld fnState (homeSel slot) = 2) :
    s.enumerated p slot bus devfn (some f) =
      let u := s.barsFound slot 0 (f.bars.take 6)
      if s.fld fnVendorId (homeSel slot) = f.vendor % 65536 ∧ s.fld fnDeviceId (homeSel slot) = f.device % 65536 then
        (((u.put fnState (homeSel slot) 1).forgetIds slot).fnLift slot).tellViews slot (.presence true)
      else { u with tenancy := { u.tenancy with
        newIds := (u.forgetIds slot).tenancy.newIds ++ [(slot, f.vendor % 65536, f.device % 65536)] } } :=
  if_pos hremoved

end

end Sys2Proof.Machine
end

section
/-! The obligation on the resets of functions, their loss and their enumeration. -/

namespace Sys2Proof
open Machine

/-- Settles O20, one clause for each end of a reset, for the loss of presence, and for each way in which enumeration finds a function. -/
theorem functionsResetComeAndGo : Obligations.FunctionsResetComeAndGo := by
  unfold Obligations.FunctionsResetComeAndGo
  refine ⟨fun _ _ => execFlrCompletionPoll_answered, fun _ _ _ => execLogicalDeviceResetComplete_waiting, fun _ _ _ _ => execFlrTimeout_due,
    fun _ _ => execDevicePortPresenceLoss_device, ?absent, ?known, ?changed, ?beyond⟩
  case absent =>
    rintro p bus devfn slot f s _ henum hwithin hslot - rfl habsent
    rw [execFunctionEnumerated_exposed henum hwithin hslot, State.enumerated_absent _ _ _ _ habsent]
  case known =>
    rintro p bus devfn slot f s _ henum hwithin hslot - rfl hremoved hvendor hdevice
    rw [execFunctionEnumerated_exposed henum hwithin hslot, State.enumerated_removed _ _ _ _ hremoved, if_pos ⟨hvendor, hdevice⟩]
  case changed =>
    rintro p bus devfn slot f s u henum hwithin hslot - hu hremoved hother
    rw [execFunctionEnumerated_exposed henum hwithin hslot, State.enumerated_removed _ _ _ _ hremoved, if_neg hother, hu]
  case beyond =>
    intro p bus devfn f s henum hbeyond
    rw [execFunctionEnumerated_found henum, if_pos hbeyond]

end Sys2Proof
end

section
/-! SUPPORT. Commands other than stores, the accesses that drain them, and resets leave every byte of coordination memory as it was, but where the
end of the last program of an orderly power-down drains the held stores (R195, R207, R345). -/

namespace Sys2Proof.Machine

/-- Coordination memory stays as it is, but where the device goes down in order, which drains the held stores (R345). -/
structure CmKept (s t : State) : Prop where
  of_up : t.power.phase ≠ .down → t.cm = s.cm

theorem CmKept.of_cm {s t : State} (h : t.cm = s.cm) : CmKept s t := ⟨fun _ => h⟩

theorem CmKept.refl (s : State) : CmKept s s := .of_cm rfl

theorem Keeps.cm_eq {s t : State} (h : Keeps s t) : t.cm = s.cm := by
  obtain ⟨-, hcm, -⟩ := h
  exact hcm

theorem Overlays.cm_eq {s t : State} (h : Overlays s t) : t.cm = s.cm := by
  obtain ⟨-, hcm, -⟩ := h
  exact hcm

theorem Keeps.cmKept {s t : State} (h : Keeps s t) : CmKept s t := .of_cm h.cm_eq

theorem Overlays.cmKept {s t : State} (h : Overlays s t) : CmKept s t := .of_cm h.cm_eq

/-- What leaves coordination memory alone may go before. -/
theorem CmKept.after {s t u : State} (h : CmKept t u) (hcm : t.cm = s.cm) : CmKept s u :=
  ⟨fun hup => (h.of_up hup).trans hcm⟩

theorem CmKept.ite {c : Prop} [Decidable c] {s a b : State} (ha : CmKept s a) (hb : CmKept s b) : CmKept s (if c then a else b) := by
  split <;> assumption

/-- A write of a register reaches neither the power state nor coordination memory. -/
theorem CmKept.setReg {s t : State} (h : CmKept s t) (v off : Nat) (w : Word) : CmKept s (t.setReg v off w) := ⟨h.of_up⟩

theorem State.orWait_cmKept {s t : State} (h : CmKept s t) : CmKept s (s.orWait t) := .ite (.refl s) h

theorem Ends.cmKept_of_keeps {s : State} {o : Host.Outcome State Fault Refusal} (h : Ends Keeps s o) : Ends CmKept s o :=
  h.mono fun _ => Keeps.cmKept

/-! ### The end of a program (R32, R345) -/

theorem State.showPerst_power (s : State) (ps : List Nat) : (s.showPerst ps).power = s.power := by
  induction ps generalizing s with
  | nil => rfl
  | cons p ps ih => exact ih _

theorem State.mgmtPost_power (s : State) (v : Nat) (body : Body) (data : List Byte) : (s.mgmtPost v body data).power = s.power := by
  rw [State.mgmtPost]
  split <;> rfl

theorem notifyViews_power (vs : List Nat) (s : State) : (notifyViews vs s).power = s.power := by
  induction vs generalizing s with
  | nil => rfl
  | cons v vs ih =>
    rw [notifyViews, ih]
    split
    · rfl
    · exact s.mgmtPost_power ..

/-- Either the power-down does not go on, or its last phase is reached. -/
theorem State.whenDown_cmKept (s : State) : CmKept s s.whenDown := by
  unfold State.whenDown
  extract_lets s1 s2
  refine .ite ⟨fun hup => absurd ?down hup⟩ (.refl s)
  case down => rw [State.notify, notifyViews_power, State.showHosts, State.showPerst_power]

theorem State.endProg_cmKept (s : State) (id : Nat) (st : Status) : CmKept s (s.endProg id st) := by
  unfold State.endProg
  split
  · exact .refl s
  next p _ =>
    extract_lets fw s1 seq t tally s2
    have logged : Keeps s s1 := .ite (.ite (.refl s) (s.logEntry_keeps _)) (s.logEntry_keeps _)
    have counted : Keeps s s2 := (logged.trans (s1.tallyCount_keeps _)).trans (State.upTally_keeps ..)
    exact (State.whenDown_cmKept _).after (counted.trans (s2.report_keeps ..)).cm_eq

theorem State.fwdEnd_cmKept (s : State) (f : FwdOut) (st failWord : Nat) (seq : Word) (rods : List Word) :
    CmKept s (s.fwdEnd f st failWord seq rods) := by
  unfold State.fwdEnd
  extract_lets tally s1
  have answered : Keeps s1 (if f.silent then s1 else s1.completeDesc f.q f.via f.desc f.descIndex f.irq st failWord seq rods) :=
    .ite (.refl s1) (State.completeDesc_keeps ..)
  exact (State.whenDown_cmKept _).after answered.cm_eq

theorem State.askAbort_cmKept (s : State) (p : Prog) : CmKept s (s.askAbort p) := .ite (s.upd_keeps ..).cmKept (s.endProg_cmKept ..)

theorem State.park_cmKept (s : State) (id due : Nat) : CmKept s (s.park id due) :=
  .ite (s.endProg_cmKept ..) ((s.upd_keeps ..).trans (State.tallyCount_keeps ..) |>.trans (State.upTally_keeps ..)).cmKept

theorem State.objFail_cmKept (s : State) (id : Nat) (r : ObjReq) (st : Status) (dst : Option Word) : CmKept s (s.objFail id r st dst) :=
  .ite ((s.upd_keeps ..).trans (State.proceed_keeps ..)).cmKept ((State.endProg_cmKept ..).after rfl)

theorem State.resetAnswer_cmKept (s : State) (p : Prog) (failed : Bool) : CmKept s (s.resetAnswer p failed) :=
  .ite (.ite (s.endProg_cmKept ..) (s.proceed_keeps ..).cmKept) (.ite (s.objFail_cmKept ..) (s.proceed_keeps ..).cmKept)

/-! ### Object instructions and commits (R45 to R47) -/

theorem State.applyNow_cmKept (s : State) (p : Prog) (r : ObjReq) : CmKept s (s.applyNow p r) := by
  have applied (t : State) : Overlays t (t.applyObj r).st := t.applyObj_overlays r
  unfold State.applyNow
  extract_lets o s1 o1
  refine .ite ?failed (.ite ?change ?read)
  case failed => exact (State.objFail_cmKept ..).after ((applied s).trans (State.blame_keeps ..).toOverlays).cm_eq
  case change =>
    have logged : Keeps s s1 := (State.tallyCount_keeps ..).trans (State.logEntry_keeps ..)
    have settled : Keeps o1.st ((s.settle (o1.st.bumpAll o1.changed) p.id).upd p.id (fun q => q.result r .ok o1.dst)) :=
      (State.bumpAll_keeps ..).trans (State.settle_keeps ..) |>.trans (State.upd_keeps ..)
    exact ((logged.toOverlays.trans (applied s1)).trans (settled.trans (State.afterCommit_keeps ..)).toOverlays).cmKept
  case read => exact ((applied s).trans (State.proceed_keeps ..).toOverlays).cmKept

theorem State.stageObj_cmKept (s : State) (p : Prog) (r : ObjReq) : CmKept s (s.stageObj p r) := by
  unfold State.stageObj
  extract_lets sh o recs s1 s2
  have evaluated : Overlays s s1 := .ite (State.upFree_keeps ..).toOverlays (s.readEffects_overlays sh r o)
  have recorded : Overlays s s2 := evaluated.trans (State.upd_keeps ..).toOverlays
  refine .ite ((State.objFail_cmKept ..).after evaluated.cm_eq) (.ite ?failed (recorded.trans (State.proceed_keeps ..).toOverlays).cmKept)
  case failed => exact (State.objFail_cmKept ..).after (recorded.trans (State.blame_keeps ..).toOverlays).cm_eq

theorem State.objNow_cmKept (s : State) (p : Prog) (r : ObjReq) : CmKept s (s.objNow p r) :=
  .ite (s.stageObj_cmKept p r) (.ite (s.objFail_cmKept ..) (s.applyNow_cmKept p r))

theorem State.commitPoint_cmKept (s : State) (p : Prog) : CmKept s (s.commitPoint p) := by
  unfold State.commitPoint
  extract_lets c s1 d s2
  refine .ite (State.endProg_cmKept ..) (.ite ?conflict (.ite ?refused ?applied))
  case conflict => exact (State.endProg_cmKept ..).after (State.tallyCount_keeps ..).cm_eq
  case refused => exact (State.endProg_cmKept ..).after (State.blame_keeps ..).cm_eq
  case applied =>
    have logged : Keeps s s1 := (State.tallyCount_keeps ..).trans (State.logEntry_keeps ..)
    have settled : Keeps d.st s2 := (State.bumpAll_keeps ..).trans (State.settle_keeps ..) |>.trans (State.upd_keeps ..)
    have committed : Overlays s d.st := logged.toOverlays.trans (s1.commitAll_overlays p.staged)
    exact (committed.trans (settled.trans (State.afterCommit_keeps ..)).toOverlays).cmKept

/-! ### Rows of one instruction -/

theorem State.instrRow_cmKept (s : State) (id : Nat) (want : Prog → Bool) {f : State → Prog → State} (hf : ∀ t p, CmKept t (f t p)) :
    Ends CmKept s (s.instrRow id want f) := by
  unfold State.instrRow
  split
  · exact .next (.refl s)
  · exact .ite (.next (State.orWait_cmKept (.ite (s.endProg_cmKept ..) ((hf ..).after rfl)))) (.next (.refl s))

theorem State.rodRow_cmKept (s : State) (id op : Nat) (f : Prog → Word) : Ends CmKept s (s.rodRow id op f) :=
  s.instrRow_cmKept id _ fun t _ => (t.proceed_keeps ..).cmKept

theorem State.branchRow_cmKept (s : State) (id op : Nat) (c : Word → Bool) : Ends CmKept s (s.branchRow id op c) :=
  s.instrRow_cmKept id _ fun t _ => (t.proceed_keeps ..).cmKept

theorem State.objRow_cmKept (s : State) (id : Nat) (want : ObjReq → Bool) (image : Option (List Word)) :
    Ends CmKept s (s.objRow id want image) :=
  s.instrRow_cmKept id _ fun t p => .ite (t.upd_keeps ..).cmKept (t.objNow_cmKept p _)

theorem execNop_cmKept (prog : Nat) (s : State) : Ends CmKept s (execNop prog s) :=
  s.instrRow_cmKept prog _ fun t _ => (t.proceed_keeps ..).cmKept

theorem execHalt_cmKept (prog : Nat) (s : State) : Ends CmKept s (execHalt prog s) := by
  unfold execHalt
  split
  · exact .next (.refl s)
  · exact .ite (.next (State.orWait_cmKept (s.endProg_cmKept ..))) (s.instrRow_cmKept _ _ fun t _ => t.endProg_cmKept ..)

theorem execBeginTx_cmKept (prog : Nat) (s : State) : Ends CmKept s (execBeginTx prog s) :=
  s.instrRow_cmKept prog _ fun t _ => .ite (t.endProg_cmKept ..) (t.proceed_keeps ..).cmKept

theorem execAbort_cmKept (prog : Nat) (s : State) : Ends CmKept s (execAbort prog s) :=
  s.instrRow_cmKept prog _ fun t _ => t.endProg_cmKept ..

theorem execAtTide_cmKept (prog : Nat) (s : State) : Ends CmKept s (execAtTide prog s) :=
  s.instrRow_cmKept prog _ fun t _ => .ite (t.endProg_cmKept ..)
    (.ite (t.park_cmKept ..) (.ite (t.endProg_cmKept ..) (t.proceed_keeps ..).cmKept))

theorem execWaitTide_cmKept (prog : Nat) (s : State) : Ends CmKept s (execWaitTide prog s) :=
  s.instrRow_cmKept prog _ fun t _ => .ite (t.proceed_keeps ..).cmKept (t.park_cmKept ..)

theorem execSyncCommits_cmKept (prog : Nat) (s : State) : Ends CmKept s (execSyncCommits prog s) :=
  s.instrRow_cmKept prog _ fun t _ => (t.upd_keeps ..).cmKept

theorem execSyncQueue_cmKept (prog : Nat) (s : State) : Ends CmKept s (execSyncQueue prog s) :=
  s.instrRow_cmKept prog _ fun t _ => (t.upd_keeps ..).cmKept

theorem execLogNote_cmKept (prog : Nat) (s : State) : Ends CmKept s (execLogNote prog s) :=
  s.instrRow_cmKept prog _ fun t _ => ((t.logEntry_keeps ..).trans (State.proceed_keeps ..)).cmKept

theorem execCommit_cmKept (prog : Nat) (s : State) : Ends CmKept s (execCommit prog s) :=
  s.instrRow_cmKept prog _ fun t p => .ite (t.commitPoint_cmKept p) (t.endProg_cmKept ..)

/-! ### Rows that take up a program that waits, or end it (R35, R49, R52, R55, R62, R63, R190) -/

theorem execTqAbortGo_cmKept (q : QueueId) (value : BitVec 32) (s : State) : Ends CmKept s (execTqAbortGo q value s) := by
  unfold execTqAbortGo
  dsimp only
  split
  · exact .next (.refl s)
  · refine .ite (.next (.refl s)) (.ite (.next (State.setRegBits_keeps ..).cmKept) ?_)
    split
    · exact .next ((CmKept.refl s).setReg ..)
    · exact .ite (.next ((CmKept.refl s).setReg ..)) (.next ((s.askAbort_cmKept _).setReg ..))

theorem execProgramStart_cmKept (prog : Nat) (s : State) : Ends CmKept s (execProgramStart prog s) := by
  have started (f : Prog → Prog) : CmKept s (s.upd prog f) := (s.upd_keeps prog f).cmKept
  have ended (st : Status) : CmKept s (s.orWait (s.endProg prog st)) := State.orWait_cmKept (s.endProg_cmKept ..)
  unfold execProgramStart
  dsimp only
  split
  · exact .next (.refl s)
  · refine .ite (.next (.refl s)) (.ite ?waiting (.ite ?resuming (.next (.refl s))))
    case waiting => exact .ite (.next (ended _)) (.ite (.next (started _)) (.next (.refl s)))
    case resuming => exact .ite (.next (ended _)) (.ite (.next (started _)) (.next (.refl s)))

theorem execInstructionLimitTimeout_cmKept (prog : Nat) (s : State) : Ends CmKept s (execInstructionLimitTimeout prog s) := by
  unfold execInstructionLimitTimeout
  split
  · exact .next (.refl s)
  · exact .ite (.next (State.orWait_cmKept (s.endProg_cmKept ..))) (.next (.refl s))

theorem execParkedProgramDue_cmKept (prog : Nat) (s : State) : Ends CmKept s (execParkedProgramDue prog s) := by
  unfold execParkedProgramDue
  dsimp only
  split
  · exact .next (.refl s)
  · refine .ite (.next (.refl s)) (.ite (.next (State.orWait_cmKept (s.endProg_cmKept ..))) ?_)
    exact .ite (.next (s.unpark_keeps _).cmKept) (.next (.refl s))

theorem execSyncComplete_cmKept (prog : Nat) (s : State) : Ends CmKept s (execSyncComplete prog s) := by
  have ended (st : Status) : CmKept s (s.orWait (s.endProg prog st)) := State.orWait_cmKept (s.endProg_cmKept ..)
  have goesOn (f : Prog → Prog) : CmKept s (s.proceed prog f) := (s.proceed_keeps prog f).cmKept
  unfold execSyncComplete
  dsimp only
  split
  · exact .next (.refl s)
  · split
    · exact .next (.ite (.ite (ended _) (goesOn _)) (.refl s))
    · exact .next (.ite (.ite (ended _) (goesOn _)) (.refl s))
    · exact .next (.refl s)

theorem execTallyResultReceived_cmKept (fwdId : Nat) (result logSeq : Word) (rods : List Word) (s : State) :
    Ends CmKept s (execTallyResultReceived fwdId result logSeq rods s) := by
  unfold execTallyResultReceived
  refine .ite (.next (.refl s)) ?_
  split
  · exact .next (.refl s)
  · exact .next (.ite (s.fwdEnd_cmKept ..) (.refl s))

theorem execForwardAcceptTimeout_cmKept (fwdId : Nat) (s : State) : Ends CmKept s (execForwardAcceptTimeout fwdId s) := by
  unfold execForwardAcceptTimeout
  split
  · exact .next (.refl s)
  · exact .next (.ite (s.fwdEnd_cmKept ..) (.refl s))

theorem execUnbindDrainDone_cmKept (prog : Nat) (s : State) : Ends CmKept s (execUnbindDrainDone prog s) := by
  unfold execUnbindDrainDone
  split
  · exact .next (.refl s)
  · split
    · refine .ite (.next (.refl s)) (.ite (.next (State.orWait_cmKept (s.endProg_cmKept ..))) ?_)
      exact .ite (.next (.refl s)) (.next (State.orWait_cmKept (s.objNow_cmKept ..)))
    · exact .next (.refl s)

theorem execUnbindDrainTimeout_cmKept (prog : Nat) (s : State) : Ends CmKept s (execUnbindDrainTimeout prog s) := by
  unfold execUnbindDrainTimeout
  split
  · exact .next (.refl s)
  · split
    · exact .ite (.next (State.orWait_cmKept (.ite (s.endProg_cmKept ..) (s.objFail_cmKept ..)))) (.next (.refl s))
    · exact .next (.refl s)

theorem execTenantResetEnd_cmKept (t : TenantId) (s : State) : Ends CmKept s (execTenantResetEnd t s) := by
  unfold execTenantResetEnd
  split
  · exact .next (.refl s)
  next r _ =>
    refine .ite (.next (.refl s)) ?_
    extract_lets others tenancy s1
    have returned : Keeps s s1 := (State.upTenancy_keeps ..).trans (State.put_keeps ..)
    refine .ite (.next returned.cmKept) ?_
    split
    · exact .next returned.cmKept
    · exact .next (State.orWait_cmKept (.ite ((s1.resetAnswer_cmKept ..).after returned.cm_eq) returned.cmKept))

/-! ### Every row -/

/-- Object rows and the other rows of programs keep coordination memory where they do not end a power-down, and the rest write no byte of it. -/
theorem exec_cmKept {c : Instr} (hc : touchesCm c = false) (s : State) : Ends CmKept s (exec c s) := by
  unfold exec
  cases c with
  | cmRead _ _ _ _ _ | cmPostedWrite _ _ _ _ | heldStoreApplied _ _ | reservedLoad _ _ _ _ | conditionalStoreApplied _ _
  | cmAtomicOp _ _ _ _ _ _ _ _ | pmeTurnOff _ | configRequest _ _ | faultEvent _ | lockstepMismatch | coldReset _ | pwrOkFall
  | deviceReset | haltRestartTimeout => cases hc
  | oread _ | owrite _ | ocas _ | portCfg _ | portStateEnable _ | portStateDisable _ | portStateRetrain _ | portStateHotReset _
  | portStateOutOfService _ | portStateBackInService _ | route _ | pathGrp _ | withdraw _ | withdrawRestore _ | tenantCreate _
  | tenantDelete _ | tenantSuspend _ | tenantResume _ | tenantReset _ | bindFn _ | unbindFn _ | gateSet _ | resizeQuota _ | meter _ | sched _
  | qpCreate _ | qpModify _ | qpFlush _ | qpDestroy _ | region _ | revoke _ | cqCreate _ | cqDestroy _ | cqResize _ | slotPwrOff _
  | slotPwrOn _ | slotPwrCycle _ | slotPwrLimits _ | budget _ | snap _ | query _ | inject _ | faultAck _ | deviceFabricIdWrite _
  | deviceResetRequest _ | orderlyPowerDown _ | injectArmWrite _ | bankTargetState _ | bankTest _ | laneTargetState _ | laneTestConfig _
  | laneClearCheck _ | marginGo _ | laneTapWrite _ | slotTest _ | slotTargetState _ | slotAutoOnSet _ | slotClearEnergy _ | slotPeakClear _
  | feedTargetState _ | meterClearCounts _ | schedqMaxClear _ | tempPeakReset _ | tideSourceSet _ | sdramOutOfService _ | hostViewWrite _
  | slotRangeWrite _ | snapshotSetWrite _ | telemetryRingWrite _ | rxPoolWrite _ | overlayStore _ _
  | overlayApply _ | overlayRemove _ | overlayDelete _ => exact State.objRow_cmKept ..
  | jmp _ | bz _ | bnz _ | blt _ => exact State.branchRow_cmKept ..
  | ldi _ | mov _ | add _ | sub _ | andOp _ | orOp _ | xorOp _ | shl _ | shr _ | cmp _ => exact State.rodRow_cmKept ..
  | _ => simp only [Ends.cmKept_of_keeps, execTqAbortGo_cmKept, execProgramStart_cmKept, execInstructionLimitTimeout_cmKept, execNop_cmKept,
      execHalt_cmKept, execBeginTx_cmKept, execAbort_cmKept, execAtTide_cmKept, execWaitTide_cmKept, execParkedProgramDue_cmKept,
      execSyncCommits_cmKept, execSyncQueue_cmKept, execSyncComplete_cmKept, execLogNote_cmKept, execTenantResetEnd_cmKept,
      execUnbindDrainTimeout_cmKept, execTallyResultReceived_cmKept, execForwardAcceptTimeout_cmKept, execCommit_cmKept, execUnbindDrainDone_cmKept,
      execTqTailDoorbell_keeps, execTqSizeWrite_keeps, execTqBaseWrite_keeps, execRegisterWrite_keeps, execProgramFetchComplete_keeps,
      execRevokeComplete_keeps, execBankTestEnd_keeps, execBankDrained_keeps, execPrbsCheckLock_keeps, execMarginDone_keeps, execSlotTestEnd_keeps,
      execSdramMigrationDone_keeps, execTallyFwdReceived_keeps, execTallyFragmentTimeout_keeps, execTallyAcceptReceived_keeps,
      execLbMirrorCtrlWrite_keeps, execLbMirrorBaseWrite_keeps, execLogbookSdramCopy_keeps, execMirrorWrite_keeps, execLbExportGo_keeps,
      execExportEnd_keeps, execBaseConfiguration_keeps, execBaseDone_keeps, execPacketReceived_keeps, execHeldPacketReevaluate_keeps,
      execEgressPacketBegin_keeps, execCrossbarSecondRead_keeps, execCutThroughPause_keeps, execCutThroughResume_keeps, execPacketCellsFreed_keeps,
      execFreeListAuditPass_keeps, execCongestionUpdate_keeps, execEqualWeightPeriodEnd_keeps, execSendRecordSilenceClose_keeps,
      execReorderPacketArrival_keeps, execGapTimerExpiry_keeps, execReceiveRecordSilenceFree_keeps, execTeardownReceived_keeps,
      execFabricPortFailure_keeps, execWithdrawMessageReceived_keeps, execReplayResend_keeps, execSpilledResend_keeps, execAutoRestoreExpiry_keeps,
      execCompletionReceived_keeps, execEdgeLinkDownClose_keeps, execRemoteCmReadTimeout_keeps, execPresenceMessageReceived_keeps,
      execBindNoticeReceived_keeps, execBindConfirmReceived_keeps, execBindResetReceived_keeps, execDeliveryReceived_keeps, execMeterEpochEnd_keeps,
      execSampleInstant_keeps, execTelemetryHostWrite_keeps, execFlrCompletionPoll_keeps, execFlrTimeout_keeps, execDevicePortPresenceLoss_keeps,
      execFunctionEnumerated_keeps, execReservationExpiry_keeps, execTrackedWriteVisible_keeps, execCmBarrier_keeps, execBarrierComplete_keeps,
      execCmBarrierStatusRead_keeps, execBarrierStatusHoldExpiry_keeps, execCmScStatusRead_keeps, execTideNowRead_keeps, execDoorbellSend_keeps,
      execDoorbellRecv_keeps, execDoorbellCqArm_keeps, execDoorbellCqConsumer_keeps, execWorkRequestStart_keeps, execContextMissFill_keeps,
      execLighterPacketSend_keeps, execLighterRequestReceived_keeps, execTranslationComplete_keeps, execAckSend_keeps, execAckReceived_keeps,
      execLighterResponseReceived_keeps, execNakReceived_keeps, execRetransmissionTimerExpiry_keeps, execWorkRequestCommit_keeps,
      execFenceResponseReady_keeps, execInvalidateRequest_keeps, execFlitReceived_keeps, execReplayRequestReceived_keeps, execInitReceived_keeps,
      execCreditTimeout_keeps, execErrorWindowEnd_keeps, execFastRetrainStart_keeps, execRetrainTimeout_keeps, execInitTimeout_keeps,
      execHeldTimerExpiry_keeps, execResizeReqReceived_keeps, execResizeAckReceived_keeps, execResizeNakReceived_keeps,
      execResizePauseTimeout_keeps, execLinkDrainEnd_keeps, execReplaySpill_keeps, execTideSyncSend_keeps, execTideSyncReceived_keeps,
      execTideFollowReceived_keeps, execTideDreqReceived_keeps, execTideDrespReceived_keeps, execTideMeasurement_keeps, execTideSourceLoss_keeps,
      execScheduledEventFire_keeps, execMarkerReceived_keeps, execLaneLossOfLock_keeps, execSteerLimitExpiry_keeps, execBringUpAttemptFail_keeps,
      execLanesAligned_keeps, execLaneGrant_keeps, execCalibrationPassDue_keeps, execCalibrationRequestTimeout_keeps, execCalibrationEnd_keeps,
      execCalibrationWindow_keeps, execPerstNChange_keeps, execHostPortDetect_keeps, execUnsupportedRequest_keeps, execHostLinkDownViewReset_keeps,
      execFunctionLevelReset_keeps, execFlrEnd_keeps, execSecondaryBusReset_keeps, execDpcTrigger_keeps, execDpcRelease_keeps,
      execCompletionTimeout_keeps, execTlpNullify_keeps, execL1Exit_keeps, execL0pWidthChange_keeps, execMctpMessage_keeps,
      execClockInputLoss_keeps, execRefclkReturn_keeps, execManagementPathReady_keeps, execDevRstNRise_keeps, execMergeQuietClose_keeps,
      execLeakDecrement_keeps, execFaultLogWrite_keeps, execInjectionExpiry_keeps, execThermalTrip_keeps, execOverTemperature_keeps,
      execRailOutOfRange_keeps, execWearGaugeComparison_keeps, execPresenceDebounced_keeps, execPresenceLost_keeps, execDwellElapsed_keeps,
      execSlotGrant_keeps, execPowerGood_keeps, execPerstDelayEnd_keeps, execRampLimitTimeout_keeps, execCurrentLimitEnter_keeps,
      execFaultTimerExpiry_keeps, execBreakerFire_keeps, execInputUndervoltage_keeps, execRetryCountReset_keeps, execOrderlyOffGate_keeps,
      execAttentionRequest_keeps, execFeedReverseBlock_keeps, execFeedInputOutOfRange_keeps, execMeasurementPublish_keeps,
      execMeasurementSample_keeps, execSnapshotCapture_keeps, execSnapshotBufferWritten_keeps, execCounterUncorrectable_keeps,
      execCurrentLimitExit_keeps, execFeedConductionStart_keeps, execPtmDialogueStart_keeps, execLogicalDeviceResetComplete_keeps,
      execLinkUpL0_keeps, execTxMarkerBoundary_keeps]

end Sys2Proof.Machine
end

section
/-! The obligation on what changes coordination memory. -/

namespace Sys2Proof
open Machine

/-- Settles O48: what writes a byte is a store, its drain or a reset, and the other rows drain only as the last program of a power-down ends. -/
theorem onlyStoresAndResetsChangeCoordinationMemory : Obligations.OnlyStoresAndResetsChangeCoordinationMemory := by
  unfold Obligations.OnlyStoresAndResetsChangeCoordinationMemory
  intro c s t hc hexec
  exact ((exec_cmKept hc s).of_next t hexec).of_up

end Sys2Proof
end

section
/-! SUPPORT. Bytes of coordination memory, and what the end of a held store makes of them (R195, R200, R202, R208). -/

namespace Sys2Proof.Machine

/-! ### Consecutive bytes -/

theorem tget_cmWrite_outside (m : List Host.Cell) (a : Nat) (bs : List Byte) {k : Nat} (hk : k < a ∨ a + bs.length ≤ k) :
    tget 0 (cmWrite m a bs) k = tget 0 m k := by
  induction bs generalizing m a with
  | nil => rfl
  | cons b bs ih =>
    rw [List.length_cons] at hk
    rw [cmWrite, ih _ _ (by omega)]
    split
    · exact tget_tput_other _ _ _ _ _ _ (by omega)
    · rfl

theorem tget_cmWrite_inside {m : List Host.Cell} (hm : Memory.wf m = true) {a : Nat} {bs : List Byte} (hend : a + bs.length ≤ 8388608)
    {i : Nat} (hi : i < bs.length) : tget 0 (cmWrite m a bs) (a + i) = bs.getD i 0 := by
  induction bs generalizing m a i with
  | nil => cases hi
  | cons b bs ih =>
    rw [List.length_cons] at hend hi
    cases i with
    | zero =>
      have htable : twf (fun _ => (0 : Byte)) m = true := (Bool.and_eq_true_iff.1 hm).1
      rw [cmWrite, tget_cmWrite_outside _ _ _ (by omega), if_pos (by omega)]
      exact tget_tput_same _ m a b htable
    | succ i =>
      have hfirst : Memory.wf (cmWrite m a [b]) = true := cmWrite_wf m a [b] hm
      have hrest := ih hfirst (a := a + 1) (by omega) (Nat.lt_of_succ_lt_succ hi)
      rwa [Nat.add_assoc, Nat.add_comm 1 i] at hrest

/-! ### The end of a held store -/

/-- A state without one of its held stores. -/
def State.unheld (s : State) (h : HeldStore) : State := { s with cms := { s.cms with held := s.cms.held.erase h } }

/-- Why a conditional store fails as it is applied, 0 where it succeeds: what its arrival settled, or its reservation now (R208). -/
def State.scOutcome (s : State) (v : ViewId) (h : HeldStore) : Nat :=
  if h.fails ≠ 0 then h.fails else (s.unheld h).scReason v (lineOf h.addr)

theorem State.scResolve_cms (s : State) (v w reason : Nat) : (s.scResolve v w reason).cms = s.cms := by
  unfold State.scResolve
  extract_lets q s1
  split <;> rfl

theorem State.dropHeld_held (s : State) (h : HeldStore) : (s.dropHeld h).cms.held = s.cms.held := rfl

theorem State.applyStore_held (s : State) (a : Agent) (addr : Nat) (data : List Byte) : (s.applyStore a addr data).cms.held = s.cms.held := rfl

theorem State.scResolve_dropResv_held (s : State) (v w reason : Nat) (a : Agent) :
    ((s.scResolve v w reason).dropResv a).cms.held = s.cms.held := by
  change (s.scResolve v w reason).cms.held = _
  rw [State.scResolve_cms]

theorem State.applyHeld_held (s : State) (v : ViewId) (h : HeldStore) : (s.applyHeld v h).cms.held = s.cms.held.erase h := by
  unfold State.applyHeld
  extract_lets cms s1 w s2 r s3
  have hheld : s1.cms.held = s.cms.held.erase h := rfl
  have hended : s3.cms.held = s1.cms.held := s1.scResolve_dropResv_held ..
  split_ifs
  · rw [State.scResolve_dropResv_held, State.dropHeld_held, hheld]
  · rw [State.dropHeld_held, hheld]
  · rw [State.count_cms, State.applyStore_held, hended, hheld]
  · rw [hended, hheld]
  · rw [State.count_cms, State.applyStore_held, hheld]

section
variable {s : State} (v : ViewId) {h : HeldStore}

theorem State.applyHeld_cm_contained (hfails : h.fails = 0) (hcontained : s.isContained (.obj cCmWindow (windowOf h.addr))) :
    (s.applyHeld v h).cm = s.cm := by
  rw [State.applyHeld, if_pos ⟨hfails, hcontained⟩]
  have discarded : Keeps s ((s.unheld h).dropHeld h) := (s.upCms_keeps _).trans (State.dropHeld_keeps ..)
  exact (Keeps.ite (discarded.trans ((State.scResolve_keeps ..).trans (State.dropResv_keeps ..))) discarded).cm_eq

theorem State.applyHeld_cm_plain (hopen : ¬(h.fails = 0 ∧ s.isContained (.obj cCmWindow (windowOf h.addr)))) (hplain : h.cond = false) :
    (s.applyHeld v h).cm = cmWrite s.cm h.addr h.data := by
  rw [State.applyHeld, if_neg hopen, if_neg (Bool.eq_false_iff.1 hplain)]
  rfl

theorem State.applyHeld_cm_conditional (hopen : ¬(h.fails = 0 ∧ s.isContained (.obj cCmWindow (windowOf h.addr)))) (hcond : h.cond) :
    (s.applyHeld v h).cm = if s.scOutcome v h = 0 then cmWrite s.cm h.addr h.data else s.cm := by
  have resolved (reason : Nat) : (((s.unheld h).scResolve v.val (windowOf h.addr) reason).dropResv (.here v)).cm = s.cm :=
    ((s.upCms_keeps _).trans ((State.scResolve_keeps ..).trans (State.dropResv_keeps ..))).cm_eq
  rw [State.applyHeld, if_neg hopen, if_pos hcond]
  change State.cm (ite (s.scOutcome v h = 0) _ _) = _
  split
  · exact congrArg (cmWrite · h.addr h.data) (resolved _)
  · exact resolved _

end

/-- A held store writes its bytes whole, or none. -/
theorem State.applyHeld_cm_cases (s : State) (v : ViewId) (h : HeldStore) :
    (s.applyHeld v h).cm = s.cm ∨ (s.applyHeld v h).cm = cmWrite s.cm h.addr h.data := by
  by_cases hopen : h.fails = 0 ∧ s.isContained (.obj cCmWindow (windowOf h.addr))
  · exact .inl (State.applyHeld_cm_contained v hopen.1 hopen.2)
  · cases hcond : h.cond with
    | false => exact .inr (State.applyHeld_cm_plain v hopen hcond)
    | true =>
      rw [State.applyHeld_cm_conditional v hopen hcond]
      split
      · exact .inr rfl
      · exact .inl rfl

end Sys2Proof.Machine
end

section
/-! The obligation on the bytes of held stores. -/

namespace Sys2Proof
open Machine

/-- Settles O57, from the memory that a plain, a conditional and a contained store leave. -/
theorem appliedStoresWriteTheirBytes : Obligations.AppliedStoresWriteTheirBytes := by
  unfold Obligations.AppliedStoresWriteTheirBytes
  intro s v h hm hend
  have written (hcm : (s.applyHeld v h).cm = cmWrite s.cm h.addr h.data) {i : Nat} (hi : i < h.data.length) :
      (s.applyHeld v h).cmByte (h.addr + i) = h.data.getD i 0 := by
    rw [State.cmByte, hcm, tget_cmWrite_inside hm hend hi]
  have isOpen (hfree : s.isContained (.obj cCmWindow (windowOf h.addr)) = false) :
      ¬(h.fails = 0 ∧ s.isContained (.obj cCmWindow (windowOf h.addr))) := fun ⟨_, hcontained⟩ => Bool.false_ne_true (hfree ▸ hcontained)
  refine ⟨?outside, ?plain, ?contained, ?succeeds, ?loses, ?failed, s.applyHeld_held v h⟩
  case outside =>
    intro a ha
    rcases s.applyHeld_cm_cases v h with hcm | hcm
    · rw [State.cmByte, hcm, State.cmByte]
    · rw [State.cmByte, hcm, tget_cmWrite_outside _ _ _ ha, State.cmByte]
  case plain => exact fun hfree hplain _ => written (State.applyHeld_cm_plain v (isOpen hfree) hplain)
  case contained => exact fun hcontained hfails => State.applyHeld_cm_contained v hfails hcontained
  case succeeds =>
    intro hfree hfails hcond hreason i
    have houtcome : s.scOutcome v h = 0 := (if_neg (not_not.2 hfails)).trans hreason
    exact written ((State.applyHeld_cm_conditional v (isOpen hfree) hcond).trans (if_pos houtcome))
  case loses =>
    intro hfree hcond hreason
    have houtcome : s.scOutcome v h ≠ 0 := by
      rw [State.scOutcome]
      split
      · assumption
      · exact hreason
    exact (State.applyHeld_cm_conditional v (isOpen hfree) hcond).trans (if_neg houtcome)
  case failed =>
    intro hcond hfails
    have houtcome : s.scOutcome v h ≠ 0 := by rwa [State.scOutcome, if_pos hfails]
    exact (State.applyHeld_cm_conditional v (fun ⟨hzero, _⟩ => hfails hzero) hcond).trans (if_neg houtcome)

end Sys2Proof
end

section
/-! SUPPORT. The accesses of agents to coordination memory: posted writes, reads, AtomicOps and reserved loads, by what the window's gate says and
where the window is (R198 to R203, R207, R210). -/

namespace Sys2Proof.Machine

/-! ### Posted writes -/

/-- Nothing of a view waits at ingress before a write of it. -/
theorem State.writeArrives_first {s : State} {v : ViewId} (hwaits : s.cms.waits.any (fun x => decide (x.view = v.val)) = false)
    (hpackets : s.behindPackets v.val s.core.nextPkt = false) (w : CmWait) (cells : List CellIdx) :
    s.writeArrives v w cells = (s.writeIn v w cells).getD { s with cms := { s.cms with waits := s.cms.waits ++ [w] } } :=
  if_neg (by rw [hwaits, hpackets]; decide)

theorem State.writeIn_store (s : State) (v : ViewId) (view mark off : Nat) (data : List Byte) (cells : List CellIdx) :
    s.writeIn v ⟨view, mark, none, off, data⟩ cells = s.storeIn v off data cells := rfl

theorem State.writeIn_barrier (s : State) (v : ViewId) (view mark value off : Nat) (data : List Byte) (cells : List CellIdx) :
    s.writeIn v ⟨view, mark, some value, off, data⟩ cells = s.barrierIn v value := rfl

section
variable {s : State} {v : ViewId} {off : Nat} {data : List Byte} (cells : List CellIdx)
  (hhome : s.isRemote (windowOf (plainOf off)) = false) (hplain : inAlias off = false)
include hhome hplain

theorem State.storeIn_pass (hgate : s.cmGate (.here v) .memWrite off data.length = .pass) :
    s.storeIn v off data cells =
      if 256 < (s.cms.held.filter (fun h => decide (h.view = v.val))).length + (lineParts (data.length + 1) (plainOf off) data).length then none
      else some { s with cms := { s.cms with
        held := s.cms.held ++ (lineParts (data.length + 1) (plainOf off) data).map
          (fun x => ⟨v.val, x.1, x.2, false, (s.cmView v.val).epoch, 0⟩) } } := by
  simp only [State.storeIn, hhome, hplain, hgate, Bool.false_and, Bool.false_eq_true, if_false, ne_eq, not_true_eq_false]

theorem State.storeIn_denied (hgate : s.cmGate (.here v) .memWrite off data.length ≠ .pass) :
    s.storeIn v off data cells = some (
      let g := s.cmGate (.here v) .memWrite off data.length
      let s1 := ((s.countDiscard v.val (s.cmView v.val).epoch).cmRefuse (.here v) .memWrite off data.length g).winDiscard
        (windowOf (plainOf off))
      if g = .refused || g = .suspended then s1.emit (.aer v.val 0 .unsupportedRequest) else s1) := by
  simp only [State.storeIn, hhome, hplain, Bool.false_and, Bool.false_eq_true, if_false, if_pos hgate]

end

section
variable {off : Nat} {data : List Byte} {s : State} (cells : List CellIdx) (hbytes : cmAccessWf off data.length)
include hbytes

theorem execCmPostedWrite_here {v : ViewId} (hlive : s.agentLive (.here v)) :
    exec (.cmPostedWrite (.here v) off data cells) s
      = .next ((s.finish (.here v)).writeArrives v ⟨v.val, s.core.nextPkt, none, off, data⟩ cells) := by
  show execCmPostedWrite (.here v) off data cells s = _
  simp [execCmPostedWrite, hbytes, hlive]

variable {d p n g : Nat} (hlive : s.agentLive (.far d p n g))
include hlive

theorem execCmPostedWrite_far :
    exec (.cmPostedWrite (.far d p n g) off data cells) s = .next (
      if s.cmGate (.far d p n g) .memWrite off data.length ≠ .pass then
        ((s.cmRefuse (.far d p n g) .memWrite off data.length (s.cmGate (.far d p n g) .memWrite off data.length)).winDiscard
          (windowOf (plainOf off))).farDone (.far d p n g)
      else ((s.finish (.far d p n g)).count (ctrId 0x07 8 (windowOf (plainOf off)) 1) 1).storeLine
        ⟨.far d p n g, plainOf off, 0, 0, [], data⟩) := by
  show execCmPostedWrite (.far d p n g) off data cells s = _
  simp only [execCmPostedWrite, hbytes, hlive, Bool.not_true, Bool.false_eq_true, if_false, apply_ite Host.Outcome.next]

end

theorem execHeldStoreApplied_plain {v : ViewId} {line : Nat} {s : State} {h : HeldStore} (holdest : s.oldestHeld v.val line = some h)
    (hplain : h.cond = false) (hrun : s.running) : exec (.heldStoreApplied v line) s = .next (s.applyHeld v h) := by
  show execHeldStoreApplied v line s = _
  rw [execHeldStoreApplied, holdest]
  exact if_neg (by rw [hplain, hrun]; decide)

/-! ### Reads -/

theorem execCmRead_home {v : ViewId} {off len : Nat} {s : State} (tag : Nat) (cells : List CellIdx) (hbytes : cmAccessWf off len)
    (hlive : s.agentLive (.here v)) (hplain : inAlias off = false) (hhome : s.isRemote (windowOf off) = false) :
    exec (.cmRead (.here v) off len tag cells) s = .next (
      if s.cmGate (.here v) .memRead off len ≠ .pass then
        s.cmDenyRead (.here v) .memRead off len tag (s.cmGate (.here v) .memRead off len)
      else (s.count (ctrId 0x07 8 (windowOf off) 0) 1).readLine ⟨.here v, off, tag, len, [], []⟩) := by
  show execCmRead (.here v) off len tag cells s = _
  simp only [execCmRead, hbytes, hlive, hplain, hhome, Bool.not_true, Bool.or_false, Bool.false_and, Bool.false_eq_true, if_false,
    apply_ite Host.Outcome.next]

/-- The last line part of a read sends what it and the parts before it found. -/
theorem State.readLine_last {s : State} {r : CmPart} (hfree : s.readBlocked r = false) (hlast : r.left ≤ lineLen r.addr r.left) :
    s.readLine r = (s.settleConds r.agent (lineOf r.addr)).toAgent r.agent r.tag
      (r.got ++ (s.settleConds r.agent (lineOf r.addr)).cmReadN r.agent r.addr (lineLen r.addr r.left)) := by
  rw [State.readLine, if_neg (by simp [hfree])]
  exact if_pos hlast

/-! ### AtomicOps -/

section
variable {op : AtomicKind} {off size : Nat} {s : State} (x y tag : Nat) (cells : List CellIdx) (hbytes : cmAccessWf off size)
  (hsize : atomicSizeOk op size)
include hbytes hsize

theorem execCmAtomicOp_pass {v : ViewId} (hlive : s.agentLive (.here v)) (hplain : inAlias off = false) (haligned : off % size = 0)
    (hhome : s.isRemote (windowOf (plainOf off)) = false) (hgate : s.cmGate (.here v) .atomicOp off size = .pass) :
    exec (.cmAtomicOp (.here v) op off size x y tag cells) s = .next (
      let s1 := (s.finish (.here v)).drainFor (.here v) (lineOf off)
      let old := (List.range size).map (fun i => s1.cmByte (off + i))
      let s2 := s1.applyStore (.here v) off (leBytes size (atomicNew op size (leNat old) x y))
      ((s2.addSat winAtomics (windowOf (plainOf off)) 1).count (ctrId 0x07 8 (windowOf (plainOf off)) 3) 1).toAgent (.here v) tag old) := by
  show execCmAtomicOp (.here v) op off size x y tag cells s = _
  simp [execCmAtomicOp, hbytes, hsize, hlive, hplain, haligned, hhome, hgate]

/-- An AtomicOp in the reserve alias, or not on a multiple of its size, is refused wherever its window is. -/
theorem execCmAtomicOp_misplaced {a : Agent} (hlive : s.agentLive a) (hbad : inAlias off ∨ off % size ≠ 0)
    (hgate : s.cmGate a .atomicOp off size = .pass) :
    exec (.cmAtomicOp a op off size x y tag cells) s = .next (s.toAgentErr a tag .unsupportedRequest) := by
  have hrefused : (inAlias off || decide (off % size ≠ 0)) = true := by simpa using hbad
  show execCmAtomicOp a op off size x y tag cells s = _
  cases a with
  | far _ _ _ _ =>
    simp only [execCmAtomicOp, hbytes, hsize, hlive, hgate, hrefused, Bool.and_self, Bool.not_true, Bool.false_eq_true, if_false, ne_eq,
      not_true_eq_false, if_true]
  | here v =>
    cases hremote : s.isRemote (windowOf (plainOf off)) && decide (windowOf (plainOf off + size - 1) = windowOf (plainOf off)) <;>
      simp only [execCmAtomicOp, hbytes, hsize, hlive, hgate, hrefused, hremote, Bool.and_self, Bool.not_true, Bool.false_eq_true, if_false,
        ne_eq, not_true_eq_false, if_true]

end

/-! ### Reserved loads -/

theorem execReservedLoad_pass {v : ViewId} {off len : Nat} {s : State} (tag : Nat) (hbytes : cmAccessWf off len) (hlive : s.viewLive v.val)
    (halias : inAlias off) (hhome : s.isRemote (windowOf (plainOf off)) = false) (hgate : s.cmGate (.here v) .memRead off len = .pass) :
    exec (.reservedLoad v off len tag) s = .next (
      if lineOf (plainOf off) ≠ lineOf (plainOf off + len - 1) then s.toAgentErr (.here v) tag .unsupportedRequest
      else
        let s2 := (s.drainFor (.here v) (lineOf (plainOf off))).dropResv (.here v)
        let new : Resv := ⟨.here v, lineOf (plainOf off), s.now + 100000, 0⟩
        let s3 : State := { s2 with cms := { s2.cms with resvs := s2.cms.resvs ++ [new] } }
        (s3.count (ctrId 0x07 8 (windowOf (plainOf off)) 0) 1).toAgent (.here v) tag (s3.cmReadN (.here v) (plainOf off) len)) := by
  show execReservedLoad v off len tag s = _
  simp only [execReservedLoad, hbytes, hlive, halias, hhome, hgate, Bool.not_true, Bool.or_false, Bool.false_and, Bool.false_eq_true, if_false,
    ne_eq, not_true_eq_false, apply_ite Host.Outcome.next]

end Sys2Proof.Machine
end

section
/-! The obligation on accesses to coordination memory. -/

namespace Sys2Proof
open Machine

/-- Settles O12, one clause for each kind of access and for what its gate says. -/
theorem cmAccessesComplete : Obligations.CmAccessesComplete := by
  unfold Obligations.CmAccessesComplete
  refine ⟨?held, ?waits, ?denied, ?far, ?farDenied, fun _ _ _ _ => execHeldStoreApplied_plain, ?read, ?bytes, ?readDenied, ?atomic,
    fun _ _ _ _ x y tag cells _ hbytes hsize hlive => execCmAtomicOp_misplaced x y tag cells hbytes hsize hlive⟩
  case held =>
    rintro v off data cells s _ hbytes hlive rfl hwaits hpackets hhome hplain hgate hroom
    rw [execCmPostedWrite_here cells hbytes hlive, State.writeArrives_first hwaits hpackets, State.writeIn_store,
      State.storeIn_pass cells hhome hplain hgate, if_neg (Nat.not_lt.2 hroom), Option.getD_some]
  case waits =>
    rintro v off data cells s _ hbytes hlive rfl hwaits hpackets hhome hplain hgate hfull
    rw [execCmPostedWrite_here cells hbytes hlive, State.writeArrives_first hwaits hpackets, State.writeIn_store,
      State.storeIn_pass cells hhome hplain hgate, if_pos hfull, Option.getD_none]
  case denied =>
    rintro v off data cells s _ hbytes hlive rfl hwaits hpackets hhome hplain hgate
    rw [execCmPostedWrite_here cells hbytes hlive, State.writeArrives_first hwaits hpackets, State.writeIn_store,
      State.storeIn_denied cells hhome hplain hgate, Option.getD_some]
  case far =>
    intro d p n g off data cells s hbytes hlive hgate
    rw [execCmPostedWrite_far cells hbytes hlive, if_neg (not_not.2 hgate)]
  case farDenied =>
    intro d p n g off data cells s hbytes hlive hgate
    rw [execCmPostedWrite_far cells hbytes hlive, if_pos hgate]
  case read =>
    intro v off len tag cells s hbytes hlive hplain hhome hgate
    rw [execCmRead_home tag cells hbytes hlive hplain hhome, if_neg (not_not.2 hgate)]
  case bytes => exact fun _ _ _ _ _ hfree hlast => State.readLine_last hfree hlast
  case readDenied =>
    intro v off len tag cells s hbytes hlive hplain hhome hgate
    rw [execCmRead_home tag cells hbytes hlive hplain hhome, if_pos hgate]
  case atomic =>
    exact fun _ _ _ _ a b tag cells _ hbytes hsize hlive => execCmAtomicOp_pass a b tag cells hbytes hsize hlive

end Sys2Proof
end

section
/-! SUPPORT. Conditional stores, barriers and the reads of their status (R204 to R206, R208). -/

namespace Sys2Proof.Machine

/-- A conditional store that may still succeed needs no turn among those of its view (R208). -/
theorem execConditionalStoreApplied_decided {v : ViewId} {line : Nat} {s : State} {h : HeldStore} (holdest : s.oldestHeld v.val line = some h)
    (hcond : h.cond) (hrun : s.running) (hfails : h.fails = 0) :
    exec (.conditionalStoreApplied v line) s = .next ((s.applyHeld v h).scAnswer v.val) := by
  show execConditionalStoreApplied v line s = _
  rw [execConditionalStoreApplied, holdest]
  exact if_neg (by simp [hcond, hrun, hfails])

theorem execTrackedWriteVisible_left {id : Nat} {s : State} (v : ViewId) (hleft : s.pkt id = none) :
    exec (.trackedWriteVisible v id) s = .next (
      let u := (s.ltVisible v.val id).farVisible id
      { u with cms := { u.cms with
        tracked := u.cms.tracked.filter (fun t => !(decide (t.view = v.val) && decide (t.id = id) && decide (t.flow.dstDev = s.fabricId))) } }) := by
  show execTrackedWriteVisible v id s = _
  rw [execTrackedWriteVisible, if_neg (by simp [hleft])]

/-! ### Barriers and their status -/

/-- A barrier that finds fewer than eight incomplete closes the epoch (R205). -/
theorem State.barrierIn_room {s : State} {v : ViewId} (value : Nat) (hroom : (s.cmView v.val).barriers.length < 8) :
    s.barrierIn v value = some (
      let c := s.cmView v.val
      (s.setCmView { c with epoch := c.epoch + 1, barriers := c.barriers ++ [(c.epoch, value % 65536)] }).setPending v.val
        (c.barriers.length + 1)) :=
  if_neg (Nat.not_le.2 hroom)

section
variable {v : ViewId} {s : State} (hlive : s.viewLive v.val)
include hlive

theorem execCmBarrier_live (value : BitVec 32) :
    exec (.cmBarrier v value) s = .next (s.writeArrives v ⟨v.val, s.core.nextPkt, some value.toNat, 0, []⟩ []) :=
  congrArg Host.Outcome.next (if_pos hlive)

theorem execCmBarrierStatusRead_idle (tag : Nat) (hnone : (s.cmView v.val).barriers = [])
    (hwaits : s.cms.waits.any (fun w => decide (w.view = v.val)) = false) :
    exec (.cmBarrierStatusRead v tag) s = .next (s.hostReply v.val tag .memRead .success (leBytes 8 (s.reg v.val 0x010008).toNat)) := by
  show execCmBarrierStatusRead v tag s = _
  rw [execCmBarrierStatusRead, if_neg (by simp [hlive]), if_pos (by rw [hnone, hwaits]; rfl)]

theorem execCmBarrierStatusRead_pending (tag : Nat) (hsome : (s.cmView v.val).barriers ≠ []) :
    exec (.cmBarrierStatusRead v tag) s
      = .next { s with cms := { s.cms with statusReads := s.cms.statusReads ++ [(v.val, tag, s.now + 20000)] } } := by
  show execCmBarrierStatusRead v tag s = _
  rw [execCmBarrierStatusRead, if_neg (by simp [hlive]), if_neg (by simp [hsome])]

theorem execCmScStatusRead_live (tag : Nat) :
    exec (.cmScStatusRead v tag) s
      = .next (({ s with cms := { s.cms with scReads := s.cms.scReads ++ [(v.val, tag)] } } : State).scAnswer v.val) := by
  show execCmScStatusRead v tag s = _
  rw [execCmScStatusRead, if_neg (by simp [hlive])]

end

theorem execBarrierComplete_ready {v : ViewId} {s : State} (hready : s.barrierReady v.val) :
    exec (.barrierComplete v) s = .next (s.barrierDone v.val) := if_pos hready

/-- The barriers that are complete go first, and then the oldest held read whose limit has come is answered. -/
theorem execBarrierStatusHoldExpiry_due {v : ViewId} {s : State} {r : Nat × Nat × Nat}
    (hdue : (State.barriersDone 8 s v.val).cms.statusReads.find?
      (fun r => decide (r.1 = v.val) && decide (r.2.2 ≤ (State.barriersDone 8 s v.val).now)) = some r) :
    exec (.barrierStatusHoldExpiry v) s = .next (
      let u := State.barriersDone 8 s v.val
      ({ u with cms := { u.cms with statusReads := u.cms.statusReads.erase r } } : State).hostReply v.val r.2.1 .memRead .success
        (leBytes 8 (u.reg v.val 0x010008).toNat)) := by
  show execBarrierStatusHoldExpiry v s = _
  simp only [execBarrierStatusHoldExpiry, hdue]

end Sys2Proof.Machine
end

section
/-! The obligation on reservations, barriers and their status. -/

namespace Sys2Proof
open Machine

/-- Settles O13, one clause for each way in which a reservation, a conditional store, a barrier or a status read goes on. -/
theorem reservationsAndBarriersComplete : Obligations.ReservationsAndBarriersComplete := by
  unfold Obligations.ReservationsAndBarriersComplete
  refine ⟨?load, ?loadAcross, fun _ _ _ _ => execConditionalStoreApplied_decided, ?expiry, ?visible, ?barrier,
    fun _ _ => execBarrierComplete_ready, fun _ tag _ hlive => execCmBarrierStatusRead_idle hlive tag,
    fun _ tag _ hlive => execCmBarrierStatusRead_pending hlive tag, ?held, fun _ tag _ hlive => execCmScStatusRead_live hlive tag⟩
  case load =>
    intro v off len tag s hbytes hlive halias hhome hline hgate
    rw [execReservedLoad_pass tag hbytes hlive halias hhome hgate, if_neg (not_not.2 hline)]
  case loadAcross =>
    intro v off len tag s hbytes hlive halias hhome hlines hgate
    rw [execReservedLoad_pass tag hbytes hlive halias hhome hgate, if_pos hlines]
  case expiry => exact fun _ _ => rfl
  case visible =>
    rintro v id s _ hleft rfl
    exact execTrackedWriteVisible_left v hleft
  case barrier =>
    intro v value s hlive hwaits hpackets hroom
    rw [execCmBarrier_live hlive, State.writeArrives_first hwaits hpackets, State.writeIn_barrier, State.barrierIn_room _ hroom,
      Option.getD_some]
  case held =>
    rintro v s _ r rfl hdue
    exact execBarrierStatusHoldExpiry_due hdue

end Sys2Proof
end

section
/-! SUPPORT. The doorbells of the Lighter functions (R216, R217, R226). -/

namespace Sys2Proof.Machine

/-- Every doorbell row asks whether it is claimed, then whether it passes its checks. -/
theorem doorbell_claimed {live mine : Bool} (hlive : live) (hmine : mine) (passes : Bool) (s done refused : State) :
    (if !live || !mine then .next s else if passes then .next done else .next refused : Host.Outcome State Fault Refusal)
      = .next (if passes then done else refused) := by
  rw [hlive, hmine]
  exact (apply_ite Host.Outcome.next ..).symm

section
variable {f : LighterFn} {value : Word} {s : State} (whole : Bool) (hlive : s.ltFnLive f)
include hlive

theorem execDoorbellSend_claimed (hmine : dbMine 0 value) :
    exec (.doorbellSend f whole value) s = .next (
      if dbFormOk whole value && s.dbQpOk f value (s.fld qpSqConsumer (dbQueue value)) (s.fld qpLog2SqEntries (dbQueue value)) then
        s.setRun { s.run (dbQueue value) with sqProducer := dbIndex value }
      else s.dbError f) :=
  doorbell_claimed hlive hmine ..

theorem execDoorbellRecv_claimed (hmine : dbMine 1 value) :
    exec (.doorbellRecv f whole value) s = .next (
      if dbFormOk whole value && decide (s.fld qpLog2RqEntries (dbQueue value) ≠ 0)
          && s.dbQpOk f value (s.fld qpRqConsumer (dbQueue value)) (s.fld qpLog2RqEntries (dbQueue value)) then
        s.setRun { s.run (dbQueue value) with rqProducer := dbIndex value }
      else s.dbError f) :=
  doorbell_claimed hlive hmine ..

theorem execDoorbellCqArm_claimed (hmine : dbMine 2 value) :
    exec (.doorbellCqArm f whole value) s = .next (
      let u := (s.put cqConsumer (dbQueue value) (dbIndex value)).put cqArmed (dbQueue value) 1
      if dbFormOk whole value && s.dbCqOk f value then
        if u.fld cqProducer (dbQueue value) ≠ dbIndex value then u.cqInterrupt (s.ltFnView f) (dbQueue value) else u
      else s.dbError f) :=
  doorbell_claimed hlive hmine ..

theorem execDoorbellCqConsumer_claimed (hmine : dbMine 3 value) :
    exec (.doorbellCqConsumer f whole value) s = .next (
      if dbFormOk whole value && s.dbCqOk f value then s.put cqConsumer (dbQueue value) (dbIndex value) else s.dbError f) :=
  doorbell_claimed hlive hmine ..

end

end Sys2Proof.Machine
end

section
/-! The obligation on doorbells. -/

namespace Sys2Proof
open Machine

/-- Settles O14, one clause for each kind and for what its checks find. -/
theorem lighterDoorbellsAct : Obligations.LighterDoorbellsAct := by
  unfold Obligations.LighterDoorbellsAct
  refine ⟨?send, ?refused, ?recv, ?armed, ?raised, ?consumed⟩
  case send =>
    intro f whole value s hlive hmine hform hok
    rw [execDoorbellSend_claimed whole hlive hmine, if_pos (by rw [hform, hok]; rfl)]
  case refused =>
    intro f whole value s hlive hmine hbad
    rw [execDoorbellSend_claimed whole hlive hmine, hbad, if_neg Bool.false_ne_true]
  case recv =>
    intro f whole value s hlive hmine hform hring hok
    rw [execDoorbellRecv_claimed whole hlive hmine, if_pos (by rw [hform, hok, decide_eq_true hring]; rfl)]
  case armed =>
    intro f whole value s hlive hmine hform hok hempty
    rw [execDoorbellCqArm_claimed whole hlive hmine, if_pos (by rw [hform, hok]; rfl), if_neg (not_not.2 hempty)]
  case raised =>
    rintro f whole value s _ hlive hmine hform hok rfl hwaiting
    rw [execDoorbellCqArm_claimed whole hlive hmine, if_pos (by rw [hform, hok]; rfl), if_pos hwaiting]
  case consumed =>
    intro f whole value s hlive hmine hform hok
    rw [execDoorbellCqConsumer_claimed whole hlive hmine, if_pos (by rw [hform, hok]; rfl)]

end Sys2Proof
end

section
/-! SUPPORT. Packets of the Lighter engine on their arrival, by their type and by whether their contexts are on the die (R237, R240, R243, R245). -/

namespace Sys2Proof.Machine

/-! ### Contexts and types -/

section
variable {s : State} {pk : LighterPkt} {host : HostReply} (keyOk : Bool) (hintact : ltIntact pk) (hpeer : s.ltPeerOk pk)
include hintact hpeer

theorem State.ltArrive_cached (hcached : s.lacks (s.ltNeeds pk host) = none) :
    s.ltArrive pk host keyOk = (s.touchAll (s.ltNeeds pk host)).ltTake pk host keyOk := by
  rw [State.ltArrive, if_pos (by rw [hintact, hpeer]; rfl), hcached]

theorem State.ltArrive_missing {k : Nat} (hlacks : s.lacks (s.ltNeeds pk host) = some k) :
    s.ltArrive pk host keyOk = (s.ctxMiss k).ltPark ⟨pk, host, keyOk, .ctx k⟩ := by
  rw [State.ltArrive, if_pos (by rw [hintact, hpeer]; rfl), hlacks]

end

theorem State.ltTake_request {pk : LighterPkt} (hreq : ltIsReq pk.typ) (s : State) (host : HostReply) (keyOk : Bool) :
    s.ltTake pk host keyOk = s.ltRequest pk host keyOk := if_pos hreq

theorem State.ltTake_ack {pk : LighterPkt} (htyp : pk.typ = 9) (s : State) (host : HostReply) (keyOk : Bool) :
    s.ltTake pk host keyOk = s.takeAck pk := by
  rw [State.ltTake, htyp, if_neg (by decide), if_pos rfl]

theorem State.ltTake_nak {pk : LighterPkt} (htyp : pk.typ = 10) (s : State) (host : HostReply) (keyOk : Bool) :
    s.ltTake pk host keyOk = s.takeNak pk := by
  rw [State.ltTake, htyp, if_neg (by decide), if_neg (by decide), if_pos rfl]

theorem State.ltTake_response {pk : LighterPkt} (htyp : pk.typ = 4 ∨ pk.typ = 6 ∨ pk.typ = 8) (s : State) (host : HostReply) (keyOk : Bool) :
    s.ltTake pk host keyOk = s.ltResponse pk := by
  rcases htyp with htyp | htyp | htyp <;>
    rw [State.ltTake, htyp, if_neg (by decide), if_neg (by decide), if_neg (by decide)]

/-! ### Acknowledgements -/

theorem State.takeAck_ok {s : State} {pk : LighterPkt} (hok : s.ackOk pk) :
    s.takeAck pk = (
      let q := pk.dstQp.val
      let r := s.run q
      let sent := r.sent.map (fun x =>
        if decide (x.pk.typ ≤ 2) && ackCovers (s.fld qpBasePsn q) pk.psn pk.sack x.psn then { x with isDone := true } else x)
      let sack := ((List.range 256).filter (fun i => pk.sack.getLsbD i)).map (fun i => (pk.psn + i) % 16777216)
      (s.setRun { r with sent := sent, sack := sack }).advanceBase q) := by
  obtain ⟨⟨hintact, _⟩, _⟩ : (ltIntact pk ∧ _) ∧ _ := by simpa only [State.ackOk, Bool.and_eq_true] using hok
  rw [State.takeAck, if_neg (by rw [hintact]; decide), if_neg (by rw [hok]; decide)]

/-- A NAK other than NO_RECV ends its work request (R243). -/
theorem State.takeNak_ends {s : State} {pk : LighterPkt} {w : WorkReq} (hintact : ltIntact pk) (hpeer : s.ltPeerOk pk)
    (hout : s.outstanding pk.dstQp.val pk.psn) (hlow : 1 ≤ pk.offset % 256) (hhigh : pk.offset % 256 ≤ 8) (hcode : pk.offset % 256 ≠ 4)
    (hwr : wrOf (s.run pk.dstQp.val) pk.psn = some w) :
    s.takeNak pk = s.failWr pk.dstQp.val w.index (nakStatus (pk.offset % 256)) := by
  rw [State.takeNak, if_neg (by rw [hintact]; decide), if_neg (by simp [hpeer, hout, hlow, hhigh])]
  simp only [if_neg hcode, hwr]

/-! ### Rows -/

section
variable {pk : LighterPkt} {s : State} (hrun : s.running)
include hrun

theorem execLighterRequestReceived_running {host : HostReply} (hform : ltReqWf pk host) (hreq : ltIsReq pk.typ) :
    exec (.lighterRequestReceived pk host) s = .next (s.ltArrive pk host false) := if_neg (by simp [hform, hreq, hrun])

theorem execLighterResponseReceived_running (hform : ltRespWf pk) (htyp : pk.typ = 4 ∨ pk.typ = 6 ∨ pk.typ = 8) :
    exec (.lighterResponseReceived pk) s = .next (s.ltArrive pk ⟨none, true, []⟩ false) :=
  if_neg (by rcases htyp with htyp | htyp | htyp <;> simp [hform, hrun, htyp])

theorem execAckReceived_running (htyp : pk.typ = 9) :
    exec (.ackReceived pk) s = .next (s.ltArrive pk ⟨none, true, []⟩ false) := if_neg (by simp [htyp, hrun])

theorem execNakReceived_running (htyp : pk.typ = 10) :
    exec (.nakReceived pk) s = .next (s.ltArrive pk ⟨none, true, []⟩ false) := if_neg (by simp [htyp, hrun])

end

end Sys2Proof.Machine
end

section
/-! SUPPORT. The requester of the Lighter engine: the start of a work request, the next packet, the retransmission timer and the commit points
(R219, R222, R235, R242). -/

namespace Sys2Proof.Machine

/-! ### Start and send -/

/-- Status with which a work request starts: its ring read failed, it is malformed, its local range does not hold, or none of these (R219). -/
def State.startStatus (s : State) (t : Nat) : Option (List Word) → Nat
  | none => 0x02
  | some w => if !sendWrOk w then 0x03 else if !s.localOk t w then 0x01 else 0

theorem execWorkRequestStart_cached {q : QpId} {wr : Option (List Word)} {s : State} {ks : List Nat} (hform : ∀ w ∈ wr, w.length = 8)
    (hstart : s.canStart q.val)
    (hks : ks = qpCtx q.val :: (if (wr.getD []).length = 8 && wOpcode (wr.getD []) ≠ 6 then regCtx (wLocalKey (wr.getD [])) else []))
    (hcached : s.lacks ks = none) :
    exec (.workRequestStart q wr) s = .next (
      let r := s.run q.val
      let t := s.fld qpTenantId q.val
      let idx := (s.fld qpSqConsumer q.val + r.wrs.length) % 65536
      let st := s.startStatus t wr
      let new : WorkReq := ⟨idx, wr.getD [], s.nextFirst q.val, if st = 0 then wrPackets (wr.getD []) else 0, st, 0, 0⟩
      let s1 := (s.touchAll ks).hostReads (s.fld qpHostView q.val) t [(ringAt (s.fld qpSqBase q.val) (s.fld qpLog2SqEntries q.val) idx, 64)]
      (s1.setRun { r with wrs := r.wrs ++ [new] }).ltCount t 0 1) := by
  have hwhole : (wr.isSome && decide ((wr.getD []).length ≠ 8)) = false := by
    cases wr with
    | none => rfl
    | some w => simp [hform w rfl]
  show execWorkRequestStart q wr s = _
  unfold execWorkRequestStart
  dsimp only
  rw [← hks, hwhole, if_neg Bool.false_ne_true, hstart, if_neg (by decide), hcached]
  rfl

/-- What keeps the next packet of a work request back: a queue pair that is not Ready, a packet that waits, the window, a FENCE before its turn,
eight AtomicOps out (R235). -/
def State.sendStops (s : State) (q : Nat) (w : WorkReq) (op : Nat) : Bool :=
  !s.running || !s.qpIs q qpReady || s.ltHeld q || decide (s.fld qpWindow q ≤ distMod 24 (s.fld qpNextPsn q) (s.fld qpBasePsn q))
  || (op = 6 && (s.run q).wrs.head? ≠ some w) || ((op = 4 || op = 5) && decide (8 ≤ atomicsOut (s.run q)))

theorem State.sendStops_eq_false {s : State} {q op : Nat} {w : WorkReq} (hrun : s.running) (hready : s.qpIs q qpReady) (hheld : s.ltHeld q = false)
    (hwindow : distMod 24 (s.fld qpNextPsn q) (s.fld qpBasePsn q) < s.fld qpWindow q) (hfence : op ≠ 6 ∨ (s.run q).wrs.head? = some w)
    (hatomics : (op ≠ 4 ∧ op ≠ 5) ∨ atomicsOut (s.run q) < 8) : s.sendStops q w op = false := by
  have hturn : (decide (op = 6) && decide ((s.run q).wrs.head? ≠ some w)) = false := by
    simpa [← imp_iff_not_or] using hfence
  have hroom : ((decide (op = 4) || decide (op = 5)) && decide (8 ≤ atomicsOut (s.run q))) = false := by
    simpa [← not_or, ← imp_iff_not_or] using hatomics
  rw [State.sendStops, hturn, hroom, hrun, hready, hheld, decide_eq_false (Nat.not_le.2 hwindow)]
  rfl

/-- The next sequence number goes out with the bytes of its piece (R235). -/
theorem execLighterPacketSend_hit {q : QpId} {s : State} {w : WorkReq} {d : List Byte} {op i n key : Nat} {ks : List Nat}
    {places : List (Nat × Nat)} (hwr : wrOf (s.run q.val) (s.fld qpNextPsn q.val) = some w) (hop : op = wOpcode w.words)
    (hi : i = distMod 24 (s.fld qpNextPsn q.val) w.first)
    (hn : n = (if op = 0 || op = 1 || op = 3 then pieceLen (wLength w.words) i else 0)) (hkey : key = wLocalKey w.words) (hbytes : d.length = n)
    (hgoes : s.sendStops q.val w op = false)
    (hks : ks = qpCtx q.val :: (if n = 0 then [] else regCtx key)) (hcached : s.lacks ks = none)
    (hvalid : n = 0 ∨ s.keyOk (s.fld qpTenantId q.val) key = true)
    (hhit : s.xlate key (wLocalOffset w.words + 4096 * i) n = .hit places) :
    exec (.lighterPacketSend q (some d)) s = .next (
      ((s.touchAll ks).hostReads (s.regView key) (s.fld qpTenantId q.val) places).ltSend (s.fld qpTenantId q.val) (s.fld qpPeerDevice q.val)
        (s.wrPacket q (s.run q.val) w i (if op = 4 || op = 5 then atomicPayload w.words else d))) := by
  have hlocal : ¬(n ≠ 0 && !s.keyOk (s.fld qpTenantId q.val) key) = true := by simpa [or_iff_not_imp_left] using hvalid
  show execLighterPacketSend q (some d) s = _
  rw [execLighterPacketSend, hwr]
  dsimp only
  rw [← hop, ← hi, ← hkey, ← hn, ← hks, if_neg (by simp [hbytes]), if_neg (by exact Bool.eq_false_iff.1 hgoes), hcached]
  dsimp only
  rw [if_neg hlocal, hhit]

/-! ### The retransmission timer -/

section
variable {q : QpId} {s : State} {due : Nat} (htimer : (s.run q.val).timer = some due) (hdue : due ≤ s.now) (hrun : s.running)
  (hready : s.qpIs q.val qpReady) (hacks : s.acksAdvance q.val (acksFor q.val s.pending) = false)
include htimer hdue hrun hready hacks

theorem execRetransmissionTimerExpiry_spent {w : WorkReq} (hspent : s.fld qpRetryLimit q.val ≤ s.fld qpRetryCount q.val)
    (hopen : s.oldestOpen q.val = some w) :
    exec (.retransmissionTimerExpiry q) s = .next (s.failWr q.val w.index 0x0B) := by
  show execRetransmissionTimerExpiry q s = _
  simp only [execRetransmissionTimerExpiry, htimer]
  rw [if_neg (by simp [hdue, hrun, hready, hacks]), if_pos hspent, hopen]

theorem execRetransmissionTimerExpiry_again (hleft : s.fld qpRetryCount q.val < s.fld qpRetryLimit q.val) :
    exec (.retransmissionTimerExpiry q) s = .next (
      let r := s.run q.val
      let again := resendSet r (s.fld qpBasePsn q.val)
      let s1 := (s.put qpRetryCount q.val (s.fld qpRetryCount q.val + 1)).put qpRtoNs q.val (min 2000000 (2 * s.fld qpRtoNs q.val))
      (s1.setRun { r with noRecv := none, timer := some (s.now + s1.fld qpRtoNs q.val), sent := r.sent.map (fun x =>
        if again.any (fun y => decide (y.psn = x.psn)) then { x with again := true } else x) }).resends q.val again) := by
  show execRetransmissionTimerExpiry q s = _
  simp only [execRetransmissionTimerExpiry, htimer]
  rw [if_neg (by simp [hdue, hrun, hready, hacks]), if_neg (Nat.not_le.2 hleft)]

end

/-! ### Commit points -/

/-- A queue pair that is Ready is not in Error. -/
theorem State.qpIs_error_of_ready {s : State} {q : Nat} (hready : s.qpIs q qpReady) : s.qpIs q qpError = false := by
  rw [State.qpIs, decide_eq_true_eq] at hready
  rw [State.qpIs, hready]
  rfl

section
variable {q : Nat} {s : State} (entry : Option (List Word)) (hready : s.qpIs q qpReady)
include hready

theorem State.sendDue_ready {w : WorkReq} {ws : List WorkReq} (hwrs : (s.run q).wrs = w :: ws) (hdone : w.status ≠ 0 ∨ s.wrDone q w) :
    s.sendDue q entry = some (s, w, wSignal w.words) := by
  simp only [State.sendDue, hwrs]
  exact if_pos (by simpa [State.qpIs_error_of_ready hready] using hdone)

theorem State.recvDue_ready {m : RecvMsg} (hhead : (s.run q).msgs.head? = some m) (hseq : m.seq % 65536 = s.fld qpRqConsumer q)
    (hdone : msgDone (s.fld qpExpectedPsn q) m) : s.recvDue q entry = some (s, m) := by
  simp only [State.recvDue, hhead]
  exact if_pos (by simp [hseq, hready, hdone])

end

section
variable {q : QpId} {entry : Option (List Word)} {s u : State} {ks : List Nat} (hform : ∀ e ∈ entry, e.length = 8) (hrun : s.running)
  (hready : s.qpIs q.val qpReady) (hcached : s.lacks ks = none)
include hform hrun hready hcached

theorem execWorkRequestCommit_send {w : WorkReq} {signal : Bool} (hdue : s.sendDue q.val entry = some (u, w, signal))
    (hks : ks = if signal || w.status ≠ 0 then [qpCtx q.val, okey cCompletionQueue (s.fld qpSendCq q.val)] else [qpCtx q.val]) :
    exec (.workRequestCommit q false entry) s = .next ((u.touchAll ks).commitSend q.val w signal) := by
  show execWorkRequestCommit q false entry s = _
  unfold execWorkRequestCommit
  rw [if_neg (by cases entry with | none => decide | some e => simp [hform e rfl]), if_neg (by simp [hrun, hready])]
  simp only [Bool.false_eq_true, if_false, hdue, ← hks, hcached]

theorem execWorkRequestCommit_recv {m : RecvMsg} (hdue : s.recvDue q.val entry = some (u, m))
    (hks : ks = [qpCtx q.val, okey cCompletionQueue (s.fld qpRecvCq q.val)]) :
    exec (.workRequestCommit q true entry) s = .next ((u.touchAll ks).commitRecv q.val m) := by
  show execWorkRequestCommit q true entry s = _
  unfold execWorkRequestCommit
  rw [if_neg (by cases entry with | none => decide | some e => simp [hform e rfl]), if_neg (by simp [hrun, hready])]
  simp only [if_true, hdue, ← hks, hcached]

end

end Sys2Proof.Machine
end

section
/-! The obligation on the requester of the Lighter engine. -/

namespace Sys2Proof
open Machine

/-- Settles O15, one clause for the start, the send, each answer, the two ends of the timer and the two commit points. -/
theorem lighterRequesterCompletes : Obligations.LighterRequesterCompletes := by
  unfold Obligations.LighterRequesterCompletes
  refine ⟨fun _ _ _ _ => execWorkRequestStart_cached, ?send, ?ack, ?nak,
    fun _ _ _ _ htimer hdue hrun hready hacks => execRetransmissionTimerExpiry_spent htimer hdue hrun hready hacks,
    fun _ _ _ htimer hdue hrun hready hacks => execRetransmissionTimerExpiry_again htimer hdue hrun hready hacks, ?commitSend, ?commitRecv⟩
  case send =>
    intro q s w d op i n key ks places hwr hop hi hn hkey hbytes hrun hready hheld hwindow hfence hatomics hks hcached hvalid hhit
    have hgoes : s.sendStops q.val w op = false := State.sendStops_eq_false hrun hready hheld hwindow hfence hatomics
    exact execLighterPacketSend_hit hwr hop hi hn hkey hbytes hgoes hks hcached hvalid hhit
  case ack =>
    rintro pk s _ _ htyp hrun hintact hpeer rfl hcached rfl hok
    rw [execAckReceived_running hrun htyp, State.ltArrive_cached _ hintact hpeer hcached, State.ltTake_ack htyp, State.takeAck_ok hok]
  case nak =>
    rintro pk s _ _ w htyp hrun hintact hpeer rfl hcached rfl hpeerThen hout hlow hhigh hcode hwr
    rw [execNakReceived_running hrun htyp, State.ltArrive_cached _ hintact hpeer hcached, State.ltTake_nak htyp,
      State.takeNak_ends hintact hpeerThen hout hlow hhigh hcode hwr]
  case commitSend =>
    intro q entry s w ws ks hform hrun hready hwrs hdone hks hcached
    exact execWorkRequestCommit_send hform hrun hready hcached (State.sendDue_ready entry hready hwrs hdone) hks
  case commitRecv =>
    intro q entry s m ks hform hrun hready hhead hseq hdone hks hcached
    exact execWorkRequestCommit_recv hform hrun hready hcached (State.recvDue_ready entry hready hhead hseq hdone) hks

end Sys2Proof
end

section
/-! SUPPORT. The responder of the Lighter engine: contexts and translations that arrive, ACKs, fences and revocations (R230, R232, R239, R244, R245). -/

namespace Sys2Proof.Machine

theorem execContextMissFill_turn {c : LtCtx} {s : State} (hmissing : s.lighter.missing.contains (ctxKey c)) (hturn : s.lighterTurn) :
    exec (.contextMissFill c) s = .next (((s.ctxFilled (ctxKey c)).served false).sdramAccess (ctxPlace c).1 (ctxPlace c).2 false) :=
  congrArg Host.Outcome.next (if_pos (by rw [hmissing, hturn]; rfl))

/-- What waits for a page that a translation covers. -/
def LtWait.coveredBy (x : Xlate) (w : LtWait) : Bool :=
  match w.need with
  | .page p => xlateCovers p x
  | .ctx _ => false

/-- The translation enters the cache, and what it covers waits no longer (R232). -/
def State.translated (s : State) (x : Xlate) : State :=
  { s with lighter := { s.lighter with
      xlates := (x :: s.lighter.xlates.filter (fun y => decide (y ≠ x))).take 32768
      waiting := s.lighter.waiting.filter (fun w => !w.coveredBy x)
      sendWaits := s.lighter.sendWaits.filter (fun w => !xlateCovers w.2 x) } }

theorem execTranslationComplete_returned {v : ViewId} {size : Nat} {s : State} (pasid : Option Nat) (page dst : Nat) (hsmall : 12 ≤ size)
    (hlarge : size ≤ 30) (hlive : s.viewLive v.val) :
    exec (.translationComplete v pasid page size (some dst)) s = .next (
      let x : Xlate := ⟨v.val, pasid, page / 2 ^ (size - 12) * 2 ^ (size - 12), size, dst⟩
      (s.translated x).ltResume (s.lighter.waiting.filter (·.coveredBy x))) := by
  show execTranslationComplete v pasid page size (some dst) s = _
  unfold execTranslationComplete
  rw [if_neg (by simp [hsmall, hlarge]), if_neg (by simp [hlive])]
  rfl

/-- A translation that an Invalidate Request names: of its view and PASID, with a page in its range (R232). -/
def Xlate.namedBy (v : Nat) (pasid : Option Nat) (page pages : Nat) (x : Xlate) : Bool :=
  decide (x.view = v) && decide (x.pasid = pasid) && decide (x.page < page + pages) && decide (page < x.page + 2 ^ (x.log2 - 12))

theorem execInvalidateRequest_live {v : ViewId} {s : State} (pasid : Option Nat) (page pages : Nat) (hlive : s.viewLive v.val) :
    exec (.invalidateRequest v pasid page pages) s = .next (
      ({ s with lighter := { s.lighter with
        xlates := s.lighter.xlates.filter (fun x => !x.namedBy v.val pasid page pages) } } : State).emit (.atsInvalidated v.val)) :=
  if_neg (by simp [hlive])

section
variable {q : QpId} {s : State} (hrun : s.running) (hready : s.qpIs q.val qpReady)
include hrun hready

theorem execAckSend_now (hnow : (s.run q.val).ackNow) :
    exec (.ackSend q) s = .next (
      let r := s.run q.val
      let e := s.fld qpExpectedPsn q.val
      let sack := (r.rsack.filter (fun p => decide (distMod 24 p e < 256))).foldl
        (fun (b : BitVec 256) p => b ||| (1#256 <<< distMod 24 p e)) 0
      (s.setRun { r with unreported := 0, ackDue := none, ackNow := false }).ltToPeer q.val 9 e 0 sack) :=
  if_neg (by simp [hrun, hready, hnow])

theorem execFenceResponseReady_first {p : Nat} {rest : List Nat} (hfences : (s.run q.val).fences = p :: rest) (hended : s.fenceReady q.val) :
    exec (.fenceResponseReady q) s = .next (
      (s.setRun { s.run q.val with fences := rest, lost := 0 }).ltToPeer q.val 8 p (min (s.run q.val).lost 4294967295) 0) := by
  show execFenceResponseReady q s = _
  simp only [execFenceResponseReady, hfences]
  exact if_neg (by simp [hrun, hready, hended])

end

/-- At the limit of a revocation, what still waits on the region is discarded with NAK KEY_INVALID (R230). -/
theorem execRevokeComplete_due {r : Fin 4194304} {s : State} {e : Nat × Nat}
    (hfind : s.lighter.revoking.find? (fun e => decide (e.1 = r.val)) = some e) (hdue : e.2 ≤ s.now) :
    exec (.revokeComplete r) s = .next (
      let mine := fun (w : LtWait) => w.keyOk && decide (w.pk.remoteKey / 256 % 16777216 = r.val) && decide (w.pk.typ ≠ 2)
      let s1 : State := { s with lighter := { s.lighter with waiting := s.lighter.waiting.filter (fun w => !mine w) } }
      (s1.nakAll (s.lighter.waiting.filter mine)).regionGone r.val) := by
  show execRevokeComplete r s = _
  simp only [execRevokeComplete, hfind]
  exact if_neg (by simp [hdue])

end Sys2Proof.Machine
end

section
/-! The obligation on the responder of the Lighter engine. -/

namespace Sys2Proof
open Machine

/-- Settles O16, one clause for each packet, each arrival and each end. -/
theorem lighterResponderCompletes : Obligations.LighterResponderCompletes := by
  unfold Obligations.LighterResponderCompletes
  refine ⟨?request, ?waits, fun _ _ => execContextMissFill_turn, ?response,
    fun _ pasid page _ dst _ => execTranslationComplete_returned pasid page dst, ?invalidate,
    fun _ _ => execAckSend_now, fun _ _ _ _ hfences hrun hready => execFenceResponseReady_first hrun hready hfences,
    fun _ _ _ => execRevokeComplete_due⟩
  case request =>
    rintro pk host s _ hform hreq hrun hintact hpeer rfl hcached
    rw [execLighterRequestReceived_running hrun hform hreq, State.ltArrive_cached _ hintact hpeer hcached, State.ltTake_request hreq]
  case waits =>
    intro pk host s k hform hreq hrun hintact hpeer hlacks
    rw [execLighterRequestReceived_running hrun hform hreq, State.ltArrive_missing _ hintact hpeer hlacks]
  case response =>
    rintro pk s _ hform hrun htyp hintact hpeer rfl hcached
    rw [execLighterResponseReceived_running hrun hform htyp, State.ltArrive_cached _ hintact hpeer hcached, State.ltTake_response htyp]
  case invalidate =>
    intro v pasid page pages s hlive
    refine ⟨_, execInvalidateRequest_live pasid page pages hlive, rfl, ?_, rfl, rfl, rfl⟩
    rintro x hx ⟨hview, hpasid, hbelow, habove⟩
    have hstays : x.namedBy v.val pasid page pages = false := by simpa using (List.mem_filter.1 hx).2
    simp [Xlate.namedBy, hview, hpasid, hbelow, habove] at hstays

end Sys2Proof
end

section
/-! SUPPORT. Fields of numbers, bytes and bits as the wire lays them out (R6, R281): each reads back what was packed. -/

namespace Sys2Proof.Machine

/-! ### Fields -/

/-- Fields listed from the highest down that keep clear of each other and stand below bit `top`. -/
def fieldsBelow : Nat → List (Nat × Nat × Nat) → Prop
  | _, [] => True
  | top, f :: fs => f.1 + f.2.1 ≤ top ∧ fieldsBelow f.1 fs

@[simp] theorem fieldsBelow_nil (top : Nat) : fieldsBelow top [] := trivial

@[simp] theorem fieldsBelow_cons (top lo width v : Nat) (fs : List (Nat × Nat × Nat)) :
    fieldsBelow top ((lo, width, v) :: fs) ↔ lo + width ≤ top ∧ fieldsBelow lo fs := Iff.rfl

theorem fieldsOf_cons (lo width v : Nat) (fs : List (Nat × Nat × Nat)) :
    fieldsOf ((lo, width, v) :: fs) = 2 ^ lo * (v % 2 ^ width) + fieldsOf fs := by
  simp [fieldsOf, Nat.mul_comm]

theorem fieldsOf_lt {top : Nat} {fs : List (Nat × Nat × Nat)} (h : fieldsBelow top fs) : fieldsOf fs < 2 ^ top := by
  induction fs generalizing top with
  | nil => exact Nat.two_pow_pos top
  | cons f fs ih =>
    obtain ⟨lo, width, v⟩ := f
    obtain ⟨hfits, hrest⟩ := h
    rw [fieldsOf_cons]
    calc 2 ^ lo * (v % 2 ^ width) + fieldsOf fs
        < 2 ^ lo * (v % 2 ^ width + 1) := Nat.add_lt_add_left (ih hrest) _
      _ ≤ 2 ^ lo * 2 ^ width := Nat.mul_le_mul_left _ (Nat.mod_lt _ (Nat.two_pow_pos width))
      _ ≤ 2 ^ top := by rw [← Nat.pow_add]; exact Nat.pow_le_pow_right Nat.two_pos hfits

/-- The highest field reads what it was given. -/
theorem bitsAt_fieldsOf_head {lo width : Nat} (v : Nat) {fs : List (Nat × Nat × Nat)} (h : fieldsBelow lo fs) :
    bitsAt (fieldsOf ((lo, width, v) :: fs)) lo width = v % 2 ^ width := by
  rw [bitsAt, fieldsOf_cons, Nat.mul_add_div (Nat.two_pow_pos lo), Nat.div_eq_of_lt (fieldsOf_lt h), Nat.add_zero, Nat.mod_mod]

/-- Bits below the highest field do not see it. -/
theorem bitsAt_fieldsOf_tail {lo lo' width' : Nat} (width v : Nat) (fs : List (Nat × Nat × Nat)) (h : lo' + width' ≤ lo) :
    bitsAt (fieldsOf ((lo, width, v) :: fs)) lo' width' = bitsAt (fieldsOf fs) lo' width' := by
  obtain ⟨gap, rfl⟩ := Nat.exists_eq_add_of_le h
  rw [bitsAt, bitsAt, fieldsOf_cons, Nat.pow_add, Nat.pow_add, Nat.mul_assoc, Nat.mul_assoc, Nat.mul_add_div (Nat.two_pow_pos lo'),
    Nat.mul_add_mod]

/-- Bits above every field are 0. -/
theorem bitsAt_fieldsOf_above {lo : Nat} (width : Nat) {fs : List (Nat × Nat × Nat)} (h : fieldsBelow lo fs) :
    bitsAt (fieldsOf fs) lo width = 0 := by
  rw [bitsAt, Nat.div_eq_of_lt (fieldsOf_lt h), Nat.zero_mod]

@[simp] theorem bit_mod_two_eq_one (b : Bool) : decide (bit b % 2 = 1) = b := by
  cases b <;> rfl

/-! ### Bytes -/

@[simp] theorem length_leBytes (n v : Nat) : (leBytes n v).length = n := by
  induction n generalizing v with
  | zero => rfl
  | succ n ih => simp [leBytes, ih]

theorem leNat_leBytes (n v : Nat) : leNat (leBytes n v) = v % 256 ^ n := by
  induction n generalizing v with
  | zero => simp [leBytes, leNat, Nat.mod_one]
  | succ n ih =>
    rw [leBytes, leNat, ih, BitVec.toNat_ofNat, Nat.pow_succ' (m := 256)]
    exact Nat.mod_mul.symm

@[simp] theorem length_padTo (n : Nat) (bs : List Byte) : (padTo n bs).length = n := by
  simp [padTo]; omega

/-! ### Bits in transmit order (R281) -/

theorem testBit_ofBitsLsb (l : List Bool) (i : Nat) : (l.foldr (fun b n => bit b + 2 * n) 0).testBit i = l.getD i false := by
  induction l generalizing i with
  | nil => simp
  | cons b l ih =>
    cases i with
    | zero => cases b <;> simp [bit, Nat.testBit_zero] 
    | succ i =>
      have hhalf : (bit b + 2 * l.foldr (fun b n => bit b + 2 * n) 0) / 2 = l.foldr (fun b n => bit b + 2 * n) 0 := by
        cases b <;> simp only [bit, Bool.false_eq_true, if_true, if_false] <;> omega
      rw [List.foldr_cons, Nat.testBit_succ, hhalf, ih, List.getD_cons_succ]

theorem getLsbD_byteOfBits (l : List Bool) {i : Nat} (hi : i < 8) : (byteOfBits l).getLsbD i = l.getD i false := by
  rw [byteOfBits, BitVec.getLsbD_ofNat, testBit_ofBitsLsb]
  simp [hi]

@[simp] theorem length_bitsLsb (b : Byte) : (bitsLsb b).length = 8 := by
  simp [bitsLsb]

@[simp] theorem byteOfBits_bitsLsb (b : Byte) : byteOfBits (bitsLsb b) = b := by
  refine BitVec.eq_of_getLsbD_eq fun i hi => ?_
  rw [getLsbD_byteOfBits _ hi]
  simp [bitsLsb, hi]

theorem bitsLsb_byteOfBits {l : List Bool} (h : l.length = 8) : bitsLsb (byteOfBits l) = l := by
  refine List.ext_getElem (by simp [h]) fun i hi hil => ?_
  have hlt : i < 8 := by simpa using hi
  simp [bitsLsb, getLsbD_byteOfBits l hlt, hil]

end Sys2Proof.Machine
end

section
/-! SUPPORT. Flits as they are built and read: the parity that R252 adds leaves both syndromes of R253 zero, and every part stands in its place. -/

namespace Sys2Proof.Machine

/-! ### Parity and syndromes (R252, R253) -/

theorem gfDouble_eq (a : Byte) : gfDouble a = a <<< 1 ^^^ (if a.msb then 0x1D else 0) := by
  rw [gfDouble]
  split
  · rfl
  · exact BitVec.xor_zero.symm

theorem reduction_xor (x y : Bool) :
    (if x ^^ y then 0x1D else 0 : Byte) = (if x then 0x1D else 0) ^^^ (if y then 0x1D else 0) := by
  cases x <;> cases y <;> rfl

theorem gfDouble_xor (a b : Byte) : gfDouble (a ^^^ b) = gfDouble a ^^^ gfDouble b := by
  simp only [gfDouble_eq, BitVec.msb_xor, BitVec.shiftLeft_xor_distrib, reduction_xor]
  ac_rfl

/-- The sum of symbols, the syndrome at 1 (R253). -/
def synOne (cs : List Byte) : Byte := cs.foldl (fun a c => a ^^^ c) 0

/-- The syndrome at α (R253). -/
def synAlpha (cs : List Byte) : Byte := cs.foldl (fun a c => gfDouble a ^^^ c) 0

theorem fecDecode_clean {cs : List Byte} (hone : synOne cs = 0) (halpha : synAlpha cs = 0) : fecDecode cs = some none := by
  show (if synOne cs = 0 then _ else _) = _
  rw [if_pos hone]
  exact if_pos halpha

theorem fecParity_concat (ds : List Byte) (d : Byte) :
    fecParity (ds ++ [d]) = (let f := d ^^^ (fecParity ds).1; ((fecParity ds).2 ^^^ gfDouble f ^^^ f, gfDouble f)) := by
  rw [fecParity, List.foldl_append]
  rfl

/-- The remainder and the data agree at 1. -/
theorem fecParity_one (ds : List Byte) : (fecParity ds).1 ^^^ (fecParity ds).2 = synOne ds := by
  induction ds using List.reverseRecOn with
  | nil => rfl
  | append_singleton ds d ih =>
    rw [fecParity_concat, synOne, List.foldl_append]
    show _ = synOne ds ^^^ d
    rw [← ih]
    dsimp only
    generalize fecParity ds = r
    generalize gfDouble _ = t
    grind

/-- The remainder and the data, shifted by two places, agree at α. -/
theorem fecParity_alpha (ds : List Byte) : gfDouble (fecParity ds).1 ^^^ (fecParity ds).2 = gfDouble (gfDouble (synAlpha ds)) := by
  induction ds using List.reverseRecOn with
  | nil => rfl
  | append_singleton ds d ih =>
    rw [fecParity_concat, synAlpha, List.foldl_append]
    show _ = gfDouble (gfDouble (gfDouble (synAlpha ds) ^^^ d))
    simp only [gfDouble_xor, ← ih]
    grind


theorem synOne_parity (ds : List Byte) : synOne (ds ++ [(fecParity ds).1, (fecParity ds).2]) = 0 := by
  rw [synOne, List.foldl_append]
  show synOne ds ^^^ (fecParity ds).1 ^^^ (fecParity ds).2 = 0
  rw [BitVec.xor_assoc, fecParity_one]
  exact BitVec.xor_self

theorem synAlpha_parity (ds : List Byte) : synAlpha (ds ++ [(fecParity ds).1, (fecParity ds).2]) = 0 := by
  rw [synAlpha, List.foldl_append]
  show gfDouble (gfDouble (synAlpha ds) ^^^ (fecParity ds).1) ^^^ (fecParity ds).2 = 0
  rw [gfDouble_xor, BitVec.xor_assoc, fecParity_alpha]
  exact BitVec.xor_self

/-- Data with their parity decode without a correction. -/
theorem fecDecode_parity (ds : List Byte) : fecDecode (ds ++ [(fecParity ds).1, (fecParity ds).2]) = some none :=
  fecDecode_clean (synOne_parity ds) (synAlpha_parity ds)

/-! ### Interleaves (R252) -/

/-- The data symbols of interleave `j`, without its parity. -/
def dataSymbols (bs : List Byte) (j : Nat) : List Byte := (interleave bs j).take 62

theorem dataSymbols_eq (bs : List Byte) (j : Nat) : dataSymbols bs j = (List.range 62).map (fun k => bs.getD (4 * k + j) 0) := by
  rw [dataSymbols, interleave, ← List.map_take, List.take_range]
  rfl

/-- Symbols 62 and 63 of an interleave are its parity, where 248 bytes stand before the parity bytes. -/
theorem interleave_fecBytes {bs : List Byte} (hlen : bs.length = 248) {j : Nat} (hj : j < 4) :
    interleave (bs ++ fecBytes bs) j = dataSymbols bs j ++ [(fecParity (dataSymbols bs j)).1, (fecParity (dataSymbols bs j)).2] := by
  have hdata : (List.range 62).map (fun k => (bs ++ fecBytes bs).getD (4 * k + j) 0) = dataSymbols bs j := by
    rw [dataSymbols_eq]
    refine List.map_congr_left fun k hk => List.getD_append _ _ _ _ ?_
    have := List.mem_range.1 hk
    omega
  have hparity : ∀ i, (bs ++ fecBytes bs).getD (248 + i) 0 = (fecBytes bs).getD i 0 := fun i => by
    rw [List.getD_append_right _ _ _ _ (by omega), hlen, Nat.add_sub_cancel_left]
  rw [interleave, List.range_succ, List.range_succ, List.append_assoc, List.map_append, hdata]
  congr 1
  show [(bs ++ fecBytes bs).getD (248 + j) 0, (bs ++ fecBytes bs).getD (252 + j) 0] = _
  rw [hparity, show 252 + j = 248 + (4 + j) by omega, hparity]
  interval_cases j <;> rfl

/-- A flit of clean interleaves passes as it is. -/
theorem fecFlit_clean {bs : List Byte} {js : List Nat} (h : ∀ j ∈ js, fecDecode (interleave bs j) = some none) (r : List Byte × List Nat) :
    fecFlit bs js r = some r := by
  induction js with
  | nil => rfl
  | cons j js ih =>
    rw [fecFlit, h j List.mem_cons_self]
    exact ih fun i hi => h i (List.mem_cons_of_mem j hi)

theorem flitDecode_fecBytes {bs : List Byte} (hlen : bs.length = 248) :
    flitDecode (bs ++ fecBytes bs) = some (bs ++ fecBytes bs, []) := by
  refine fecFlit_clean (fun j hj => ?_) _
  have hj4 : j < 4 := by simp at hj; omega
  rw [interleave_fecBytes hlen hj4, fecDecode_parity]

/-! ### The parts of a flit (Tables 10-1, 10-2 and 10-4) -/

/-- What the CRC-64 of a flit covers: its first 240 bytes (R251). -/
def flitBody (head ctl : Nat) (payload : List Byte) : List Byte := leBytes 4 head ++ leBytes 8 ctl ++ padTo 228 payload

/-- What the FEC of a flit covers: its first 248 bytes (R252). -/
def flitChecked (head ctl : Nat) (payload : List Byte) : List Byte :=
  flitBody head ctl payload ++ leBytes 8 (crc64 (flitBody head ctl payload)).toNat

theorem flitBytes_eq (head ctl : Nat) (payload : List Byte) :
    flitBytes head ctl payload = flitChecked head ctl payload ++ fecBytes (flitChecked head ctl payload) := rfl

@[simp] theorem length_flitBody (head ctl : Nat) (payload : List Byte) : (flitBody head ctl payload).length = 240 := by
  simp [flitBody]

@[simp] theorem length_flitChecked (head ctl : Nat) (payload : List Byte) : (flitChecked head ctl payload).length = 248 := by
  simp [flitChecked]

theorem flitDecode_flitBytes (head ctl : Nat) (payload : List Byte) :
    flitDecode (flitBytes head ctl payload) = some (flitBytes head ctl payload, []) :=
  flitDecode_fecBytes (length_flitChecked head ctl payload)

section
variable (head ctl : Nat) (payload : List Byte)

theorem take_flitBytes_body : (flitBytes head ctl payload).take 240 = flitBody head ctl payload := by
  rw [flitBytes_eq, flitChecked, List.append_assoc, List.take_left' (length_flitBody ..)]

theorem flitBytes_crc : ((flitBytes head ctl payload).drop 240).take 8 = leBytes 8 (crc64 (flitBody head ctl payload)).toNat := by
  rw [flitBytes_eq, flitChecked, List.append_assoc, List.drop_left' (length_flitBody ..), List.take_left' (length_leBytes ..)]

/-- A part of a flit before its CRC-64 is that part of its body. -/
theorem flitBytes_part {start n : Nat} (h : start + n ≤ 240) :
    ((flitBytes head ctl payload).drop start).take n = ((flitBody head ctl payload).drop start).take n := by
  rw [← take_flitBytes_body, List.drop_take, List.take_take, Nat.min_eq_left (by omega)]

theorem flitBytes_head : (flitBytes head ctl payload).take 4 = leBytes 4 head := by
  rw [← List.drop_zero (l := flitBytes _ _ _), flitBytes_part _ _ _ (by omega), flitBody, List.append_assoc, List.drop_zero,
    List.take_left' (length_leBytes ..)]

theorem flitBytes_ctl : ((flitBytes head ctl payload).drop 4).take 8 = leBytes 8 ctl := by
  rw [flitBytes_part _ _ _ (by omega), flitBody, List.append_assoc, List.drop_left' (length_leBytes ..), List.take_left' (length_leBytes ..)]

theorem flitBytes_payload : ((flitBytes head ctl payload).drop 12).take 228 = padTo 228 payload := by
  rw [flitBytes_part _ _ _ (by omega), flitBody, List.drop_left' (by simp), List.take_of_length_le (by simp)]

/-- What a built flit reads as, from its header and link control word (R253). -/
theorem rxFlit_flitBytes (htyp : bitsAt (head % 256 ^ 4) 0 4 < 3) :
    rxFlit (flitBytes head ctl payload) = some ⟨bitsAt (head % 256 ^ 4) 0 4, bitsAt (head % 256 ^ 4) 4 4, bitsAt (head % 256 ^ 4) 8 24,
      linkCtlOf (ctl % 256 ^ 8), padTo 228 payload⟩ := by
  have hcrc : leNat (((flitBytes head ctl payload).drop 240).take 8) = (crc64 ((flitBytes head ctl payload).take 240)).toNat := by
    rw [flitBytes_crc, take_flitBytes_body, leNat_leBytes]
    exact Nat.mod_eq_of_lt (BitVec.isLt _)
  simp only [rxFlit, flitDecode_flitBytes, hcrc, flitBytes_head, flitBytes_ctl, flitBytes_payload, leNat_leBytes]
  exact if_neg (not_or.2 ⟨not_not.2 rfl, Nat.not_le.2 htyp⟩)

end

/-! ### Fields -/

/-- A number of fields below bit 8 · `n` fills no more than `n` bytes. -/
theorem fieldsOf_mod {fs : List (Nat × Nat × Nat)} (n : Nat) (h : fieldsBelow (8 * n) fs) : fieldsOf fs % 256 ^ n = fieldsOf fs :=
  Nat.mod_eq_of_lt ((fieldsOf_lt h).trans_eq (Nat.pow_mul 2 8 n))

theorem linkCtlOf_word {c : LinkCtl} (hack : c.ackSeq < 16777216) (hcount : c.creditCount < 65536) (hvc : c.creditVc < 16) (hhop : c.congHop < 4)
    (hlevel : c.congLevel < 16) (hcmd : c.cmd < 8) (harg : c.arg < 256) : linkCtlOf (c.word % 256 ^ 8) = c := by
  rw [LinkCtl.word, fieldsOf_mod 8 (by simp)]
  simp [linkCtlOf, bitsAt_fieldsOf_head, bitsAt_fieldsOf_tail, Nat.mod_eq_of_lt, *]

theorem bitsAt_flitHead {seq vc typ : Nat} (hseq : seq < 16777216) (hvc : vc < 16) (htyp : typ < 3) :
    bitsAt (flitHead seq vc typ % 256 ^ 4) 8 24 = seq ∧ bitsAt (flitHead seq vc typ % 256 ^ 4) 4 4 = vc ∧
      bitsAt (flitHead seq vc typ % 256 ^ 4) 0 4 = typ := by
  rw [flitHead, fieldsOf_mod 4 (by simp)]
  have : typ < 16 := by omega
  simp [bitsAt_fieldsOf_head, bitsAt_fieldsOf_tail, Nat.mod_eq_of_lt, *]

theorem fieldsOf_single (width v : Nat) : fieldsOf [(0, width, v)] = v % 2 ^ width := by
  simp [fieldsOf]

/-! ### INIT records (Table 10-5, R258) -/

/-- Three words at the start of a payload, each read in its place. -/
theorem take_threeWords (a b c : Nat) (rest : List Byte) {l : List Byte} (hl : l = leBytes 8 a ++ leBytes 8 b ++ leBytes 8 c ++ rest) :
    l.take 8 = leBytes 8 a ∧ (l.drop 8).take 8 = leBytes 8 b ∧ (l.drop 16).take 8 = leBytes 8 c := by
  subst hl
  refine ⟨?_, ?_, ?_⟩
  · rw [List.append_assoc, List.append_assoc, List.take_left' (length_leBytes ..)]
  · rw [List.append_assoc, List.append_assoc, List.drop_left' (length_leBytes ..), List.take_left' (length_leBytes ..)]
  · rw [List.append_assoc, List.drop_left' (by simp), List.take_left' (length_leBytes ..)]

theorem padTo_of_length_le {n : Nat} {bs : List Byte} (h : bs.length ≤ n) : padTo n bs = bs ++ List.replicate (n - bs.length) 0 := by
  rw [padTo, List.take_of_length_le h]

theorem initOf_initPayload {m : InitMsg} (hvalid : m.valid) (hrate : m.rate < 16) (hwidth : m.width < 16) (hport : m.port < 256)
    (hid : m.fabricId < 4096) (hnext : m.nextSeq < 16777216) (hack : m.ackSeq < 16777216) (hnonce : m.nonce < 4294967296) :
    initOf (padTo 228 (initPayload m)) = m := by
  obtain ⟨hfirst, hsecond, hthird⟩ := take_threeWords _ _ _ _ (padTo_of_length_le (n := 228) (bs := initPayload m) (by simp [initPayload]))
  obtain ⟨valid, rate, width, port, fabricId, resume, heard, nextSeq, ackSeq, nonce⟩ := m
  obtain rfl : valid = true := hvalid
  have hword : nonce % 4294967296 = fieldsOf [(0, 32, nonce)] := (fieldsOf_single 32 nonce).symm
  simp only [initOf, hfirst, hsecond, hthird, leNat_leBytes, hword]
  rw [fieldsOf_mod 8 (by simp), fieldsOf_mod 8 (by simp), fieldsOf_mod 8 (by simp)]
  simp [bitsAt_fieldsOf_head, bitsAt_fieldsOf_tail, bitsAt_fieldsOf_above, Nat.mod_eq_of_lt, hrate, hwidth, hport, hid, hnext, hack, hnonce]

end Sys2Proof.Machine
end

section
/-! The obligation on flits. -/

namespace Sys2Proof
open Machine

/-- Settles O40: the parity leaves both syndromes zero, and each field reads back from its place. -/
theorem flitsReadBack : Obligations.FlitsReadBack := by
  unfold Obligations.FlitsReadBack
  refine ⟨flitDecode_flitBytes, ?flit, fun _ => initOf_initPayload⟩
  case flit =>
    intro seq vc typ c payload hseq hvc htyp hack hcount hcreditVc hhop hlevel hcmd harg
    obtain ⟨hreadSeq, hreadVc, hreadTyp⟩ := bitsAt_flitHead hseq hvc htyp
    rw [rxFlit_flitBytes _ _ _ (hreadTyp.trans_lt htyp), hreadSeq, hreadVc, hreadTyp, linkCtlOf_word hack hcount hcreditVc hhop hlevel hcmd harg]

end Sys2Proof
end

section
/-! SUPPORT. The lane coding: bytes dealt to streams, PAM4 symbols, the scrambler and markers lose nothing (R249, R281 to R283). -/

namespace Sys2Proof.Machine

/-! ### Streams (R249) -/

/-- The place in the flit of byte `q` of stream `k`: each run of `w` bytes holds one byte of each stream, and the next run is turned by one. -/
def byteOfLane (w k q : Nat) : Nat := w * q + (k + (w - q % w)) % w

theorem byteOfLane_div {w : Nat} (hw : 0 < w) (k q : Nat) : byteOfLane w k q / w = q := by
  rw [byteOfLane, Nat.mul_add_div hw, Nat.div_eq_of_lt (Nat.mod_lt _ hw), Nat.add_zero]

/-- Byte `r` of run `q` is on the stream that the turned run puts there. -/
theorem laneOfByte_run {w r : Nat} (hr : r < w) (q : Nat) : laneOfByte w (w * q + r) = (r + q) % w := by
  have hrun : (w * q + r) / w = q := by rw [Nat.mul_add_div (by omega), Nat.div_eq_of_lt hr, Nat.add_zero]
  rw [laneOfByte, hrun, Nat.add_assoc, Nat.mul_add_mod]

theorem mod_of_lt_two_mul {w x : Nat} (h : x < w + w) : x % w = if x < w then x else x - w := by
  split
  · exact Nat.mod_eq_of_lt ‹_›
  · rw [Nat.mod_eq_sub_mod (by omega), Nat.mod_eq_of_lt (by omega)]

/-- In run `q`, stream `k` has the one byte that `byteOfLane` names. -/
theorem laneOfByte_run_eq_iff {w r k : Nat} (hr : r < w) (hk : k < w) (q : Nat) :
    laneOfByte w (w * q + r) = k ↔ r = (k + (w - q % w)) % w := by
  have hturn : q % w < w := Nat.mod_lt _ (by omega)
  rw [laneOfByte_run hr, Nat.add_mod, Nat.mod_eq_of_lt hr]
  generalize q % w = t at hturn ⊢
  rw [mod_of_lt_two_mul (x := r + t) (by omega), mod_of_lt_two_mul (x := k + (w - t)) (by omega)]
  split <;> split <;> omega

theorem byteOfLane_laneOfByte {w : Nat} (hw : 0 < w) (i : Nat) : byteOfLane w (laneOfByte w i) (i / w) = i := by
  have hplace : i % w = (laneOfByte w i + (w - i / w % w)) % w :=
    (laneOfByte_run_eq_iff (Nat.mod_lt i hw) (Nat.mod_lt _ hw) (i / w)).1 (congrArg _ (Nat.div_add_mod i w))
  rw [byteOfLane, ← hplace, Nat.div_add_mod]

/-- The bytes of stream `k` in `n` runs, in order. -/
theorem filter_laneOfByte {w k : Nat} (hk : k < w) (n : Nat) :
    (List.range (w * n)).filter (fun i => laneOfByte w i = k) = (List.range n).map (byteOfLane w k) := by
  induction n with
  | zero => simp
  | succ q ih =>
    have hrun : (List.range w).filter (fun r => laneOfByte w (w * q + r) = k) = [(k + (w - q % w)) % w] := by
      rw [List.filter_congr fun r hr => decide_eq_decide.2 (laneOfByte_run_eq_iff (List.mem_range.1 hr) hk q), List.filter_eq,
        List.count_eq_one_of_mem List.nodup_range (List.mem_range.2 (Nat.mod_lt _ (by omega))), List.replicate_one]
    rw [Nat.mul_succ, List.range_add, List.filter_append, ih, List.filter_map]
    simp only [Function.comp_def, hrun]
    rw [List.range_succ, List.map_append]
    rfl

theorem laneShare_eq {w k n : Nat} (hk : k < w) {flit : List Byte} (hlen : flit.length = w * n) :
    laneShare w k flit = (List.range n).map (fun q => flit.getD (byteOfLane w k q) 0) := by
  rw [laneShare, hlen, filter_laneOfByte hk, List.map_map]
  rfl

/-- A flit whose bytes fill whole runs is collected as it was dealt. -/
theorem flitOfLanes_laneShare {w n : Nat} (hruns : 256 = w * n) {flit : List Byte} (hlen : flit.length = 256) :
    flitOfLanes w ((List.range w).map (fun k => laneShare w k flit)) = flit := by
  have hw : 0 < w := Nat.pos_of_ne_zero (by rintro rfl; omega)
  refine List.ext_getElem (by simp [flitOfLanes, hlen]) fun i hi hiflit => ?_
  have hlane : laneOfByte w i < w := Nat.mod_lt _ hw
  have hq : i / w < n := Nat.div_lt_of_lt_mul (by omega)
  simp [flitOfLanes, hlane, laneShare_eq hlane (hlen.trans hruns), hq, byteOfLane_laneOfByte hw, hiflit]

/-! ### PAM4 symbols (R281) -/

theorem pamBits_pamLevel (hi lo : Bool) : pamBits (pamLevel hi lo) = [lo, hi] := by
  cases hi <;> cases lo <;> rfl

theorem pamBits_pamSymbols (b : Byte) : (pamSymbols b).flatMap pamBits = bitsLsb b := by
  simp [pamSymbols, bitsLsb, pamBits_pamLevel, List.range_succ]

@[simp] theorem length_pamSymbols (b : Byte) : (pamSymbols b).length = 4 := rfl

/-- The symbols of bytes, cut into fours, are the symbols of each byte. -/
theorem pieces_pamSymbols {bs : List Byte} {fuel : Nat} (h : bs.length ≤ fuel) : pieces 4 fuel (bs.flatMap pamSymbols) = bs.map pamSymbols := by
  induction bs generalizing fuel with
  | nil => cases fuel <;> rfl
  | cons b bs ih =>
    cases fuel with
    | zero => simp at h
    | succ fuel =>
      have hfew : bs.length ≤ fuel := by simpa using h
      rw [pieces, List.flatMap_cons, if_neg (by simp [pamSymbols]), List.take_left' (length_pamSymbols b), List.drop_left' (length_pamSymbols b),
        ih hfew, List.map_cons]

theorem pamBytes_pamSymbols (bs : List Byte) : pamBytes (bs.flatMap pamSymbols) = bs := by
  have hfuel : bs.length ≤ (bs.flatMap pamSymbols).length := by
    simp [List.length_flatMap]; omega
  rw [pamBytes, pieces_pamSymbols hfuel, List.map_map]
  simp [Function.comp_def, pamBits_pamSymbols]

/-! ### The scrambler (R282) -/

/-- The state goes on by itself, and what it adds to a bit it takes away again. -/
theorem scramBits_scramBits (x : BitVec 31) (ds : List Bool) : scramBits x (scramBits x ds).1 = (ds, (scramBits x ds).2) := by
  induction ds generalizing x with
  | nil => rfl
  | cons d ds ih => simp [scramBits, scramBit, ih]

@[simp] theorem length_scramBits (x : BitVec 31) (ds : List Bool) : (scramBits x ds).1.length = ds.length := by
  induction ds generalizing x with
  | nil => rfl
  | cons d ds ih => simp [scramBits, ih]

theorem scramble_scramble (x : BitVec 31) (bs : List Byte) : scramble x (scramble x bs).1 = (bs, (scramble x bs).2) := by
  induction bs generalizing x with
  | nil => rfl
  | cons b bs ih =>
    have hbits := bitsLsb_byteOfBits ((length_scramBits x (bitsLsb b)).trans (length_bitsLsb b))
    simp [scramble, hbits, scramBits_scramBits, ih]

/-! ### CRC-32 (R37) -/

theorem crcBit_lt {c : Nat} (h : c < 2 ^ 32) : crcBit c < 2 ^ 32 := by
  have hhalf : c / 2 < 2 ^ 32 := by omega
  rw [crcBit]
  split
  · exact Nat.xor_lt_two_pow hhalf (by decide)
  · exact hhalf

theorem crcByte_lt {c b : Nat} (hc : c < 2 ^ 32) (hb : b < 2 ^ 8) : crcByte c b < 2 ^ 32 := by
  have hmix : c ^^^ b < 2 ^ 32 := Nat.xor_lt_two_pow hc (by omega)
  unfold crcByte
  iterate 8 apply crcBit_lt
  exact hmix

theorem crcBytes_lt (bs : List Byte) : crcBytes bs < 2 ^ 32 := by
  have hfold : ∀ (c : Nat), c < 2 ^ 32 → (bs.map (·.toNat)).foldl crcByte c < 2 ^ 32 := by
    induction bs with
    | nil => exact fun _ h => h
    | cons b bs ih => exact fun c hc => ih _ (crcByte_lt hc b.isLt)
  exact Nat.xor_lt_two_pow (hfold _ (by decide)) (by decide)

/-! ### Markers (R283) -/

theorem markOf_markBytes {m : MarkerIn} (hlane : m.markLane < 32) (hcount : m.markCount < 128) (htag : m.steerTag < 16) (hcmd : m.steerCmd < 16)
    (hspare : m.steerSpare < 4) (hsteered : m.steerLane < 16) : markOf (markBytes m) = { m with crcOk := true } := by
  have hcrc : leNat ((markBytes m).drop 12) = crcBytes (((markBytes m).drop 6).take 6) := by
    show leNat (leBytes 4 (crcBytes (markFields m))) = crcBytes (markFields m)
    rw [leNat_leBytes]
    exact Nat.mod_eq_of_lt (crcBytes_lt _)
  have hfields6 : ((markBytes m).getD 6 0).toNat = fieldsOf [(0, 5, m.markLane)] := by
    rw [← fieldsOf_mod 1 (fs := [(0, 5, m.markLane)]) (by simp), fieldsOf_single]
    rfl
  have hfields7 : ((markBytes m).getD 7 0).toNat = fieldsOf [(7, 1, bit m.rxOk), (0, 7, m.markCount)] := fieldsOf_mod 1 (by simp)
  have hfields8 : ((markBytes m).getD 8 0).toNat = fieldsOf [(4, 4, m.steerTag), (0, 4, m.steerCmd)] := fieldsOf_mod 1 (by simp)
  have hfields9 : ((markBytes m).getD 9 0).toNat = fieldsOf [(6, 1, bit m.replacement), (4, 2, m.steerSpare), (0, 4, m.steerLane)] :=
    fieldsOf_mod 1 (by simp)
  simp only [markOf, hcrc, hfields6, hfields7, hfields8, hfields9]
  simp [bitsAt_fieldsOf_head, bitsAt_fieldsOf_tail, Nat.mod_eq_of_lt, hlane, hcount, htag, hcmd, hspare, hsteered]

end Sys2Proof.Machine
end

section
/-! The obligation on the bytes of lanes and markers. -/

namespace Sys2Proof
open Machine

/-- Settles O41, one clause for each layer of the lane coding. -/
theorem lanesCarryEveryByte : Obligations.LanesCarryEveryByte := by
  unfold Obligations.LanesCarryEveryByte
  refine ⟨?dealt, pamBytes_pamSymbols, ?scrambled, fun _ => markOf_markBytes⟩
  case dealt =>
    intro w flit hw hlen
    obtain ⟨n, hruns⟩ : w ∣ 256 := by
      simp only [List.mem_cons, List.not_mem_nil, or_false] at hw
      rcases hw with rfl | rfl | rfl | rfl | rfl <;> decide
    exact flitOfLanes_laneShare hruns hlen
  case scrambled =>
    intro x bs
    rw [scramble_scramble]
    exact ⟨rfl, rfl⟩

end Sys2Proof
end

section
/-! SUPPORT. Tide time: what the messages of an exchange, the measurements and the loss of the source do where their conditions hold (R276, R327,
R328, R331). -/

namespace Sys2Proof.Machine

section
variable {s : State}

theorem execTideSyncSend_due (hrun : s.running) (hdue : s.clock.served < s.tide / tideInterval) (hserves : s.servesTide) :
    exec .tideSyncSend s = .next (({ s with clock := { s.clock with
      served := s.tide / tideInterval, nextMsg := (s.clock.nextMsg + 1) % 65536 } } : State).sendTide s.clock.nextMsg s.tidePorts) := by
  show execTideSyncSend s = _
  rw [execTideSyncSend, if_pos (by simp [hrun, hdue])]
  exact congrArg _ (if_pos hserves)

section
variable {p : PortId} {m : Nat}

theorem execTideSyncReceived_source (hfrom : s.tideFrom p.val) :
    exec (.tideSyncReceived p m) s
      = .next { s with clock := { s.clock with sync := some (m, s.rxStamp p.val), follow := none, dreq := none } } :=
  congrArg _ (if_pos hfrom)

/-- The first TIDE_FOLLOW of an exchange, from a source that has the time, is kept and answered (R276, R328). -/
theorem execTideFollowReceived_first {t2 : Nat} {t1 : Word} {l h : Bool} (hfrom : s.tideFrom p.val) (hsync : s.clock.sync = some (m, t2))
    (hfirst : s.clock.follow = none) (htime : l || h) :
    exec (.tideFollowReceived p m t1 l h) s = .next (
      ({ s with sourceHoldover := h, clock := { s.clock with follow := some (m, t1.toNat), dreq := none } } :
        State).notify.sendLocal p.val (.tideDreq m)) := by
  show execTideFollowReceived p m t1 l h s = _
  rw [execTideFollowReceived, if_neg (by simp [hfrom])]
  simp only [hsync, hfirst, htime, decide_true, Option.isNone_none, Bool.and_true, if_true]

theorem execTideDreqReceived_served (hrun : s.running) (hserves : s.servesTide) (hup : s.fabricUp p.val) (hlane : s.lane0 p.val = p.val)
    (hother : ¬(s.fld tideSource 0 = 3 ∧ s.fld tideSourcePort 0 = p.val)) :
    exec (.tideDreqReceived p m) s = .next (s.sendLocal p.val (.tideDresp m (word (s.rxStamp p.val)))) :=
  congrArg _ (if_pos (by simpa [hrun, hserves, hup, hlane, imp_iff_not_or] using hother))

/-- The offset of an exchange: half the difference of the two one-way differences (R328). -/
def exchangeOffset (t1 t2 t3 t4 : Nat) : Int :=
  (signed 64 (unsigned 64 ((t2 : Int) - t1)) - signed 64 (unsigned 64 ((t4 : Int) - t3))) / 2

theorem execTideDrespReceived_complete {t1 t2 t3 : Nat} {t4 : Word} (hfrom : s.tideFrom p.val) (hsync : s.clock.sync = some (m, t2))
    (hfollow : s.clock.follow = some (m, t1)) (hdreq : s.clock.dreq = some (m, t3)) :
    exec (.tideDrespReceived p m t4) s = .next (
      ({ s with clock := { s.clock with sync := none, follow := none, dreq := none } } : State).tideMeasure (exchangeOffset t1 t2 t3 t4.toNat)) := by
  show execTideDrespReceived p m t4 s = _
  simp only [execTideDrespReceived, hsync, hfollow, hdreq]
  exact if_pos (by simp [hfrom])

end

section
variable (ref : Word)

theorem execTideMeasurement_pps (hrun : s.running) (hsource : s.fld tideSource 0 = 1) :
    exec (.tideMeasurement 1 ref) s = .next (s.tideMeasure (signed 64 (unsigned 64 ((s.tide : Int) - s.ppsSecond)))) := by
  show execTideMeasurement 1 ref s = _
  rw [execTideMeasurement, if_neg (by simp [hrun, hsource])]
  exact if_pos rfl

theorem execTideMeasurement_ptm (hrun : s.running) (hsource : s.fld tideSource 0 = 2) (hlink : s.edgeLinkUp (s.fld tideSourcePort 0)) :
    exec (.tideMeasurement 2 ref) s
      = .next (s.tideMeasure (signed 64 (unsigned 64 ((s.tide : Int) - (ref.toNat + s.fld tidePtmOffset 0 : Nat))))) := by
  show execTideMeasurement 2 ref s = _
  rw [execTideMeasurement, if_neg (by simp [hrun, hsource]), if_neg (by decide)]
  exact if_pos (by simp [hlink])

end

theorem execTideSourceLoss_chosen (hrun : s.running) (hsource : s.fld tideSource 0 ≠ 0) : exec .tideSourceLoss s = .next s.tideLost :=
  congrArg _ (if_pos (by simp [hrun, hsource]))

theorem execPtmDialogueStart_due {v : Nat} (hrun : s.running) (hsource : s.fld tideSource 0 = 2) (hlink : s.edgeLinkUp (s.fld tideSourcePort 0))
    (hview : s.viewOfPort (s.fld tideSourcePort 0) = some v) (hdue : s.clock.asked < s.tide / tideInterval) :
    exec .ptmDialogueStart s
      = .next (({ s with clock := { s.clock with asked := s.tide / tideInterval } } : State).emit (.ptmRequest v)) := by
  show execPtmDialogueStart s = _
  simp only [execPtmDialogueStart, hview]
  exact if_pos (by simp [hrun, hsource, hlink, hdue])

end

end Sys2Proof.Machine
end

section
/-! The obligation on tide time. -/

namespace Sys2Proof
open Machine

/-- Settles O22, one clause for each message, each measurement and the loss of the source. -/
theorem tideFollowsItsSource : Obligations.TideFollowsItsSource := by
  unfold Obligations.TideFollowsItsSource
  exact ⟨fun _ => execTideSyncSend_due, fun _ _ _ => execTideSyncReceived_source, fun _ _ _ _ _ _ _ => execTideFollowReceived_first,
    fun _ _ _ => execTideDreqReceived_served, fun _ _ _ _ _ _ _ => execTideDrespReceived_complete, fun ref _ => execTideMeasurement_pps ref,
    fun ref _ => execTideMeasurement_ptm ref, fun _ => execTideSourceLoss_chosen, fun _ _ => execPtmDialogueStart_due⟩

end Sys2Proof
end

section
/-! SUPPORT. A fabric link that comes up or changes its settings: INIT records, the timers of its states and the answers of a resize (R258, R259,
R270 to R272). -/

namespace Sys2Proof.Machine

section
variable {p : PortId} {s : State}

/-! ### INIT records (R258, R259) -/

theorem execInitReceived_valid {lanes : List (List PamLevel)} {u : State} {bytes : List Byte} {f : RxFlit} (hlink : s.fabricLink p.val)
    (haligned : (s.qlp p.val).aligned) (hstate : s.ql p.val = qlInit ∨ s.ql p.val = qlRetrain ∨ s.ql p.val = qlResize)
    (hfit : s.lanesFit p.val lanes) (hcollect : s.collect p.val lanes = (u, bytes)) (hgood : rxFlit bytes = some f) (hinit : f.typ = 2)
    (hvalid : (initOf f.payload).valid) :
    exec (.initReceived p lanes) s = .next (u.initTaken p.val (initOf f.payload)) := by
  show execInitReceived p lanes s = _
  rw [execInitReceived, if_neg (by simpa [hlink, haligned, hfit, or_iff_not_imp_left] using hstate), hcollect]
  simp only [hgood]
  exact congrArg _ (if_pos ⟨hinit, hvalid⟩)

theorem State.initTaken_first {u : State} {p : Nat} (hnew : (u.qlp p).heardAt = none) (m : InitMsg) : u.initTaken p m = u.firstInit p m := by
  simp only [State.initTaken, hnew]

theorem State.initTaken_again {u : State} {p t : Nat} (hheard : (u.qlp p).heardAt = some t) (m : InitMsg) :
    u.initTaken p m = (u.setQlp { u.qlp p with
      partnerHeard := (u.qlp p).partnerHeard || m.heard, partnerAck := m.ackSeq }).initDone p := by
  simp only [State.initTaken, hheard]

/-! ### Timers (R270 to R272) -/

section
variable {due : Nat} (hlink : s.fabricLink p.val)

/-- A retrain whose time has run out starts once more (R270, R272). -/
def State.retrainAgain (s : State) (p : Nat) : State :=
  (s.setQlp { s.qlp p with
    failedAt := some s.now, retrainDue := some (s.now + 10000), aligned := false, heardAt := none, partnerHeard := false
    initsSent := 0 }).retrainLanes p

include hlink

theorem execRetrainTimeout_due (hstate : s.ql p.val = qlRetrain) (hdue : (s.qlp p.val).retrainDue = some due) (hnow : due ≤ s.now) :
    exec (.retrainTimeout p) s = .next (
      if (s.qlp p.val).failedAt.any (fun t => decide (s.now < t + 1000000)) then s.toHeld p.val 0x16 else s.retrainAgain p.val) := by
  show execRetrainTimeout p s = _
  simp only [execRetrainTimeout, hdue]
  rw [if_neg (by simp [hlink, hstate, hnow])]
  cases (s.qlp p.val).failedAt with
  | none => rfl
  | some t =>
    rw [Option.any_some]
    exact (apply_ite Host.Outcome.next ..).symm

theorem execInitTimeout_due (hstate : s.ql p.val = qlInit) (hdue : (s.qlp p.val).initDue = some due) (hnow : due ≤ s.now) :
    exec (.initTimeout p) s = .next (((s.linkLost p.val qlDown).addSat qlFailedAttempts p.val 1).startTraining p.val) := by
  show execInitTimeout p s = _
  simp only [execInitTimeout, hdue]
  exact if_neg (by simp [hlink, hstate, hnow])

theorem execHeldTimerExpiry_due (hstate : s.ql p.val = qlHeld) (hdue : (s.qlp p.val).heldDue = some due) (hnow : due ≤ s.now)
    (henabled : s.portEnabled p.val) :
    exec (.heldTimerExpiry p) s
      = .next (((s.setQlp { s.qlp p.val with heldDue := none }).setQl p.val qlDown).startTraining p.val) := by
  show execHeldTimerExpiry p s = _
  simp only [execHeldTimerExpiry, hdue]
  exact if_neg (by simp [hlink, hstate, hnow, henabled])

end

/-! ### Resizing (R271) -/

/-- The result of a resize that a commit asked for is shown and recorded; a calibration window's own resize shows none (R271, R295). -/
def State.resizeResult (s : State) (p result : Nat) (byWindow : Bool) : State :=
  if byWindow then s else (s.put qlResizeResult p result).resizeRecord p

theorem State.resizeResult_window (s : State) (p result : Nat) : s.resizeResult p result true = s := rfl

theorem State.resizeResult_commit (s : State) (p result : Nat) :
    s.resizeResult p result false = (s.put qlResizeResult p result).resizeRecord p := rfl

theorem execResizePauseTimeout_due {due : Nat} (hlink : s.fabricLink p.val) (hstate : s.ql p.val = qlResize)
    (hdue : (s.qlp p.val).resizeDue = some due) (hnow : due ≤ s.now) :
    exec (.resizePauseTimeout p) s = .next (
      ((s.setQlp { s.qlp p.val with byWindow := false }).resizeResult p.val 3 (s.qlp p.val).byWindow).fastRetrain p.val) := by
  show execResizePauseTimeout p s = _
  simp only [execResizePauseTimeout, hdue]
  exact if_neg (by simp [hlink, hstate, hnow])

/-- The port's settings allow a width and a rate, or the link runs at them already (R271, R295). -/
def State.resizeFits (s : State) (p rate width : Nat) : Bool :=
  (width ≤ s.cfgWidth p && (rate = 5 || rate = 6) && rate ≤ s.fld portMaxRate p)
    || (rate = s.fld qlActiveRate p && width = s.fld qlActiveWidth p)

section
variable (hlink : s.fabricLink p.val) (hactive : s.ql p.val = qlActive)
include hlink hactive

/-- A request that crosses none of the port's own gets its answer. -/
theorem execResizeReqReceived_active {arg : BitVec 8} (hquiet : (s.qlp p.val).wanted = none) :
    exec (.resizeReqReceived p arg) s = .next (s.setQlp { s.qlp p.val with
      answer := some (if s.resizeFits p.val (arg.toNat / 16) (arg.toNat % 16) then (2, arg.toNat) else (3, 0)) }) := by
  have hasked : s.resizeAsked p.val arg.toNat = s.setQlp { s.qlp p.val with
      answer := some (if s.resizeFits p.val (arg.toNat / 16) (arg.toNat % 16) then (2, arg.toNat) else (3, 0)) } := by
    rw [State.resizeAsked, if_neg (by simp [hquiet])]
    rfl
  rw [← hasked]
  exact congrArg _ (if_pos (by simp [hlink, hactive]))

theorem execResizeAckReceived_own {arg : BitVec 8} {rate width : Nat} (hwanted : (s.qlp p.val).wanted = some (rate, width))
    (harg : arg.toNat = rate * 16 + width) :
    exec (.resizeAckReceived p arg) s = .next (s.enterResize p.val rate width true) := by
  have hacked : s.resizeAcked p.val arg.toNat = s.enterResize p.val rate width true := by
    simp only [State.resizeAcked, hwanted]
    exact if_pos harg
  rw [← hacked]
  exact congrArg _ (if_pos (by simp [hlink, hactive]))

theorem execResizeNakReceived_own (hwanted : (s.qlp p.val).wanted.isSome) :
    exec (.resizeNakReceived p) s = .next (
      (s.setQlp { s.qlp p.val with wanted := none, byWindow := false }).resizeResult p.val 2 (s.qlp p.val).byWindow) := by
  have hrefused : s.resizeRefused p.val
      = (s.setQlp { s.qlp p.val with wanted := none, byWindow := false }).resizeResult p.val 2 (s.qlp p.val).byWindow := if_pos hwanted
  rw [← hrefused]
  exact congrArg _ (if_pos (by simp [hlink, hactive]))

end

end

end Sys2Proof.Machine
end

section
/-! The obligation on the bring-up and the resizing of fabric links. -/

namespace Sys2Proof
open Machine

/-- Settles O27: where two clauses share a command, they are the branches of one rule. -/
theorem quaylineLinksInitAndResize : Obligations.QuaylineLinksInitAndResize := by
  unfold Obligations.QuaylineLinksInitAndResize
  refine ⟨?firstInit, ?laterInit, ?retrains, ?holds, fun _ _ _ => execInitTimeout_due, fun _ _ _ => execHeldTimerExpiry_due, ?request,
    fun _ _ _ _ _ hlink hactive => execResizeAckReceived_own hlink hactive, ?refused, ?windowRefused, ?paused, ?windowPaused⟩
  case firstInit =>
    intro p lanes s u bytes f hlink haligned hstate hfit hcollect hgood hinit hvalid hnew
    rw [execInitReceived_valid hlink haligned hstate hfit hcollect hgood hinit hvalid, State.initTaken_first hnew]
  case laterInit =>
    intro p lanes s u bytes f t hlink haligned hstate hfit hcollect hgood hinit hvalid hheard
    rw [execInitReceived_valid hlink haligned hstate hfit hcollect hgood hinit hvalid, State.initTaken_again hheard]
  case retrains =>
    intro p s due hlink hstate hdue hnow hfirst
    rw [execRetrainTimeout_due hlink hstate hdue hnow, hfirst, Option.any_none, if_neg Bool.false_ne_true, State.retrainAgain]
  case holds =>
    intro p s due t hlink hstate hdue hnow hfailed hrecent
    rw [execRetrainTimeout_due hlink hstate hdue hnow, hfailed, Option.any_some, if_pos (decide_eq_true hrecent)]
  case request =>
    rintro p arg s fits hlink hactive hquiet hfits
    obtain rfl : fits = s.resizeFits p.val (arg.toNat / 16) (arg.toNat % 16) := hfits
    rw [execResizeReqReceived_active hlink hactive hquiet]
    exact ⟨fun hfit => by rw [if_pos hfit], fun hmisfit => by rw [hmisfit, if_neg Bool.false_ne_true]⟩
  case refused =>
    intro p s hlink hactive hwanted hcommit
    rw [execResizeNakReceived_own hlink hactive hwanted, hcommit, State.resizeResult_commit]
  case windowRefused =>
    intro p s hlink hactive hwanted hwindow
    rw [execResizeNakReceived_own hlink hactive hwanted, hwindow, State.resizeResult_window]
  case paused =>
    intro p s due hlink hstate hdue hnow hcommit
    rw [execResizePauseTimeout_due hlink hstate hdue hnow, hcommit, State.resizeResult_commit]
  case windowPaused =>
    intro p s due hlink hstate hdue hnow hwindow
    rw [execResizePauseTimeout_due hlink hstate hdue hnow, hwindow, State.resizeResult_window]

end Sys2Proof
end

section
/-! SUPPORT. What the package's own monitors report: sensors, rails and the wear gauge (R402, R414, R423). -/

namespace Sys2Proof.Machine

section
variable {s : State}

theorem execThermalTrip_sensed {die : Fin 10} {sensor : Fin 16} (hcollects : s.collects) (hsensor : sensor.val < sensorsOf die.val) :
    exec (.thermalTrip die sensor) s = .next ((s.emit (.pin .thermTripN false)).raise
      ⟨5, checkerId 0x13 (die.val * 16 + sensor.val), 0, 0, 920, 920, 13, 0⟩) := by
  show execThermalTrip die sensor s = _
  exact if_neg (by simp [hcollects, hsensor])

theorem execOverTemperature_hot {die : Fin 10} {sensor : Fin 16} {temp : Nat} (hcollects : s.collects)
    (hsensor : sensor.val < sensorsOf die.val) (hhot : 800 < temp) :
    exec (.overTemperature die sensor temp) s = .next (
      (s.tempIs die.val (max (temp : Int) (signed 16 (s.base (wearTempNow.up die.val) 0)))).raise
        ⟨0, checkerId 0x13 (die.val * 16 + sensor.val), 0, 0, temp, 800, 0, 0⟩) := by
  show execOverTemperature die sensor temp s = _
  exact if_neg (by simp [hcollects, hsensor, hhot])

/-- A rail below or above its limits, low and high; the record names the limit that it passed (R402). -/
def railEvent (grade action rail v low high : Nat) : FEvent :=
  ⟨grade, checkerId 0x13 (256 + rail), 0, 0, v, if v < low then low else high, action, 0⟩

theorem execRailOutOfRange_latched {rail : Fin 21} {mv : Nat} (hcollects : s.collects)
    (hbeyond : mv * 10 < (railLimits rail.val).2.2.1 ∨ (railLimits rail.val).2.2.2 < mv * 10) :
    exec (.railOutOfRange rail true mv) s
      = .next (s.raise (railEvent 5 13 rail.val (mv * 10) (railLimits rail.val).2.2.1 (railLimits rail.val).2.2.2)) := by
  show execRailOutOfRange rail true mv s = _
  simp [execRailOutOfRange, hcollects, hbeyond, railEvent]

theorem execRailOutOfRange_outside {rail : Fin 21} {mv : Nat} (hcollects : s.collects) (hlow : (railLimits rail.val).2.2.1 ≤ mv * 10)
    (hhigh : mv * 10 ≤ (railLimits rail.val).2.2.2) (houtside : mv * 10 < (railLimits rail.val).1 ∨ (railLimits rail.val).2.1 < mv * 10) :
    exec (.railOutOfRange rail false mv) s
      = .next (s.raise (railEvent 0 0 rail.val (mv * 10) (railLimits rail.val).1 (railLimits rail.val).2.1)) := by
  show execRailOutOfRange rail false mv s = _
  simp [execRailOutOfRange, hcollects, Nat.not_lt.2 hlow, Nat.not_lt.2 hhigh, houtside, railEvent]

theorem execWearGaugeComparison_collecting {dies : List DieReading} (hdies : diesWf dies) (hcollects : s.collects)
    (hstarted : s.power.phase ≠ .starting) : exec (.wearGaugeComparison dies) s = .next (s.measureDies dies) := by
  show execWearGaugeComparison dies s = _
  simp [execWearGaugeComparison, hdies, hcollects, hstarted]

end

end Sys2Proof.Machine
end

section
/-! SUPPORT. How a snapshot is captured and written out, and what an uncorrectable counter leaves (R390, R393 to R396). -/

namespace Sys2Proof.Machine

section
variable {set : Fin 256} {s : State} {j : SnapJob}

theorem execSnapshotCapture_due (hrun : s.running) (hjob : s.jobOf set = some j) (hdue : j.instant ≤ s.tide)
    (hstate : s.base snapState set.val = 1 ∨ s.base snapState set.val = 2) : exec (.snapshotCapture set) s = .next (s.capture j) := by
  show execSnapshotCapture set s = _
  rw [execSnapshotCapture, hjob]
  rcases hstate with hstate | hstate <;> simp [hrun, hdue, hstate]

/-- The set is free again, and its job gone. -/
def State.snapEnded (s : State) (set : Fin 256) : State :=
  ({ s with counters := { s.counters with jobs := s.counters.jobs.filter (fun i => decide (i.set ≠ set)) } } : State).put snapState set.val 0

/-- The buffer of a snapshot goes out: head, body, and `Done` behind both (R396). -/
def State.snapWritten (s : State) (head : List Word) (j : SnapJob) : State :=
  ((s.hostWrite j.issuerDev j.view j.addr head).hostWrite j.issuerDev j.view (j.addr + 64) (snapBody j)).hostWrite j.issuerDev j.view
    (j.addr + 56) [1]

theorem execSnapshotBufferWritten_delivered (hrun : s.running) (hjob : s.jobOf set = some j) (hcaptured : s.base snapState set.val = 3)
    (hup : s.viewUp j.view) (hawake : s.mgmtQuiet j.view = false) :
    exec (.snapshotBufferWritten set true) s = .next ((((s.snapEnded set).snapWritten (s.snapHead j) j).addSat snapCompleted set.val 1).put
      snapLastCaptureTide set.val ((s.snapHead j).getD 2 0).toNat) := by
  show execSnapshotBufferWritten set true s = _
  rw [execSnapshotBufferWritten, hjob]
  simp [hrun, hcaptured, hup, hawake, State.snapEnded, State.snapWritten]

theorem execSnapshotBufferWritten_undelivered (hrun : s.running) (hjob : s.jobOf set = some j) (hcaptured : s.base snapState set.val = 3) :
    exec (.snapshotBufferWritten set false) s = .next ((s.snapEnded set).addSat snapAbandoned set.val 1) := by
  show execSnapshotBufferWritten set false s = _
  rw [execSnapshotBufferWritten, hjob]
  simp [hrun, hcaptured, State.snapEnded]

end

theorem execCounterUncorrectable_collecting {id : Nat} {s : State} (hcollects : s.collects) (hexists : ctrExists id) :
    exec (.counterUncorrectable id) s = .next (
      let s1 := s.clearCounter id
      let s2 : State := { s1 with counters := { s1.counters with
        invalid := id :: s1.counters.invalid
        saturated := if decide (s.ctr id = ctrMax) || s.counters.saturated.contains id then id :: s1.counters.saturated
          else s1.counters.saturated } }
      s2.raiseOpen ⟨1, checkerId 0x18 0, (ctrObject id).1, (ctrObject id).2, 0, 0, 0, 0⟩) := by
  show execCounterUncorrectable id s = _
  exact if_neg (by simp [hcollects, hexists])

end Sys2Proof.Machine
end

section
/-! The obligations on the package's monitors, and on snapshots and counters. -/

namespace Sys2Proof
open Machine

/-- Settles O10, one clause for each monitor and for the limit that it finds passed. -/
theorem packageMonitorsReport : Obligations.PackageMonitorsReport := by
  unfold Obligations.PackageMonitorsReport
  exact ⟨fun _ _ _ => execThermalTrip_sensed, fun _ _ _ _ => execOverTemperature_hot, fun _ _ _ => execRailOutOfRange_latched,
    fun _ _ _ => execRailOutOfRange_outside, fun _ _ => execWearGaugeComparison_collecting⟩

/-- Settles O9: the two captures are the two branches of one rule, and the buffer is written or abandoned. -/
theorem snapshotsAndCounters : Obligations.SnapshotsAndCounters := by
  unfold Obligations.SnapshotsAndCounters
  refine ⟨?frozen, ?byUnits, ?written, fun _ _ _ => execSnapshotBufferWritten_undelivered, fun _ _ => execCounterUncorrectable_collecting⟩
  case frozen =>
    intro set s j hrun hjob hdue hstate hfrozen
    rw [execSnapshotCapture_due hrun hjob hdue hstate, State.capture, if_pos hfrozen]
  case byUnits =>
    intro set s j hrun hjob hdue hstate hunfrozen
    rw [execSnapshotCapture_due hrun hjob hdue hstate, State.capture, if_neg (Bool.eq_false_iff.1 hunfrozen)]
  case written =>
    intro set s j hrun hjob hcaptured _ hup hawake
    exact execSnapshotBufferWritten_delivered hrun hjob hcaptured hup hawake

end Sys2Proof
end

section
/-! SUPPORT. Counters: each is one entry of a sparse table, which a count and a clear write (R389). -/

namespace Sys2Proof.Machine

theorem State.ctr_count_same {s : State} (hs : s.wf) (id n : Nat) : (s.count id n).ctr id = min (s.ctr id + n) ctrMax :=
  tget_tput_same (fun _ => 0) s.counters.vals id _ hs.ctrs

theorem State.ctr_count_other (s : State) {id id' : Nat} (n : Nat) (hid : id' ≠ id) : (s.count id n).ctr id' = s.ctr id' :=
  tget_tput_other 0 0 s.counters.vals id id' _ hid

theorem State.ctr_clearCtr_same {s : State} (hs : s.wf) (id : Nat) : (s.clearCtr id).ctr id = 0 :=
  tget_tput_same (fun _ => 0) s.counters.vals id 0 hs.ctrs

theorem State.ctr_clearCtr_other (s : State) {id id' : Nat} (hid : id' ≠ id) : (s.clearCtr id).ctr id' = s.ctr id' :=
  tget_tput_other 0 0 s.counters.vals id id' 0 hid

end Sys2Proof.Machine
end

section
/-! The obligation on counters. -/

namespace Sys2Proof
open Machine

/-- Settles O56, from a read of the table after a write of the same entry and of another. -/
theorem countersSaturate : Obligations.CountersSaturate := by
  unfold Obligations.CountersSaturate
  refine ⟨?counts, ?stays, ?clears⟩
  case counts =>
    intro s id id' n hs
    split
    next hid => exact hid ▸ State.ctr_count_same hs id n
    next hid => exact s.ctr_count_other n hid
  case stays =>
    intro s id n hs hfull
    rw [State.ctr_count_same hs, hfull, ctrMax]
    omega
  case clears =>
    intro s id id' hs
    refine ⟨?_, by simp [State.clearCtr], by simp [State.clearCtr]⟩
    split
    next hid => rw [hid, State.ctr_clearCtr_same hs]
    next hid => exact s.ctr_clearCtr_other hid

end Sys2Proof
end

section
/-! SUPPORT. What leaves the fault log and the containments alone: links that come up, paths that are reinstated, packets that set out, and slots that
leave Latched (R127, R131, R145, R285, R354). -/

namespace Sys2Proof.Machine

@[simp] theorem State.draw_faults (s : State) : s.draw.faults = s.faults := rfl
@[simp] theorem State.post_faults (s : State) (pk : Packet) : (s.post pk).faults = s.faults := rfl

@[simp] theorem ite_faults (c : Prop) [Decidable c] (a b : State) : (if c then a else b).faults = if c then a.faults else b.faults :=
  apply_ite State.faults ..

theorem foldl_faults {β : Type} (f : State → β → State) (l : List β) (s : State) (h : ∀ s x, (f s x).faults = s.faults) :
    (l.foldl f s).faults = s.faults := foldl_gives (fun t => t.faults = s.faults) f l s (fun t x e => (h t x).trans e) rfl

/-! ### Links that come up (R22, R285, R288) -/

@[simp] theorem State.lput_faults (s : State) (f : Fld) (l v : Nat) : (s.lput f l v).faults = s.faults := rfl

@[simp] theorem State.askGrants_faults (ls : List Nat) (s : State) : (s.askGrants ls).faults = s.faults := by
  induction ls generalizing s with
  | nil => rfl
  | cons l ls ih => simp [State.askGrants, ih]

@[simp] theorem State.laneOff_faults (s : State) (l : Nat) : (s.laneOff l).faults = s.faults := by simp [State.laneOff]

@[simp] theorem State.lanesOff_faults (ls : List Nat) (s : State) : (s.lanesOff ls).faults = s.faults := by
  induction ls generalizing s with
  | nil => rfl
  | cons l ls ih => simp [State.lanesOff, ih]

@[simp] theorem State.lanesAcquire_faults (ls : List Nat) (s : State) : (s.lanesAcquire ls).faults = s.faults := by
  induction ls generalizing s with
  | nil => rfl
  | cons l ls ih => simp [State.lanesAcquire, State.laneAcquire, ih]

@[simp] theorem State.laneSeed_faults (s : State) (rate l : Nat) : (s.laneSeed rate l).faults = s.faults := by
  unfold State.laneSeed
  split
  · rfl
  · split <;> simp

@[simp] theorem State.carryEnds_faults (s : State) (p : Nat) : (s.carryEnds p).faults = s.faults := by
  simp [State.carryEnds, State.leaversOff]

@[simp] theorem State.startTraining_faults (s : State) (p : Nat) : (s.startTraining p).faults = s.faults := by
  simp [State.startTraining, foldl_faults]

@[simp] theorem State.portBringUp_faults (s : State) (p : Nat) : (s.portBringUp p).faults = s.faults := by
  simp [State.portBringUp, State.edgeDetect]

/-! ### Paths (R127, R130, R145) -/

@[simp] theorem State.sendAll_faults (m : FabricMsg) (ps : List Nat) (s : State) : (s.sendAll m ps).faults = s.faults := by
  induction ps generalizing s with
  | nil => rfl
  | cons p ps ih => simp [State.sendAll, State.sendLocal, ih]

@[simp] theorem State.reinstatePort_faults (s : State) (p : Nat) : (s.reinstatePort p).faults = s.faults := by
  simp [State.reinstatePort, State.restoreFound, State.sendWithdraw, foldl_faults]

@[simp] theorem State.portBack_faults (s : State) (p : Nat) : (s.portBack p).faults = s.faults := by simp [State.portBack]

@[simp] theorem State.sprayAdd_faults (g n : Nat) (ms : List Nat) (s : State) : (s.sprayAdd g n ms).faults = s.faults := by
  induction ms generalizing s with
  | nil => rfl
  | cons m ms ih => simp [State.sprayAdd, State.setSpray, ih]

@[simp] theorem State.nextHop_faults (s : State) (dev port arr n : Nat) (cxl : Bool) : (s.nextHop dev port arr n cxl).1.faults = s.faults := by
  unfold State.nextHop State.spray
  dsimp only
  split
  · rfl
  · split
    · rfl
    · split <;> simp [State.setSpray]

@[simp] theorem State.countNoPath_faults (s : State) (dev port : Nat) : (s.countNoPath dev port).faults = s.faults := by
  unfold State.countNoPath
  dsimp only
  split <;> simp

@[simp] theorem State.msix_faults (s : State) (v vec : Nat) : (s.msix v vec).faults = s.faults := by simp [State.msix, State.mgmtPost]

/-! ### Slots that a record latched (R354) -/

@[simp] theorem State.unlatchSlots_faults (id : Nat) (ns : List Nat) (s : State) : (s.unlatchSlots id ns).faults = s.faults := by
  induction ns generalizing s with
  | nil => rfl
  | cons n ns ih => simp [State.unlatchSlots, ih]

end Sys2Proof.Machine
end

section
/-! SUPPORT. How the fault log follows from an earlier one: its records are those of before, acknowledged or not as before, or newer ones; and the
same targets are contained, each under its record or the copy that carries it forward (R350, R351, R354). -/

namespace Sys2Proof.Machine

/-- A fault log that comes of `f` by events alone, which lift nothing and acknowledge nothing. -/
structure Faults.Follows (f g : Faults) : Prop where
  targets : g.contained.map (·.2) = f.contained.map (·.2)
  nextId : f.nextId ≤ g.nextId
  recs : ∀ q ∈ g.recs, f.nextId ≤ q.id ∨ ∃ p ∈ f.recs, p.id = q.id ∧ p.acked = q.acked

namespace Faults.Follows

theorem refl (f : Faults) : f.Follows f := ⟨rfl, le_rfl, fun q hq => .inr ⟨q, hq, rfl, rfl⟩⟩

theorem of_eq {f g : Faults} (h : g = f) : f.Follows g := h ▸ refl f

theorem trans {f g h : Faults} (hfg : f.Follows g) (hgh : g.Follows h) : f.Follows h := by
  refine ⟨hgh.targets.trans hfg.targets, hfg.nextId.trans hgh.nextId, fun q hq => ?_⟩
  obtain hnew | ⟨p, hp, hid, hacked⟩ := hgh.recs q hq
  · exact .inl (hfg.nextId.trans hnew)
  · rw [← hid, ← hacked]
    exact hfg.recs p hp

/-- Marks on records that leave their IDs and `Acked` as they are. -/
theorem marked (f : Faults) (h : FaultRec → FaultRec) (hid : ∀ r, (h r).id = r.id) (hacked : ∀ r, (h r).acked = r.acked) :
    f.Follows { f with recs := f.recs.map h } := by
  refine ⟨rfl, le_rfl, fun q hq => .inr ?_⟩
  obtain ⟨p, hp, rfl⟩ := List.mem_map.1 hq
  exact ⟨p, hp, (hid p).symm, (hacked p).symm⟩

theorem closed (f : Faults) (id : Nat) : f.Follows { f with recs := closeRec id f.recs } :=
  marked f _ (fun _ => by split <;> rfl) (fun _ => by split <;> rfl)

/-- A record with the next ID; the ring may lose its oldest one. -/
theorem pushed (f : Faults) {r : FaultRec} (hr : r.id = f.nextId) :
    f.Follows { f with recs := pushRec r f.recs, nextId := f.nextId + 1 } := by
  refine ⟨rfl, Nat.le_succ _, fun q hq => ?_⟩
  obtain rfl | hq := List.mem_cons.1 (List.mem_of_mem_take hq)
  · exact .inl hr.ge
  · exact .inr ⟨q, hq, rfl, rfl⟩

theorem carryForward (f : Faults) : f.Follows (carryForward f) := by
  unfold Machine.carryForward
  split
  · exact refl f
  next r _ =>
    obtain ⟨-, hnext, hrecs⟩ := pushed f (r := { r with id := f.nextId, action := 14, related := r.id, logged := false }) rfl
    refine ⟨?_, hnext, hrecs⟩
    rw [List.map_map]
    exact List.map_congr_left fun c _ => by simp only [Function.comp]; split <;> rfl

theorem carryAll (k : Nat) (f : Faults) : f.Follows (carryAll k f) := by
  induction k generalizing f with
  | zero => exact refl f
  | succ k ih =>
    unfold Machine.carryAll
    split
    · exact (carryForward f).trans (ih _)
    · exact refl f

end Faults.Follows

/-! ### Events (R350, R351, R361) -/

theorem notifyViews_follows (vs : List Nat) (s : State) : s.faults.Follows (notifyViews vs s).faults := by
  induction vs generalizing s with
  | nil => exact .refl _
  | cons v vs ih =>
    refine .trans ?_ (ih _)
    split
    · exact .refl _
    · exact ⟨by simp, by simp, fun q hq => .inr ⟨q, by simpa using hq, rfl, rfl⟩⟩

theorem State.notify_follows (s : State) : s.faults.Follows s.notify.faults := notifyViews_follows ..

theorem notifyViews_contained (vs : List Nat) (s : State) : (notifyViews vs s).faults.contained = s.faults.contained := by
  induction vs generalizing s with
  | nil => rfl
  | cons v vs ih =>
    rw [notifyViews, ih]
    split <;> simp

theorem State.takeInjection_follows (s : State) (checker : Nat) : s.faults.Follows (s.takeInjection checker).1.faults := by
  unfold State.takeInjection
  split
  · exact .refl _
  · exact ⟨rfl, le_rfl, (Faults.Follows.refl _).recs⟩

theorem State.leakUp_follows (s : State) (src : Nat) : s.faults.Follows (s.leakUp src).faults :=
  ⟨rfl, le_rfl, (Faults.Follows.refl _).recs⟩

theorem State.newRec_follows (s : State) (e : FEvent) (lasting injected : Bool) (leaky related : Nat) :
    s.faults.Follows (s.newRec e lasting injected leaky related).1.faults := by
  refine (Faults.Follows.carryAll 4096 s.faults).trans ?_
  unfold State.newRec
  dsimp only
  split
  next i _ => exact (Faults.Follows.closed _ i).trans (.pushed _ rfl)
  · exact .pushed _ rfl

/-- The event has spent its injection and is counted toward the limit of its source (R352, R361). -/
def State.eventCounted (s : State) (e : FEvent) : State :=
  let u := (if spoilsSent e.checker then (s, false) else s.takeInjection e.checker).1
  match leakSource e with
  | some k => u.leakUp k
  | none => u

theorem State.eventCounted_follows (s : State) (e : FEvent) : s.faults.Follows (s.eventCounted e).faults := by
  have htaken : s.faults.Follows (if spoilsSent e.checker then (s, false) else s.takeInjection e.checker).1.faults := by
    split
    · exact .refl _
    · exact s.takeInjection_follows _
  unfold State.eventCounted
  cases leakSource e with
  | none => exact htaken
  | some k => exact htaken.trans (State.leakUp_follows _ k)

theorem State.record_follows (s : State) (e : FEvent) : s.faults.Follows (s.record e).1.faults := by
  refine (s.eventCounted_follows e).trans ?_
  unfold State.record
  dsimp only
  split
  next r _ =>
    refine Faults.Follows.trans ?_ (State.notify_follows _)
    exact .marked _ _ (fun _ => by split <;> rfl) (fun _ => by split <;> rfl)
  · exact (State.newRec_follows ..).trans (State.notify_follows _)

theorem State.originate_follows (s : State) (pk : Packet) : s.faults.Follows (s.originate pk).faults := by
  unfold State.originate
  dsimp only
  split
  · exact .refl _
  · split
    · exact .refl _
    · split
      · exact State.record_follows ..
      · split
        · exact (Faults.Follows.of_eq (by simp)).trans (State.record_follows ..)
        · exact .of_eq (by simp)

/-! ### Release (R192, R354) -/

theorem State.tellView_follows (s : State) (sel i : Nat) (kind : PresenceKind) : s.faults.Follows (s.tellView sel i kind).faults := by
  unfold State.tellView
  dsimp only
  split
  · exact .refl _
  · split
    · split
      · exact .refl _
      · exact State.originate_follows s.draw _
    · exact .refl _

theorem State.tellViews_follows (s : State) (slot : Nat) (kind : PresenceKind) : s.faults.Follows (s.tellViews slot kind).faults :=
  foldl_gives (fun t => s.faults.Follows t.faults) _ _ s (fun t i h => h.trans (t.tellView_follows _ i kind)) (.refl _)

theorem State.takeIdents_follows (s : State) (slot : Nat) : s.faults.Follows (s.takeIdents slot).faults := by
  unfold State.takeIdents
  dsimp only
  split
  · split
    · exact .refl _
    · exact (Faults.Follows.of_eq (by simp)).trans (State.tellViews_follows ..)
  · exact .refl _

theorem State.liftOne_follows (s : State) (t : ContTarget) : s.faults.Follows (s.liftOne t).faults := by
  cases t with
  | resource c => exact .of_eq (by simp [State.liftOne])
  | obj cls sel =>
    rw [State.liftOne]
    split
    · exact s.takeIdents_follows _
    · exact .refl _
  | logical _ _ | port _ | pair _ _ _ _ => exact .refl _

theorem State.liftAll_follows (cs : List (Nat × ContTarget)) (s : State) : s.faults.Follows (s.liftAll cs).faults := by
  induction cs generalizing s with
  | nil => exact .refl _
  | cons c cs ih => exact (s.liftOne_follows c.2).trans (ih _)

/-- A release lifts what its record contains, and leaves the log to follow from what stays contained (R354). -/
theorem State.release_follows (s : State) (id : Nat) :
    Faults.Follows { s.faults with contained := s.faults.contained.filter (fun c => !decide (c.1 = id)) } (s.release id).faults := by
  have hlifted := State.liftAll_follows (s.faults.contained.filter (fun c => decide (c.1 = id))) (s.uncontain (fun c => decide (c.1 = id)))
  refine (hlifted.trans (.of_eq (State.unlatchSlots_faults id allSlots _))).trans ?_
  exact .marked _ _ (fun _ => by split <;> rfl) (fun _ => by split <;> rfl)

/-! ### Acknowledgement (R354) -/

/-- `Acked` is set on the records of an ID. -/
def State.withAcked (s : State) (id : Nat) : State :=
  { s with faults := { s.faults with recs := s.faults.recs.map (fun (q : FaultRec) => if q.id = id then { q with acked := true } else q) } }

theorem State.acked_of_withAcked (s : State) (id : Nat) : ∀ p ∈ (s.withAcked id).faults.recs, p.id = id → p.acked = true := by
  intro p hp hid
  obtain ⟨r, -, rfl⟩ := List.mem_map.1 hp
  by_cases hr : r.id = id
  · simp [hr]
  · rw [if_neg hr] at hid
    exact absurd hid hr

/-- Where the records of an ID are acknowledged, one of a log that follows is acknowledged too, or a newer one. -/
theorem Faults.Follows.acked {f g : Faults} {id : Nat} (h : f.Follows g) (hacked : ∀ p ∈ f.recs, p.id = id → p.acked = true) :
    ∀ q ∈ g.recs, q.id = id → q.acked = true ∨ f.nextId ≤ q.id := by
  intro q hq hid
  obtain hnew | ⟨p, hp, hpid, hsame⟩ := h.recs q hq
  · exact .inr hnew
  · exact .inl (hsame ▸ hacked p hp (hpid.trans hid))

/-- An acknowledged record closes where it holds nothing, and otherwise the views alone hear of it (R351, R359). -/
def State.ackReported (s : State) (f : FaultRec) : State := if s.holdsRec f then s.notify else s.closeRecord f.id

theorem State.ackReported_follows (s : State) (f : FaultRec) : s.faults.Follows (s.ackReported f).faults := by
  unfold State.ackReported
  split
  · exact s.notify_follows
  · exact (Faults.Follows.closed s.faults f.id).trans (State.notify_follows { s with faults := _ })

theorem State.ackReported_contained (s : State) (f : FaultRec) : (s.ackReported f).faults.contained = s.faults.contained := by
  unfold State.ackReported
  split <;> exact notifyViews_contained ..

theorem State.acknowledge_eq (s : State) (f : FaultRec) (release : Bool) : s.acknowledge f release =
    (if release && decide (f.grade < 4) then (s.withAcked f.id).release f.id else s.withAcked f.id).ackReported f := rfl

end Sys2Proof.Machine
end

section
/-! The obligation on FAULTACK. -/

namespace Sys2Proof
open Machine

/-- Settles O52: the log follows from the acknowledged one, less the record's own containments where they are released. -/
theorem acknowledgementReleasesItsOwn : Obligations.AcknowledgementReleasesItsOwn := by
  unfold Obligations.AcknowledgementReleasesItsOwn
  intro s slot r f hrec
  refine ⟨s.acknowledge f (r.b 1 0 1 = 1), by rw [State.opFaultack, hrec], ?_⟩
  rw [State.acknowledge_eq]
  by_cases hreleased : r.b 1 0 1 = 1 ∧ f.grade < 4
  case pos =>
    obtain ⟨hbit, hgrade⟩ := hreleased
    rw [if_pos (by simp [hbit, hgrade])]
    have hfollows := ((s.withAcked f.id).release_follows f.id).trans (State.ackReported_follows _ f)
    exact ⟨hfollows.acked (s.acked_of_withAcked f.id), fun _ _ => by simpa [State.withAcked] using hfollows.targets, fun hkept => by omega⟩
  case neg =>
    rw [if_neg (by simpa using hreleased)]
    exact ⟨(State.ackReported_follows _ f).acked (s.acked_of_withAcked f.id), fun hbit hgrade => absurd ⟨hbit, hgrade⟩ hreleased,
      fun _ => State.ackReported_contained _ f⟩

end Sys2Proof
end

section
/-! SUPPORT. How a slot channel is switched, where each command's conditions hold (R369 to R371, R377, R378, R383). -/

namespace Sys2Proof.Machine

section
variable {n : SlotId} {s : State}

/-- The slot shows that something is inserted: recorded and announced, and with `AutoOn` it asks for power (R369). -/
def State.presenceTaken (s : State) (n : Nat) : State :=
  let s1 := (((s.put slotPresent n 1).slotCount n 5).slotRecord n 1 0).tellSlot n (.presence true)
  if s.fld slotAutoOn n = 1 then (s1.setSlotRun { s1.slotRun n with request := true }).slotTry n else s1

theorem execPresenceDebounced_absent (hdie : s.slotDie) (habsent : s.fld slotPresent n.val = 0) :
    exec (.presenceDebounced n) s = .next (s.presenceTaken n.val) := by
  show execPresenceDebounced n s = _
  exact if_pos (by simp [hdie, habsent])

/-- A slot that was on, or on its way there, loses what was inserted: off into Dwell without a retry, recorded and announced (R369, R370). -/
def State.presenceGone (s : State) (n : Nat) : State :=
  let s2 := ((((s.put slotPresent n 0).slotGateOff n).put slotRetryCount n 0).put slotLastFault n 5).put slotState n slDwell
  let s3 := s2.setSlotRun { s2.slotRun n with request := false, offAt := s.now }
  ((s3.slotCount n 5).slotRecord n 0 0).tellSlot n (.presence false)

theorem execPresenceLost_switched (hdie : s.slotDie) (hpresent : s.fld slotPresent n.val = 1)
    (hstate : s.slotSt n.val = slWaiting ∨ s.slotSt n.val = slRamping ∨ s.slotSt n.val = slOn ∨ s.slotSt n.val = slRetryWait) :
    exec (.presenceLost n) s = .next (s.presenceGone n.val) := by
  show execPresenceLost n s = _
  have hleaves : decide (s.slotSt n.val = slWaiting) || decide (s.slotSt n.val = slRamping) || decide (s.slotSt n.val = slOn)
      || decide (s.slotSt n.val = slRetryWait) := by simpa [or_assoc] using hstate
  simp only [execPresenceLost, hdie, hpresent, decide_true, Bool.and_self, if_true, hleaves, State.presenceGone]

theorem execAttentionRequest_unsignalled (hdie : s.slotDie) (hquiet : s.fld slotAttnOut n.val = 0) :
    exec (.attentionRequest n) s = .next ((s.slotCount n.val 6).tellSlot n.val .attention) := by
  show execAttentionRequest n s = _
  exact congrArg _ (if_pos (by simp [hdie, hquiet]))

theorem execDwellElapsed_dwell (hdie : s.slotDie) (hover : s.dwellOver n.val) (hgate : (s.slotRun n.val).gateDue = none)
    (hstate : s.slotSt n.val = slDwell) : exec (.dwellElapsed n) s = .next (
      if (s.slotRun n.val).request && s.fld slotPresent n.val = 1 then s.slotJoin n.val else s.put slotState n.val slOff) := by
  show execDwellElapsed n s = _
  exact (if_neg (by simp [hdie, hover, hgate])).trans (if_pos hstate)

/-- A slot that tripped joins the queue again where it may be switched on (R370, R374). -/
theorem execDwellElapsed_retry (hdie : s.slotDie) (hover : s.dwellOver n.val) (hgate : (s.slotRun n.val).gateDue = none)
    (hstate : s.slotSt n.val = slRetryWait) (hrun : s.running) (hpresent : s.fld slotPresent n.val = 1)
    (hinput : 10000 < s.fld slotInputMv n.val) : exec (.dwellElapsed n) s = .next (s.slotJoin n.val) := by
  show execDwellElapsed n s = _
  refine (if_neg (by simp [hdie, hover, hgate])).trans ((if_neg ?_).trans (if_pos ?_))
  · rw [hstate]
    decide
  · simp [hstate, hrun, hpresent, hinput]

theorem execSlotGrant_head {m : Nat} {ms : List Nat} (hqueue : s.slots.queue = m :: ms) (hrun : s.running) (hmay : s.slotMayStart m) :
    exec .slotGrant s = .next (s.slotStart m) := by
  show execSlotGrant s = _
  rw [execSlotGrant, hqueue]
  exact congrArg _ (if_pos (by simp [hrun, hmay]))

theorem execPowerGood_ramping (hdie : s.slotDie) (hgood : s.powerGoodNow n.val) (hstate : s.slotSt n.val = slRamping) :
    exec (.powerGood n) s = .next (((s.put slotPowerGood n.val 1).put slotState n.val slOn).setSlotRun { s.slotRun n.val with
      rampDue := none, perstDue := some (s.now + s.lim slotPerstDelayMs n.val * 1000000), onAt := s.now }) := by
  show execPowerGood n s = _
  exact (if_neg (by simp [hdie, hgood])).trans (if_pos hstate)

theorem execPerstDelayEnd_due (hdie : s.slotDie) (hstate : s.slotSt n.val = slOn) (hdue : s.dueNow (s.slotRun n.val).perstDue) :
    exec (.perstDelayEnd n) s = .next ((s.slotPin .perst n.val true).setSlotRun { s.slotRun n.val with perstDue := none }) := by
  show execPerstDelayEnd n s = _
  exact congrArg _ (if_pos (by simp [hdie, hstate, hdue]))

theorem execOrderlyOffGate_due (hdie : s.slotDie) (hdue : s.dueNow (s.slotRun n.val).gateDue) :
    exec (.orderlyOffGate n) s = .next
      (((s.put slotInLimit n.val 0).slotPin .gate n.val false).setSlotRun { s.slotRun n.val with gateDue := none, offAt := s.now }) := by
  show execOrderlyOffGate n s = _
  exact congrArg _ (if_pos (by simp [hdie, hdue]))

theorem execSlotTestEnd_testing {pass : Bool} (hdie : s.slotDie) (htest : s.fld slotTest n.val = 1) (hresult : s.fld slotTestResult n.val = 3) :
    exec (.slotTestEnd n pass) s = .next ((s.put slotTest n.val 0).put slotTestResult n.val (if pass then 1 else 2)) := by
  show execSlotTestEnd n pass s = _
  exact congrArg _ (if_pos (by simp [hdie, htest, hresult]))

end

end Sys2Proof.Machine
end

section
/-! The obligation on the switching of slot channels. -/

namespace Sys2Proof
open Machine

/-- Settles O24, one clause for each command that switches a slot and for the state it finds. -/
theorem slotChannelsSwitch : Obligations.SlotChannelsSwitch := by
  unfold Obligations.SlotChannelsSwitch
  exact ⟨fun _ _ => execPresenceDebounced_absent, fun _ _ => execPresenceLost_switched, fun _ _ => execAttentionRequest_unsignalled,
    fun _ _ => execDwellElapsed_dwell, fun _ _ => execDwellElapsed_retry, fun _ _ _ => execSlotGrant_head, fun _ _ => execPowerGood_ramping,
    fun _ _ => execPerstDelayEnd_due, fun _ _ => execOrderlyOffGate_due, fun _ _ _ => execSlotTestEnd_testing⟩

end Sys2Proof
end

section
/-! SUPPORT. The protection of slots, the feeds' diodes, and the measurements (R370 to R374, R380, R382). -/

namespace Sys2Proof.Machine

section
variable {n : SlotId} {ma : Nat} {s : State}

theorem execCurrentLimitEnter_reached (hdie : s.slotDie) (hlive : s.slotLive n.val) (hbelow : s.fld slotInLimit n.val = 0)
    (hreached : s.lim slotLimitMa n.val ≤ ma) : exec (.currentLimitEnter n ma) s = .next (s.limitEnter n.val) := by
  show execCurrentLimitEnter n ma s = _
  exact congrArg _ (if_pos (by simp [hdie, hlive, hbelow, hreached]))

/-- Below its limit a slot has the limit and the fault timer cleared (R372). -/
def State.limitCleared (s : State) (n : Nat) : State :=
  ((s.put slotInLimit n 0).put slotFaultTimerRunning n 0).setSlotRun { s.slotRun n with faultDue := none }

/-- A slot leaves its limit; one that is on shows power-good again where the comparison holds (R371, R372). -/
def State.limitExit (s : State) (n : Nat) : State :=
  if (s.limitCleared n).slotSt n = slOn && (s.limitCleared n).powerGoodNow n then (s.limitCleared n).put slotPowerGood n 1
  else s.limitCleared n

theorem execCurrentLimitExit_below (hdie : s.slotDie) (hlimit : s.fld slotInLimit n.val = 1) (hbelow : ma * 100 < 95 * s.lim slotLimitMa n.val) :
    exec (.currentLimitExit n ma) s = .next (s.limitExit n.val) := by
  show execCurrentLimitExit n ma s = _
  exact if_pos (by simp [hdie, hlimit, hbelow])

theorem execFaultTimerExpiry_due (hdie : s.slotDie) (hlive : s.slotLive n.val) (hdue : s.dueNow (s.slotRun n.val).faultDue) :
    exec (.faultTimerExpiry n) s = .next (s.slotTrip n.val 1 0 (s.lim slotFaultTimerUs n.val * 1000)) := by
  show execFaultTimerExpiry n s = _
  exact congrArg _ (if_pos (by simp [hdie, hlive, hdue]))

theorem execBreakerFire_reached (hdie : s.slotDie) (hlive : s.slotLive n.val)
    (hreached : s.lim slotLimitMa n.val * s.lim slotBreakerQuarters n.val ≤ 4 * ma) : exec (.breakerFire n ma) s = .next
      (s.slotTrip n.val 2 ma (s.lim slotLimitMa n.val * s.lim slotBreakerQuarters n.val / 4)) := by
  show execBreakerFire n ma s = _
  exact congrArg _ (if_pos (by simp [hdie, hlive, hreached]))

theorem execRampLimitTimeout_due (hdie : s.slotDie) (hstate : s.slotSt n.val = slRamping) (hdue : s.dueNow (s.slotRun n.val).rampDue) :
    exec (.rampLimitTimeout n) s = .next (s.slotTrip n.val 3 0 (s.lim slotRampLimitMs n.val * 1000000)) := by
  show execRampLimitTimeout n s = _
  exact congrArg _ (if_pos (by simp [hdie, hstate, hdue]))

theorem execInputUndervoltage_live (hdie : s.slotDie) (hlive : s.slotLive n.val) :
    exec (.inputUndervoltage n) s = .next ((((s.slotGateOff n.val).put slotLastFault n.val 4).put slotState n.val slRetryWait).slotRecord
      (s.uvSlot n.val) (s.fld slotInputMv n.val) 9000) := by
  show execInputUndervoltage n s = _
  exact congrArg _ (if_pos (by simp [hdie, hlive]))

theorem execRetryCountReset_steady (hdie : s.slotDie) (hstate : s.slotSt n.val = slOn)
    (hsteady : (s.slotRun n.val).onAt + 10000000000 ≤ s.now) : exec (.retryCountReset n) s = .next (s.put slotRetryCount n.val 0) := by
  show execRetryCountReset n s = _
  exact congrArg _ (if_pos (by simp [hdie, hstate, hsteady]))

end

section
variable {f : Fin 2} {inMv busMv : Nat} {s : State}

theorem execFeedReverseBlock_reversed (hdie : s.slotDie) (hon : s.feedOn f.val) (hreversed : inMv + 10 ≤ busMv) :
    exec (.feedReverseBlock f inMv busMv) s = .next (
      (((s.put feedState f.val 2).addSat feedReverseBlocks f.val 1).slotCount (64 + f.val) 7).raise
        { grade := 0, checker := checkerId 0x17 (64 + f.val), cls := cFeed, sel := f.val, syn0 := busMv - inMv, syn1 := 10, action := 0
          key := 0 }) := by
  show execFeedReverseBlock f inMv busMv s = _
  exact congrArg _ (if_pos (by simp [hdie, hon, hreversed]))

theorem execFeedInputOutOfRange_outside (hdie : s.slotDie) (hstate : s.fld feedState f.val = 1 ∨ s.fld feedState f.val = 2)
    (houtside : inMv < s.fld feedUvMv f.val ∨ s.fld feedOvMv f.val < inMv) :
    exec (.feedInputOutOfRange f inMv) s = .next (s.put feedState f.val 0) := by
  show execFeedInputOutOfRange f inMv s = _
  exact congrArg _ (if_pos (by simp [hdie, hstate, houtside]))

theorem execFeedConductionStart_inRange (hdie : s.slotDie) (htarget : s.fld feedTargetState f.val = 0) (hlow : s.fld feedUvMv f.val ≤ inMv)
    (hhigh : inMv ≤ s.fld feedOvMv f.val) (habove : busMv < inMv) :
    exec (.feedConductionStart f inMv busMv) s = .next (s.put feedState f.val 1) := by
  show execFeedConductionStart f inMv busMv s = _
  exact congrArg _ (if_pos (by simp [hdie, htarget, hlow, hhigh, habove]))

theorem execMeasurementSample_powered {xs : List SlotSample} {fs : List FeedSample} (hdie : s.slotDie) :
    exec (.measurementSample xs fs) s = .next ((s.slotSamples xs).feedSamples fs) := by
  show execMeasurementSample xs fs s = _
  exact congrArg _ (if_pos hdie)

theorem execMeasurementPublish_powered (hdie : s.slotDie) : exec .measurementPublish s
    = .next ([0, 1].foldl (fun s f => s.feedPublish f) (allSlots.foldl (fun s n => s.slotPublish n) s)) := by
  show execMeasurementPublish s = _
  rw [execMeasurementPublish, if_pos hdie]

end

end Sys2Proof.Machine
end

section
/-! SUPPORT. What a slot shows as it enters and leaves its current limit (R371, R372). -/

namespace Sys2Proof.Machine

@[simp] theorem State.slotRun_slot (s : State) (n : Nat) : (s.slotRun n).slot = n := by
  unfold State.slotRun
  cases hrun : s.slots.runs.find? (fun r => decide (r.slot = n)) with
  | none => rfl
  | some r => simpa using List.find?_some hrun

theorem State.slotRun_put (s : State) (f : Fld) (sel v n : Nat) : (s.put f sel v).slotRun n = s.slotRun n := rfl

theorem State.slotRun_setSlotRun {s : State} {n : Nat} {r : SlotRun} (hslot : r.slot = n) : (s.setSlotRun r).slotRun n = r := by
  have hnone : (s.slots.runs.filter (fun q => decide (q.slot ≠ r.slot))).find? (fun q => decide (q.slot = n)) = none := by
    simp [List.find?_eq_none, hslot]
  rw [State.slotRun, State.setSlotRun, List.find?_append, hnone]
  simp [hslot]

theorem State.base_setSlotRun (s : State) (r : SlotRun) (f : Fld) (sel : Nat) : (s.setSlotRun r).base f sel = s.base f sel := rfl
theorem State.baseWord_setSlotRun (s : State) (r : SlotRun) (cls sel w : Nat) : (s.setSlotRun r).baseWord cls sel w = s.baseWord cls sel w := rfl

theorem State.limitEnter_fields {s : State} (hs : s.wf) (n : Nat) :
    (s.limitEnter n).base slotInLimit n = 1 ∧ (s.limitEnter n).base slotFaultTimerRunning n = 1 ∧ (s.limitEnter n).base slotPowerGood n = 0 := by
  have hlimit := State.put_wf hs slotInLimit n 1
  have htimer := State.put_wf hlimit slotFaultTimerRunning n 1
  rw [State.limitEnter, State.base_setSlotRun, State.base_setSlotRun, State.base_setSlotRun]
  refine ⟨?_, ?_, ?_⟩
  · rw [State.base_put_apart htimer slotPowerGood slotInLimit n 0 (by decide),
      State.base_put_apart hlimit slotFaultTimerRunning slotInLimit n 1 (by decide), State.base_put_same hs slotInLimit n 1 (by decide)]
    rfl
  · rw [State.base_put_apart htimer slotPowerGood slotFaultTimerRunning n 0 (by decide),
      State.base_put_same hlimit slotFaultTimerRunning n 1 (by decide)]
    rfl
  · rw [State.base_put_same htimer slotPowerGood n 0 (by decide)]
    rfl

theorem State.limitEnter_faultDue (s : State) (n : Nat) :
    ((s.limitEnter n).slotRun n).faultDue = some (s.now + s.lim slotFaultTimerUs n * 1000) := by
  have hslot : ({ s.slotRun n with faultDue := some (s.now + s.lim slotFaultTimerUs n * 1000) } : SlotRun).slot = n := s.slotRun_slot n
  rw [State.limitEnter, State.slotRun_setSlotRun hslot]

theorem State.baseWord_put_other (s : State) (f : Fld) (v : Nat) {n cls sel w : Nat} (hkey : wkey cls sel w ≠ wkey f.cls n f.word) :
    (s.put f n v).baseWord cls sel w = s.baseWord cls sel w := State.baseWord_putWord_other s _ hkey

/-- The three fields stand in one word of the slot's image. -/
theorem State.limitEnter_baseWord_other (s : State) {n cls sel w : Nat} (hkey : wkey cls sel w ≠ wkey cSlot n slotInLimit.word) :
    (s.limitEnter n).baseWord cls sel w = s.baseWord cls sel w := by
  rw [State.limitEnter, State.baseWord_setSlotRun, State.baseWord_put_other _ slotPowerGood 0 hkey,
    State.baseWord_put_other _ slotFaultTimerRunning 1 hkey, State.baseWord_put_other s slotInLimit 1 hkey]

section
variable {s : State} (n : Nat)

theorem State.limitCleared_wf (hs : s.wf) : (s.limitCleared n).wf :=
  (State.setSlotRun_keeps ..).toSafe.wf (State.put_wf (State.put_wf hs slotInLimit n 0) slotFaultTimerRunning n 0)

theorem State.limitCleared_fields (hs : s.wf) :
    (s.limitCleared n).base slotInLimit n = 0 ∧ (s.limitCleared n).base slotFaultTimerRunning n = 0 := by
  have hlimit := State.put_wf hs slotInLimit n 0
  rw [State.limitCleared, State.base_setSlotRun, State.base_setSlotRun]
  constructor
  · rw [State.base_put_apart hlimit slotFaultTimerRunning slotInLimit n 0 (by decide), State.base_put_same hs slotInLimit n 0 (by decide)]
    rfl
  · rw [State.base_put_same hlimit slotFaultTimerRunning n 0 (by decide)]
    rfl

theorem State.limitCleared_faultDue : ((s.limitCleared n).slotRun n).faultDue = none := by
  have hslot : ({ s.slotRun n with faultDue := none } : SlotRun).slot = n := s.slotRun_slot n
  rw [State.limitCleared, State.slotRun_setSlotRun hslot]

/-- Power-good lies apart from the fields that show the limit. -/
theorem State.limitExit_fields (hs : s.wf) : (s.limitExit n).base slotInLimit n = 0 ∧ (s.limitExit n).base slotFaultTimerRunning n = 0 := by
  have hcleared := s.limitCleared_fields n hs
  rw [State.limitExit]
  split
  · rwa [State.base_put_apart (s.limitCleared_wf n hs) slotPowerGood slotInLimit n 1 (by decide),
      State.base_put_apart (s.limitCleared_wf n hs) slotPowerGood slotFaultTimerRunning n 1 (by decide)]
  · exact hcleared

theorem State.limitExit_faultDue : ((s.limitExit n).slotRun n).faultDue = none := by
  rw [State.limitExit]
  split
  · rw [State.slotRun_put, s.limitCleared_faultDue]
  · exact s.limitCleared_faultDue n

theorem State.limitExit_frame : (s.limitExit n).cm = s.cm ∧ (s.limitExit n).regs = s.regs ∧ (s.limitExit n).vers = s.vers ∧
    (s.limitExit n).tally = s.tally ∧ (s.limitExit n).faults = s.faults := by
  rw [State.limitExit]
  split <;> exact ⟨rfl, rfl, rfl, rfl, rfl⟩

end

end Sys2Proof.Machine
end

section
/-! The obligations on the protection of slots, the feeds and the measurements. -/

namespace Sys2Proof
open Machine

/-- Settles O25, one clause for each way in which a slot or a feed is switched off or on, and for the measurements. -/
theorem slotTripsFeedsAndMeasurements : Obligations.SlotTripsFeedsAndMeasurements := by
  unfold Obligations.SlotTripsFeedsAndMeasurements
  exact ⟨fun _ _ _ => execCurrentLimitEnter_reached, fun _ _ _ => execCurrentLimitExit_below, fun _ _ => execFaultTimerExpiry_due,
    fun _ _ _ => execBreakerFire_reached, fun _ _ => execRampLimitTimeout_due, fun _ _ => execInputUndervoltage_live,
    fun _ _ => execRetryCountReset_steady, fun _ _ _ _ => execFeedReverseBlock_reversed, fun _ _ _ => execFeedInputOutOfRange_outside,
    fun _ _ _ _ => execFeedConductionStart_inRange, fun _ _ _ => execMeasurementSample_powered, fun _ => execMeasurementPublish_powered⟩

/-- Settles O58, from the fields and the timer that the entry and the exit leave. -/
theorem currentLimitAndFaultTimer : Obligations.CurrentLimitAndFaultTimer := by
  unfold Obligations.CurrentLimitAndFaultTimer
  refine ⟨?enters, ?leaves, ?expires⟩
  case enters =>
    intro n ma s hs hdie hlive hbelow hreached
    obtain ⟨hlimit, htimer, hgood⟩ := State.limitEnter_fields hs n.val
    exact ⟨s.limitEnter n.val, execCurrentLimitEnter_reached hdie hlive hbelow hreached, hlimit, htimer, hgood, s.limitEnter_faultDue n.val,
      fun _ _ _ hkey => s.limitEnter_baseWord_other hkey, rfl, rfl, rfl, rfl, rfl⟩
  case leaves =>
    intro n ma s hs hdie hlimit hbelow
    obtain ⟨hinLimit, hrunning⟩ := State.limitExit_fields n.val hs
    exact ⟨s.limitExit n.val, execCurrentLimitExit_below hdie hlimit hbelow, hinLimit, hrunning,
      State.limitExit_faultDue n.val, State.limitExit_frame n.val⟩
  case expires =>
    intro n s due hdie hlive htimer hdue
    exact execFaultTimerExpiry_due hdie hlive (by simp [State.dueNow, htimer, hdue])

end Sys2Proof
end

section
/-! SUPPORT. Rolling calibration, calibration windows, the PRBS checker and margins, where their conditions hold (R294, R295, R299, R300). -/

namespace Sys2Proof.Machine

section
variable {p : PortId} {k : Fin 4} {s : State} {c : CalPass}

/-- The next stream of a link asks to move to spare `k`, which is answered within four marker intervals (R294). -/
def State.calibrationAsked (s : State) (p k : Nat) : State :=
  let r := s.steer p
  let n := streamsOf (s.linkWidth p)
  let i := r.nextStream % n
  let q := s.sendSteer p 1 i k false
  q.1.setSteer { q.1.steer p with
    nextStream := (i + 1) % n, passes := r.passes ++ [⟨k, i, .requested, q.2, s.now + 4 * s.interval p⟩] }

/-- A link that has made no pass yet may begin one at once. -/
theorem execCalibrationPassDue_first (hlink : s.fabricLink p.val) (hactive : s.ql p.val = qlActive) (hlive : s.fld qlLiveCal p.val = 1)
    (hwhole : s.tileReplaced (p.val / 18) = false) (hrunning : s.tilePaused (p.val / 18) = false) (hidle : s.spareIdle p.val k.val)
    (hreq : (s.steer p.val).req = none) (hlast : (s.steer p.val).lastPass = [])
    (hlane : s.lfld laneRxState (ownLane p.val ((s.steer p.val).nextStream % streamsOf (s.linkWidth p.val))) = 2) :
    exec (.calibrationPassDue p k) s = .next (s.calibrationAsked p.val k.val) := by
  show execCalibrationPassDue p k s = _
  simp only [execCalibrationPassDue, hlast, List.find?_nil]
  exact (if_neg (by simp [hlink, hactive, hlive, hwhole, hrunning, hidle, hreq])).trans (if_neg (not_not_intro hlane))

theorem execCalibrationRequestTimeout_due (hrun : s.running)
    (hpass : (s.steer p.val).passes.find? (fun c => decide (c.spare = k.val) && c.stage = .requested) = some c) (hdue : c.due ≤ s.now) :
    exec (.calibrationRequestTimeout p k) s = .next (
      let r := s.steer p.val
      (s.setSteer { r with
        passes := r.passes.filter (fun d => decide (d ≠ c))
        req := match r.req with | some q => if q.tag = c.tag then none else some q | none => none }).laneCount
          (ownLane p.val c.lane) 3 1) := by
  show execCalibrationRequestTimeout p k s = _
  simp only [execCalibrationRequestTimeout, hpass]
  exact if_neg (by simp [hrun, hdue])

/-- A calibrated stream goes back from its spare (R294). -/
def State.streamReturns (s : State) (p k : Nat) (c : CalPass) : State :=
  let q := s.sendSteer p 2 c.lane k false
  q.1.setSteer { q.1.steer p with
    passes := (s.steer p).passes.map (fun d => if d = c then { d with stage := .returning, tag := q.2 } else d) }

/-- A stream whose own lane has too small margins stays on its spare, and the lane has failed (R294). -/
def State.streamStays (s : State) (p k : Nat) (c : CalPass) : State :=
  let r := s.steer p
  let l := ownLane p c.lane
  let s2 := ((s.lput laneRxState l 5).lput laneCalFailures l (min 65535 (s.lfld laneCalFailures l + 1))).setSteer { r with
    passes := r.passes.filter (fun d => decide (d ≠ c)), lastPass := tput 0 r.lastPass k s.now }
  (s2.replacedRecord p l).abandonTile (tileOf l)

theorem execCalibrationEnd_calibrating {h v : Nat} (hrun : s.running)
    (hpass : (s.steer p.val).passes.find? (fun c => decide (c.spare = k.val) && c.stage = .calibrating) = some c) :
    exec (.calibrationEnd p k h v) s
      = .next (if 150 ≤ h ∧ 8 ≤ v then s.streamReturns p.val k.val c else s.streamStays p.val k.val c) := by
  show execCalibrationEnd p k h v s = _
  simp only [execCalibrationEnd, hpass]
  refine (if_neg (by simp [hrun])).trans ?_
  exact (apply_ite Host.Outcome.next ..).symm

end

/-! ### Windows (R295) -/

section
variable {p : PortId} {s : State}

/-- A port's window has opened since the last one that was counted. -/
def State.windowOpens (s : State) (p : Nat) : Prop :=
  s.running ∧ s.lane0 p = p ∧ s.fld qlCalWindows p ≠ 0 ∧ s.windowSeen p < s.windowIndex p

theorem execCalibrationWindow_fabric (hopens : s.windowOpens p.val) (hrole : s.role p.val = roleFabric) (hneeds : s.needsWindow p.val)
    (hactive : s.ql p.val = qlActive) (hwanted : (s.qlp p.val).wanted = none) :
    exec (.calibrationWindow p) s = .next (
      let s1 := s.windowTaken p.val
      s1.setQlp { s1.qlp p.val with wanted := some (s.fld qlActiveRate p.val, s.fld qlActiveWidth p.val), byWindow := true }) := by
  obtain ⟨hrun, hlane, hwindows, hnew⟩ := hopens
  have hon : roleFabric ≠ roleOff := by decide
  show execCalibrationWindow p s = _
  refine (if_neg (by simp [hrun, hlane, hrole, hon, hwindows, hnew])).trans ((if_pos hrole).trans ?_)
  exact (if_neg (by simp [hneeds])).trans (if_neg (by simp [hactive, hwanted]))

/-- An edge link makes its window by a retrain in L0, and skips it in every other state (log entry 80). -/
theorem execCalibrationWindow_edge (hopens : s.windowOpens p.val) (hrole : s.role p.val = roleHost ∨ s.role p.val = roleDevice) :
    exec (.calibrationWindow p) s = .next (
      if s.fld portLinkState p.val = 3 then
        ((((s.windowTaken p.val).addSat portRetrainCount p.val 1).portCount p.val 128 1).addSat qlWindowsRun p.val 1).calPassed
          ((s.streams p.val).map (ownLane p.val))
      else (s.windowTaken p.val).windowSkipped p.val) := by
  obtain ⟨hrun, hlane, hwindows, hnew⟩ := hopens
  have hedge : s.role p.val ≠ roleOff ∧ s.role p.val ≠ roleFabric := by
    obtain hrole | hrole := hrole <;> rw [hrole] <;> decide
  show execCalibrationWindow p s = _
  refine (if_neg (by simp [hrun, hlane, hedge.1, hwindows, hnew])).trans ((if_neg hedge.2).trans ?_)
  exact (apply_ite Host.Outcome.next ..).symm

end

/-! ### Tests and measurements (R299, R300) -/

section
variable {l : LaneId} {s : State}

theorem execPrbsCheckLock_checking {symbols : List PamLevel} (hrun : s.running) (hsymbols : symbols ≠ []) (hrx : s.lfld laneRxState l.val = 4)
    (hpattern : s.lfld laneCheckPattern l.val ≠ 0) (hnoLoop : s.lfld laneTxState l.val ≠ 4 ∨ s.lfld laneLoop l.val ≠ 3) :
    exec (.prbsCheckLock ⟨l, symbols⟩) s = .next (s.checkBitsIn l.val (s.lfld laneCheckPattern l.val) (symbols.flatMap pamBits)) := by
  have hloop : ¬((decide (s.lfld laneTxState l.val = 4) && decide (s.lfld laneLoop l.val = 3)) = true) := by
    simpa [imp_iff_not_or] using hnoLoop
  show execPrbsCheckLock ⟨l, symbols⟩ s = _
  simp only [execPrbsCheckLock, if_neg hloop]
  exact congrArg _ ((if_neg (by simp [hrun, hsymbols])).trans (if_pos (by simp [hrx, hpattern])))

theorem execMarginDone_measuring {a b : BitVec 16} {c d : BitVec 8} (hrun : s.running) (hmeasuring : (s.laneRun l.val).measuring) :
    exec (.marginDone l a b c d) s = .next (
      let s1 := (((s.lput laneMarginLeft l.val a.toNat).lput laneMarginRight l.val b.toNat).lput laneMarginUp l.val c.toNat).lput
        laneMarginDown l.val d.toNat
      (s1.lput laneMarginDone l.val 1).setLaneRun { s1.laneRun l.val with measuring := false }) := by
  show execMarginDone l a b c d s = _
  exact if_pos (by simp [hrun, hmeasuring])

end

end Sys2Proof.Machine
end

section
/-! The obligation on the calibration and the measurement of lanes. -/

namespace Sys2Proof
open Machine

/-- Settles O29: a calibration and an edge link's window each have one rule, whose branches are their clauses. -/
theorem lanesCalibrateAndMeasure : Obligations.LanesCalibrateAndMeasure := by
  unfold Obligations.LanesCalibrateAndMeasure
  refine ⟨fun _ _ _ => execCalibrationPassDue_first, fun _ _ _ _ => execCalibrationRequestTimeout_due, ?returns, ?stays, ?fabricWindow,
    ?edgeWindow, ?edgeSkips, fun _ _ _ => execPrbsCheckLock_checking, fun _ _ _ _ _ _ => execMarginDone_measuring⟩
  case returns =>
    intro p k h v s c hrun hpass hwide hhigh
    rw [execCalibrationEnd_calibrating hrun hpass, if_pos ⟨hwide, hhigh⟩, State.streamReturns]
  case stays =>
    intro p k h v s c hrun hpass hsmall
    rw [execCalibrationEnd_calibrating hrun hpass, if_neg (by omega), State.streamStays]
  case fabricWindow =>
    intro p s hrun hlane hrole hwindows hnew hneeds hactive hwanted
    exact execCalibrationWindow_fabric ⟨hrun, hlane, hwindows, hnew⟩ hrole hneeds hactive hwanted
  case edgeWindow =>
    intro p s hrun hlane hrole hwindows hnew hstate
    rw [execCalibrationWindow_edge ⟨hrun, hlane, hwindows, hnew⟩ hrole, if_pos hstate]
  case edgeSkips =>
    intro p s hrun hlane hrole hwindows hnew hstate
    rw [execCalibrationWindow_edge ⟨hrun, hlane, hwindows, hnew⟩ hrole, if_neg hstate]

end Sys2Proof
end

section
/-! SUPPORT. The ways into and out of a reset, and the clock inputs (R335, R342, R343, R406). -/

namespace Sys2Proof.Machine

theorem State.powered_of_running {s : State} (hrun : s.running) : s.power.phase ≠ .off ∧ s.power.phase ≠ .latched := by
  constructor <;> intro hphase <;> simp [State.running, hphase] at hrun

/-! ### Clock inputs (R335) -/

section
variable {i : Fin 11} {s : State}

/-- A clock input is marked as lost. -/
def State.clockLost (s : State) (i : Nat) : State := { s with power := { s.power with lost := s.power.lost ++ [i] } }

theorem execClockInputLoss_sysclk (hon : s.power.phase ≠ .off) (hunlatched : s.power.phase ≠ .latched)
    (hnew : s.power.lost.contains i.val = false) (hi : i.val = 0) : exec (.clockInputLoss i) s = .next (s.clockLost i.val).halt := by
  show execClockInputLoss i s = _
  exact (if_neg (by rw [hnew]; simp [hon, hunlatched])).trans (if_pos hi)

theorem execClockInputLoss_refclk (hrun : s.running) (hnew : s.power.lost.contains i.val = false) (hlow : 1 ≤ i.val) (hhigh : i.val ≤ 8) :
    exec (.clockInputLoss i) s = .next (
      ((s.portsOfTile (i.val - 1)).foldl (fun (s : State) p => s.clockDown p) (s.clockLost i.val)).raise
        { grade := 3, checker := checkerId 0x12 i.val, cls := 0, sel := 0, syn0 := 0, syn1 := 1000, action := 9, key := 0 }) := by
  obtain ⟨hon, hunlatched⟩ := State.powered_of_running hrun
  show execClockInputLoss i s = _
  refine (if_neg (by rw [hnew]; simp [hon, hunlatched])).trans ((if_neg (by omega)).trans ((if_neg (by omega)).trans ?_))
  exact congrArg _ (if_pos hrun)

/-- The reference of the tide source is gone, and with it the source. -/
theorem execClockInputLoss_tideRef (hrun : s.running) (hnew : s.power.lost.contains i.val = false) (htide : 9 ≤ i.val)
    (hsource : s.fld tideSource 0 = 1) : exec (.clockInputLoss i) s = .next s.tideLost := by
  obtain ⟨hon, hunlatched⟩ := State.powered_of_running hrun
  show execClockInputLoss i s = _
  refine (if_neg (by rw [hnew]; simp [hon, hunlatched])).trans ((if_neg (by omega)).trans ((if_pos htide).trans ?_))
  exact congrArg _ (if_pos (by simp [hrun, hsource]))

theorem execRefclkReturn_lost {t : Fin 8} (hlost : s.power.lost.contains (t.val + 1)) :
    exec (.refclkReturn t) s = .next (
      (s.portsOfTile t.val).foldl (fun (s : State) p => if s.portEnabled p then s.portBringUp p else s)
        { s with power := { s.power with lost := s.power.lost.filter (fun x => decide (x ≠ t.val + 1)) } }) := by
  show execRefclkReturn t s = _
  exact if_pos hlost

end

/-! ### Resets and power (R342, R406) -/

section
variable {s : State}

theorem execDevRstNRise_held (hheld : s.power.phase = .held) (hlow : s.power.devRstN = false) :
    exec .devRstNRise s = .next { s with power := { s.power with devRstN := true, phase := .starting } } := by
  show execDevRstNRise s = _
  exact (if_neg (Bool.eq_false_iff.1 hlow)).trans (congrArg _ (if_pos hheld))

theorem execPwrOkFall_powered (hon : s.power.phase ≠ .off) : exec .pwrOkFall s = .next
    (((if s.power.phase = .ready then s.emit (.pin .devReady false) else s).slotsOff allSlots).unpowered) := by
  show execPwrOkFall s = _
  exact if_neg hon

end

/-! ### Start-up (R343) -/

section
variable {r : StartResult} {s : State}

theorem execManagementPathReady_badFuses (hstarting : s.power.phase = .starting) (hfuses : r.fuseOk = false) :
    exec (.managementPathReady r) s = .next (s.raise
      { grade := 5, checker := checkerId 0x14 0, cls := 0, sel := 0, syn0 := 0, syn1 := 0, action := 13, key := 0 }) := by
  show execManagementPathReady r s = _
  exact (if_neg (by simp [hstarting, hfuses])).trans (if_pos (by simp [hfuses]))

/-- The dies are measured and SDRAM runs; the management path may take programs (R343). -/
def State.managedFrom (s1 : State) : State :=
  { s1 with
    sdram := { s1.sdram with selfRefresh := false }
    power := { s1.power with phase := .managed }
    core := { s1.core with epoch := s1.tide / 1024, sampledEpoch := s1.tide / 1024 } }

/-- With good fuses start-up ends with the Reset entry, or at Grade 4 with fewer than four trained channels. -/
theorem execManagementPathReady_goodFuses {s2 : State} (hstarting : s.power.phase = .starting) (hfuses : r.fuseOk) (hlog : s.logReady)
    (hsysclk : s.power.lost.contains 0 = false) (hs2 : s2 = ((if s.power.warm then s else s.coldFinds r).measureDies r.dies).managedFrom) :
    exec (.managementPathReady r) s = .next (
      if s2.sdram.trained.length < 4 then s2.raise
        { grade := 4, checker := checkerId 0x0D 0, cls := 0, sel := 0, syn0 := s2.sdram.trained.length, syn1 := 4, action := 12, key := 0 }
      else s2.logEntry (ownEntryIn 3 s.power.cause 0)) := by
  subst hs2
  show execManagementPathReady r s = _
  refine (if_neg (by simp [hstarting, hlog])).trans ((if_neg (by simp [hfuses])).trans ?_)
  simp only [hsysclk, Bool.false_eq_true, if_false]
  exact (apply_ite Host.Outcome.next ..).symm

end

end Sys2Proof.Machine
end

section
/-! The obligation on power, resets, start-up and the clock inputs. -/

namespace Sys2Proof
open Machine

/-- Settles O23, one clause for each clock input, for each way into and out of a reset, and for each end of start-up. -/
theorem resetsAndClockInputs : Obligations.ResetsAndClockInputs := by
  unfold Obligations.ResetsAndClockInputs
  refine ⟨fun _ _ => execClockInputLoss_sysclk, fun _ _ => execClockInputLoss_refclk, fun _ _ => execClockInputLoss_tideRef,
    fun _ _ => execRefclkReturn_lost, fun _ => execDeviceReset_requested, fun _ => execDeviceReset_pin, fun _ _ => execHaltRestartTimeout_due,
    fun _ => execDevRstNRise_held, fun x _ hoff => execColdReset_off hoff x, fun _ => execPwrOkFall_powered,
    fun _ _ => execManagementPathReady_badFuses, ?startsUp⟩
  rintro r s s1 s2 hstarting hfuses hlog hsysclk rfl hs2
  rw [execManagementPathReady_goodFuses hstarting hfuses hlog hsysclk hs2]
  exact ⟨fun hmany => by rw [if_neg (Nat.not_lt.2 hmany)], fun hfew => by rw [if_pos hfew]⟩

end Sys2Proof
end

section
/-! SUPPORT. PERST_N, and how host and device links come up, leave L1, change their width and fall (R306, R314, R315, R323). -/

namespace Sys2Proof.Machine

section
variable {p : PortId} {s : State}

theorem execPerstNChange_rise (hlow : s.power.perstN = false) :
    exec (.perstNChange true) s = .next ({ s with power := { s.power with perstN := true } } : State).showHosts := by
  show execPerstNChange true s = _
  exact (if_neg (by simp [hlow])).trans (congrArg _ (if_pos rfl))

theorem execPerstNChange_fall (hhigh : s.power.perstN = true) : exec (.perstNChange false) s
    = .next (({ s with power := { s.power with perstN := false } } : State).showHosts.hostsDown allPorts) := by
  show execPerstNChange false s = _
  exact (if_neg (by simp [hhigh])).trans (congrArg _ (if_neg Bool.false_ne_true))

theorem execHostPortDetect_named (hrole : s.role p.val = roleHost) (hlane : s.lane0 p.val = p.val) (hmay : s.hostMayDetect p.val)
    (hquiet : s.fld portLinkState p.val = 0) : exec (.hostPortDetect p) s = .next (s.edgeDetect p.val) := by
  show execHostPortDetect p s = _
  exact congrArg _ (if_pos (by simp [hrole, hlane, hmay, hquiet]))

/-! ### Links that reach L0 (R315, R324) -/

section
variable {rate width : Nat} {flit cxl : Bool}

/-- The status of a link in L0, out of a containment of its port (R315). -/
def State.linkInL0 (s : State) (p rate width : Nat) (flit cxl : Bool) : State := (s.showL0 p rate width flit cxl).linkReturned p

theorem execLinkUpL0_device (hmay : s.mayReachL0 p.val) (hsettles : s.settles p.val rate width flit cxl) (hrole : s.role p.val = roleDevice) :
    exec (.linkUpL0 p rate width flit cxl) s = .next (
      let s1 := s.linkInL0 p.val rate width flit cxl
      (s1.fnsBelow p.val).foldl (fun s f => s.tellViews f (.dll true)) s1) := by
  show execLinkUpL0 p rate width flit cxl s = _
  exact (if_neg (by simp [hmay, hsettles])).trans (if_pos hrole)

/-- A host link that comes out of L2 brings a reset of its view with it (R324). -/
theorem execLinkUpL0_host {v : Nat} (hmay : s.mayReachL0 p.val) (hsettles : s.settles p.val rate width flit cxl) (hrole : s.role p.val ≠ roleDevice)
    (hview : s.viewOfPort p.val = some v) :
    exec (.linkUpL0 p rate width flit cxl) s = .next (
      if h : v < 96 then
        if s.pcie.inL2.contains v then (s.linkInL0 p.val rate width flit cxl).viewReset ⟨v, h⟩ p.val false
        else s.linkInL0 p.val rate width flit cxl
      else s.linkInL0 p.val rate width flit cxl) := by
  show execLinkUpL0 p rate width flit cxl s = _
  refine (if_neg (by simp [hmay, hsettles])).trans ((if_neg hrole).trans ?_)
  simp only [hview]
  rfl

end

/-! ### Power states and width (R323) -/

theorem execL1Exit_inL1 (hrun : s.running) (hlane : s.lane0 p.val = p.val) (hrole : s.role p.val = roleHost ∨ s.role p.val = roleDevice)
    (hstate : s.fld portLinkState p.val = 6) : exec (.l1Exit p) s = .next (
      ((((s.put portLinkState p.val 5).put portL1Sub p.val 0).addSat portRetrainCount p.val 1).dropGrants (s.edgeLanes p.val)).askGrants
        (s.edgeLanes p.val)) := by
  show execL1Exit p s = _
  exact congrArg _ (if_pos (by simp [hrun, hlane, hrole, hstate]))

/-- An edge link in L0 or L0p takes the step toward the width that L0p wishes for: down at once, up where each lane has its grant. -/
theorem execL0pWidthChange_inL0 {util wish : Nat} (hrun : s.running) (hlane : s.lane0 p.val = p.val)
    (hrole : s.role p.val = roleHost ∨ s.role p.val = roleDevice) (hstate : s.fld portLinkState p.val = 3 ∨ s.fld portLinkState p.val = 4)
    (hwish : wish = s.l0pWish p.val (s.fld portNegWidth p.val) util) :
    exec (.l0pWidthChange p util) s = .next (
      if wish < s.fld portNegWidth p.val then
        ((s.put portNegWidth p.val wish).put portLinkState p.val 4).dropGrants
          ((s.lanesOfWidth p.val (s.fld portNegWidth p.val)).drop (streamsOf wish))
      else if s.fld portNegWidth p.val < wish ∧ s.fld portNegWidth p.val < tget 0 s.pcie.trainedWidth p.val then
        if (s.lanesOfWidth p.val wish).all (fun x => (s.laneRun x).granted) then
          (s.put portNegWidth p.val wish).put portLinkState p.val (if wish = tget 0 s.pcie.trainedWidth p.val then 3 else 4)
        else s.askGrants (s.lanesOfWidth p.val wish)
      else s) := by
  subst hwish
  show execL0pWidthChange p util s = _
  exact congrArg _ (if_neg (by simpa [hrun, hlane] using ⟨or_iff_not_imp_left.1 hrole, or_iff_not_imp_left.1 hstate⟩))

theorem execHostLinkDownViewReset_standing (hrun : s.running) (hrole : s.role p.val = roleHost) (hlane : s.lane0 p.val = p.val)
    (hstands : s.edgeStands p.val) : exec (.hostLinkDownViewReset p) s = .next (s.hostLinkDown p.val 0) := by
  show execHostLinkDownViewReset p s = _
  exact congrArg _ (if_pos (by simp [hrun, hrole, hlane, hstands]))

end

end Sys2Proof.Machine
end

section
/-! SUPPORT. Resets within a view, its power management and its containments (R313, R314, R316, R324). -/

namespace Sys2Proof.Machine

section
variable {v : ViewId} {s : State}

theorem execFunctionLevelReset_existing {f : ViewFn} (hlive : s.viewLive v.val) (hexists : s.fnExists v.val f) (hfn : f ≠ .upstream) :
    exec (.functionLevelReset v f) s = .next (
      let s1 := s.fnReset v f
      { s1 with pcie := { s1.pcie with
        resets := s1.pcie.resets.filter (fun r => !(decide (r.view = v.val) && decide (r.fn = f))) ++ [⟨v.val, f, s.now + 2000000⟩] } }) := by
  show execFunctionLevelReset v f s = _
  exact if_pos (by simp [hlive, hexists, hfn])

theorem execFlrEnd_resetting {f : ViewFn} (hresetting : s.fnResetting v.val f) :
    exec (.flrEnd v f) s = .next { s with pcie := { s.pcie with
      resets := s.pcie.resets.filter (fun r => !(decide (r.view = v.val) && decide (r.fn = f))) } } := by
  show execFlrEnd v f s = _
  exact congrArg _ (if_pos hresetting)

theorem execSecondaryBusReset_bound {k : Fin 256} {e : Nat × Nat} (hlive : s.viewLive v.val) (hbound : s.vportBinding v.val k.val = some e) :
    exec (.secondaryBusReset v k) s = .next (s.bindingReset v.val e.1 e.2) := by
  show execSecondaryBusReset v k s = _
  rw [execSecondaryBusReset, hbound]
  exact congrArg _ (if_pos hlive)

/-- PME_TO_Ack goes out behind the drained stores, and the host link is in L2 (R324; log entry 82). -/
def State.turnedOff (s : State) (v : ViewId) : State :=
  let s1 := (s.drainBuffer v).emit (.pmeToAck v.val)
  let s2 := (s1.put portLinkState (s.portOfView v.val) 7).put portDllActive (s.portOfView v.val) 0
  { s2 with pcie := { s2.pcie with inL2 := s2.pcie.inL2.filter (fun w => decide (w ≠ v.val)) ++ [v.val] } }

theorem execPmeTurnOff_live (hlive : s.viewLive v.val) : exec (.pmeTurnOff v) s = .next (s.turnedOff v) := by
  show execPmeTurnOff v s = _
  exact if_pos hlive

/-! ### DPC (R316) -/

section
variable {k : Fin 256}

/-- What is bound behind a virtual port is contained under a Grade 1 record, its entries closed and its posted writes discarded (R316). -/
def State.dpcContained (s : State) (v : ViewId) (k : Fin 256) (ur : Bool) (e : Nat × Nat) : State :=
  let ld := bLd (s.bindW e.1 e.2)
  let t := dpcTarget e.1 ld
  let r := s.record { grade := 1, checker := checkerId 0x16 (s.dpcPort v.val e.1), cls := cFunction, sel := e.1, syn0 := k.val
                      syn1 := v.val, action := 2, key := 8 }
  let own := !r.1.faults.contained.contains (r.2.1, t)
  let s1 := (r.1.contain r.2.1 t).closeReqs (if ur then .unsupportedRequest else .completerAbort) (s.dpcReqs v.val e.1 ld)
  let s2 := s1.discardAll (s1.cms.tracked.filter
    (fun (x : Tracked) => x.goesTo (if isHome e.1 then s.fabricId else e.1 / 65536) (e.1 % 65536) ld))
  { s2 with pcie := { s2.pcie with dpcs := s2.pcie.dpcs ++ [⟨v.val, k.val, if own then r.2.1 else 0, e.1, e.2⟩] } }

theorem execDpcTrigger_bound {ur : Bool} {e : Nat × Nat} (hlive : s.viewLive v.val) (hbound : s.vportBinding v.val k.val = some e)
    (hfree : s.inDpc v.val k.val = false) :
    exec (.dpcTrigger v k ur) s = .next ((s.dpcContained v k ur e).slotEvent v.val k.val (.dll false)) := by
  show execDpcTrigger v k ur s = _
  rw [execDpcTrigger, hbound]
  exact if_neg (by simp [hlive, hfree])

/-- What a DPC contained is reset, its record closed, and its own containment gone (R316). -/
def State.dpcLifted (s : State) (v : ViewId) (d : Dpc) : State :=
  let s1 := s.bindingReset v.val d.sel d.word
  let s2 := s1.uncontain (fun c => decide (c.1 = d.recId) && decide (c.2 = dpcTarget d.sel (bLd (s.bindW d.sel d.word))))
  { s2 with
    faults := { s2.faults with recs := closeRec d.recId s2.faults.recs }
    pcie := { s2.pcie with dpcs := s2.pcie.dpcs.filter (fun x => decide (x ≠ d)) } }

theorem execDpcRelease_contained {d : Dpc} (hlive : s.viewLive v.val)
    (hdpc : s.pcie.dpcs.find? (fun d => decide (d.view = v.val) && decide (d.k = k.val)) = some d) :
    exec (.dpcRelease v k) s = .next (
      if (s.dpcLifted v d).dllOf d.sel then (s.dpcLifted v d).notify.slotEvent v.val k.val (.dll true) else (s.dpcLifted v d).notify) := by
  show execDpcRelease v k s = _
  rw [execDpcRelease, hdpc]
  exact if_neg (by simp [hlive])

end

end

end Sys2Proof.Machine
end

section
/-! SUPPORT. Which answer a request within a view gets: configuration, unsupported requests, TIDE_NOW and MCTP (R307, R311, R317, R318). -/

namespace Sys2Proof.Machine

section
variable {v : ViewId} {s : State}

/-- Unsupported Request, where no function answers a configuration request (R307). -/
def State.cfgUnanswered (s : State) (v : ViewId) (c : CfgReq) : State := s.hostReply v.val c.tag .config .unsupportedRequest []

section
variable {c : CfgReq}

theorem execConfigRequest_routing {off : Nat} (hlive : s.viewLive v.val) (htarget : c.target = .routing off) :
    exec (.configRequest v c) s = .next (match fnAt off with
      | some f => if s.fnExists v.val f then s.cfgOwn v (fnKey f) (cfgIdent f) c else s.cfgUnanswered v c
      | none => s.cfgUnanswered v c) := by
  show execConfigRequest v c s = _
  rw [execConfigRequest, htarget]
  exact if_neg (by simp [hlive])

theorem execConfigRequest_secondary {dev fn : Nat} (hlive : s.viewLive v.val) (htarget : c.target = .secondary dev fn) :
    exec (.configRequest v c) s
      = .next (if dev < 32 ∧ fn < 8 then s.cfgVport v (dev * 8 + fn + 1) c (s.cfgUnanswered v c) else s.cfgUnanswered v c) := by
  show execConfigRequest v c s = _
  rw [execConfigRequest, htarget]
  exact if_neg (by simp [hlive])

theorem execConfigRequest_bound {k : Nat} (hlive : s.viewLive v.val) (htarget : c.target = .bound k) :
    exec (.configRequest v c) s = .next (match s.vportBinding v.val k with
      | none => s.cfgUnanswered v c
      | some e => s.cfgBound v k e c) := by
  show execConfigRequest v c s = _
  rw [execConfigRequest, htarget]
  exact if_neg (by simp [hlive])

theorem execConfigRequest_unanswered (hlive : s.viewLive v.val)
    (hnone : (∃ off, c.target = .routing off ∧ (∀ f, fnAt off = some f → s.fnExists v.val f = false)) ∨
      (∃ dev fn, c.target = .secondary dev fn ∧ (32 ≤ dev ∨ 8 ≤ fn)) ∨ (∃ k, c.target = .bound k ∧ s.vportBinding v.val k = none)) :
    exec (.configRequest v c) s = .next (s.cfgUnanswered v c) := by
  obtain ⟨off, htarget, habsent⟩ | ⟨dev, fn, htarget, hbeyond⟩ | ⟨k, htarget, hunbound⟩ := hnone
  · rw [execConfigRequest_routing hlive htarget]
    cases hfn : fnAt off with
    | none => rfl
    | some f => exact congrArg _ (if_neg (Bool.eq_false_iff.1 (habsent f hfn)))
  · rw [execConfigRequest_secondary hlive htarget, if_neg (by omega)]
  · rw [execConfigRequest_bound hlive htarget, hunbound]

end

/-! ### Requests that nothing serves (R317) -/

section
variable {r : UrReq}

theorem execUnsupportedRequest_completed (hlive : s.viewLive v.val) (hwants : urWantsCpl r) : exec (.unsupportedRequest v r) s
    = .next (s.hostReply v.val r.tag (if r.kind = .ioRequest then .io else .memRead) .unsupportedRequest []) := by
  show execUnsupportedRequest v r s = _
  exact congrArg _ ((if_neg (by simp [hlive])).trans (if_pos hwants))

theorem execUnsupportedRequest_silent (hlive : s.viewLive v.val) (hsilent : urWantsCpl r = false) :
    exec (.unsupportedRequest v r) s = .next (if r.kind = .vdmType1 then s else s.emit (.aer v.val 0 .unsupportedRequest)) := by
  show execUnsupportedRequest v r s = _
  refine congrArg _ ((if_neg (by simp [hlive])).trans ((if_neg (Bool.eq_false_iff.1 hsilent)).trans ?_))
  cases r.kind <;> rfl

end

/-! ### TIDE_NOW (R311) -/

section
variable {tag : Nat}

theorem execTideNowRead_whole (hlive : s.viewLive v.val) :
    exec (.tideNowRead v false 8 tag) s = .next (s.hostReply v.val tag .memRead .success (leBytes 8 s.tide)) := by
  show execTideNowRead v false 8 tag s = _
  exact (if_neg (by simp [hlive])).trans (if_pos ⟨rfl, rfl⟩)

theorem execTideNowRead_lower (hlive : s.viewLive v.val) :
    exec (.tideNowRead v false 4 tag) s = .next (({ s with pcie := { s.pcie with
      tideLatch := tput 0 s.pcie.tideLatch v.val (s.tide / 4294967296 % 4294967296) } } : State).hostReply v.val tag .memRead .success
        (leBytes 4 s.tide)) := by
  show execTideNowRead v false 4 tag s = _
  exact (if_neg (by simp [hlive])).trans ((if_neg (by decide)).trans (if_pos ⟨rfl, rfl⟩))

theorem execTideNowRead_upper (hlive : s.viewLive v.val) : exec (.tideNowRead v true 4 tag) s
    = .next (s.hostReply v.val tag .memRead .success (leBytes 4 (tget 0 s.pcie.tideLatch v.val))) := by
  show execTideNowRead v true 4 tag s = _
  exact (if_neg (by simp [hlive])).trans ((if_neg (by decide)).trans ((if_neg (by decide)).trans (if_pos rfl)))

end

/-! ### MCTP (R318) -/

section
variable {m : MctpIn}

theorem execMctpMessage_ungranted (hvia : m.viaView = some v) (hlive : s.viewLive v.val) (hpower : s.power.phase ≠ .off)
    (hungranted : s.fmGranted v.val = false) :
    exec (.mctpMessage m) s = .next { s with pcie := { s.pcie with mctpDropped := s.pcie.mctpDropped + 1 } } := by
  show execMctpMessage m s = _
  simp [execMctpMessage, hvia, hlive, hpower, hungranted]

theorem execMctpMessage_port (hvia : m.viaView = none) (hrun : s.running) (hcontrol : m.control = false) (htype : m.msgType = 0x7E)
    (hvendor : m.vendor = 0x1D4E) :
    exec (.mctpMessage m) s = .next { s with tally := { s.tally with mgmtQ := s.tally.mgmtQ ++ [⟨none, m.desc, m.code⟩] } } := by
  obtain ⟨hpower, -⟩ := State.powered_of_running hrun
  show execMctpMessage m s = _
  simp [execMctpMessage, hvia, hpower, hcontrol, htype, hvendor, hrun]

end

end

end Sys2Proof.Machine
end

section
/-! The obligations on host links, on the functions of a view, and on the requests that it answers. -/

namespace Sys2Proof
open Machine

/-- Settles O17: a host link in L0 and the width of an edge link each have one rule, whose branches are their clauses. -/
theorem hostLinksTrainAndFall : Obligations.HostLinksTrainAndFall := by
  unfold Obligations.HostLinksTrainAndFall
  refine ⟨fun _ => execPerstNChange_rise, fun _ => execPerstNChange_fall, fun _ _ => execHostPortDetect_named,
    fun _ _ _ _ _ _ => execLinkUpL0_device, ?host, ?hostFromL2, fun _ _ => execL1Exit_inL1, ?narrows, ?widens, ?asks,
    fun _ _ => execHostLinkDownViewReset_standing⟩
  case host =>
    intro p rate width flit cxl s v hmay hsettles hrole hview hstays
    rw [execLinkUpL0_host hmay hsettles hrole hview, hstays]
    simp [State.linkInL0]
  case hostFromL2 =>
    intro p rate width flit cxl s v h hmay hsettles hrole hview hreturns
    rw [execLinkUpL0_host hmay hsettles hrole hview, dif_pos h, if_pos hreturns, State.linkInL0]
  case narrows =>
    intro p util wish s hrun hlane hrole hstate hwish hless
    rw [execL0pWidthChange_inL0 hrun hlane hrole hstate hwish, if_pos hless]
  case widens =>
    intro p util wish s hrun hlane hrole hstate hwish hmore hroom hgranted
    rw [execL0pWidthChange_inL0 hrun hlane hrole hstate hwish, if_neg hmore.le.not_gt, if_pos ⟨hmore, hroom⟩, if_pos hgranted]
  case asks =>
    intro p util wish s hrun hlane hrole hstate hwish hmore hroom hungranted
    rw [execL0pWidthChange_inL0 hrun hlane hrole hstate hwish, if_neg hmore.le.not_gt, if_pos ⟨hmore, hroom⟩,
      if_neg (Bool.eq_false_iff.1 hungranted)]

/-- Settles O18, one clause for each reset, for PME_Turn_Off, and for each way in and out of DPC. -/
theorem viewFunctionsReset : Obligations.ViewFunctionsReset := by
  unfold Obligations.ViewFunctionsReset
  refine ⟨fun _ _ _ => execFunctionLevelReset_existing, fun _ _ _ => execFlrEnd_resetting, fun _ _ _ _ => execSecondaryBusReset_bound,
    fun _ _ => execPmeTurnOff_live, fun _ _ _ _ _ => execDpcTrigger_bound, ?released⟩
  rintro v k s _ _ s3 d hlive hdpc rfl rfl hs3
  obtain rfl : s3 = s.dpcLifted v d := hs3
  rw [execDpcRelease_contained hlive hdpc]
  exact ⟨fun hup => by rw [if_pos hup], fun hdown => by rw [if_neg (Bool.eq_false_iff.1 hdown)]⟩

/-- Settles O19, one clause for each request and for the function, the queue or the latch that serves it. -/
theorem viewRequestsAnswered : Obligations.ViewRequestsAnswered := by
  unfold Obligations.ViewRequestsAnswered
  refine ⟨?own, ?vport, ?bound, fun _ _ _ => execConfigRequest_unanswered, fun _ _ _ => execUnsupportedRequest_completed, ?recorded, ?vendor,
    fun _ _ _ => execTideNowRead_whole, fun _ _ _ => execTideNowRead_lower, fun _ _ _ => execTideNowRead_upper,
    fun _ _ _ => execMctpMessage_ungranted, fun _ _ => execMctpMessage_port⟩
  case own =>
    intro v c s off f hlive htarget hfn hexists
    rw [execConfigRequest_routing hlive htarget, hfn]
    exact congrArg _ (if_pos hexists)
  case vport =>
    intro v c s dev fn hlive htarget hdev hfn
    rw [execConfigRequest_secondary hlive htarget, if_pos ⟨hdev, hfn⟩, State.cfgUnanswered]
  case bound =>
    intro v c s k e hlive htarget hbound
    rw [execConfigRequest_bound hlive htarget, hbound]
  case recorded =>
    intro v r s hlive hsilent hother
    rw [execUnsupportedRequest_silent hlive hsilent, if_neg hother]
  case vendor =>
    intro v r s hlive hvendor
    have hsilent : urWantsCpl r = false := by rw [urWantsCpl, hvendor]
    rw [execUnsupportedRequest_silent hlive hsilent, if_pos hvendor]

end Sys2Proof
end
